-- ==== Sys2Proof/Word.lean ====
section
/-! DEFINITION. The words of the Tulmar TD-410: the fixed widths the manual gives its numbers, and the
numbers of its slots, regions, ports and profiles. -/

namespace Sys2Proof

/-- One character of a station line, one byte of a link unit or of the frame store. -/
abbrev Byte := BitVec 8

/-- A plate key, 0..65535 (R2). -/
abbrev PlateKey := BitVec 16

/-- A lamp monitor reading, 0..65535 (R121). -/
abbrev Reading := BitVec 16

/-- A camera code, 0..4095 (scope, Conventions). -/
abbrev CameraCode := BitVec 12

/-- A density code, 0..65535 (R80). -/
abbrev DensityCode := BitVec 16

/-- The seconds clock, 0..4,294,967,295 (R132). -/
abbrev Seconds := BitVec 32

/-- A slot number, 0..6 (R139). -/
abbrev SlotNo := Fin 7

/-- A region number, 0..7 (R136). -/
abbrev RegionNo := Fin 8

/-- A station port number, 0..2 (R164). -/
abbrev PortNo := Fin 3

/-- A profile index, 0..3 (R24). -/
abbrev ProfileNo := Fin 4

end Sys2Proof
end

