-- ==== Sys2Proof/Syntax.lean ====
section
/-! DEFINITION. The commands of the TD-410: one constructor of `Instr` for each row of
spec/opcode_table.json, in the table's order, with the operands the spec gives it. A station request
carries its port, its request tag and its fields; a field that a request may lack is an `Option`, and a
field with a set of names is an `Arg`, which can also be given outside the set. -/

namespace Sys2Proof

/-- A field of a request that names one value of a set: not sent, sent with a value of the set, or sent
with a value outside the set (R6, R16, R26, R154, R175). -/
inductive Arg (α : Type) where
  | missing
  | outside
  | given (a : α)
deriving DecidableEq, Repr

/-- Handling of a plate (R2). -/
inductive Handling where
  | normal
  | fragile
deriving DecidableEq, Repr

/-- Emulsion of a plate (R2). -/
inductive Emulsion where
  | up
  | down
deriving DecidableEq, Repr

/-- Delivery mode (R151). -/
inductive DeliveryMode where
  | auto
  | fetch
deriving DecidableEq, Repr

/-- The eight kinds of notice, in the order of their kind bytes 0x50..0x57 (R165). -/
inductive NoticeKind where
  | plate
  | cell
  | moveTo
  | unload
  | link
  | lamp
  | calib
  | store
deriving DecidableEq, Repr

/-- The sections of READ_STATUS (R175). -/
inductive StatusSection where
  | ports
  | sequencer
  | merge
  | link
  | lamp
  | time
  | store
  | delivery
deriving DecidableEq, Repr

/-- The global capture settings that SET_CAPTURE names (R32). -/
inductive Setting where
  | fragileCap
  | settleDwell
  | moveTimeout
  | readoutAllowance
  | lampLevel
  | warmUpTime
  | lampTolerance
  | idleTime
  | calibrationLife
  | linkWarningLimit
deriving DecidableEq, Repr

/-- What READ_PLATE selects by (R5). -/
inductive PlateSelector where
  | missing
  | key (key : PlateKey)
  | position (p : Nat)
deriving DecidableEq, Repr

/-- What READ_PROFILE selects (R29). -/
inductive ProfileSelector where
  | profile (index : Nat)
  | settings
  | other
deriving DecidableEq, Repr

/-- The strap pins of one port, read at cold reset (R169): two role straps and two rate straps, each
pair written first strap, second strap, in the order R169 reads them; `true` is high. -/
structure Straps where
  roleA : Bool
  roleB : Bool
  rateA : Bool
  rateB : Bool
deriving DecidableEq, Repr

/-- One character of a station line: its data bits, and whether its stop bit is there (R165, R166). -/
structure Character where
  value : Byte
  stopBit : Bool
deriving DecidableEq, Repr

/-- Where a request comes from: the port it was received on and its request tag (R165). -/
structure Src where
  port : PortNo
  tag : Byte
deriving DecidableEq, Repr

/-- One command of the block: one constructor per row of spec/opcode_table.json. -/
inductive Instr where
  -- resets and store bring-up
  | coldReset (port0 port1 port2 : Straps)
  | coldResetEnd
  | resetWarm
  | bringUpPass (fittedBytes : Nat)
  | bringUpFail
  | relockPass
  | relockFail
  -- store accesses
  | refreshDue
  | refreshComplete
  | rowMergeComplete
  | clearRowWrite
  | calibrationAccumulationRow
  | finalizationRowWrite
  | deliveryReadComplete
  -- time base and lamp
  | secondTick
  | lampOnMinute
  | settleTimerExpiry
  | moveTimerExpiry
  | frameTimerExpiry
  | warmUpExpiry
  | lampCheck (reading : Reading)
  | idleTimerExpiry
  | shutterRise (reading : Reading)
  | shutterFall
  -- pixel uplink
  | frameStart (tag : Byte) (check : BitVec 16)
  | uplinkRow (index : BitVec 16) (codeBytes : List Byte) (check : BitVec 16)
  | frameEnd (rowCount : BitVec 16) (check : BitVec 16)
  | uplinkIdle (check : BitVec 16)
  | unknownUnit (unitBytes : List Byte)
  -- delivery link
  | readyRise
  | startSent
  | headerSent
  | deliveryRowSent
  | endSent
  -- station lines
  | badFrame (port : PortNo) (characters : List Character)
  | nonRequestFrame (port : PortNo) (kind : Byte) (body : List Byte)
  | lineBreak (port : PortNo)
  | paceFall (port : PortNo)
  | answerSent (port : PortNo)
  | noticeSent (port : PortNo)
  -- requests: plate register
  | enrol (q : Src) (key : Option PlateKey) (profile : Option Nat) (handling : Arg Handling)
      (emulsion : Arg Emulsion) (columns rows : Option Nat)
  | seated (q : Src) (key : Option PlateKey)
  | unseated (q : Src) (key : Option PlateKey)
  | withdraw (q : Src) (key : Option PlateKey)
  | retire (q : Src) (key : Option PlateKey)
  | hold (q : Src) (key : Option PlateKey)
  | free (q : Src) (key : Option PlateKey)
  | mark (q : Src) (key : Option PlateKey) (handling : Arg Handling) (emulsion : Arg Emulsion)
  | readPlate (q : Src) (sel : PlateSelector)
  | readCell (q : Src) (key : Option PlateKey) (column row : Option Nat)
  -- requests: profiles and settings
  | writeProfile (q : Src) (index : Option Nat) (ladder : Option (List Nat)) (satS floorF extT : Option Nat)
      (singleTry : Arg Bool) (qceil : Option Nat)
  | readProfile (q : Src) (sel : ProfileSelector)
  | setField (q : Src) (width height : Option Nat)
  | setCapture (q : Src) (settings : List (Option Setting × Nat))
  -- requests: transport reports
  | atCell (q : Src) (key : Option PlateKey) (column row number : Option Nat)
  | moveFault (q : Src) (key : Option PlateKey) (number : Option Nat)
  -- requests: calibration, link, time, store
  | calibrateDark (q : Src) (kindGiven : Bool) (tRef lampLevel : Option Nat)
  | calibrateFlat (q : Src) (kindGiven : Bool) (tRef lampLevel : Option Nat)
  | readCalib (q : Src)
  | readFault (q : Src)
  | setClock (q : Src) (value : Option Seconds)
  | standby (q : Src) (mask : Option (List Nat))
  | warmRestart (q : Src)
  -- requests: delivery and release
  | setDelivery (q : Src) (mode : Arg DeliveryMode)
  | fetch (q : Src) (key : Option PlateKey) (column row : Option Nat)
  | releaseKeep (q : Src) (key : Option PlateKey) (column row : Option Nat) (verdictGiven : Bool)
  | releaseRecapture (q : Src) (key : Option PlateKey) (column row : Option Nat) (verdictGiven : Bool)
  -- requests: station ports
  | setFilter (q : Src) (kinds : Option (List (Option NoticeKind))) (keyCode keyMask : Option PlateKey)
  | resume (q : Src)
  | readStatus (q : Src) (sect : Arg StatusSection)
  -- pin levels and monitor samples
  | readyFall
  | paceRise (port : PortNo)
  | monitorSample (reading : Reading)
deriving DecidableEq, Repr

end Sys2Proof
end

