-- ==== Sys2Proof/Config.lean ====
section
/-! DEFINITION. What the part fixes once: sizes, capacities and default values the manual states; and what the
manual leaves open, which is opaque, so that nothing can be proved of it beyond its type (log 3, log 4, log 30). -/

namespace Sys2Proof.Config

/-- The bytes of one region of the frame store: 128 MiB (R136). -/
def regionBytes : Nat := 134217728

/-- The bytes of the frame store the part uses: 1 GiB (R137). -/
def storeBytes : Nat := 1073741824

/-- The plate records the register holds at most (R1). -/
def maxPlates : Nat := 24

/-- The entries of an exposure list at most (R39). -/
def maxExposures : Nat := 16

/-- The rows of the PLR's row queue at most (R110). -/
def maxQueuedRows : Nat := 8

/-- The notices of a port's queue at most (R172). -/
def maxNotices : Nat := 16

/-- The answers a port's queue may hold when a refused request is answered: one place is kept free
(R167). -/
def maxRefusals : Nat := 3

/-- The body bytes of a station frame at most (R165, R166). -/
def maxBody : Nat := 200

/-- The fault count's ceiling (R114). -/
def maxFaultCount : Nat := 511

/-- The fault count at which the link is GUARDED (R115). -/
def guardedCount : Nat := 192

/-- The fault count at which the link is DROPPED (R115). -/
def droppedCount : Nat := 384

/-- The weight of a torn row, a thrown-away row or a stray frame (R114). -/
def rowWeight : Nat := 8

/-- The weight of a frame timeout (R114). -/
def timeoutWeight : Nat := 16

/-- The decrement of a clean frame (R114). -/
def cleanDecrement : Nat := 4

/-- The torn-row weight one exposure can add at most (R114). -/
def maxExposureCharge : Nat := 64

/-- The consecutive good IDLE markers that end DROPPED (R117). -/
def idleRunLength : Nat := 48

/-- The lamp monitor floor (R126). -/
def lampFloor : Nat := 1024

/-- The in-tolerance run at which a lamp becomes STEADY (R126). -/
def steadyRun : Nat := 5

/-- The longest exposure time, in microseconds (R24, R38). -/
def maxExposureTime : Nat := 8000000

/-- The calibration saturation level (R95). -/
def calSaturation : Nat := 4032

/-- The smallest open level (R95). -/
def minOpenLevel : Nat := 256

/-- The period of the check timer, in microseconds (R124). -/
def checkPeriod : Nat := 100000

/-- DESIGN CHOICE (log 3), safe. The time left on a running timer, which READ_STATUS reports (R131, R175): time passes
outside the model, so the value is free, one for each count of asks; the model keeps it within the
timer's preset. -/
opaque timeLeft : Nat → Nat

/-- DESIGN CHOICE (log 4), safe. The monitor mean of a window that holds no sample (R129 divides by the sample
count): the manual states none, so it is free, one for each window sum. The sample at the rise keeps every run
from it. -/
opaque emptyWindowMean : Nat → Reading

/-- DESIGN CHOICE (log 30), safe. The kind byte of each request: R165 gives every request its own value in 0x10..0x3F
and does not say which, so the order of those 48 values is free. -/
opaque requestKindOrder : Equiv.Perm (Fin 48)

/-- DESIGN CHOICE (log 30), safe. The byte of each answer code: R168 names the codes and gives no values. -/
opaque answerCodeOrder : Equiv.Perm (Fin 256)

/-- DESIGN CHOICE (log 30), safe. The byte of the clamped flag, clear and set: R165 gives no values. -/
opaque clampedOrder : Equiv.Perm (Fin 256)

end Sys2Proof.Config
end

