-- ==== Sys2Proof/Machine/Crc.lean ====
section
/-! DEFINITION. The two checks of the part: the CRC-16 of the station frames (R165), the pixel link (R107)
and the delivery link (R156), and the CRC-32 of a stream's code bytes (R156). -/

namespace Sys2Proof.Machine

/-- One bit into a CRC register of width `w`, most significant bit first. -/
def crcBit {w : Nat} (poly : BitVec w) (crc : BitVec w) (bit : Bool) : BitVec w :=
  if crc.msb != bit then (crc <<< 1) ^^^ poly else crc <<< 1

/-- The bits of a byte, most significant first. -/
def bitsOf (b : Byte) : List Bool :=
  [b.getLsbD 7, b.getLsbD 6, b.getLsbD 5, b.getLsbD 4, b.getLsbD 3, b.getLsbD 2, b.getLsbD 1, b.getLsbD 0]

/-- A CRC register after one more byte. -/
def crcByte {w : Nat} (poly : BitVec w) (crc : BitVec w) (b : Byte) : BitVec w :=
  (bitsOf b).foldl (crcBit poly) crc

/-- CRC-16: polynomial 0x1021, initial value 0xFFFF, most significant bit of each byte first, no final
inversion (R107, R156, R165). -/
def crc16 (bytes : List Byte) : BitVec 16 :=
  bytes.foldl (crcByte 0x1021#16) 0xFFFF#16

/-- The initial value of the running CRC-32 (R156). -/
def crc32Start : BitVec 32 := 0xFFFFFFFF#32

/-- The running CRC-32 after more bytes: polynomial 0x04C11DB7 (R156). -/
def crc32Add (crc : BitVec 32) (bytes : List Byte) : BitVec 32 :=
  bytes.foldl (crcByte 0x04C11DB7#32) crc

/-- The CRC-32 as it is sent: inverted (R156). -/
def crc32Sent (crc : BitVec 32) : BitVec 32 := ~~~crc

end Sys2Proof.Machine
end

