-- ==== Sys2Proof/Machine/Framer.lean ====
section
/-! DEFINITION. The framer of a station port (R164, R166): where reception stands, what one character does to it,
and how a frame is judged at its last check byte. -/

namespace Sys2Proof.Machine

/-- Where reception of a station frame stands (R164), with what has been received of the frame: its length, its
kind, its body bytes so far, and the first check byte once it is there. -/
inductive Framer where
  | hunt
  | length
  | kind (length : Byte)
  | body (length kind : Byte) (taken : List Byte)
  | check (length kind : Byte) (body : List Byte) (first : Option Byte)
deriving DecidableEq, Repr

/-- What a framer has received of a frame at its end (R166). -/
inductive FrameResult where
  | bad
  | good (kind : Byte) (body : List Byte)
deriving DecidableEq, Repr

/-- The SYNC byte (R165). -/
def syncByte : Byte := 0xC5

/-- A frame is judged at its last check byte: the check is the CRC-16 of the length, the kind and the body, sent
least significant byte first (R165, R166). -/
def judgeFrame (length kind : Byte) (body : List Byte) (first last : Byte) : FrameResult :=
  if last ++ first = crc16 (length :: kind :: body) then .good kind body else .bad

/-- Where a framer stands once body bytes are in: the check follows the last of them (R166). -/
def Framer.afterBody (length kind : Byte) (taken : List Byte) : Framer :=
  if length.toNat ≤ taken.length then .check length kind taken none else .body length kind taken

/-- What a character with its stop bit does to a framer outside HUNT (R166): the framer after it, and the
result if the frame ends. -/
def Framer.takeByte (f : Framer) (b : Byte) : Framer × Option FrameResult :=
  match f with
  | .hunt => (.hunt, none)
  | .length => if Config.maxBody < b.toNat then (.hunt, some .bad) else (.kind b, none)
  | .kind n => (Framer.afterBody n b [], none)
  | .body n k taken => (Framer.afterBody n k (taken ++ [b]), none)
  | .check n k bs none => (.check n k bs (some b), none)
  | .check n k bs (some first) => (.hunt, some (judgeFrame n k bs first b))

/-- One character received (R166). In HUNT all but SYNC is discarded, and so is a character without its stop bit;
within a frame a character without its stop bit makes the frame bad. -/
def Framer.take (f : Framer) (c : Character) : Framer × Option FrameResult :=
  match f with
  | .hunt => if c.stopBit ∧ c.value = syncByte then (.length, none) else (.hunt, none)
  | g => if c.stopBit then g.takeByte c.value else (.hunt, some .bad)

/-- Characters received one at a time: where the framer ends, and the frames that ended on the way, in order
(R166). -/
def Framer.receive (f : Framer) : List Character → Framer × List FrameResult
  | [] => (f, [])
  | c :: rest =>
    let r := f.take c
    let q := Framer.receive r.1 rest
    (q.1, r.2.toList ++ q.2)

end Sys2Proof.Machine
end

