-- ==== Sys2Proof/Machine/State.lean ====
section
/-! DEFINITION. The state of the TD-410 as plain data, block by block: every item the chapters' state tables
name, the few the rules imply (each says so), the queue of waiting commands, and the state after cold
reset. INVENTORY.md lists them with their rules and reset values. -/

namespace Sys2Proof.Machine

/-! ## Plate register (R1 to R3) -/

/-- A cell, named by plate key, column and row. -/
structure CellRef where
  key : PlateKey
  column : Nat
  row : Nat
deriving DecidableEq, Repr

/-- The six plate states (R2). -/
inductive PlateState where
  | enrolled
  | active
  | captured
  | done
  | faulted
  | withdrawn
deriving DecidableEq, Repr

/-- The eight cell states (R3). -/
inductive CellState where
  | pending
  | exposing
  | finalizing
  | merged
  | delivering
  | delivered
  | kept
  | failed
deriving DecidableEq, Repr

/-- How the most recent try of a cell ended (R3); `untried` is the manual's NONE. -/
inductive LastOutcome where
  | untried
  | finalized
  | repeats
  | listFull
  | abandoned
deriving DecidableEq, Repr

/-- The hold reasons of a plate, a set of three (R2). -/
structure Holds where
  console : Bool
  move : Bool
  lamp : Bool
deriving DecidableEq, Repr

/-- The summary of a cell (R3, R83). -/
structure Summary where
  clipLight : Nat
  clipDark : Nat
  dead : Nat
  tornRows : Nat
  exposuresMerged : Nat
  extensionUsed : Bool
deriving DecidableEq, Repr

/-- A cell record (R3). -/
structure CellRecord where
  column : Nat
  row : Nat
  state : CellState
  triesUsed : Nat
  slot : Option SlotNo
  summary : Option Summary
  lastOutcome : LastOutcome
deriving DecidableEq, Repr

/-- A plate record (R2). -/
structure PlateRecord where
  key : PlateKey
  state : PlateState
  seated : Bool
  holds : Holds
  profile : ProfileNo
  handling : Handling
  emulsion : Emulsion
  columns : Nat
  rows : Nat
  cells : List CellRecord
  enrolTime : Seconds
  firstSeat : Option Seconds
  completion : Option Seconds
  kept : Nat
  failed : Nat
deriving DecidableEq, Repr

/-! ## Profile table (R24 to R32) -/

/-- A profile record (R24); the rung count is the length of the ladder. -/
structure Profile where
  ladder : List Nat
  satThreshold : Nat
  noiseFloor : Nat
  extThreshold : Nat
  singleTry : Bool
  qceil : Nat
deriving DecidableEq, Repr

/-- The field geometry, in pixels (R30). -/
structure Geometry where
  width : Nat
  height : Nat
deriving DecidableEq, Repr

/-- The global capture settings (R32), but for the calibration life, which the calibration record keeps.
Times are in the manual's own units: µs, ms, s, ms, s, min. -/
structure Settings where
  fragileCap : Nat
  settleDwell : Nat
  moveTimeout : Nat
  readoutAllowance : Nat
  lampLevel : Nat
  warmUpTime : Nat
  lampTolerance : Nat
  idleTime : Nat
  linkWarningLimit : Nat
deriving DecidableEq, Repr

/-! ## Cell sequencer (R38) -/

/-- Where a paused sequencer goes on (R38). -/
inductive ResumePoint where
  | claim
  | move
  | trigger
deriving DecidableEq, Repr

/-- The sequencer states (R38); PAUSED carries its resume point. -/
inductive CsqState where
  | idle
  | awaitSlot
  | moving
  | settling
  | awaitLamp
  | exposing
  | readout
  | review
  | paused (resume : ResumePoint)
deriving DecidableEq, Repr

/-- A rung: an index of the profile's ladder, or EXT (R39). -/
inductive Rung where
  | step (index : Nat)
  | ext
deriving DecidableEq, Repr

/-- A rung of an effective ladder (R36, R38). -/
structure LadderRung where
  index : Nat
  time : Nat
deriving DecidableEq, Repr

/-- The capture context of the try in flight (R38). `extTime` is the nominal time of EXT once it is taken
(R54), 0 before. -/
structure TryContext where
  cell : CellRef
  slot : SlotNo
  ladder : List LadderRung
  satThreshold : Nat
  noiseFloor : Nat
  extThreshold : Nat
  singleTry : Bool
  extCap : Nat
  rung : Rung
  repeats : List Nat
  extRepeats : Nat
  extTaken : Bool
  extTime : Nat
  clearComplete : Bool
deriving DecidableEq, Repr

/-- The status of a move (R38). -/
inductive MoveStatus where
  | moving
  | arrived
  | expired
  | faulted
  | abandoned
deriving DecidableEq, Repr

/-- The move record: the latest MOVE_TO sent (R38). -/
structure MoveRecord where
  number : Byte
  cell : CellRef
  status : MoveStatus
deriving DecidableEq, Repr

/-- The cell sequencer. `frameReported` is implied by R50 and R72: the PLR has reported the end of the
awaited frame, and the sequencer waits in READOUT for the merge of its rows. -/
structure Csq where
  state : CsqState
  ctx : Option TryContext
  frameReported : Bool
  moveCounter : Byte
  move : Option MoveRecord
deriving DecidableEq, Repr

/-! ## Merge engine (R39, R64, R66) -/

/-- The outcome of an exposure list entry (R39). -/
inductive ExposureOutcome where
  | pending
  | merged
  | patched
  | unsteady
  | strayLost
  | timedOut
  | tornRepeat
deriving DecidableEq, Repr

/-- An exposure list entry (R39). -/
structure Exposure where
  ordinal : Nat
  rung : Rung
  time : Nat
  monitor : Nat
  outcome : ExposureOutcome
  torn : Option Nat
deriving DecidableEq, Repr

/-- The states of a slot work record (R64). -/
inductive WorkState where
  | free
  | clearing
  | accumulating
  | queued
  | running
  | coded
deriving DecidableEq, Repr

/-- A slot work record (R64). `rowsCleared` is implied by R67: the rows a clear has written. The three
`pass` counts are the pixel counts a running pass has formed (R83). A field that R64 gives no place in
the present state stands at its cleared value. -/
structure WorkRecord where
  state : WorkState
  owner : Option CellRef
  satThreshold : Nat
  noiseFloor : Nat
  list : List Exposure
  valid : Nat
  satOnly : Nat
  starvedOnly : Nat
  dead : Nat
  rowsCleared : Nat
  qceil : Option Nat
  rowsFinalized : Nat
  histogram : List Nat
  passClipLight : Nat
  passClipDark : Nat
  passDead : Nat
  summary : Option Summary
  firstTrigger : Option Seconds
  finalizeTime : Option Seconds
deriving DecidableEq, Repr

/-- A FREE work record (R65). -/
def WorkRecord.freed : WorkRecord :=
  { state := .free, owner := none, satThreshold := 0, noiseFloor := 0, list := [], valid := 0,
    satOnly := 0, starvedOnly := 0, dead := 0, rowsCleared := 0, qceil := none, rowsFinalized := 0,
    histogram := [], passClipLight := 0, passClipDark := 0, passDead := 0, summary := none,
    firstTrigger := none, finalizeTime := none }

/-- The merge engine: seven work records and the finalization queue, head first (R64, R74). -/
structure Mge where
  work : Vector WorkRecord 7
  queue : List SlotNo
deriving DecidableEq, Repr

/-! ## Calibration unit (R86, R91 to R96, R102) -/

/-- The calibration states (R86). -/
inductive CalState where
  | none
  | darkOnly
  | valid
  | stale
  | lost
deriving DecidableEq, Repr

/-- The kinds of calibration (R89). -/
inductive CalKind where
  | dark
  | flat
deriving DecidableEq, Repr

/-- The phases of a running calibration (R102). -/
inductive CalPhase where
  | lampWait
  | frames
  | openPass
  | gainPass
deriving DecidableEq, Repr

/-- The calibration record (R86). -/
structure CalRecord where
  state : CalState
  tRef : Nat
  geometry : Option Geometry
  lampLevel : Option Nat
  openLevel : Option Nat
  mRef : Option Nat
  deadCount : Option Nat
  flatTime : Option Seconds
  age : Nat
  life : Nat
deriving DecidableEq, Repr

/-- The operation context of a running calibration (R90, R93 to R96, R102). `inFlight`, `reported` and
`failedTest` are implied by R91 and R94: an attempt has been triggered, the PLR has reported its end, and
it failed the window test. `netSum`, `netCount` and `satCount` are the totals of the open pass, and
`passRow` is the next row of a pass. -/
structure CalOp where
  kind : CalKind
  phase : CalPhase
  frame : Nat
  repeats : Nat
  inFlight : Bool
  reported : Bool
  failedTest : Bool
  levelHeld : Option Nat
  means : List Nat
  mFirst : Option Nat
  mRef : Option Nat
  netSum : Nat
  netCount : Nat
  satCount : Nat
  openLevel : Option Nat
  deadCount : Nat
  passRow : Nat
deriving DecidableEq, Repr

/-- The calibration unit: the record, the running operation, and a row tally for every row (R91). -/
structure Cal where
  record : CalRecord
  op : Option CalOp
  tally : List Nat
deriving DecidableEq, Repr

/-! ## Pixel link receiver (R104) -/

/-- Whether a frame is open on the uplink (R104). -/
inductive Reception where
  | between
  | receiving
  | discarding
deriving DecidableEq, Repr

/-- What becomes of the awaited frame's rows (R104). -/
inductive Decision where
  | waiting
  | release
  | drain
deriving DecidableEq, Repr

/-- The link states (R115). -/
inductive LinkState where
  | clean
  | warned
  | guarded
  | dropped
deriving DecidableEq, Repr

/-- The kinds of link fault (R120). -/
inductive FaultKind where
  | check
  | sequence
  | overflow
  | length
  | stray
  | timeout
deriving DecidableEq, Repr

/-- Which exposure a trigger belongs to: the slot and ordinal of a try's entry, or the frame number of a
calibration (R110, R120). -/
inductive Requester where
  | capture (slot : SlotNo) (ordinal : Nat)
  | calib (frame : Nat)
deriving DecidableEq, Repr

/-- A row in the PLR's queue (R110). -/
structure QueuedRow where
  dest : Requester
  row : Nat
  codes : List CameraCode
  released : Bool
deriving DecidableEq, Repr

/-- The fault capture record (R120). -/
structure FaultCapture where
  kind : FaultKind
  exposure : Option Requester
  row : Option Nat
  count : Nat
deriving DecidableEq, Repr

/-- The lamp requirement of a trigger (R105). -/
inductive LampRequirement where
  | none
  | steady
deriving DecidableEq, Repr

/-- A TRIGGER order on the downlink (R105, R107). -/
structure Trigger where
  tag : Byte
  time : Nat
  lamp : LampRequirement
deriving DecidableEq, Repr

/-- The pixel link receiver (R104). `shutterSeen` is implied by R106 (SHUTTER has risen since the latest
TRIGGER), `endPending` by R111 (the frame has ended and its report waits for the window-end decision),
`requester` by R110 and R120 (whose exposure the latest TRIGGER is), and `downlink` is the latest TRIGGER
sent, the part's own output. -/
structure Plr where
  tagCounter : Byte
  awaitedTag : Option Byte
  cancelledTag : Option Byte
  reception : Reception
  nextRow : Nat
  rowsReleased : Nat
  tornCount : Nat
  straySeen : Bool
  decision : Decision
  queue : List QueuedRow
  exposureCharge : Nat
  exposureClean : Bool
  faultCount : Nat
  link : LinkState
  idleRun : Nat
  capture : Option FaultCapture
  shutterSeen : Bool
  endPending : Bool
  requester : Option Requester
  downlink : Option Trigger
deriving DecidableEq, Repr

/-! ## Light table controller and time base (R121, R132 to R134) -/

/-- The lamp states (R121). -/
inductive LampState where
  | off
  | warming
  | steady
  | drifting
  | failed
deriving DecidableEq, Repr

/-- The warm-up phases (R121). -/
inductive WarmPhase where
  | timed
  | checking
deriving DecidableEq, Repr

/-- The light table controller (R121). -/
structure Ltc where
  lamp : LampState
  phase : Option WarmPhase
  drive : Nat
  warmRef : Option Reading
  run : Nat
  last : Option Reading
  windowOpen : Bool
  windowSum : Nat
  windowSamples : Nat
  steadyThroughout : Bool
deriving DecidableEq, Repr

/-- The six countdown timers (R134): STOPPED is `none`, RUNNING is `some` of the preset loaded at the
start, in microseconds. -/
structure Timers where
  settle : Option Nat
  move : Option Nat
  frame : Option Nat
  warmUp : Option Nat
  check : Option Nat
  idle : Option Nat
deriving DecidableEq, Repr

/-- The time base (R132, R133). -/
structure Tbu where
  clock : Seconds
  lampMinutes : BitVec 32
  lampSeconds : Nat
  timers : Timers
deriving DecidableEq, Repr

/-! ## Frame store controller (R135, R136, R141) -/

/-- The store states (R135). -/
inductive StoreState where
  | cold
  | training
  | ready
  | retaining
  | waking
  | fault
deriving DecidableEq, Repr

/-- Why the store entered FAULT (R135). -/
inductive FaultReason where
  | training
  | size
  | relock
deriving DecidableEq, Repr

/-- The five access classes, in order of priority (R141). -/
inductive AccessClass where
  | refresh
  | rowMerge
  | calibration
  | finalization
  | delivery
deriving DecidableEq, Repr

/-- What one access does (R141): a refresh; one row of a clear; the merge of a handed row; the add of a
handed calibration row; one row of the open or the gain pass; one row of a finalization pass; one row read
for the stream. -/
inductive StoreWork where
  | refresh
  | clear (slot : SlotNo) (row : Nat)
  | merge (slot : SlotNo) (ordinal row : Nat) (codes : List CameraCode)
  | calibAdd (frame row : Nat) (codes : List CameraCode)
  | openRow (row : Nat)
  | gainRow (row : Nat)
  | finalize (slot : SlotNo) (row : Nat)
  | deliver (slot : SlotNo) (row : Nat)
deriving DecidableEq, Repr

/-- The row of bytes that an access writes to the store, from an address on. -/
structure StoreRow where
  addr : Nat
  bytes : List Byte
deriving DecidableEq, Repr

/-- What becomes of an access's result (R140, R149): it is used; or the access was stopped, and its result is not
used. A stopped access still completes to the store: `row` is what it writes, formed when it was stopped (log 20);
a refresh and a read write none. -/
inductive AccessResult where
  | used
  | unused (row : Option StoreRow)
deriving DecidableEq, Repr

/-- An access in progress (R141). `result` is implied by R140 and R149. -/
structure Access where
  work : StoreWork
  result : AccessResult
deriving DecidableEq, Repr

/-- What a region is used for (R136). -/
inductive RegionUse where
  | slot (k : SlotNo)
  | calibration
deriving DecidableEq, Repr

/-- The frame store controller (R135, R136). The region table is `holders` and `retain`, with the use of each
region fixed (`regionUse`); the slot pool is `held`, and `mem` is the store itself: its listed bytes, in
canonical form. -/
structure Fsc where
  state : StoreState
  reason : Option FaultReason
  holders : Vector (Option CellRef) 7
  retain : Vector Bool 8
  held : Vector Bool 7
  mask : List RegionNo
  refreshOwed : Nat
  access : Option Access
  waiting : List AccessClass
  mem : List Host.Cell
deriving DecidableEq, Repr

/-! ## Delivery link transmitter (R151, R156) -/

/-- The next unit of a stream (R151); `finish` is the manual's END. -/
inductive StreamPhase where
  | start
  | header
  | rows
  | finish
deriving DecidableEq, Repr

/-- The row buffer (R151); FULL holds the codes of a density row, in pixel order. -/
inductive RowBuffer where
  | empty
  | reading
  | full (codes : List DensityCode)
deriving DecidableEq, Repr

/-- The header record of a stream (R156). -/
structure HeaderRecord where
  key : PlateKey
  column : Nat
  row : Nat
  tryNumber : Nat
  profile : ProfileNo
  handling : Handling
  emulsion : Emulsion
  width : Nat
  height : Nat
  exposuresMerged : Nat
  extensionUsed : Bool
  firstTrigger : Seconds
  finalizeTime : Seconds
  clipLight : Nat
  clipDark : Nat
  dead : Nat
  tornRows : Nat
  qceil : Nat
  histogram : List Nat
deriving DecidableEq, Repr

/-- The stream record (R151); `header` is the record built at the stream start (R153). -/
structure Stream where
  cell : Option CellRef
  slot : Option SlotNo
  mirrored : Bool
  phase : StreamPhase
  nextRow : Nat
  buffer : RowBuffer
  cut : Bool
  crc : BitVec 32
  header : HeaderRecord
deriving DecidableEq, Repr

/-- The state of the row buffer (R151), without the codes that a FULL one holds. -/
inductive BufferState where
  | empty
  | reading
  | full
deriving DecidableEq, Repr

/-- A unit of the delivery link (R156). -/
inductive DeliveryUnit where
  | start
  | header (h : HeaderRecord)
  | row (index : Nat) (codes : List DensityCode)
  | finish (cut : Bool) (rowsSent : Nat) (crc : BitVec 32)
deriving DecidableEq, Repr

/-- The unit being sent on the delivery link. `live` is implied by R161: the stream it belongs to still
runs. A warm restart lets the unit complete (R161); a cold reset drops it (log 56). -/
structure LinkUnit where
  content : DeliveryUnit
  live : Bool
deriving DecidableEq, Repr

/-- The delivery link transmitter (R151); `link` is the unit in progress and `ready` the level of the
READY line (R157). -/
structure Dlt where
  mode : DeliveryMode
  queue : List CellRef
  stream : Option Stream
  link : Option LinkUnit
  ready : Bool
deriving DecidableEq, Repr

/-! ## Notices (R4, R43, R103, R119, R131, R150) -/

/-- What changed the link state (R119). R119 names no cause for a change made by the clean decrement:
`cleanFrame` (log 12). -/
inductive LinkCause where
  | fault (kind : FaultKind)
  | recovered
  | limit
  | cleanFrame
deriving DecidableEq, Repr

/-- What changed the lamp state (R131). -/
inductive LampCause where
  | switchOn
  | restart
  | warmUpEnd
  | check
  | floor
  | idle
  | offRequest
deriving DecidableEq, Repr

/-- The result of a CALIB notice (R103); `none` is a change made outside an operation. -/
inductive CalResult where
  | none
  | started
  | done
  | link
  | lamp
  | dim
  | saturated
deriving DecidableEq, Repr

/-- What changed the store state (R150). -/
inductive StoreCause where
  | bringUp
  | standby
  | wake
  | relock
  | fault (reason : FaultReason)
deriving DecidableEq, Repr

/-- A notice, with what its rule says it carries. -/
inductive Notice where
  | plate (key : PlateKey) (state : PlateState) (seated : Bool) (holds : Holds) (kept failed : Nat) (removed : Bool)
  | cell (cell : CellRef) (state : CellState) (triesUsed : Nat) (slot : Option SlotNo)
      (lastOutcome : LastOutcome) (summary : Option Summary)
  | moveTo (cell : CellRef) (handling : Handling) (number : Byte)
  | unload (key : PlateKey)
  | link (new old : LinkState) (count : Nat) (cause : LinkCause)
  | lamp (new old : LampState) (drive : Nat) (reading : Option Reading) (cause : LampCause)
  | calib (state : CalState) (kind : Option CalKind) (result : CalResult) (flat : Option (Nat × Nat × Nat))
      (reached : Option (Nat × Nat))
  | store (new old : StoreState) (cause : StoreCause) (mask : Option (List RegionNo)) (port : Option PortNo)
deriving DecidableEq, Repr

/-! ## Answers (R168) and the reports they carry -/

/-- The request kinds (R170): one frame kind each. CALIBRATE and RELEASE are one kind each. -/
inductive RequestKind where
  | seated
  | unseated
  | atCell
  | moveFault
  | enrol
  | withdraw
  | retire
  | release
  | fetch
  | setDelivery
  | writeProfile
  | setField
  | setCapture
  | setClock
  | standby
  | warmRestart
  | calibrate
  | hold
  | free
  | mark
  | readStatus
  | readPlate
  | readCell
  | readProfile
  | readCalib
  | readFault
  | setFilter
  | resume
deriving DecidableEq, Repr

/-- The kind an answer echoes: a request kind, or the kind byte of a frame that is no request (R165,
R167). -/
inductive EchoKind where
  | request (kind : RequestKind)
  | raw (kind : Byte)
deriving DecidableEq, Repr

/-- The answer codes (R168). -/
inductive AnswerCode where
  | done
  | started
  | busy
  | role
  | unknown
  | full
  | duplicate
  | field
  | state
  | late
  | notReady
deriving DecidableEq, Repr

/-- The roles of a port (R164). -/
inductive Role where
  | transport
  | archive
  | console
  | off
deriving DecidableEq, Repr

/-- The line rates (R164), in baud: 115,200, 460,800, 921,600, 3,000,000. -/
inductive Rate where
  | baud115200
  | baud460800
  | baud921600
  | baud3000000
deriving DecidableEq, Repr

/-- A port's notice filter (R164, R171). -/
structure NoticeFilter where
  kinds : List NoticeKind
  keyCode : PlateKey
  keyMask : PlateKey
deriving DecidableEq, Repr

/-- Whether a port's notice gate is OPEN or SHUT (R164). -/
inductive Gate where
  | opened
  | shut
deriving DecidableEq, Repr

/-- The plate record without its cell table, as READ_PLATE answers it (R5). -/
structure PlateReport where
  key : PlateKey
  state : PlateState
  seated : Bool
  holds : Holds
  profile : ProfileNo
  handling : Handling
  emulsion : Emulsion
  columns : Nat
  rows : Nat
  enrolTime : Seconds
  firstSeat : Option Seconds
  completion : Option Seconds
  kept : Nat
  failed : Nat
deriving DecidableEq, Repr

/-- The operation context that READ_CALIB answers (R102). -/
structure CalOpReport where
  kind : CalKind
  phase : CalPhase
  frame : Nat
  repeats : Nat
  rowsAdded : Nat
  means : List Nat
  mFirst : Option Nat
  gainRows : Option Nat
deriving DecidableEq, Repr

/-- The report of one port (R175). -/
structure PortReport where
  role : Role
  rate : Rate
  gate : Gate
  filter : NoticeFilter
  noticeNumber : Byte
  queueCount : Nat
  pace : Bool
  outstanding : Bool
deriving DecidableEq, Repr

/-- The sequencer report (R40). -/
structure SequencerReport where
  state : CsqState
  trial : Option (CellRef × SlotNo)
  rung : Option (Rung × Nat)
  entries : Option Nat
  latest : Option ExposureOutcome
  move : Option MoveRecord
deriving DecidableEq, Repr

/-- The merge report (R84). -/
structure MergeReport where
  records : List (WorkState × Option CellRef)
  queue : List SlotNo
  rowsFinalized : Option Nat
  counters : Option (Nat × Nat × Nat × Nat × Nat)
deriving DecidableEq, Repr

/-- The link report (R119). -/
structure LinkReport where
  link : LinkState
  faultCount : Nat
  tagCounter : Byte
  awaitedTag : Option Byte
  reception : Reception
  queued : Nat
  held : Nat
  idleRun : Option Nat
deriving DecidableEq, Repr

/-- Which reference the lamp is checked against (R131). -/
inductive LampReference where
  | mRef (value : Nat)
  | warmUp (value : Nat)
deriving DecidableEq, Repr

/-- The lamp report (R131). -/
structure LampReport where
  lamp : LampState
  phase : Option WarmPhase
  drive : Nat
  reference : Option LampReference
  last : Option Reading
  run : Nat
  warmUpLeft : Option Nat
  idleLeft : Option Nat
  windowOpen : Bool
deriving DecidableEq, Repr

/-- The time report (R175): the clocks, and the time left on each timer that runs, in the order of
R134's table. -/
structure TimeReport where
  clock : Seconds
  lampMinutes : BitVec 32
  lampSeconds : Nat
  timeLeft : List (Option Nat)
deriving DecidableEq, Repr

/-- An entry of the region table (R136). -/
structure RegionEntry where
  use : RegionUse
  holder : Option CellRef
  retain : Bool
deriving DecidableEq, Repr

/-- The store report (R150): the entry of every region, and for every slot whether it is HELD. -/
structure StoreReport where
  state : StoreState
  reason : Option FaultReason
  mask : List RegionNo
  regions : List RegionEntry
  held : List Bool
  refreshOwed : Nat
  access : Option AccessClass
  waiting : List AccessClass
deriving DecidableEq, Repr

/-- What the delivery report says of a running stream (R163). -/
structure StreamReport where
  cell : Option CellRef
  cut : Bool
  phase : StreamPhase
  nextRow : Nat
  buffer : BufferState
  waitsOnReady : Bool
deriving DecidableEq, Repr

/-- The delivery report (R163). -/
structure DeliveryReport where
  mode : DeliveryMode
  queue : List (CellRef × Option SlotNo)
  ready : Bool
  stream : Option StreamReport
deriving DecidableEq, Repr

/-- The report of a READ_STATUS section (R175). -/
inductive StatusReport where
  | ports (ports : List PortReport)
  | sequencer (r : SequencerReport)
  | merge (r : MergeReport)
  | link (r : LinkReport)
  | lamp (r : LampReport)
  | time (r : TimeReport)
  | store (r : StoreReport)
  | delivery (r : DeliveryReport)
deriving DecidableEq, Repr

/-- What an answer carries beside its code (R5, R29, R102, R120, R175). -/
inductive AnswerData where
  | none
  | plate (report : PlateReport) (count : Option Nat)
  | cell (record : CellRecord)
  | profile (record : Profile)
  | settings (geometry : Geometry) (settings : Settings) (life : Nat)
  | calib (record : CalRecord) (op : Option CalOpReport)
  | fault (record : Option FaultCapture) (count : Nat) (link : LinkState)
  | status (role : Role) (badFrame overrun : Bool) (store : StoreState) (report : StatusReport)
deriving DecidableEq, Repr

/-- An answer (R165, R167). `forOutstanding` marks the answer of the port's outstanding request. -/
structure Answer where
  tag : Byte
  kind : EchoKind
  code : AnswerCode
  clamped : Bool
  data : AnswerData
  forOutstanding : Bool
deriving DecidableEq, Repr

/-! ## Station ports (R164) -/

/-- What a port's transmit line is sending (R168, R172). -/
inductive Line where
  | idle
  | answer (a : Answer)
  | notice (number : Byte) (n : Notice)
deriving DecidableEq, Repr

/-- A station port (R164). `pace` is the level of its PACE input and `line` what it is sending, both
implied by R168 and R172. -/
structure Port where
  role : Role
  rate : Rate
  framer : Framer
  outstanding : Option (Byte × RequestKind)
  answers : List Answer
  notices : List (Byte × Notice)
  gate : Gate
  filter : NoticeFilter
  noticeNumber : Byte
  badFrame : Bool
  overrun : Bool
  pace : Bool
  line : Line
deriving DecidableEq, Repr

/-! ## The whole part -/

/-- The state of the TD-410. `pending` is the queue of commands that wait, first in, first out. `raised`
holds the notices of the event being worked on and is empty between events. `freeCount` is the model's
own: how many free values (Config.timeLeft) have been asked for. -/
structure State where
  pending : List Instr
  raised : List Notice
  freeCount : Nat
  plates : List PlateRecord
  profiles : Vector Profile 4
  geometry : Geometry
  settings : Settings
  csq : Csq
  mge : Mge
  cal : Cal
  plr : Plr
  ltc : Ltc
  tbu : Tbu
  fsc : Fsc
  dlt : Dlt
  ports : Vector Port 3
deriving DecidableEq, Repr

/-- Why the model stops with a fault: never. No rule of the manual stops the part, and no command faults; the type
has no value. -/
inductive Fault where
deriving DecidableEq, Repr

/-- Why the model refuses a command. -/
inductive Refusal where
  /-- Raised by an arm of exec whose command has no meaning yet; no arm raises it. Safe: nothing is
  answered for the command. -/
  | notModelled (mnemonic : String)
deriving DecidableEq, Repr

/-! ## Reset -/

/-- The default profile (R25). -/
def Profile.default : Profile :=
  { ladder := [1000, 8000, 64000, 512000], satThreshold := 3968, noiseFloor := 24, extThreshold := 0,
    singleTry := false, qceil := 40960 }

/-- Every notice kind (R171). -/
def allNoticeKinds : List NoticeKind :=
  [.plate, .cell, .moveTo, .unload, .link, .lamp, .calib, .store]

/-- A port after cold reset with the given role, rate and default kind set (R164, R171). The PACE level is
the pin's (log 2). -/
def Port.fresh (role : Role) (rate : Rate) (kinds : List NoticeKind) (pace : Bool) : Port :=
  { role := role, rate := rate, framer := .hunt, outstanding := none, answers := [], notices := [],
    gate := .opened, filter := { kinds := kinds, keyCode := 0, keyMask := 0 }, noticeNumber := 0,
    badFrame := false, overrun := false, pace := pace, line := .idle }

/-- The PLR after cold reset (R104), with the tag counter given: warm restart keeps it. -/
def Plr.cleared (tagCounter : Byte) : Plr :=
  { tagCounter := tagCounter, awaitedTag := none, cancelledTag := none, reception := .between, nextRow := 0,
    rowsReleased := 0, tornCount := 0, straySeen := false, decision := .waiting, queue := [],
    exposureCharge := 0, exposureClean := true, faultCount := 0, link := .clean, idleRun := 0,
    capture := none, shutterSeen := false, endPending := false, requester := none, downlink := none }

/-- The LTC after a reset (R121). -/
def Ltc.cleared : Ltc :=
  { lamp := .off, phase := none, drive := 0, warmRef := none, run := 0, last := none, windowOpen := false,
    windowSum := 0, windowSamples := 0, steadyThroughout := false }

/-- Every timer STOPPED (R134). -/
def Timers.stopped : Timers :=
  { settle := none, move := none, frame := none, warmUp := none, check := none, idle := none }

/-- The calibration record after cold reset (R86). -/
def CalRecord.cold : CalRecord :=
  { state := .none, tRef := 2000, geometry := none, lampLevel := none, openLevel := none, mRef := none,
    deadCount := none, flatTime := none, age := 0, life := 240 }

/-- The part right after cold reset, while the reset lasts: the store is COLD (R135). The straps read are
those of the rig the manual draws, TRANSPORT, ARCHIVE and CONSOLE at the lowest rate, and the pins PACE and
READY stand low. DESIGN CHOICE (log 1, log 2), unsafe. -/
def State.reset : State :=
  { pending := []
    raised := []
    freeCount := 0
    plates := []
    profiles := Vector.replicate 4 Profile.default
    geometry := { width := 4096, height := 3072 }
    settings :=
      { fragileCap := 2000000, settleDwell := 400, moveTimeout := 30, readoutAllowance := 2000,
        lampLevel := 512, warmUpTime := 90, lampTolerance := 16, idleTime := 15, linkWarningLimit := 64 }
    csq := { state := .idle, ctx := none, frameReported := false, moveCounter := 0, move := none }
    mge := { work := Vector.replicate 7 WorkRecord.freed, queue := [] }
    cal := { record := CalRecord.cold, op := none, tally := List.replicate 3072 0 }
    plr := Plr.cleared 0
    ltc := Ltc.cleared
    tbu := { clock := 0, lampMinutes := 0, lampSeconds := 0, timers := Timers.stopped }
    fsc :=
      { state := .cold, reason := none, holders := Vector.replicate 7 none, retain := Vector.replicate 8 false,
        held := Vector.replicate 7 false, mask := [], refreshOwed := 0, access := none, waiting := [], mem := [] }
    dlt := { mode := .auto, queue := [], stream := none, link := none, ready := false }
    ports :=
      #v[Port.fresh .transport .baud115200 [.moveTo, .unload, .plate] false,
         Port.fresh .archive .baud115200 allNoticeKinds false,
         Port.fresh .console .baud115200 allNoticeKinds false] }

end Sys2Proof.Machine
end

