-- ==== Sys2Proof/Machine/Bytes.lean ====
section
/-! DEFINITION. How values lie in bytes: least significant byte first (scope, Conventions), the three-byte
groups of an uplink row (R107), the units of the delivery link (R156), and the two layouts inside the frame
store that the manual leaves to the part (log 6). -/

namespace Sys2Proof.Machine

/-- A number as `n` bytes, least significant first. -/
def leBytes (n v : Nat) : List Byte :=
  (List.range n).map fun i => BitVec.ofNat 8 (v / 256 ^ i)

/-- The number that bytes spell, least significant first. -/
def ofLe : List Byte → Nat
  | [] => 0
  | b :: bs => b.toNat + 256 * ofLe bs

/-- Bytes read as numbers of two bytes each. -/
def words16 : List Byte → List Nat
  | a :: b :: rest => ofLe [a, b] :: words16 rest
  | _ => []

/-- The accumulation of one pixel (R66). -/
structure Accum where
  best : Nat
  ordinal : Nat
  hasBest : Bool
  seenSaturated : Bool
  seenStarved : Bool
  dead : Bool
deriving DecidableEq, Repr

/-- The cleared accumulation (R67). -/
def Accum.cleared : Accum :=
  { best := 0, ordinal := 0, hasBest := false, seenSaturated := false, seenStarved := false, dead := false }

/-- An accumulation as one number: the best value in bits 0..27, the best ordinal in bits 28..31, has-best,
seen-saturated, seen-starved and dead in bits 32..35. DESIGN CHOICE (log 6), unsafe for a claim about
single bytes of the store: R66 gives 8 bytes and no layout. No command reads an accumulation but through this
pair. -/
def Accum.toNat (a : Accum) : Nat :=
  a.best % 2 ^ 28 + 2 ^ 28 * (a.ordinal % 16) + 2 ^ 32 * a.hasBest.toNat + 2 ^ 33 * a.seenSaturated.toNat
    + 2 ^ 34 * a.seenStarved.toNat + 2 ^ 35 * a.dead.toNat

/-- The accumulation a number spells. -/
def Accum.ofNat (v : Nat) : Accum :=
  { best := v % 2 ^ 28, ordinal := v / 2 ^ 28 % 16, hasBest := v.testBit 32, seenSaturated := v.testBit 33,
    seenStarved := v.testBit 34, dead := v.testBit 35 }

/-- A row of accumulations as bytes, 8 each (R66, R81). -/
def accumBytes (row : List Accum) : List Byte :=
  row.flatMap fun a => leBytes 8 a.toNat

/-- Bytes read as accumulations, 8 each. -/
def accums : List Byte → List Accum
  | a :: b :: c :: d :: e :: f :: g :: h :: rest => Accum.ofNat (ofLe [a, b, c, d, e, f, g, h]) :: accums rest
  | _ => []

/-- A row of 2-byte values as bytes: density codes (R81) and the planes of region 7 (R88). The byte order
inside the store is a DESIGN CHOICE (log 6), unsafe for a claim about single bytes. -/
def wordBytes (row : List Nat) : List Byte :=
  row.flatMap fun v => leBytes 2 v

/-- The camera codes of a row's code bytes: two codes in each group of three bytes (R107). -/
def unpackCodes : List Byte → List CameraCode
  | a :: b :: c :: rest => (b.extractLsb' 0 4 ++ a) :: (c ++ b.extractLsb' 4 4) :: unpackCodes rest
  | _ => []

/-- The code bytes of a row's camera codes (R107). -/
def packCodes : List CameraCode → List Byte
  | e :: o :: rest =>
    e.extractLsb' 0 8 :: (o.extractLsb' 0 4 ++ e.extractLsb' 8 4 : BitVec 8) :: o.extractLsb' 4 8 :: packCodes rest
  | _ => []

/-! ## Pixel link units (R107) -/

/-- A FRAME_START's check covers its type and tag. -/
def frameStartGood (tag : Byte) (check : BitVec 16) : Bool :=
  crc16 [0xA1#8, tag] == check

/-- A ROW's check covers its type, index and code bytes. -/
def rowGood (index : BitVec 16) (codeBytes : List Byte) (check : BitVec 16) : Bool :=
  crc16 (0xA2#8 :: (leBytes 2 index.toNat ++ codeBytes)) == check

/-- A FRAME_END's check covers its type and row count. -/
def frameEndGood (count : BitVec 16) (check : BitVec 16) : Bool :=
  crc16 (0xA3#8 :: leBytes 2 count.toNat) == check

/-- An IDLE's check covers its type. -/
def idleGood (check : BitVec 16) : Bool :=
  crc16 [0xA0#8] == check

/-- Bytes followed by their CRC-16, least significant byte first. -/
def withCrc16 (bytes : List Byte) : List Byte :=
  bytes ++ leBytes 2 (crc16 bytes).toNat

/-- The bytes of a TRIGGER (R107). -/
def Trigger.bytes (t : Trigger) : List Byte :=
  withCrc16 (0xB1#8 :: t.tag :: (leBytes 4 t.time ++ [if t.lamp = .steady then 1#8 else 0#8]))

/-! ## Delivery link units (R156) -/

/-- The bytes of a header record between its marker and its check (R156, bytes 1..296). -/
def HeaderRecord.fields (h : HeaderRecord) : List Byte :=
  leBytes 2 h.key.toNat ++ leBytes 1 h.column ++ leBytes 1 h.row ++ leBytes 1 h.tryNumber
    ++ leBytes 1 h.profile.val ++ [if h.handling = .fragile then 1#8 else 0#8]
    ++ [if h.emulsion = .down then 1#8 else 0#8] ++ leBytes 2 h.width ++ leBytes 2 h.height
    ++ leBytes 1 h.exposuresMerged ++ [if h.extensionUsed then 1#8 else 0#8] ++ leBytes 4 h.firstTrigger.toNat
    ++ leBytes 4 h.finalizeTime.toNat ++ leBytes 4 h.clipLight ++ leBytes 4 h.clipDark ++ leBytes 4 h.dead
    ++ leBytes 4 h.tornRows ++ leBytes 2 h.qceil ++ h.histogram.flatMap (leBytes 4)

/-- The code bytes of a delivered row, in the order sent (R156). -/
def codeBytes (codes : List DensityCode) : List Byte :=
  codes.flatMap fun q => leBytes 2 q.toNat

/-- The bytes of a delivery unit (R156). -/
def DeliveryUnit.bytes : DeliveryUnit → List Byte
  | .start => withCrc16 [0xD0#8]
  | .header h => withCrc16 (0xD1#8 :: h.fields)
  | .row index codes => withCrc16 (0xD2#8 :: (leBytes 2 index ++ codeBytes codes))
  | .finish cut rowsSent crc =>
    withCrc16 (0xD3#8 :: (if cut then 1#8 else 0#8) :: (leBytes 2 rowsSent ++ leBytes 4 (crc32Sent crc).toNat))

/-! ## Station frames (R165) -/

/-- The bytes of a station frame of a kind and a body. -/
def stationFrame (kind : Byte) (body : List Byte) : List Byte :=
  let covered := BitVec.ofNat 8 body.length :: kind :: body
  syncByte :: withCrc16 covered

end Sys2Proof.Machine
end

