-- ==== Sys2Proof/Machine/Operands.lean ====
section
/-! DEFINITION. The operands of requests and the quantities formed from them: clamping (R27, R31, R33), grid
positions and serpentine order (R17), the effective ladder (R36) and the settle dwell (R37). -/

namespace Sys2Proof.Machine

/-- A value brought into a range: the nearer end of the range (R27). -/
def clamp (lo hi v : Nat) : Nat := max lo (min hi v)

/-- Strictly increasing (R24, R26). -/
def strictlyIncreasing : List Nat → Bool
  | a :: b :: rest => a < b && strictlyIncreasing (b :: rest)
  | _ => true

/-- A clamped rung time (R27). -/
def clampTime (v : Nat) : Nat := clamp 50 Config.maxExposureTime v

/-- A field width or height rounded down to its multiple and then clamped (R31). -/
def fieldSize (multiple v : Nat) : Nat := clamp 256 4096 (v / multiple * multiple)

/-- The range of a setting (R32). -/
def settingRange : Setting → Nat × Nat
  | .fragileCap => (50, 8000000)
  | .settleDwell => (0, 5000)
  | .moveTimeout => (1, 120)
  | .readoutAllowance => (100, 10000)
  | .lampLevel => (0, 1023)
  | .warmUpTime => (1, 600)
  | .lampTolerance => (1, 64)
  | .idleTime => (1, 120)
  | .calibrationLife => (30, 1440)
  | .linkWarningLimit => (8, 191)

/-- A given setting brought into its range (R33). -/
def clampSetting (x : Setting) (v : Nat) : Nat :=
  clamp (settingRange x).1 (settingRange x).2 v

/-- The settings of a SET_CAPTURE, or none where it carries no setting, an unknown one, or one twice
(R33). -/
def captureSettings (given : List (Option Setting × Nat)) : Option (List (Setting × Nat)) :=
  let known := given.filterMap fun p => p.1.map fun x => (x, p.2)
  if given.isEmpty || known.length != given.length || !decide (known.map (·.1)).Nodup then none else some known

/-- The value a SET_CAPTURE gives a setting, clamped, or the present value (R33). -/
def settingOr (given : List (Setting × Nat)) (x : Setting) (present : Nat) : Nat :=
  match given.find? (·.1 == x) with
  | some p => clampSetting x p.2
  | none => present

/-- The settings after a SET_CAPTURE (R33). -/
def Settings.updated (s : Settings) (given : List (Setting × Nat)) : Settings :=
  { fragileCap := settingOr given .fragileCap s.fragileCap
    settleDwell := settingOr given .settleDwell s.settleDwell
    moveTimeout := settingOr given .moveTimeout s.moveTimeout
    readoutAllowance := settingOr given .readoutAllowance s.readoutAllowance
    lampLevel := settingOr given .lampLevel s.lampLevel
    warmUpTime := settingOr given .warmUpTime s.warmUpTime
    lampTolerance := settingOr given .lampTolerance s.lampTolerance
    idleTime := settingOr given .idleTime s.idleTime
    linkWarningLimit := settingOr given .linkWarningLimit s.linkWarningLimit }

/-- The cells of a grid, row by row. -/
def gridCells (columns rows : Nat) : List (Nat × Nat) :=
  (List.range rows).flatMap fun r => (List.range columns).map fun c => (c, r)

/-- The cells of a grid in serpentine order: even rows left to right, odd rows right to left (R17). -/
def serpentine (columns rows : Nat) : List (Nat × Nat) :=
  (List.range rows).flatMap fun r =>
    (if r % 2 = 0 then List.range columns else (List.range columns).reverse).map fun c => (c, r)

/-- The rungs of a ladder with their indices. -/
def indexed (ladder : List Nat) : List LadderRung :=
  ladder.zipIdx.map fun p => { index := p.2, time := p.1 }

/-- The rungs a fragile cap keeps after a kept rung: each rung's time is cut to the cap, and a rung that
equals the one kept before it is left out (R36). -/
def capRungs (cap : Nat) : Option Nat → List LadderRung → List LadderRung
  | _, [] => []
  | before, r :: rest =>
    let t := min r.time cap
    if before = some t then capRungs cap before rest
    else { r with time := t } :: capRungs cap (some t) rest

/-- The effective ladder of a try (R36). -/
def effectiveLadder (ladder : List Nat) (handling : Handling) (cap : Nat) : List LadderRung :=
  match handling with
  | .normal => indexed ladder
  | .fragile => capRungs cap none (indexed ladder)

/-- The extension cap of a try (R38). -/
def extensionCap (handling : Handling) (cap : Nat) : Nat :=
  match handling with
  | .normal => Config.maxExposureTime
  | .fragile => cap

/-- The settle dwell applied at an entry to SETTLING, in ms (R37). -/
def effectiveDwell (handling : Handling) (dwell : Nat) : Nat :=
  match handling with
  | .normal => dwell
  | .fragile => min (2 * dwell) 5000

/-- The rung after a rung of an effective ladder, if there is one (R53). -/
def nextRung (ladder : List LadderRung) (index : Nat) : Option LadderRung :=
  (ladder.dropWhile fun r => r.index != index).tail.head?

/-- The nominal time of a rung of an effective ladder (R39). -/
def rungTime (ladder : List LadderRung) (index : Nat) : Nat :=
  ((ladder.find? fun r => r.index == index).map (·.time)).getD 0

/-- The nominal time of the rung in progress (R39, R54). -/
def TryContext.nominal (c : TryContext) : Nat :=
  match c.rung with
  | .step i => rungTime c.ladder i
  | .ext => c.extTime

/-- The repeat count of the rung in progress (R38). -/
def TryContext.repeatCount (c : TryContext) : Nat :=
  match c.rung with
  | .step i => c.repeats.getD i 0
  | .ext => c.extRepeats

/-- The context with the repeat count of the rung in progress raised by one (R52). -/
def TryContext.raiseRepeat (c : TryContext) : TryContext :=
  match c.rung with
  | .step i => { c with repeats := c.repeats.modify i (· + 1) }
  | .ext => { c with extRepeats := c.extRepeats + 1 }

/-- The mask a STANDBY gives, as a set in rising order, or none where it is missing or names a region
outside 0..7 (R144). -/
def regionMask (given : Option (List Nat)) : Option (List RegionNo) :=
  match given with
  | none => none
  | some rs => if rs.all (· < 8) then some ((List.finRange 8).filter fun r => rs.contains r.val) else none

end Sys2Proof.Machine
end

