-- ==== Sys2Proof/Machine/StationFrames.lean ====
section
/-! DEFINITION. The frames that a port sends, byte by byte (R165): the kind bytes, and the bodies of answers and
notices. -/

namespace Sys2Proof

/-- DESIGN CHOICE (log 30), safe. The bytes of the fields an answer carries after its clamped flag: R165 gives no
layout. -/
opaque Config.answerFields : Machine.AnswerData → List Byte

/-- DESIGN CHOICE (log 30), safe. The bytes of the fields a notice carries after its number: R165 gives no layout. -/
opaque Config.noticeFields : Machine.Notice → List Byte

namespace Machine

/-- A request's place among the 28 kinds. -/
def RequestKind.index : RequestKind → Fin 48
  | .seated => 0
  | .unseated => 1
  | .atCell => 2
  | .moveFault => 3
  | .enrol => 4
  | .withdraw => 5
  | .retire => 6
  | .release => 7
  | .fetch => 8
  | .setDelivery => 9
  | .writeProfile => 10
  | .setField => 11
  | .setCapture => 12
  | .setClock => 13
  | .standby => 14
  | .warmRestart => 15
  | .calibrate => 16
  | .hold => 17
  | .free => 18
  | .mark => 19
  | .readStatus => 20
  | .readPlate => 21
  | .readCell => 22
  | .readProfile => 23
  | .readCalib => 24
  | .readFault => 25
  | .setFilter => 26
  | .resume => 27

/-- The kind byte of a request: a value of its own in 0x10..0x3F (R165, log 30). -/
def RequestKind.byte (k : RequestKind) : Byte := BitVec.ofNat 8 (0x10 + (Config.requestKindOrder k.index).val)

/-- The kind byte that an answer echoes (R165, R167). -/
def EchoKind.byte : EchoKind → Byte
  | .request k => k.byte
  | .raw b => b

/-- An answer code's place in the table of R168. -/
def AnswerCode.index : AnswerCode → Fin 256
  | .done => 0
  | .started => 1
  | .busy => 2
  | .role => 3
  | .unknown => 4
  | .full => 5
  | .duplicate => 6
  | .field => 7
  | .state => 8
  | .late => 9
  | .notReady => 10

/-- The byte of an answer code (R168, log 30). -/
def AnswerCode.byte (c : AnswerCode) : Byte := BitVec.ofNat 8 (Config.answerCodeOrder c.index).val

/-- The byte of the clamped flag (R165, log 30). -/
def clampedByte (clamped : Bool) : Byte := BitVec.ofNat 8 (Config.clampedOrder (if clamped then 1 else 0)).val

/-- The kind byte of a notice: 0x50..0x57 in the order PLATE, CELL, MOVE_TO, UNLOAD, LINK, LAMP, CALIB, STORE
(R165). -/
def noticeKindByte : NoticeKind → Byte
  | .plate => 0x50
  | .cell => 0x51
  | .moveTo => 0x52
  | .unload => 0x53
  | .link => 0x54
  | .lamp => 0x55
  | .calib => 0x56
  | .store => 0x57

/-- The kind byte of an answer (R165). -/
def answerKindByte : Byte := 0x40

/-- The body of an answer: request tag, request kind, answer code, clamped flag, then its fields, in 200 bytes at
most (R165). -/
def Answer.body (a : Answer) : List Byte :=
  a.tag :: a.kind.byte :: a.code.byte :: clampedByte a.clamped :: (Config.answerFields a.data).take (Config.maxBody - 4)

/-- The body of a notice: its number, then its fields, in 200 bytes at most (R165). -/
def noticeBody (number : Byte) (n : Notice) : List Byte :=
  number :: (Config.noticeFields n).take (Config.maxBody - 1)

/-- The kind of a notice (R165). -/
def Notice.kind : Notice → NoticeKind
  | .plate .. => .plate
  | .cell .. => .cell
  | .moveTo .. => .moveTo
  | .unload .. => .unload
  | .link .. => .link
  | .lamp .. => .lamp
  | .calib .. => .calib
  | .store .. => .store

/-- The bytes that a transmit line is sending (R165, R168, R172). -/
def Line.bytes : Line → List Byte
  | .idle => []
  | .answer a => stationFrame answerKindByte a.body
  | .notice number n => stationFrame (noticeKindByte n.kind) (noticeBody number n)

end Machine

end Sys2Proof
end

