-- ==== Sys2Proof/Machine/Flags.lean ====
section
/-! DEFINITION. The states and verdicts the part computes from its counts and readings: the link state of a
fault count (R115), tolerance of a reading (R49, R126), the review verdict (R51), what a role permits (R170),
what a filter passes (R171), and how straps resolve to roles (R169). -/

namespace Sys2Proof.Machine

/-- The link state of a fault count under a warning limit (R115). -/
def linkOf (limit count : Nat) : LinkState :=
  if Config.droppedCount ≤ count then .dropped
  else if Config.guardedCount ≤ count then .guarded
  else if limit ≤ count then .warned
  else .clean

/-- The torn-row allowance of a link state in REVIEW (R51, R115). -/
def tornAllowance : LinkState → Nat
  | .clean | .warned => 4
  | .guarded | .dropped => 0

/-- A reading lies within tolerance of a reference: |r − ref| × 256 ≤ tol × ref (R49, R94, R126). -/
def inTolerance (tol ref r : Nat) : Bool :=
  (max r ref - min r ref) * 256 ≤ tol * ref

/-- What REVIEW does with an exposure (R51). -/
inductive Verdict where
  | accept
  | again
  | giveUp
deriving DecidableEq, Repr

/-- The review of an exposure (R51). An entry still PENDING does not reach REVIEW (R49, R50). -/
def reviewVerdict (singleTry : Bool) (allowance : Nat) (e : Exposure) : Verdict :=
  match e.outcome with
  | .merged => .accept
  | .patched => if singleTry || e.torn.getD 0 ≤ allowance then .accept else .again
  | .unsteady => if singleTry then .giveUp else .again
  | .tornRepeat | .timedOut | .strayLost | .pending => .again

/-- The outcome of an entry at a frame end with `t` torn rows of `h` (R50). -/
def Exposure.atFrameEnd (e : Exposure) (t h : Nat) : Exposure :=
  if e.outcome = .merged then
    if t = 0 then e
    else if t < h then { e with outcome := .patched, torn := some t }
    else { e with outcome := .tornRepeat, torn := some h }
  else e

/-- The outcome of an entry at a frame timeout with `g` rows handed of `h` (R49, R50). -/
def Exposure.atTimeout (e : Exposure) (g h : Nat) (straySeen : Bool) : Exposure :=
  match e.outcome with
  | .pending => { e with outcome := .timedOut }
  | .merged =>
    if 0 < g then { e with outcome := .patched, torn := some (h - g) }
    else if straySeen then { e with outcome := .strayLost }
    else { e with outcome := .timedOut }
  | _ => e

/-- The class of a link state below DROPPED is moved by a new limit only in CLEAN and WARNED (R35). -/
def relimited (limit count : Nat) (link : LinkState) : LinkState :=
  match link with
  | .clean => if limit ≤ count then .warned else .clean
  | .warned => if limit ≤ count then .warned else .clean
  | l => l

/-- What the role of a port permits (R170). -/
def permits (role : Role) (kind : RequestKind) : Bool :=
  match kind with
  | .readStatus => true
  | .readPlate | .readCell | .readProfile | .readCalib | .readFault | .setFilter | .resume => role != .off
  | .seated | .unseated | .atCell | .moveFault => role == .transport
  | .enrol | .withdraw | .retire | .release | .fetch | .setDelivery | .writeProfile | .setField | .setCapture
  | .setClock | .standby | .warmRestart => role == .archive
  | .calibrate | .hold | .free => role == .archive || role == .console
  | .mark => role == .console

/-- The plate key a notice carries (R171). -/
def Notice.plateKey? : Notice → Option PlateKey
  | .plate key .. => some key
  | .cell c .. => some c.key
  | .moveTo c .. => some c.key
  | .unload key => some key
  | _ => none

/-- A filter passes a notice (R171). -/
def NoticeFilter.passes (f : NoticeFilter) (n : Notice) : Bool :=
  f.kinds.contains n.kind &&
    match n.plateKey? with
    | some key => (key ^^^ f.keyCode) &&& f.keyMask == 0
    | none => true

/-- The default kind set of a role (R171). -/
def defaultKinds : Role → List NoticeKind
  | .transport => [.moveTo, .unload, .plate]
  | .archive | .console => allNoticeKinds
  | .off => []

/-- The role a pair of role straps asks for (R169). -/
def strapRole (p : Straps) : Role :=
  match p.roleA, p.roleB with
  | false, false => .off
  | false, true => .transport
  | true, false => .archive
  | true, true => .console

/-- The rate a pair of rate straps gives (R169). -/
def strapRate (p : Straps) : Rate :=
  match p.rateA, p.rateB with
  | false, false => .baud115200
  | false, true => .baud460800
  | true, false => .baud921600
  | true, true => .baud3000000

/-- The role a port takes beside the roles of the lower-numbered ports: TRANSPORT and ARCHIVE go to the
lowest-numbered port that asks, and the others are OFF (R169). -/
def resolveRole (asked : Role) (lower : List Role) : Role :=
  if (asked = .transport ∨ asked = .archive) ∧ asked ∈ lower then .off else asked

end Sys2Proof.Machine
end

