-- ==== Sys2Proof/Machine/Density.lean ====
section
/-! DEFINITION. The arithmetic of one pixel: the row merge (R69 to R71), the density code (R78 to R80), the
histogram bin (R82), and the dark level, net code and flat gain of a calibration (R92, R95, R96). -/

namespace Sys2Proof.Machine

/-- The nominal time of the entry of an ordinal (R70). -/
def timeOf (list : List Exposure) (ordinal : Nat) : Nat :=
  ((list.find? fun e => e.ordinal == ordinal).map (·.time)).getD 0

/-- The monitor mean of the entry of an ordinal (R79). -/
def monitorOf (list : List Exposure) (ordinal : Nat) : Nat :=
  ((list.find? fun e => e.ordinal == ordinal).map (·.monitor)).getD 0

/-- One pixel of a merged row: camera code `c`, dark level `d`, flat gain `g`, the record's S and F, and
the exposure's ordinal (R69, R70). -/
def mergePixel (list : List Exposure) (satS floorF ordinal c d g : Nat) (a : Accum) : Accum :=
  if g = 0 then { a with dead := true }
  else if satS ≤ c then { a with seenSaturated := true }
  else if c < d + floorF then { a with seenStarved := true }
  else if a.hasBest = false ∨ timeOf list a.ordinal ≤ timeOf list ordinal then
    { a with best := (c - d) * g, ordinal := ordinal, hasBest := true }
  else a

/-- The pixel classes (R71). -/
inductive PixelClass where
  | dead
  | valid
  | satOnly
  | starvedOnly
  | unseen
deriving DecidableEq, Repr

/-- The class of a pixel (R71). -/
def Accum.cls (a : Accum) : PixelClass :=
  if a.dead then .dead
  else if a.hasBest then .valid
  else if a.seenSaturated then .satOnly
  else if a.seenStarved then .starvedOnly
  else .unseen

/-- How many pixels of a row are of a class. -/
def classCount (k : PixelClass) (row : List Accum) : Nat :=
  row.countP fun a => a.cls == k

/-- A class counter after a row changes (R71). -/
def recount (k : PixelClass) (before after : List Accum) (counter : Nat) : Nat :=
  counter + classCount k after - classCount k before

/-- One row merged: codes, dark levels, gains and accumulations of the row, pixel by pixel (R68). -/
def mergeRow (list : List Exposure) (satS floorF ordinal : Nat) :
    List CameraCode → List Nat → List Nat → List Accum → List Accum
  | c :: cs, d :: ds, g :: gs, a :: as =>
    mergePixel list satS floorF ordinal c.toNat d g a :: mergeRow list satS floorF ordinal cs ds gs as
  | _, _, _, _ => []

/-- The numerator of the density ratio (R79). -/
def densityNum (openLevel time monitor : Nat) : Nat := 16384 * openLevel * time * monitor

/-- The denominator of the density ratio (R79). -/
def densityDen (best tRef mRef : Nat) : Nat := best * tRef * mRef

/-- The unclamped code is at least `k`, for `k` above 0: 10^((2k − 1)/16384) × M ≤ N, with both sides
raised to the 16384th power so that it is a test of integers (R79). -/
def codeAtLeast (num den k : Nat) : Bool :=
  10 ^ (2 * k - 1) * den ^ 16384 ≤ num ^ 16384

/-- The largest `k` in `lo..hi` that passes a test which `lo` passes and which, once failed, stays failed:
bisection, with fuel for the halvings. -/
def largest (p : Nat → Bool) : Nat → Nat → Nat → Nat
  | 0, lo, _ => lo
  | fuel + 1, lo, hi =>
    if hi ≤ lo then lo
    else
      let mid := (lo + hi + 1) / 2
      if p mid then largest p fuel mid hi else largest p fuel lo (mid - 1)

/-- The code of a measured pixel: round-half-up(8192 × log10(N / M)), clamped into 0..Qceil (R79, R80). -/
def densityCode (num den qceil : Nat) : Nat :=
  largest (codeAtLeast num den) 17 0 qceil

/-- What the pass finds of a pixel: its summary count (R78). -/
inductive PixelCase where
  | dead
  | clipLight
  | clipDark
  | measured
deriving DecidableEq, Repr

/-- The case of a pixel (R78). -/
def pixelCase (list : List Exposure) (g : Nat) (a : Accum) : PixelCase :=
  if g = 0 then .dead
  else if a.hasBest = false then if a.seenSaturated then .clipLight else .clipDark
  else if monitorOf list a.ordinal = 0 then .clipDark
  else .measured

/-- The calibration quantities of a pass (R75). -/
structure References where
  openLevel : Nat
  tRef : Nat
  mRef : Nat
deriving DecidableEq, Repr

/-- The code of a pixel (R78 to R80). -/
def pixelCode (ref : References) (list : List Exposure) (qceil g : Nat) (a : Accum) : Nat :=
  match pixelCase list g a with
  | .dead => 65535
  | .clipLight => 0
  | .clipDark => qceil
  | .measured =>
    densityCode (densityNum ref.openLevel (timeOf list a.ordinal) (monitorOf list a.ordinal))
      (densityDen a.best ref.tRef ref.mRef) qceil

/-- The histogram bin of a code (R82). -/
def histogramBin (q : Nat) : Nat := min 63 (q / 1024)

/-- The histogram after one more pixel; a dead pixel adds nothing (R82). -/
def addToHistogram (h : List Nat) (c : PixelCase) (q : Nat) : List Nat :=
  if c = .dead then h else h.modify (histogramBin q) (· + 1)

/-- The dark level of a sum of four codes (R92), and the mean code of a flat (R95). -/
def meanOfFour (sum : Nat) : Nat := (sum + 2) / 4

/-- The flat gain of a pixel of mean code `o` and dark level `d` under the open level (R96): 0 for a dead
pixel. n × 4 < O is tested on o − d, which may be negative. -/
def flatGain (openLevel o d : Nat) : Nat :=
  if o * 4 < openLevel + d * 4 ∨ Config.calSaturation ≤ o then 0
  else min 65535 ((2 * (16384 * openLevel) + (o - d)) / (2 * (o - d)))

end Sys2Proof.Machine
end

