-- ==== Sys2Proof/Machine/Ops.lean ====
section
/-! DEFINITION. The named operations every block uses: the bytes of the frame store, the update of one block
of the state, the raising of notices, and the work of a station port (R167, R168, R171, R172). -/

namespace Sys2Proof.Machine

/-- What a command answers. -/
abbrev Result := Host.Outcome State Fault Refusal

/-! ## The frame store as bytes -/

/-- What a byte reads as that nothing has written: 0. DESIGN CHOICE (log 7), unsafe. -/
def unlistedByte : Byte := 0

/-- The canonical form of the store: addresses strictly rising, and no entry equal to what an unlisted
address reads as. -/
abbrev memoryWf (m : List Host.Cell) : Prop :=
  m.Pairwise (fun a b => a.1 < b.1) ∧ ∀ c ∈ m, c.2 ≠ unlistedByte

/-- One byte of the store. -/
def readByte (m : List Host.Cell) (a : Nat) : Byte :=
  ((m.find? fun c => c.1 == a).map (·.2)).getD unlistedByte

/-- Bytes of the store from an address on. -/
def readBytes (m : List Host.Cell) (a n : Nat) : List Byte :=
  (List.range n).map fun i => readByte m (a + i)

/-- Bytes as the entries of the canonical form, from an address on. -/
def entries (a : Nat) (bytes : List Byte) : List Host.Cell :=
  (bytes.zipIdx a).filterMap fun p => if p.1 = unlistedByte then none else some (p.2, p.1)

/-- The store after bytes are written from an address on; the canonical form is kept. -/
def writeBytes (m : List Host.Cell) (a : Nat) (bytes : List Byte) : List Host.Cell :=
  (m.filter fun c => c.1 < a) ++ entries a bytes ++ m.filter fun c => a + bytes.length ≤ c.1

/-- The region of an address (R136). -/
def regionOf (a : Nat) : Nat := a / Config.regionBytes

/-- The store after the regions outside a mask have lost their contents (R145, log 7). -/
def retainOnly (m : List Host.Cell) (mask : List RegionNo) : List Host.Cell :=
  m.filter fun c => mask.any fun r => r.val == regionOf c.1

/-- The use of a region: regions 0..6 are the slots, region 7 holds the calibration planes (R136). -/
def regionUse (r : RegionNo) : RegionUse :=
  if h : r.val < 7 then .slot ⟨r.val, h⟩ else .calibration

/-- The first byte of a region (R136). -/
def regionBase (r : Nat) : Nat := r * Config.regionBytes

/-- Where row `y` of a slot's accumulation plane begins: 8 bytes per pixel (R66, R81). -/
def accumAddr (k : SlotNo) (width y : Nat) : Nat := regionBase k.val + 8 * (y * width)

/-- Where row `y` of a slot's density plane begins: 2 bytes per pixel, from the start of the region
(R81). -/
def densityAddr (k : SlotNo) (width y : Nat) : Nat := regionBase k.val + 2 * (y * width)

/-- The planes of region 7 (R88). -/
inductive Plane where
  | dark
  | gain
  | sum
deriving DecidableEq, Repr

/-- The place of a plane in region 7: one after the other from the start of the region (R88). -/
def Plane.index : Plane → Nat
  | .dark => 0
  | .gain => 1
  | .sum => 2

/-- Where row `y` of a plane of region 7 begins (R88). -/
def planeAddr (p : Plane) (g : Geometry) (y : Nat) : Nat :=
  regionBase 7 + p.index * (2 * (g.width * g.height)) + 2 * (y * g.width)

/-! ## Blocks of the state -/

/-- A vector with one element replaced. -/
def setAt {α : Type} {n : Nat} (v : Vector α n) (i : Fin n) (x : α) : Vector α n := v.set i.val x i.isLt

/-- The state with the register's plates changed. -/
def State.onPlates (s : State) (f : List PlateRecord → List PlateRecord) : State := { s with plates := f s.plates }

/-- The state with the sequencer changed. -/
def State.onCsq (s : State) (f : Csq → Csq) : State := { s with csq := f s.csq }

/-- The state with the merge engine changed. -/
def State.onMge (s : State) (f : Mge → Mge) : State := { s with mge := f s.mge }

/-- The state with the calibration unit changed. -/
def State.onCal (s : State) (f : Cal → Cal) : State := { s with cal := f s.cal }

/-- The state with the pixel link receiver changed. -/
def State.onPlr (s : State) (f : Plr → Plr) : State := { s with plr := f s.plr }

/-- The state with the light table controller changed. -/
def State.onLtc (s : State) (f : Ltc → Ltc) : State := { s with ltc := f s.ltc }

/-- The state with the time base changed. -/
def State.onTbu (s : State) (f : Tbu → Tbu) : State := { s with tbu := f s.tbu }

/-- The state with the timers changed (R134): a start loads a preset, a stop clears it. -/
def State.onTimers (s : State) (f : Timers → Timers) : State := s.onTbu fun t => { t with timers := f t.timers }

/-- The state with the frame store controller changed. -/
def State.onFsc (s : State) (f : Fsc → Fsc) : State := { s with fsc := f s.fsc }

/-- The state with the delivery transmitter changed. -/
def State.onDlt (s : State) (f : Dlt → Dlt) : State := { s with dlt := f s.dlt }

/-- The state with one port changed. -/
def State.onPort (s : State) (p : PortNo) (f : Port → Port) : State :=
  { s with ports := setAt s.ports p (f (s.ports.get p)) }

/-- A slot's work record (R64). -/
def State.work (s : State) (k : SlotNo) : WorkRecord := s.mge.work.get k

/-- The state with one work record changed. -/
def State.onWork (s : State) (k : SlotNo) (f : WorkRecord → WorkRecord) : State :=
  s.onMge fun m => { m with work := setAt m.work k (f (m.work.get k)) }

/-- Bytes written to the store. -/
def State.write (s : State) (a : Nat) (bytes : List Byte) : State :=
  s.onFsc fun f => { f with mem := writeBytes f.mem a bytes }

/-- An entry of the region table (R136): only a slot's region has a holder. -/
def Fsc.region (f : Fsc) (r : RegionNo) : RegionEntry :=
  { use := regionUse r
    holder :=
      match regionUse r with
      | .slot k => f.holders.get k
      | .calibration => none
    retain := f.retain.get r }

/-- A row of a slot's accumulations (R66). Every row of the field lies in its region: R30 keeps the field at most
4096 by 4096 pixels, whose accumulation plane is as large as a region; the address is not tested (log 32). -/
def State.accumRow (s : State) (k : SlotNo) (y : Nat) : List Accum :=
  accums (readBytes s.fsc.mem (accumAddr k s.geometry.width y) (8 * s.geometry.width))

/-- A row of a plane of region 7 (R88). -/
def State.planeRow (s : State) (p : Plane) (y : Nat) : List Nat :=
  words16 (readBytes s.fsc.mem (planeAddr p s.geometry y) (2 * s.geometry.width))

/-- A row of a slot's density plane (R81). -/
def State.densityRow (s : State) (k : SlotNo) (y : Nat) : List Nat :=
  words16 (readBytes s.fsc.mem (densityAddr k s.geometry.width y) (2 * s.geometry.width))

/-! ## Reads that several blocks make -/

/-- The record of a key (R1). -/
def State.plate? (s : State) (key : PlateKey) : Option PlateRecord := s.plates.find? fun r => r.key == key

/-- The seated record (R7). -/
def State.seated? (s : State) : Option PlateRecord := s.plates.find? fun r => r.seated

/-- Some plate record has seated = yes. -/
def State.anySeated (s : State) : Bool := s.plates.any fun r => r.seated

/-- Some cell of the register is in a given state. -/
def State.anyCell (s : State) (p : CellState → Bool) : Bool := s.plates.any fun r => r.cells.any fun c => p c.state

/-- The cell record at a place of a plate's grid (R3). -/
def PlateRecord.cell? (r : PlateRecord) (column row : Nat) : Option CellRecord :=
  r.cells.find? fun c => c.column == column && c.row == row

/-- The cell record a reference names. -/
def State.cell? (s : State) (c : CellRef) : Option CellRecord :=
  (s.plate? c.key).bind fun r => r.cell? c.column c.row

/-- A calibration is running (R89). -/
def State.calibrating (s : State) : Bool := s.cal.op.isSome

/-- A flat calibration is running (R128). -/
def State.flatRunning (s : State) : Bool :=
  match s.cal.op with
  | some op => op.kind == .flat
  | none => false

/-! ## Notices -/

/-- A block raises a notice; it is offered to the ports at the end of the event (log 8). -/
def State.raise (s : State) (n : Notice) : State := { s with raised := s.raised ++ [n] }

/-- The PLATE notice of a record in a state (R4). -/
def PlateRecord.notice (r : PlateRecord) (state : PlateState) (removed : Bool) : Notice :=
  .plate r.key state r.seated r.holds r.kept r.failed removed

/-- The CELL notice of a cell record (R4). -/
def CellRecord.notice (c : CellRecord) (key : PlateKey) : Notice :=
  .cell ⟨key, c.column, c.row⟩ c.state c.triesUsed c.slot c.lastOutcome c.summary

/-- A cell's changes that a CELL notice reports (R4). -/
def CellRecord.changed (old new : CellRecord) : Bool :=
  old.state != new.state || old.triesUsed != new.triesUsed || old.slot != new.slot
    || old.lastOutcome != new.lastOutcome

/-- The record an event began with. -/
def baseOf (base : List PlateRecord) (key : PlateKey) : Option PlateRecord := base.find? fun r => r.key == key

/-- The CELL notices of an event for one record: one per changed cell, in serpentine order; none for a
record that the event created or withdrew (R4). -/
def cellNotices (base : List PlateRecord) (r : PlateRecord) : List Notice :=
  match baseOf base r.key with
  | none => []
  | some old =>
    if old.state ≠ .withdrawn ∧ r.state = .withdrawn then []
    else
      (serpentine r.columns r.rows).filterMap fun p =>
        match old.cell? p.1 p.2, r.cell? p.1 p.2 with
        | some a, some b => if a.changed b then some (b.notice r.key) else none
        | _, _ => none

/-- The UNLOAD notice of a record that enters CAPTURED, if it is seated (R9). -/
def unloadNotice (r : PlateRecord) : List Notice := if r.seated then [.unload r.key] else []

/-- The PLATE and UNLOAD notices of an event for one record: one PLATE for each state change, in order,
with UNLOAD after the entry to CAPTURED; one PLATE where only seated or the hold reasons changed; UNLOAD
for a CAPTURED record that became seated (R4, R7, R9, R10). A record that leaves ACTIVE or ENROLLED for
DONE or FAULTED has passed through CAPTURED (R10). -/
def plateNotices (base : List PlateRecord) (r : PlateRecord) : List Notice :=
  match baseOf base r.key with
  | none => [r.notice r.state false]
  | some old =>
    if old.state = r.state then
      if old.seated ≠ r.seated ∨ old.holds ≠ r.holds then
        r.notice r.state false ::
          (if r.state = .captured ∧ old.seated = false then unloadNotice r else [])
      else []
    else if r.state = .captured then r.notice .captured false :: unloadNotice r
    else if (r.state = .done ∨ r.state = .faulted) ∧ (old.state = .active ∨ old.state = .enrolled) then
      r.notice .captured false :: (unloadNotice r ++ [r.notice r.state false])
    else [r.notice r.state false]

/-- The PLATE notices of the records an event removed (R4). R13 does not say whether seated, the state and the hold
reasons are those before or after the removal: they are those the record had before the event. DESIGN CHOICE
(log 39), unsafe for a claim about those fields. -/
def removalNotices (base now : List PlateRecord) : List Notice :=
  (base.filter fun r => !now.any fun x => x.key == r.key).map fun r => r.notice r.state true

/-- The register's notices of an event, from the plates it began with and the plates it left: CELL first,
then PLATE and UNLOAD (R4). R4 gives no order between the CELL notices, or the PLATE notices, of two records
that one event changes: they go in enrolment order, and the PLATE notices of removed records go last. DESIGN
CHOICE (log 38), unsafe for a claim about that order. -/
def registerNotices (base now : List PlateRecord) : List Notice :=
  now.flatMap (cellNotices base) ++ now.flatMap (plateNotices base) ++ removalNotices base now

/-- The order among the notices that other blocks raise at one event: after the register's come MOVE_TO,
LINK, CALIB, LAMP and STORE. R145 gives CALIB, LAMP, STORE; the rest is a DESIGN CHOICE (log 8). -/
def otherNotices (raised : List Notice) : List Notice :=
  [NoticeKind.plate, .cell, .unload, .moveTo, .link, .calib, .lamp, .store].flatMap fun k =>
    raised.filter fun n => n.kind == k

/-- A port is offered a notice (R171, R172). -/
def Port.offer (p : Port) (n : Notice) : Port :=
  if p.filter.passes n then
    match p.gate with
    | .shut => p
    | .opened =>
      if p.notices.length < Config.maxNotices then
        { p with noticeNumber := p.noticeNumber + 1, notices := p.notices ++ [(p.noticeNumber + 1, n)] }
      else { p with noticeNumber := p.noticeNumber + 1, overrun := true }
  else p

/-- A free transmit line takes the oldest answer, or the oldest notice where no answer waits, the gate is
OPEN and PACE is not held (R168, R172). -/
def Port.pump (p : Port) : Port :=
  match p.line with
  | .idle =>
    match p.answers with
    | a :: rest => { p with line := .answer a, answers := rest }
    | [] =>
      if p.pace || p.gate == .shut then p
      else
        match p.notices with
        | n :: rest => { p with line := .notice n.1 n.2, notices := rest }
        | [] => p
  | _ => p

/-- The end of an event: the register's notices `ns` and then the others raised are offered to every port
in order, and every free line takes its next frame. -/
def State.finish (s : State) (ns : List Notice) : State :=
  { s with raised := [], ports := s.ports.map fun p => ((ns ++ otherNotices s.raised).foldl Port.offer p).pump }

/-- The end of an event that may have changed the register; `base` is the register it began with. -/
def State.announce (s : State) (base : List PlateRecord) : State := s.finish (registerNotices base s.plates)

/-- The end of an event that changes no plate record. -/
def State.flush (s : State) : State := s.finish []

/-! ## Requests and answers -/

/-- What an owning block answers (R168). -/
structure Reply where
  code : AnswerCode
  clamped : Bool
  data : AnswerData
deriving DecidableEq, Repr

/-- An answer without data. -/
def Reply.plain (code : AnswerCode) : Reply := { code := code, clamped := false, data := .none }

/-- An answer with data, DONE. -/
def Reply.withData (data : AnswerData) : Reply := { code := .done, clamped := false, data := data }

/-- DONE, with the clamped flag (R168). -/
def Reply.done (clamped : Bool) : Reply := { code := .done, clamped := clamped, data := .none }

/-- A port answers a frame that does not become outstanding (R167 rows 1 to 4): the answer is dropped, and the
bad-frame flag set, where 3 or more answers wait. -/
def Port.answerAside (p : Port) (tag : Byte) (kind : EchoKind) (r : Reply) : Port :=
  if Config.maxRefusals ≤ p.answers.length then { p with badFrame := true }
  else
    { p with answers := p.answers ++
        [{ tag := tag, kind := kind, code := r.code, clamped := r.clamped, data := r.data, forOutstanding := false }] }

/-- A port refuses a frame with a code (R167 rows 1 to 4). -/
def Port.refuse (p : Port) (tag : Byte) (kind : EchoKind) (code : AnswerCode) : Port :=
  p.answerAside tag kind (Reply.plain code)

/-- A port's framer after a good frame: back in HUNT (R166). -/
def Port.frameTaken (p : Port) : Port := { p with framer := .hunt }

/-- A request of a port becomes outstanding (R167 row 5). -/
def Port.take (p : Port) (tag : Byte) (kind : RequestKind) : Port := { p with outstanding := some (tag, kind) }

/-- The answer of a port's outstanding request joins its answer queue (R167). -/
def Port.reply (p : Port) (tag : Byte) (kind : RequestKind) (r : Reply) : Port :=
  { p with answers := p.answers ++
      [{ tag := tag, kind := .request kind, code := r.code, clamped := r.clamped, data := r.data,
         forOutstanding := true }] }

/-- A request wakes a RETAINING store (R147). -/
def State.wake (s : State) (p : PortNo) : State :=
  (s.onFsc fun f => { f with state := .waking }).raise (.store .waking .retaining .wake none (some p))

/-- A request is handed to its owning block, which answers it at that event (R167 row 5). -/
def State.hand (s : State) (q : Src) (kind : RequestKind) (handle : State → State × Reply) : State :=
  let r := handle (s.onPort q.port fun p => p.take q.tag kind)
  r.1.onPort q.port fun p => p.reply q.tag kind r.2

/-- A request of a port is refused with a code (R167 rows 2 to 4). -/
def State.refuse (s : State) (q : Src) (kind : RequestKind) (code : AnswerCode) : State :=
  s.onPort q.port fun p => p.refuse q.tag (.request kind) code

/-- A request is served without becoming outstanding, as READ_STATUS is at row 2 (R167). Where 3 answers wait, R175
clears the bad-frame flag and R167 sets it at the same event, in no order: the flag is cleared first, then set. DESIGN
CHOICE (log 50), unsafe for a claim about that flag. -/
def State.handAside (s : State) (q : Src) (kind : RequestKind) (handle : State → State × Reply) : State :=
  let r := handle s
  r.1.onPort q.port fun p => p.answerAside q.tag (.request kind) r.2

/-- A good frame has ended at a port (R166). -/
def State.frameTaken (s : State) (p : PortNo) : State := s.onPort p Port.frameTaken

/-- The row of R167 that a good request frame meets: of row 2, where the store is RETAINING, of rows 3 to 5
otherwise. -/
def State.judgeRequest (s : State) (q : Src) (kind : RequestKind) (handle : State → State × Reply) : State :=
  let p := s.ports.get q.port
  match s.fsc.state with
  | .retaining =>
    if p.outstanding.isSome then (s.wake q.port).refuse q kind .busy
    else if kind = .readStatus then (s.wake q.port).handAside q kind handle
    else (s.wake q.port).refuse q kind .notReady
  | _ =>
    if p.outstanding.isSome then s.refuse q kind .busy
    else if permits p.role kind then s.hand q kind handle
    else s.refuse q kind .role

/-- A good request frame is taken (R166, R167). While the store is COLD no part of the device takes requests
(R137), and the frame is lost (log 15). -/
def State.request (s : State) (q : Src) (kind : RequestKind) (handle : State → State × Reply) : State :=
  match s.fsc.state with
  | .cold => s
  | _ => (s.frameTaken q.port).judgeRequest q kind handle

/-- A request that may change the register, as a command: it is taken, and the event ends. -/
def State.serve (s : State) (q : Src) (kind : RequestKind) (handle : State → State × Reply) : Result :=
  .next ((s.request q kind handle).announce s.plates)

/-- A request that changes no plate record, as a command. -/
def State.serveQuiet (s : State) (q : Src) (kind : RequestKind) (handle : State → State × Reply) : Result :=
  .next (s.request q kind handle).flush

end Sys2Proof.Machine
end

