-- ==== Sys2Proof/Machine/Lamp.lean ====
section
/-! DEFINITION. The light table controller (R121 to R130): its shared operations, and the meanings of the lamp
and shutter-free commands WARM_UP_EXPIRY and MONITOR_SAMPLE. -/

namespace Sys2Proof.Machine

/-- The idle timer's preset in microseconds (R134). -/
def idlePreset (s : State) : Nat := s.settings.idleTime * 60000000

/-- The warm-up timer's preset in microseconds (R134). -/
def warmUpPreset (s : State) : Nat := s.settings.warmUpTime * 1000000

/-- A LAMP notice of the present state (R131). -/
def State.lampNotice (s : State) (old : LampState) (cause : LampCause) : State :=
  s.raise (.lamp s.ltc.lamp old s.ltc.drive s.ltc.last cause)

/-- The lamp is driven at the lamp level setting and enters WARMING in phase TIMED, with the warm-up timer
started, and the idle timer started unless a flat calibration runs (R122, R123, R128). -/
def State.lampWarm (s : State) (cause : LampCause) : State :=
  ((s.onLtc fun l =>
        { l with lamp := .warming, phase := some .timed, drive := s.settings.lampLevel, warmRef := none,
                 run := 0, last := none, steadyThroughout := false }).onTimers fun t =>
      { t with warmUp := some (warmUpPreset s), check := none,
               idle := if s.flatRunning then none else some (idlePreset s) }).lampNotice s.ltc.lamp cause

/-- A switch-on request: taken in OFF alone (R122). -/
def State.lampSwitchOn (s : State) : State :=
  match s.ltc.lamp with
  | .off => s.lampWarm .switchOn
  | _ => s

/-- A restart request, from any lamp state (R123). -/
def State.lampRestart (s : State) : State := s.lampWarm .restart

/-- A switch-off, without the notice (R128). -/
def State.lampDark (s : State) : State :=
  (s.onLtc fun l =>
      { l with lamp := .off, phase := none, drive := 0, warmRef := none, run := 0, steadyThroughout := false }).onTimers
    fun t => { t with warmUp := none, check := none, idle := none }

/-- A switch-off (R128): a LAMP notice where the lamp was not OFF. R145 lists the notice of a STANDBY only if the lamp
was lit, and R128 and R131 raise it for a FAILED lamp too: it is raised there. DESIGN CHOICE (log 52), unsafe for a
claim about the notices of a STANDBY that finds the lamp FAILED. -/
def State.lampSwitchOff (s : State) (cause : LampCause) : State :=
  match s.ltc.lamp with
  | .off => s.lampDark
  | old => s.lampDark.lampNotice old cause

/-- The lamp is WARMING, STEADY or DRIFTING (R128, R133). -/
def LampState.lit : LampState → Bool
  | .warming | .steady | .drifting => true
  | .off | .failed => false

/-- The CSQ reports an exposure start: the idle timer is started anew (R48, R128). -/
def State.lampExposureStart (s : State) : State :=
  s.onTimers fun t => { t with idle := some (idlePreset s) }

/-- A flat calibration has ended: the idle timer is started if the lamp is lit (R128). -/
def State.lampFlatEnded (s : State) : State :=
  if s.ltc.lamp.lit then s.onTimers fun t => { t with idle := some (idlePreset s) } else s

/-- An open average is discarded (R130). -/
def State.discardWindow (s : State) : State :=
  s.onLtc fun l => { l with windowOpen := false, windowSum := 0, windowSamples := 0 }

/-- The monitor mean of the open window (R129); without a sample the manual states none (log 4). -/
def Ltc.windowMean (l : Ltc) : Nat :=
  if l.windowSamples = 0 then (Config.emptyWindowMean l.windowSum).toNat
  else (l.windowSum + l.windowSamples / 2) / l.windowSamples

/-- The reference in use: m_ref while the calibration record holds it, else the warm-up reference
(R125). -/
def State.lampReference (s : State) : Option Nat :=
  match s.cal.record.mRef with
  | some m => some m
  | none => s.ltc.warmRef.map (·.toNat)

/-- The lamp after a check in tolerance (R126 row 2): the run rises to at most 5, and a lamp whose run
reaches 5 is STEADY. The notice's cause is WARMUP_END from WARMING and CHECK from DRIFTING (R131). -/
def State.checkPassed (s : State) : State :=
  let run := min Config.steadyRun (s.ltc.run + 1)
  let s1 := s.onLtc fun l => { l with run := run }
  if run = Config.steadyRun ∧ (s.ltc.lamp = .warming ∨ s.ltc.lamp = .drifting) then
    (s1.onLtc fun l => { l with lamp := .steady, phase := none }).lampNotice s.ltc.lamp
      (if s.ltc.lamp = .warming then .warmUpEnd else .check)
  else s1

/-- The lamp after a check out of tolerance (R126 row 3). -/
def State.checkMissed (s : State) : State :=
  let s1 := s.onLtc fun l => { l with run := 0 }
  if s.ltc.lamp = .steady then
    (s1.onLtc fun l => { l with lamp := .drifting, steadyThroughout := false }).lampNotice .steady .check
  else s1

/-- The lamp after a check below the floor: FAILED, without its effects on other blocks (R127). -/
def State.lampFail (s : State) : State :=
  ((s.onLtc fun l => { l with lamp := .failed, phase := none, drive := 0, run := 0, steadyThroughout := false }).onTimers
      fun t => { t with check := none, idle := none }).lampNotice s.ltc.lamp .floor

/-- WARM_UP_EXPIRY (R124): a warm-up timer that runs expires; the lamp enters phase CHECKING and the check
timer starts. A timer that is STOPPED does not expire (R134). -/
def execWarmUpExpiry (s : State) : Result :=
  match s.tbu.timers.warmUp with
  | none => .next s
  | some _ =>
    .next ((s.onLtc fun l => { l with phase := some .checking }).onTimers fun t =>
      { t with warmUp := none, check := some Config.checkPeriod })

/-- MONITOR_SAMPLE (R129): a sample is added while the window is OPEN. -/
def execMonitorSample (reading : Reading) (s : State) : Result :=
  if s.ltc.windowOpen then
    .next (s.onLtc fun l =>
      { l with windowSum := l.windowSum + reading.toNat, windowSamples := l.windowSamples + 1 })
  else .next s

end Sys2Proof.Machine
end

