-- ==== Sys2Proof/Machine/StoreRows.lean ====
section
/-! DEFINITION. The rows that the accesses of the store write: the cleared row (R67), the merged row (R68), the rows
of the calibration planes (R91, R92, R96) and the density row of a pass (R75 to R83); and the stop of an access
in progress (R140, R149). -/

namespace Sys2Proof.Machine

/-! ## Row merge and clear -/

/-- The row of cleared accumulations that a clear writes (R67). -/
def State.clearedStoreRow (s : State) (k : SlotNo) (y : Nat) : StoreRow :=
  { addr := accumAddr k s.geometry.width y
    bytes := accumBytes (List.replicate s.geometry.width Accum.cleared) }

/-- The accumulation row after a handed row is merged (R68). -/
def State.mergedRow (s : State) (k : SlotNo) (ordinal y : Nat) (codes : List CameraCode) : List Accum :=
  let w := s.work k
  mergeRow w.list w.satThreshold w.noiseFloor ordinal codes (s.planeRow .dark y) (s.planeRow .gain y)
    (s.accumRow k y)

/-- The accumulation row that a row merge writes back (R68). -/
def State.mergedStoreRow (s : State) (k : SlotNo) (ordinal y : Nat) (codes : List CameraCode) : StoreRow :=
  { addr := accumAddr k s.geometry.width y, bytes := accumBytes (s.mergedRow k ordinal y codes) }

/-! ## Calibration planes -/

/-- The sum plane's row after a frame's codes are added: frame 0 writes the codes themselves (R91). -/
def addCodes (frame : Nat) (sums : List Nat) (codes : List CameraCode) : List Nat :=
  if frame = 0 then codes.map (·.toNat) else List.zipWith (fun a c => a + c.toNat) sums codes

/-- The row that the add of a handed row of a calibration frame writes: of the sum plane, or for frame 3 of a dark
of the dark plane (R91, R92). -/
def State.addedStoreRow (s : State) (kind : CalKind) (frame y : Nat) (codes : List CameraCode) : StoreRow :=
  let sums := addCodes frame (s.planeRow .sum y) codes
  if kind = .dark ∧ frame = 3 then
    { addr := planeAddr .dark s.geometry y, bytes := wordBytes (sums.map meanOfFour) }
  else { addr := planeAddr .sum s.geometry y, bytes := wordBytes sums }

/-- The mean codes and dark levels of a row, pixel by pixel (R95). -/
def State.flatRow (s : State) (y : Nat) : List (Nat × Nat) :=
  List.zipWith (fun sum d => (meanOfFour sum, d)) (s.planeRow .sum y) (s.planeRow .dark y)

/-- The flat gains of a row (R96). -/
def State.gains (s : State) (op : CalOp) (y : Nat) : List Nat :=
  (s.flatRow y).map fun p => flatGain (op.openLevel.getD 0) p.1 p.2

/-- The gain row that the gain pass writes (R96). -/
def State.gainStoreRow (s : State) (op : CalOp) (y : Nat) : StoreRow :=
  { addr := planeAddr .gain s.geometry y, bytes := wordBytes (s.gains op y) }

/-! ## Finalization pass -/

/-- The calibration quantities a pass reads (R75). -/
def State.references (s : State) : References :=
  { openLevel := s.cal.record.openLevel.getD 0, tRef := s.cal.record.tRef, mRef := s.cal.record.mRef.getD 0 }

/-- The pass so far: codes of the row in reverse, histogram, and the three pixel counts. -/
structure PassTotals where
  codes : List Nat
  histogram : List Nat
  clipLight : Nat
  clipDark : Nat
  dead : Nat
deriving DecidableEq, Repr

/-- The totals after one more pixel (R78, R82, R83). -/
def PassTotals.add (ref : References) (list : List Exposure) (qceil : Nat) (t : PassTotals) (g : Nat) (a : Accum) :
    PassTotals :=
  let c := pixelCase list g a
  let q := pixelCode ref list qceil g a
  { codes := q :: t.codes
    histogram := addToHistogram t.histogram c q
    clipLight := if c = .clipLight then t.clipLight + 1 else t.clipLight
    clipDark := if c = .clipDark then t.clipDark + 1 else t.clipDark
    dead := if c = .dead then t.dead + 1 else t.dead }

/-- One row of the pass (R75). -/
def passRow (ref : References) (w : WorkRecord) (gains : List Nat) (row : List Accum) : PassTotals :=
  (gains.zip row).foldl (fun t p => t.add ref w.list (w.qceil.getD 0) p.1 p.2)
    { codes := [], histogram := w.histogram, clipLight := w.passClipLight, clipDark := w.passClipDark,
      dead := w.passDead }

/-- The totals of a slot's pass after one row (R75). -/
def State.passTotals (s : State) (k : SlotNo) (y : Nat) : PassTotals :=
  passRow s.references (s.work k) (s.planeRow .gain y) (s.accumRow k y)

/-- The density row that a pass writes (R81). -/
def State.densityStoreRow (s : State) (k : SlotNo) (y : Nat) : StoreRow :=
  { addr := densityAddr k s.geometry.width y, bytes := wordBytes (s.passTotals k y).codes.reverse }

/-! ## The row of an access -/

/-- The row that an access writes to the store (R141): none for a refresh, for a row of the open pass and for a row
read for the stream. -/
def State.storedRow? (s : State) (w : StoreWork) : Option StoreRow :=
  match w, s.cal.op with
  | .clear k y, _ => some (s.clearedStoreRow k y)
  | .merge k ordinal y codes, _ => some (s.mergedStoreRow k ordinal y codes)
  | .calibAdd frame y codes, some op => some (s.addedStoreRow op.kind frame y codes)
  | .gainRow y, some op => some (s.gainStoreRow op y)
  | .finalize k y, _ => some (s.densityStoreRow k y)
  | _, _ => none

/-- The row of an access is written to the store, if it writes one. -/
def State.writeRow (s : State) (row : Option StoreRow) : State :=
  match row with
  | some r => s.write r.addr r.bytes
  | none => s

/-- An access in progress is stopped (R140, R149): its result is not used, and the row it was forming still
reaches the store at its completion. DEDUCED (log 20) for R140; R149 states it. -/
def Access.stop (a : Access) (row : Option StoreRow) : Access :=
  match a.result with
  | .used => { a with result := .unused row }
  | .unused _ => a

/-- The access in progress is stopped where it does a given work (R140). -/
def State.stopAccess (s : State) (p : StoreWork → Bool) : State :=
  s.onFsc fun f =>
    { f with access := f.access.map fun a => if p a.work then a.stop (s.storedRow? a.work) else a }

/-- The access in progress completes: the store is free. -/
def State.accessDone (s : State) : State := s.onFsc fun f => { f with access := none }

/-- What the completion of an access does: a used result takes its effect, which includes the row it writes, and
a stopped access writes its row and changes nothing else (R140, R149). -/
def State.accessEnd (s : State) (result : AccessResult) (effect : State → State) : State :=
  match result with
  | .used => effect s.accessDone
  | .unused row => s.accessDone.writeRow row

/-- The access in progress is of a given work, and its result is used. -/
def State.busyWith (s : State) (p : StoreWork → Bool) : Bool :=
  match s.fsc.access with
  | some a => (a.result == .used) && p a.work
  | none => false

end Sys2Proof.Machine
end

