-- ==== Sys2Proof/Machine/Slots.lean ====
section
/-! DEFINITION. Plate records, cell records and slots: the changes the plate register makes (R2, R9, R10, R18),
the claim and return of a slot (R139, R140), and the work records and finalization queue of the merge engine
(R65, R67, R74). -/

namespace Sys2Proof.Machine

/-! ## Plate records -/

/-- Some cell of the record is PENDING. -/
def PlateRecord.hasPending (r : PlateRecord) : Bool := r.cells.any fun c => c.state == .pending

/-- No cell of the record is PENDING, EXPOSING or FINALIZING (R9). -/
def PlateRecord.captureOver (r : PlateRecord) : Bool :=
  r.cells.all fun c => c.state != .pending && c.state != .exposing && c.state != .finalizing

/-- Every cell of the record is KEPT or FAILED (R10). -/
def PlateRecord.complete (r : PlateRecord) : Bool :=
  r.cells.all fun c => c.state == .kept || c.state == .failed

/-- The plate state that follows a change of a cell (R9): CAPTURED when no cell is left to capture; from
CAPTURED back to ACTIVE or ENROLLED when a cell is PENDING again; from ENROLLED to ACTIVE when a seated
record has a PENDING cell. -/
def PlateRecord.recaptured (r : PlateRecord) : PlateRecord :=
  match r.state with
  | .active => if r.captureOver then { r with state := .captured } else r
  | .enrolled =>
    if r.captureOver then { r with state := .captured }
    else if r.seated && r.hasPending then { r with state := .active }
    else r
  | .captured => if r.hasPending then { r with state := if r.seated then .active else .enrolled } else r
  | _ => r

/-- A CAPTURED record whose cells are all KEPT or FAILED completes (R10). -/
def PlateRecord.completed (r : PlateRecord) (now : Seconds) : PlateRecord :=
  if r.state = .captured ∧ r.complete then
    { r with state := if r.failed = 0 then .done else .faulted, completion := some now }
  else r

/-- The record after a change of one of its cells (R9, R10). -/
def PlateRecord.settled (r : PlateRecord) (now : Seconds) : PlateRecord := r.recaptured.completed now

/-- The record with one cell changed. -/
def PlateRecord.onCell (r : PlateRecord) (column row : Nat) (f : CellRecord → CellRecord) : PlateRecord :=
  { r with cells := r.cells.map fun c => if c.column = column ∧ c.row = row then f c else c }

/-- The register with one record changed. -/
def State.onPlate (s : State) (key : PlateKey) (f : PlateRecord → PlateRecord) : State :=
  s.onPlates fun ps => ps.map fun r => if r.key = key then f r else r

/-- The register with one record removed; the records behind it close up (R1). -/
def State.removePlate (s : State) (key : PlateKey) : State :=
  s.onPlates fun ps => ps.filter fun r => r.key != key

/-- The plate state of a record, if the register holds it. -/
def State.plateState (s : State) (key : PlateKey) : Option PlateState := (s.plate? key).map (·.state)

/-- A change of a cell with the change of its plate that follows, without telling the LTC (R9, R22, R23). `g`
changes the record's counts. -/
def State.changeCellQuiet (s : State) (c : CellRef) (f : CellRecord → CellRecord) (g : PlateRecord → PlateRecord) :
    State :=
  s.onPlate c.key fun r => (g (r.onCell c.column c.row f)).settled s.tbu.clock

/-- A change of a cell with the change of its plate that follows; a record that enters ACTIVE is told to the
LTC, which takes a switch-on request (R9, R122). -/
def State.changeCell (s : State) (c : CellRef) (f : CellRecord → CellRecord) (g : PlateRecord → PlateRecord) : State :=
  let s1 := s.changeCellQuiet c f g
  if s1.plateState c.key = some .active ∧ s.plateState c.key ≠ some .active then s1.lampSwitchOn else s1

/-- The try limit of a record's cells, read from its profile at the event (R19). -/
def State.tryLimit (s : State) (r : PlateRecord) : Nat :=
  if (s.profiles.get r.profile).singleTry then 1 else 3

/-- A cell put back to PENDING by an abandonment or a loss (R20, R23). -/
def CellRecord.abandon (c : CellRecord) : CellRecord :=
  { c with state := .pending, slot := none, lastOutcome := .abandoned }

/-! ## Work records and slots -/

/-- A record that the head of the finalization queue names starts its pass (R74). -/
def State.startPass (s : State) : State :=
  match s.mge.queue with
  | [] => s
  | k :: _ =>
    if (s.work k).state = .queued then
      s.onWork k fun w =>
        { w with state := .running, rowsFinalized := 0, histogram := List.replicate 64 0, passClipLight := 0,
                 passClipDark := 0, passDead := 0 }
    else s

/-- The slot a store access works on. -/
def StoreWork.slot? : StoreWork → Option SlotNo
  | .clear k _ => some k
  | .merge k _ _ _ => some k
  | .finalize k _ => some k
  | .deliver k _ => some k
  | _ => none

/-- A row that waits for a slot. -/
def QueuedRow.isFor (r : QueuedRow) (k : SlotNo) : Bool :=
  match r.dest with
  | .capture j _ => j == k
  | .calib _ => false

/-- A slot is returned: FREE in the pool, its holder cleared, its work record FREE and out of the
finalization queue, its handed rows discarded, and the next queued record starts its pass (R65, R140). -/
def State.returnSlot (s : State) (k : SlotNo) : State :=
  (((((s.onFsc fun f => { f with held := setAt f.held k false, holders := setAt f.holders k none }).stopAccess
          fun w => w.slot? == some k).onPlr fun p => { p with queue := p.queue.filter fun r => !r.isFor k }).onWork k
      fun _ => WorkRecord.freed).onMge fun m => { m with queue := m.queue.filter fun j => j != k }).startPass

/-- The slots of a list are returned. -/
def State.returnSlots (s : State) (ks : List SlotNo) : State := ks.foldl State.returnSlot s

/-- The lowest-numbered FREE slot (R139). -/
def State.freeSlot? (s : State) : Option SlotNo := (List.finRange 7).find? fun k => !s.fsc.held.get k

/-- A slot is claimed for a cell: HELD, with its holder set (R139). -/
def State.claimSlot (s : State) (k : SlotNo) (c : CellRef) : State :=
  s.onFsc fun f => { f with held := setAt f.held k true, holders := setAt f.holders k (some c) }

/-- The clear of a slot begins: the record is CLEARING for its owner, with S and F, an empty list and
counters at 0 (R67). -/
def State.startClear (s : State) (k : SlotNo) (c : CellRef) (satS floorF : Nat) : State :=
  s.onWork k fun _ =>
    { WorkRecord.freed with state := .clearing, owner := some c, satThreshold := satS, noiseFloor := floorF }

/-- A record is handed over: it copies Qceil and joins the finalization queue, and starts its pass if it is
alone (R74). -/
def State.queuePass (s : State) (k : SlotNo) (qceil : Nat) : State :=
  ((s.onWork k fun w => { w with state := .queued, qceil := some qceil }).onMge fun m =>
    { m with queue := m.queue ++ [k] }).startPass

/-- A cell is taken out of the delivery queue (R152). -/
def State.dequeue (s : State) (c : CellRef) : State :=
  s.onDlt fun d => { d with queue := d.queue.filter fun x => x != c }

/-- The slots a record's cells hold (R18). -/
def PlateRecord.slots (r : PlateRecord) : List SlotNo := r.cells.filterMap fun c => c.slot

end Sys2Proof.Machine
end

