-- ==== Sys2Proof/Machine/LinkCore.lean ====
section
/-! DEFINITION. Triggers, window decisions and cancelled waits of the pixel link receiver (R105, R106, R110,
R118). -/

namespace Sys2Proof.Machine

/-- The PLR takes a request for a TRIGGER: the link is not DROPPED and no frame is awaited (R105). -/
def State.canTrigger (s : State) : Bool := s.plr.link != .dropped && s.plr.awaitedTag.isNone

/-- The PLR sends a TRIGGER (R105): a new tag, awaited; counts cleared; the decision WAITING or RELEASE; the
frame timer started at the exposure time plus the readout allowance. -/
def State.sendTrigger (s : State) (who : Requester) (time : Nat) (lamp : LampRequirement) (decision : Decision) :
    State :=
  (s.onPlr fun p =>
      { p with tagCounter := p.tagCounter + 1, awaitedTag := some (p.tagCounter + 1), cancelledTag := none,
               straySeen := false, rowsReleased := 0, tornCount := 0, exposureCharge := 0, exposureClean := true,
               decision := decision, shutterSeen := false, endPending := false, requester := some who,
               downlink := some { tag := p.tagCounter + 1, time := time, lamp := lamp } }).onTimers fun t =>
    { t with frame := some (time + s.settings.readoutAllowance * 1000) }

/-- The requester cancels the wait (R118): the timer is stopped, the awaited tag cleared, every row of the
frame removed; an open frame is discarded, and the tag of a frame that has not begun becomes the cancelled
tag. -/
def State.cancelWait (s : State) : State :=
  (s.onPlr fun p =>
      { p with awaitedTag := none, queue := [], endPending := false,
               reception := if p.reception = .receiving then .discarding else p.reception,
               cancelledTag :=
                 if p.reception = .receiving ∨ p.awaitedTag = none then p.cancelledTag else p.awaitedTag }).onTimers
    fun t => { t with frame := none }

/-- The requester decides RELEASE: every held row is released, and later rows as they are queued (R106). -/
def Plr.release (p : Plr) : Plr :=
  { p with decision := .release, rowsReleased := p.rowsReleased + (p.queue.filter fun r => !r.released).length,
           queue := p.queue.map fun r => { r with released := true } }

/-- The requester decides DRAIN: every held row is removed, and later good rows are thrown away (R106). -/
def Plr.drain (p : Plr) : Plr :=
  { p with decision := .drain, queue := p.queue.filter fun r => r.released }

/-- Held rows are removed at a timeout while the decision is WAITING (R106, R112). -/
def Plr.dropHeld (p : Plr) : Plr := { p with queue := p.queue.filter fun r => r.released }

end Sys2Proof.Machine
end

