-- ==== Sys2Proof/Machine/CalibrationOps.lean ====
section
/-! DEFINITION. The calibration unit's operation: its attempts and frames (R91, R94), the end of a dark (R92),
the passes and the end of a flat (R95, R96), failure (R97) and staleness (R99). -/

namespace Sys2Proof.Machine

/-- A CALIB notice made outside an operation, or at a start (R103). -/
def State.calibNotice (s : State) (kind : Option CalKind) (result : CalResult) (flat : Option (Nat × Nat × Nat))
    (reached : Option (Nat × Nat)) : State :=
  s.raise (.calib s.cal.record.state kind result flat reached)

/-- The record without its flat fields, in a state that has none (R86, R87). -/
def CalRecord.withoutFlat (r : CalRecord) (state : CalState) : CalRecord :=
  { r with state := state, lampLevel := none, openLevel := none, mRef := none, deadCount := none, flatTime := none }

/-- The record without its dark and flat fields, in a state that has none (R86, R87). -/
def CalRecord.withoutDark (r : CalRecord) (state : CalState) : CalRecord :=
  { r.withoutFlat state with geometry := none }

/-- The record state changes outside an operation, with its notice (R103). -/
def State.setCalRecord (s : State) (f : CalRecord → CalRecord) : State :=
  (s.onCal fun c => { c with record := f c.record }).calibNotice none .none none none

/-- The CAL's operation changed. -/
def State.onOp (s : State) (f : CalOp → CalOp) : State := s.onCal fun c => { c with op := c.op.map f }

/-- A work of calibration accumulation (R141). -/
def StoreWork.isCalib : StoreWork → Bool
  | .calibAdd .. | .openRow _ | .gainRow _ => true
  | _ => false

/-- A calibration ends: the operation context is cleared, and after a flat the idle timer is started if the
lamp is lit (R97, R128). -/
def State.endCalibration (s : State) (op : CalOp) : State :=
  let s1 := s.onCal fun c => { c with op := none }
  match op.kind with
  | .dark => s1
  | .flat => s1.lampFlatEnded

/-- The calibration fails with a reason (R97): the wait is cancelled, the open average discarded, the pass
stopped, the context cleared, and a CALIB notice raised with the frame and repeat count reached: those of the context,
also in LAMP_WAIT and in the passes, where R103 does not say which they are. DESIGN CHOICE (log 55), unsafe for a claim
about them there. -/
def State.failCalibration (s : State) (reason : CalResult) : State :=
  match s.cal.op with
  | none => s
  | some op =>
    ((s.cancelWait.discardWindow.stopAccess StoreWork.isCalib).endCalibration op).calibNotice (some op.kind) reason
      none (some (op.frame, op.repeats))

/-- Every row's tally is k + 1: frame k is complete (R91). -/
def State.frameComplete (s : State) (k : Nat) : Bool :=
  (List.range s.geometry.height).all fun y => s.cal.tally.getD y 0 == k + 1

/-- The dark is complete (R92). -/
def State.darkComplete (s : State) (op : CalOp) : State :=
  ((s.onCal fun c => { c with record := { c.record with state := .darkOnly, geometry := some s.geometry } }).endCalibration
    op).calibNotice (some .dark) .done none none

/-- The context of an operation whose next attempt has not been triggered. -/
def CalOp.rest (op : CalOp) : CalOp := { op with inFlight := false, reported := false, failedTest := false }

/-- The sum of the four recorded means, rounded: m_ref (R94). -/
def meanOfMeans (means : List Nat) : Nat := (means.sum + 2) / 4

/-- An attempt of frame k has ended, with every row handed from it written (R91). After frame 3 of a flat the context
keeps frame 3 and its repeats through the passes, for which R95 and R96 set none. DESIGN CHOICE (log 55), unsafe for a
claim about what READ_CALIB or the notice of a failure gives as frame and repeat count in a pass. -/
def State.attemptEnded (s : State) (op : CalOp) : State :=
  if s.frameComplete op.frame then
    if op.frame < 3 then s.onOp fun o => { o.rest with frame := o.frame + 1, repeats := 0 }
    else
      match op.kind with
      | .dark => s.darkComplete op
      | .flat => s.onOp fun o => { o.rest with phase := .openPass, mRef := some (meanOfMeans o.means), passRow := 0 }
  else if op.repeats < 2 then s.onOp fun o => { o.rest with repeats := o.repeats + 1 }
  else s.failCalibration (if op.failedTest then .lamp else .link)

/-- A row of a calibration frame waits in the PLR's queue. -/
def QueuedRow.isCalib (r : QueuedRow) : Bool :=
  match r.dest with
  | .capture .. => false
  | .calib _ => true

/-- The attempt in flight ends once the PLR has reported it and the MGE has written every handed row
(R91). -/
def State.pollAttempt (s : State) : State :=
  match s.cal.op with
  | none => s
  | some op =>
    if op.phase = .frames ∧ op.inFlight ∧ op.reported ∧ (s.plr.queue.all fun r => !r.isCalib)
        ∧ !s.busyWith StoreWork.isCalib then
      s.attemptEnded op
    else s

/-- A calibration attempt is triggered (R90, R91, R93): with a lamp requirement and a window test for a flat,
with neither for a dark. -/
def State.triggerAttempt (s : State) (op : CalOp) : State :=
  let s1 :=
    match op.kind with
    | .dark => s.sendTrigger (.calib op.frame) s.cal.record.tRef .none .release
    | .flat => s.sendTrigger (.calib op.frame) s.cal.record.tRef .steady .waiting
  s1.onOp fun o => { o with phase := .frames, inFlight := true, reported := false, failedTest := false }

/-- The CAL triggers its next attempt: a dark at once, a flat at the first event at which the lamp is STEADY
(R90, R93). -/
def State.pollAttemptTrigger (s : State) : State :=
  match s.cal.op with
  | none => s
  | some op =>
    if (op.phase = .lampWait ∨ op.phase = .frames) ∧ op.inFlight = false
        ∧ (op.kind = .dark ∨ s.ltc.lamp = .steady) ∧ s.canTrigger then
      s.triggerAttempt op
    else s

/-- What the CAL does at the end of an event that may have moved it. -/
def State.pollCal (s : State) : State := s.pollAttempt.pollAttemptTrigger

/-- The window test of a flat attempt (R94): m_first is set by the first attempt to pass, and every later
one is tested against it. -/
def CalOp.passesTest (op : CalOp) (tol m : Nat) (steady : Bool) : Bool :=
  steady && match op.mFirst with
    | none => true
    | some first => inTolerance tol first m

/-- The context after an attempt has passed its window test: the mean of a frame is that of its first
attempt to pass (R94). -/
def CalOp.recordMean (op : CalOp) (m : Nat) : CalOp :=
  { op with mFirst := some (op.mFirst.getD m),
            means := if op.means.length = op.frame then op.means ++ [m] else op.means }

/-- A handed row of a calibration frame has been written, and its row tally follows (R91, R92). -/
def State.addCalibRow (s : State) (kind : CalKind) (frame y : Nat) (codes : List CameraCode) : State :=
  (s.writeRow (some (s.addedStoreRow kind frame y codes))).onCal fun c => { c with tally := c.tally.set y (frame + 1) }

/-- The totals of the open pass after one row (R95). -/
def CalOp.addOpenRow (op : CalOp) (row : List (Nat × Nat)) : CalOp :=
  { op with netSum := op.netSum + (row.map fun p => p.1 - p.2).sum,
            netCount := op.netCount + row.countP fun p => decide (p.2 < p.1),
            satCount := op.satCount + row.countP fun p => decide (Config.calSaturation ≤ p.1),
            passRow := op.passRow + 1 }

/-- The end of the open pass (R95): SATURATED, DIM, or the open level and the gain pass. -/
def State.openPassEnded (s : State) (op : CalOp) : State :=
  if s.geometry.width * s.geometry.height < op.satCount * 100 then s.failCalibration .saturated
  else if op.netCount = 0 ∨ op.netSum / op.netCount < Config.minOpenLevel then s.failCalibration .dim
  else s.onOp fun o => { o with phase := .gainPass, openLevel := some (o.netSum / o.netCount), passRow := 0 }

/-- One row of the open pass has been read (R95). -/
def State.openRowDone (s : State) (y : Nat) : State :=
  let s1 := s.onOp fun o => o.addOpenRow (s.flatRow y)
  match s1.cal.op with
  | none => s1
  | some op => if op.passRow = s.geometry.height then s1.openPassEnded op else s1

/-- The flat is complete (R96): the flat fields enter the record, age is 0 and the state VALID. -/
def State.flatComplete (s : State) (op : CalOp) : State :=
  let o := op.openLevel.getD 0
  let m := op.mRef.getD 0
  ((s.onCal fun c =>
        { c with record :=
            { c.record with state := .valid, lampLevel := op.levelHeld, openLevel := some o, mRef := some m,
                            deadCount := some op.deadCount, flatTime := some s.tbu.clock, age := 0 } }).endCalibration
      op).calibNotice (some .flat) .done (some (o, m, op.deadCount)) none

/-- One row of the gain pass has been written (R96). -/
def State.gainRowDone (s : State) (op : CalOp) (y : Nat) : State :=
  let s1 := (s.writeRow (some (s.gainStoreRow op y))).onOp fun o =>
    { o with deadCount := o.deadCount + (s.gains op y).countP (· == 0), passRow := o.passRow + 1 }
  match s1.cal.op with
  | none => s1
  | some op => if op.passRow = s.geometry.height then s1.flatComplete op else s1

/-- A lamp-on minute ages the record (R99). -/
def State.ageCalibration (s : State) : State :=
  let r := s.cal.record
  if (r.state = .valid ∨ r.state = .stale) ∧ r.age < 65535 then
    let s1 := s.onCal fun c => { c with record := { c.record with age := c.record.age + 1 } }
    if r.state = .valid ∧ r.life ≤ r.age + 1 then s1.setCalRecord fun x => { x with state := .stale } else s1
  else s

/-- A new life in the record; a VALID record at or above it turns STALE (R35). -/
def State.setLife (s : State) (life : Nat) : State :=
  let s1 := s.onCal fun c => { c with record := { c.record with life := life } }
  if s.cal.record.state = .valid ∧ life ≤ s.cal.record.age then s1.setCalRecord fun x => { x with state := .stale }
  else s1

end Sys2Proof.Machine
end

