-- ==== Sys2Proof/Machine/CaptureOps.lean ====
section
/-! DEFINITION. The cell sequencer's operations (R41 to R62): starting a try, moving, triggering, reviewing,
ending and abandoning it, and what the sequencer tests at the end of an event. -/

namespace Sys2Proof.Machine

/-- The seated ACTIVE record with a PENDING cell (R41). -/
def State.capturable? (s : State) : Option PlateRecord :=
  s.plates.find? fun r => r.seated && r.state == .active && r.hasPending

/-- The calibration is VALID and the store READY (R41, R42). -/
def State.claimAllowed (s : State) : Bool := s.cal.record.state == .valid && s.fsc.state == .ready

/-- The start conditions of R41. -/
def State.startConditions (s : State) : Bool :=
  s.capturable?.isSome && s.claimAllowed && s.plr.link != .dropped

/-- A hold reason keeps a plate from exposure (R14). -/
def Holds.any (h : Holds) : Bool := h.console || h.move || h.lamp

/-- The sequencer in another state. -/
def State.setCsq (s : State) (x : CsqState) : State := s.onCsq fun c => { c with state := x }

/-- The context of the try in flight changed. -/
def State.onCtx (s : State) (f : TryContext → TryContext) : State := s.onCsq fun c => { c with ctx := c.ctx.map f }

/-- The sequencer in IDLE with its context cleared (R55, R56, R59). -/
def State.clearCsq (s : State) : State :=
  s.onCsq fun c => { c with state := .idle, ctx := none, frameReported := false }

/-- The context a try begins with: values copied from the profile, the effective ladder and the extension
cap formed, every repeat count 0 (R28, R36, R42). -/
def State.freshContext (s : State) (r : PlateRecord) (c : CellRef) (k : SlotNo) : TryContext :=
  let p := s.profiles.get r.profile
  let ladder := effectiveLadder p.ladder r.handling s.settings.fragileCap
  { cell := c, slot := k, ladder := ladder, satThreshold := p.satThreshold, noiseFloor := p.noiseFloor,
    extThreshold := p.extThreshold, singleTry := p.singleTry,
    extCap := extensionCap r.handling s.settings.fragileCap,
    rung := .step ((ladder.head?.map (·.index)).getD 0), repeats := List.replicate ladder.length 0,
    extRepeats := 0, extTaken := false, extTime := 0, clearComplete := false }

/-- A try begins in a slot: the context is formed and the slot's clear asked for (R42 steps 1 to 4, R56). -/
def State.beginTry (s : State) (r : PlateRecord) (c : CellRef) (k : SlotNo) : State :=
  let ctx := s.freshContext r c k
  (s.onCsq fun q => { q with ctx := some ctx, frameReported := false }).startClear k c ctx.satThreshold ctx.noiseFloor

/-- MOVE_TO for the cell of the try (R43): the next move number, a new move record, the move timer
started. -/
def State.sendMove (s : State) (c : CellRef) (handling : Handling) : State :=
  let n := s.csq.moveCounter + 1
  ((s.onCsq fun q =>
        { q with state := .moving, moveCounter := n, move := some { number := n, cell := c, status := .moving } }).onTimers
      fun t => { t with move := some (s.settings.moveTimeout * 1000000) }).raise (.moveTo c handling n)

/-- The first PENDING cell of a record in serpentine order (R17). -/
def PlateRecord.nextCell? (r : PlateRecord) : Option (Nat × Nat) :=
  (serpentine r.columns r.rows).find? fun p =>
    match r.cell? p.1 p.2 with
    | some c => c.state == .pending
    | none => false

/-- The claim (R42): the slot is HELD, the PRG names the cell, the try begins and MOVE_TO is sent. -/
def State.claim (s : State) (r : PlateRecord) (c : CellRef) (k : SlotNo) : State :=
  (((s.claimSlot k c).changeCellQuiet c (fun x => { x with state := .exposing, slot := some k }) id).beginTry r c
      k).sendMove c r.handling

/-- The settle timer is started; a dwell of 0 expires at that event (R37, R46). -/
def State.enterSettling (s : State) (handling : Handling) : State :=
  let dwell := effectiveDwell handling s.settings.settleDwell
  if dwell = 0 then s.setCsq .awaitLamp
  else (s.setCsq .settling).onTimers fun t => { t with settle := some (dwell * 1000) }

/-- The handling of the plate of a cell, read at the event (R37, R43). -/
def State.handlingOf (s : State) (c : CellRef) : Handling :=
  ((s.plate? c.key).map (·.handling)).getD .normal

/-- The trigger of the try (R48): an exposure list entry, a TRIGGER, the exposure start. The first-trigger
time is recorded at ordinal 0. -/
def State.triggerTry (s : State) (c : TryContext) : State :=
  let n := (s.work c.slot).list.length
  let e : Exposure :=
    { ordinal := n, rung := c.rung, time := c.nominal, monitor := 0, outcome := .pending, torn := none }
  ((((s.onWork c.slot fun w =>
            { w with list := w.list ++ [e],
                     firstTrigger := if n = 0 then some s.tbu.clock else w.firstTrigger }).sendTrigger
          (.capture c.slot n) c.nominal .steady .waiting).lampExposureStart).setCsq .exposing)

/-- The latest entry of the exposure list changed. -/
def State.onLatest (s : State) (k : SlotNo) (f : Exposure → Exposure) : State :=
  s.onWork k fun w => { w with list := w.list.modify (w.list.length - 1) f }

/-- The move record in another status (R38). -/
def MoveRecord.ended (m : MoveRecord) (status : MoveStatus) : MoveRecord := { m with status := status }

/-- The try in flight is abandoned (R20, R59, R60): the work of the sequencer's state is stopped, the cell
returns to PENDING with tries used unchanged, the slot is returned, and the context cleared. -/
def State.abandonTry (s : State) : State :=
  match s.csq.ctx with
  | none => s
  | some c =>
    let s1 : State :=
      match s.csq.state with
      | .moving =>
        (s.onTimers fun t => { t with move := none }).onCsq fun q =>
          { q with move := q.move.map fun m => m.ended .abandoned }
      | .settling => s.onTimers fun t => { t with settle := none }
      | .exposing => s.discardWindow.cancelWait
      | .readout => s.cancelWait
      | _ => s
    ((s1.changeCell c.cell CellRecord.abandon id).returnSlot c.slot).clearCsq

/-- The seated plate leaves capture (R59, R60): a try in flight is abandoned, and without one a sequencer
that waits to claim returns to IDLE. -/
def State.leaveCapture (s : State) : State :=
  match s.csq.ctx with
  | some _ => s.abandonTry
  | none =>
    match s.csq.state with
    | .awaitSlot | .paused .claim => s.setCsq .idle
    | _ => s

/-- A plate leaves capture by UNSEATED or WITHDRAW (R59): a try of another plate is not touched. -/
def State.leaveCaptureOf (s : State) (key : PlateKey) : State :=
  match s.csq.ctx with
  | some c => if c.cell.key = key then s.leaveCapture else s
  | none => s.leaveCapture

/-- A try ends with REPEATS or LIST_FULL (R19, R56): tries used rises; below the limit a new try of the
same cell begins at that event, at the limit the cell enters FAILED and its slot is returned. -/
def State.endTry (s : State) (c : TryContext) (outcome : LastOutcome) : State :=
  match s.plate? c.cell.key, s.cell? c.cell with
  | some r, some x =>
    if x.triesUsed + 1 < s.tryLimit r then
      ((s.changeCell c.cell (fun y => { y with triesUsed := y.triesUsed + 1, lastOutcome := outcome }) id).beginTry r
        c.cell c.slot).setCsq .awaitLamp
    else
      ((s.changeCell c.cell
            (fun y =>
              { y with triesUsed := y.triesUsed + 1, lastOutcome := outcome, state := .failed, slot := none })
            fun r => { r with failed := r.failed + 1 }).returnSlot c.slot).clearCsq
  | _, _ => s.clearCsq

/-- Hand-over (R55): the cell enters FINALIZING, its record joins the finalization queue with the Qceil of
the profile at that event, and the context is cleared. -/
def State.handOver (s : State) (c : TryContext) : State :=
  let qceil :=
    match s.plate? c.cell.key with
    | some r => (s.profiles.get r.profile).qceil
    | none => 0
  ((s.changeCell c.cell (fun x => { x with state := .finalizing }) id).queuePass c.slot qceil).clearCsq

/-- The next trigger of the try, with the list tested first: a full list ends the try with LIST_FULL
(R52 to R54). -/
def State.nextTrigger (s : State) (c : TryContext) : State :=
  if Config.maxExposures ≤ (s.work c.slot).list.length then s.endTry c .listFull else s.setCsq .awaitLamp

/-- The extension time (R54). -/
def TryContext.extensionTime (c : TryContext) : Nat := min (4 * c.nominal) c.extCap

/-- The conditions of the extension rung (R54). -/
def TryContext.wantsExtension (c : TryContext) (starvedOnly pixels : Nat) : Bool :=
  0 < c.extThreshold && c.extThreshold * pixels < starvedOnly * 1000 && !c.extTaken && c.nominal < c.extensionTime

/-- The extension decision (R54). -/
def State.decideExtension (s : State) (c : TryContext) : State :=
  let w := s.work c.slot
  if c.wantsExtension w.starvedOnly (s.geometry.width * s.geometry.height - w.dead) then
    (s.onCtx fun x => { x with extTaken := true, rung := .ext, extTime := c.extensionTime }).nextTrigger c
  else s.handOver c

/-- An accepted exposure advances the try (R53). -/
def State.acceptExposure (s : State) (c : TryContext) : State :=
  match c.rung with
  | .ext => s.handOver c
  | .step i =>
    match nextRung c.ladder i with
    | some r => (s.onCtx fun x => { x with rung := .step r.index }).nextTrigger c
    | none => s.decideExtension c

/-- A rung is repeated (R52): a repeat count already at 2 ends the try with REPEATS. -/
def State.repeatRung (s : State) (c : TryContext) : State :=
  if 2 ≤ c.repeatCount then s.endTry c .repeats else (s.onCtx TryContext.raiseRepeat).nextTrigger c

/-- REVIEW (R51): the decision on the latest exposure, at the event of entry. -/
def State.review (s : State) (c : TryContext) : State :=
  let s1 := s.onCsq fun q => { q with state := .review, frameReported := false }
  match (s.work c.slot).list.getLast? with
  | none => s1
  | some e =>
    match reviewVerdict c.singleTry (tornAllowance s.plr.link) e with
    | .accept => s1.acceptExposure c
    | .again => s1.repeatRung c
    | .giveUp => s1.endTry c .repeats

/-- A work of the row merge of handed rows (R141). -/
def StoreWork.isMerge : StoreWork → Bool
  | .merge .. => true
  | _ => false

/-- A row of a try waits in the PLR's queue. -/
def QueuedRow.isCapture (r : QueuedRow) : Bool := !r.isCalib

/-- The frame merged report (R72): the PLR has reported the end of the frame, and every handed row has been
merged. The sequencer enters REVIEW. -/
def State.pollMerged (s : State) : State :=
  match s.csq.ctx with
  | none => s
  | some c =>
    if s.csq.state = .readout ∧ s.csq.frameReported ∧ (s.plr.queue.all fun r => !r.isCapture)
        ∧ !s.busyWith StoreWork.isMerge then
      s.review c
    else s

/-- A paused sequencer leaves PAUSED when the seated record has no hold reason left (R57). -/
def State.pollPaused (s : State) : State :=
  match s.csq.state, s.seated? with
  | .paused rp, some r =>
    if r.holds.any then s
    else
      match rp, s.csq.ctx with
      | .claim, _ => if s.startConditions then s.setCsq .awaitSlot else s.setCsq .idle
      | .move, some c => s.sendMove c.cell (s.handlingOf c.cell)
      | .trigger, some _ => s.setCsq .awaitLamp
      | _, none => s
  | _, _ => s

/-- In IDLE, the start conditions (R41). -/
def State.pollIdle (s : State) : State :=
  match s.csq.state, s.capturable? with
  | .idle, some r =>
    if s.startConditions then if r.holds.any then s.setCsq (.paused .claim) else s.setCsq .awaitSlot else s
  | _, _ => s

/-- In AWAIT_SLOT (R42): back to IDLE when no cell can be captured or the link is DROPPED, to PAUSED at a
hold reason, and otherwise the claim of the lowest-numbered free slot. The PRG names a cell only while no
cell is in EXPOSING (R17). -/
def State.pollSlot (s : State) : State :=
  match s.csq.state with
  | .awaitSlot =>
    match s.capturable? with
    | none => s.setCsq .idle
    | some r =>
      if s.plr.link = .dropped then s.setCsq .idle
      else if r.holds.any then s.setCsq (.paused .claim)
      else if s.claimAllowed ∧ !s.anyCell (· == .exposing) then
        match r.nextCell?, s.freeSlot? with
        | some p, some k => s.claim r ⟨r.key, p.1, p.2⟩ k
        | _, _ => s
      else s
  | _ => s

/-- In AWAIT_LAMP (R47): PAUSED at a hold reason; a lamp that is OFF is asked for; the trigger goes out
under a STEADY lamp once the slot clear is complete. -/
def State.pollLamp (s : State) : State :=
  match s.csq.state, s.csq.ctx with
  | .awaitLamp, some c =>
    match s.plate? c.cell.key with
    | none => s
    | some r =>
      if r.holds.any then s.setCsq (.paused .trigger)
      else if s.ltc.lamp = .off then s.lampSwitchOn
      else if s.ltc.lamp = .steady ∧ c.clearComplete ∧ s.canTrigger
          ∧ (s.work c.slot).list.length < Config.maxExposures then
        s.triggerTry c
      else s
  | _, _ => s

/-- A hold reason of the seated record reaches a sequencer that waits to claim or to trigger (R42, R47). -/
def State.pollHold (s : State) : State :=
  match s.seated? with
  | none => s
  | some r =>
    if r.holds.any then
      match s.csq.state with
      | .awaitSlot => s.setCsq (.paused .claim)
      | .awaitLamp => s.setCsq (.paused .trigger)
      | _ => s
    else s

/-- What the sequencer does at the end of an event that may have moved it. -/
def State.pollCsq (s : State) : State := s.pollMerged.pollPaused.pollIdle.pollSlot.pollLamp

/-- The seated record takes a hold reason from the CSQ or the LTC (R14). -/
def State.addSeatedHold (s : State) (f : Holds → Holds) : State :=
  s.onPlates fun ps => ps.map fun r => if r.seated then { r with holds := f r.holds } else r

/-- A move ends as a failure (R45): the timer is stopped, the record changed, MOVE added to the seated
record, and the sequencer paused at MOVE. -/
def State.failMove (s : State) (status : MoveStatus) : State :=
  (((s.onTimers fun t => { t with move := none }).onCsq fun q =>
        { q with state := .paused .move, move := q.move.map fun m => m.ended status }).addSeatedHold
    fun h => { h with move := true })

/-- The window-end test of a try (R49): the mean is recorded, and the outcome is a provisional MERGED or
UNSTEADY. -/
def Exposure.atWindowEnd (e : Exposure) (m : Nat) (passes : Bool) : Exposure :=
  { e with monitor := m, outcome := if passes then .merged else .unsteady }

end Sys2Proof.Machine
end

