-- ==== Sys2Proof/Machine/LinkFaults.lean ====
section
/-! DEFINITION. The faults of the pixel link (R109 to R120): the fault count and the link state, the drop of
the link, torn rows, stray frames, and the end and timeout of a frame with their reports. -/

namespace Sys2Proof.Machine

/-- The kind, exposure and row of a fault, as the fault capture record takes them (R120). -/
structure FaultMark where
  kind : FaultKind
  exposure : Option Requester
  row : Option Nat
deriving DecidableEq, Repr

/-- The exposure of a fault: that of the awaited frame, and absent with no frame awaited (R120). With a frame that
has ended and whose report waits for the window-end decision, no frame is awaited (R111). -/
def Plr.faultExposure (p : Plr) : Option Requester := if p.awaitedTag.isSome then p.requester else none

/-- The fault capture record takes a fault if it is empty (R120). -/
def Plr.captureFault (p : Plr) (m : FaultMark) : Plr :=
  match p.capture with
  | some _ => p
  | none => { p with capture := some { kind := m.kind, exposure := m.exposure, row := m.row, count := p.faultCount } }

/-- The link enters DROPPED (R116): the wait and the queue are cleared, and the requester abandons its
work. -/
def State.dropLink (s : State) : State :=
  let s1 :=
    (s.onPlr fun p =>
        { p with awaitedTag := none, cancelledTag := none, straySeen := false, queue := [], reception := .between,
                 idleRun := 0, endPending := false }).onTimers fun t => { t with frame := none }
  (s1.leaveCapture).failCalibration .link

/-- The fault count takes a new value, and the link state is set from it at the same event (R114, R115). -/
def State.setFaultCount (s : State) (count : Nat) (cause : LinkCause) : State :=
  let n := min Config.maxFaultCount count
  let link := linkOf s.settings.linkWarningLimit n
  let s1 := s.onPlr fun p => { p with faultCount := n, link := link }
  if link = s.plr.link then s1
  else
    let s2 := s1.raise (.link link s.plr.link n cause)
    if link = .dropped then s2.dropLink else s2

/-- A fault of a weight is charged and captured, while the link is not DROPPED (R114, R116, R120). -/
def State.chargeFault (s : State) (m : FaultMark) (weight : Nat) : State :=
  if s.plr.link = .dropped then s
  else
    let s1 := s.onPlr fun p => { p with faultCount := min Config.maxFaultCount (p.faultCount + weight) }
    let s2 := s1.onPlr fun p => p.captureFault m
    s2.setFaultCount s2.plr.faultCount (.fault m.kind)

/-- A fault of an exposure, under its exposure charge: weight 8 while the charge is below 64, else 0
(R114). -/
def State.chargeRow (s : State) (m : FaultMark) : State :=
  if s.plr.link = .dropped then s
  else
    let s1 := s.onPlr fun p => { p with exposureClean := false }
    if s.plr.exposureCharge < Config.maxExposureCharge then
      (s1.onPlr fun p => { p with exposureCharge := p.exposureCharge + Config.rowWeight }).chargeFault m
        Config.rowWeight
    else s1.chargeFault m 0

/-- A row of the awaited frame is torn (R109). -/
def State.tearRow (s : State) (kind : FaultKind) (i : Nat) : State :=
  if s.plr.link = .dropped then s
  else
    (s.onPlr fun p => { p with tornCount := p.tornCount + 1 }).chargeRow
      { kind := kind, exposure := s.plr.faultExposure, row := some i }

/-- The rows of a range are torn, one fault each, lowest first; a drop of the link ends the tearing (R109
row 4, R111, R116). -/
def State.tearRows (s : State) (kind : FaultKind) (first count : Nat) : State :=
  (List.range count).foldl (fun x j => x.tearRow kind (first + j)) s

/-- A stray frame (R108, R113). -/
def State.strayFrame (s : State) : State :=
  (s.onPlr fun p => { p with reception := .discarding, straySeen := true }).chargeFault
    { kind := .stray, exposure := none, row := none } Config.rowWeight

/-- The frame end is reported to the requester (R50, R91, R111). -/
def State.reportFrameEnd (s : State) (torn : Nat) : State :=
  let s1 := (s.onTimers fun t => { t with frame := none }).onPlr fun p => { p with endPending := false }
  match s.plr.requester with
  | some (.capture k _) =>
    (s1.onLatest k fun e => e.atFrameEnd torn s.geometry.height).onCsq fun q => { q with frameReported := true }
  | some (.calib _) => s1.onOp fun o => { o with reported := true }
  | none => s1

/-- The timeout is reported to the requester, with the rows released (R49, R50, R91, R112). A try whose
window has not ended goes to REVIEW with its average discarded, and so does the average of an attempt
(R130). -/
def State.reportTimeout (s : State) (released : Nat) (straySeen : Bool) : State :=
  match s.plr.requester with
  | some (.capture k _) =>
    let s1 := if s.csq.state = .exposing then s.discardWindow else s
    (s1.onLatest k fun e => e.atTimeout released s.geometry.height straySeen).onCsq fun q =>
      { q with state := if q.state = .exposing then .readout else q.state, frameReported := true }
  | some (.calib _) => s.discardWindow.onOp fun o => { o with reported := true }
  | none => s

/-- The clean decrement, at the end of a frame with exposure clean yes (R111, R114). -/
def State.cleanDecrement (s : State) : State :=
  if s.plr.exposureClean then s.setFaultCount (s.plr.faultCount - Config.cleanDecrement) .cleanFrame else s

/-- The open frame ends (R111): missing rows are torn, a row count other than H is captured with weight 0
where no row was torn, the clean decrement is made, the awaited tag cleared, and the end reported unless the
window-end decision is awaited. `count` is the row count of a FRAME_END whose check passes. The count of a FRAME_END
whose check fails is not judged: R111 does not say whether a differing one is captured, and the model captures no
LENGTH fault for it. DESIGN CHOICE (log 53), unsafe for a claim about the capture record after such a FRAME_END. -/
def State.endFrame (s : State) (count : Option Nat) : State :=
  let missing := s.geometry.height - s.plr.nextRow
  let s1 := s.tearRows .length s.plr.nextRow missing
  if s1.plr.link = .dropped then s1
  else
    let wrongCount : Bool :=
      match count with
      | some n => n != s.geometry.height
      | none => false
    let s2 : State :=
      if missing = 0 ∧ wrongCount then
        s1.chargeFault { kind := .length, exposure := s1.plr.faultExposure, row := none } 0
      else s1
    let s3 := (s2.cleanDecrement).onPlr fun p => { p with reception := .between, awaitedTag := none }
    if s3.plr.decision = .waiting then s3.onPlr fun p => { p with endPending := true }
    else s3.reportFrameEnd s3.plr.tornCount

/-- The requester decides the window, and a frame end that waited for the decision is reported (R106,
R111). -/
def State.decideWindow (s : State) (release : Bool) : State :=
  let s1 := s.onPlr fun p => if release then p.release else p.drain
  if s.plr.endPending then s1.reportFrameEnd s1.plr.tornCount else s1

/-- A good row of the awaited frame (R109 row 5, R110): thrown away under DRAIN, torn at a full queue, and
queued otherwise, released or held by the decision. -/
def State.queueRow (s : State) (i : Nat) (codes : List CameraCode) : State :=
  let s1 := s.onPlr fun p => { p with nextRow := i + 1 }
  match s.plr.decision, s.plr.requester with
  | .drain, _ => s1
  | _, none => s1
  | d, some who =>
    if Config.maxQueuedRows ≤ s.plr.queue.length then s1.tearRow .overflow i
    else
      s1.onPlr fun p =>
        { p with queue := p.queue ++ [{ dest := who, row := i, codes := codes, released := d == .release }],
                 rowsReleased := if d = .release then p.rowsReleased + 1 else p.rowsReleased }

/-- A thrown-away row (R109 row 3). -/
def State.throwRow (s : State) (index : Nat) : State :=
  s.chargeRow { kind := .sequence, exposure := s.plr.faultExposure, row := some index }

/-- A ROW of the open frame (R109): its check, its length, its index. -/
def State.receiveRow (s : State) (good : Bool) (index : Nat) (codeBytes : List Byte) : State :=
  let i := s.plr.nextRow
  let h := s.geometry.height
  if !good && i < h then (s.onPlr fun p => { p with nextRow := i + 1 }).tearRow .check i
  else if codeBytes.length ≠ 3 * s.geometry.width / 2 ∧ i < h then
    (s.onPlr fun p => { p with nextRow := i + 1 }).tearRow .length i
  else if index < i ∨ h ≤ index then s.throwRow index
  else
    let s1 := s.tearRows .sequence i (index - i)
    if s1.plr.link = .dropped then s1 else s1.queueRow index (unpackCodes codeBytes)

/-- The fault capture record with another count. -/
def FaultCapture.withCount (c : FaultCapture) (n : Nat) : FaultCapture := { c with count := n }

/-- A LINK notice with another count; any other notice as it is. -/
def Notice.withLinkCount (n : Notice) (count : Nat) : Notice :=
  match n with
  | .link new old _ cause => .link new old count cause
  | _ => n

/-- The counts that an event's fault capture and LINK notices carry are those after the whole event (R119,
R120). `s0` is the state the event began with. -/
def State.sealFaults (s0 s : State) : State :=
  let s1 : State :=
    match s0.plr.capture with
    | none => s.onPlr fun p => { p with capture := p.capture.map fun c => c.withCount p.faultCount }
    | some _ => s
  { s1 with raised := s1.raised.map fun n => n.withLinkCount s1.plr.faultCount }

/-- The link recovers at the 48th consecutive good IDLE (R117). -/
def State.recoverLink (s : State) : State :=
  (s.onPlr fun p => { p with faultCount := 0, link := .clean, idleRun := 0 }).raise
    (.link .clean .dropped 0 .recovered)

/-- An IDLE while DROPPED (R117). -/
def State.idleWhileDropped (s : State) (good : Bool) : State :=
  if good then
    if Config.idleRunLength ≤ s.plr.idleRun + 1 then s.recoverLink
    else s.onPlr fun p => { p with idleRun := p.idleRun + 1 }
  else s.onPlr fun p => { p with idleRun := 0 }

/-- A unit other than a good IDLE breaks the idle run while DROPPED (R117). -/
def State.breakIdleRun (s : State) : State := s.onPlr fun p => { p with idleRun := 0 }

end Sys2Proof.Machine
end

