-- ==== Sys2Proof/Machine/DeliveryOps.lean ====
section
/-! DEFINITION. The delivery link transmitter's operations (R152 to R161): starting a stream, sending its next
unit, asking for its next row, and cutting it. -/

namespace Sys2Proof.Machine

/-- The delivered column of a cell: mirrored for emulsion DOWN (R158). -/
def deliveredColumn (mirrored : Bool) (columns column : Nat) : Nat :=
  if mirrored then columns - 1 - column else column

/-- The header record of a stream, from the plate record, the cell record and the slot's work record
(R153, R156). -/
def State.buildHeader (s : State) (r : PlateRecord) (c : CellRecord) (w : WorkRecord) : HeaderRecord :=
  let m := w.summary.getD
    { clipLight := 0, clipDark := 0, dead := 0, tornRows := 0, exposuresMerged := 0, extensionUsed := false }
  { key := r.key, column := deliveredColumn (r.emulsion == .down) r.columns c.column, row := c.row,
    tryNumber := c.triesUsed, profile := r.profile, handling := r.handling, emulsion := r.emulsion,
    width := s.geometry.width, height := s.geometry.height, exposuresMerged := m.exposuresMerged,
    extensionUsed := m.extensionUsed, firstTrigger := w.firstTrigger.getD 0,
    finalizeTime := w.finalizeTime.getD 0, clipLight := m.clipLight, clipDark := m.clipDark, dead := m.dead,
    tornRows := m.tornRows, qceil := w.qceil.getD 0, histogram := w.histogram }

/-- The stream of a cell starts (R153). -/
def State.startStream (s : State) (c : CellRef) : State :=
  match s.plate? c.key, s.cell? c with
  | some r, some x =>
    match x.slot with
    | none => s
    | some k =>
      let t : Stream :=
        { cell := some c, slot := some k, mirrored := r.emulsion == .down, phase := .start, nextRow := 0,
          buffer := .empty, cut := false, crc := crc32Start, header := s.buildHeader r x (s.work k) }
      ((s.dequeue c).changeCell c (fun y => { y with state := .delivering }) id).onDlt fun d =>
        { d with stream := some t }
  | _, _ => s

/-- In AUTO the head of the queue is streamed when no stream runs and the store is READY (R153). -/
def State.autoStream (s : State) : State :=
  match s.dlt.mode, s.dlt.stream, s.dlt.queue with
  | .auto, none, c :: _ => if s.fsc.state = .ready then s.startStream c else s
  | _, _, _ => s

/-- The codes of a row in delivered order (R158). -/
def deliveredCodes (mirrored : Bool) (codes : List DensityCode) : List DensityCode :=
  if mirrored then codes.reverse else codes

/-- The next unit of a stream, where it can be sent (R157): a ROW needs a FULL buffer. -/
def Stream.nextUnit? (t : Stream) : Option DeliveryUnit :=
  match t.phase with
  | .start => some .start
  | .header => some (.header t.header)
  | .rows =>
    match t.buffer with
    | .full codes => some (.row t.nextRow (deliveredCodes t.mirrored codes))
    | _ => none
  | .finish => some (.finish t.cut t.nextRow t.crc)

/-- The next unit begins to be sent when the link is free and READY is high (R157). -/
def Dlt.sendNext (d : Dlt) : Dlt :=
  match d.link, d.stream with
  | none, some t =>
    if d.ready then
      match t.nextUnit? with
      | some u => { d with link := some { content := u, live := true } }
      | none => d
    else d
  | _, _ => d

/-- A delivery request is presented for the next density row (R157): the phase is HEADER or ROWS, the buffer
EMPTY, and rows remain. -/
def Stream.askRow (t : Stream) (height : Nat) : Stream :=
  if (t.phase = .header ∨ t.phase = .rows) ∧ t.buffer = .empty ∧ t.nextRow < height then
    { t with buffer := .reading }
  else t

/-- The link takes the stream's next unit, and the stream asks for its next row (R157). -/
def State.serveLink (s : State) : State :=
  s.onDlt fun d =>
    let e := d.sendNext
    { e with stream := e.stream.map fun t => t.askRow s.geometry.height }

/-- What the DLT does at the end of an event that may have let a stream start. -/
def State.pollDelivery (s : State) : State := s.autoStream.serveLink

/-- The unit being sent belongs to the running stream and is of a given sort. -/
def Dlt.sending (d : Dlt) (p : DeliveryUnit → Bool) : Bool :=
  match d.link with
  | some u => u.live && p u.content
  | none => false

/-- A START unit. -/
def DeliveryUnit.isStart : DeliveryUnit → Bool
  | .start => true
  | _ => false

/-- A HEADER unit. -/
def DeliveryUnit.isHeader : DeliveryUnit → Bool
  | .header _ => true
  | _ => false

/-- A ROW unit. -/
def DeliveryUnit.isRow : DeliveryUnit → Bool
  | .row .. => true
  | _ => false

/-- An END unit. -/
def DeliveryUnit.isFinish : DeliveryUnit → Bool
  | .finish .. => true
  | _ => false

/-- The stream's START has begun to be sent (R160). -/
def Dlt.startBegun (d : Dlt) (t : Stream) : Bool := t.phase != .start || d.sending DeliveryUnit.isStart

/-- A stream is cut (R160): its cell and slot are cleared, its buffer emptied unless a ROW is being sent, and
its END comes next. A stream whose START has not begun to be sent ends at once. A stream whose END with cut flag
0 is already being sent keeps that END, which ends it: R160 asks for an END with cut flag 1 at the next boundary,
and R159 lets the END under way end the stream. DESIGN CHOICE (log 44), unsafe for a claim that a cut stream's END
carries cut flag 1. -/
def Dlt.cutStream (d : Dlt) : Dlt :=
  match d.stream with
  | none => d
  | some t =>
    if d.startBegun t then
      let u : Stream :=
        { t with cell := none, slot := none, cut := true, phase := .finish,
                 buffer := if d.sending DeliveryUnit.isRow then t.buffer else .empty }
      { d with stream := some u }
    else { d with stream := none }

/-- The stream of a plate's cell is cut (R11, R12, R160). -/
def State.cutPlateStream (s : State) (key : PlateKey) : State :=
  match s.dlt.stream.bind (·.cell) with
  | some c =>
    if c.key = key then
      (s.onDlt Dlt.cutStream).stopAccess fun w =>
        match w with
        | .deliver .. => true
        | _ => false
    else s
  | none => s

end Sys2Proof.Machine
end

