-- ==== Sys2Proof/Machine/Arbiter.lean ====
section
/-! DEFINITION. The store arbiter (R141, R142): which work waits, which is granted, and which handed rows the
merge engine takes without store work (R68, R91). -/

namespace Sys2Proof.Machine

/-- The access class of a work (R141). -/
def StoreWork.cls : StoreWork → AccessClass
  | .refresh => .refresh
  | .clear .. | .merge .. => .rowMerge
  | .calibAdd .. | .openRow _ | .gainRow _ => .calibration
  | .finalize .. => .finalization
  | .deliver .. => .delivery

/-- An access of a class is in progress. -/
def State.inProgress (s : State) (k : AccessClass) : Bool :=
  match s.fsc.access with
  | some a => a.work.cls == k
  | none => false

/-- A row is merged only if its record is ACCUMULATING and its ordinal names the latest entry, whose outcome
is MERGED, or PATCHED once the frame has ended with the row still queued (R68, log 9). A handed row has an index
in 0..H − 1 and W codes (R68). -/
def State.rowWanted (s : State) (k : SlotNo) (ordinal row : Nat) (codes : List CameraCode) : Bool :=
  let w := s.work k
  w.state == .accumulating && row < s.geometry.height && codes.length == s.geometry.width &&
    match w.list.getLast? with
    | some e => e.ordinal == ordinal && (e.outcome == .merged || e.outcome == .patched)
    | none => false

/-- A calibration row is added only if its frame is the one being taken and its tally equals it (R91). -/
def State.calibRowWanted (s : State) (frame row : Nat) : Bool :=
  match s.cal.op with
  | some op => op.phase == .frames && op.frame == frame && s.cal.tally.getD row 0 == frame
  | none => false

/-- A released row that the MGE discards when it takes it, without store work (R68, R91). -/
def State.rowDiscarded (s : State) (r : QueuedRow) : Bool :=
  r.released &&
    match r.dest with
    | .capture k ordinal => !s.rowWanted k ordinal r.row r.codes
    | .calib frame => !s.calibRowWanted frame r.row

/-- The MGE takes and discards the rows at the head of the queue that it does not want, while no other row
is with it (R68, R91). -/
def State.takeDiscards (s : State) : State :=
  if s.inProgress .rowMerge || s.inProgress .calibration then s
  else s.onPlr fun p => { p with queue := p.queue.dropWhile s.rowDiscarded }

/-- The slot whose clear is in progress, with its next row (R67). R67 gives no order of the pixels: row 0 is cleared
first, and one row at each CLEAR_ROW_WRITE. DESIGN CHOICE (log 48), unsafe for the bytes that a stopped clear
leaves. -/
def State.clearWork? (s : State) : Option StoreWork :=
  ((List.finRange 7).find? fun k => (s.work k).state == .clearing).map fun k => .clear k (s.work k).rowsCleared

/-- The row at the head of the PLR's queue, if it is released and wanted, as work of the MGE (R68, R110). -/
def State.headWork? (s : State) : Option StoreWork :=
  match s.plr.queue with
  | r :: _ =>
    if r.released && !s.rowDiscarded r then
      match r.dest with
      | .capture k ordinal => some (.merge k ordinal r.row r.codes)
      | .calib frame => some (.calibAdd frame r.row r.codes)
    else none
  | [] => none

/-- The next row of a running open or gain pass (R95, R96). -/
def State.passWork? (s : State) : Option StoreWork :=
  match s.cal.op with
  | some op =>
    match op.phase with
    | .openPass => some (.openRow op.passRow)
    | .gainPass => some (.gainRow op.passRow)
    | _ => none
  | none => none

/-- The next row of the running finalization pass (R75). -/
def State.finalWork? (s : State) : Option StoreWork :=
  match s.mge.queue with
  | k :: _ => if (s.work k).state = .running then some (.finalize k (s.work k).rowsFinalized) else none
  | [] => none

/-- The row the stream asks for (R157). -/
def State.deliveryWork? (s : State) : Option StoreWork :=
  match s.dlt.stream with
  | some t =>
    match t.buffer, t.slot with
    | .reading, some k => some (.deliver k t.nextRow)
    | _, _ => none
  | none => none

/-- The works that could wait at the arbiter, most urgent first (R141). While an access of a class is in progress no
work of that class waits: a clear, a pass or a calibration has one row under way at a time. R141 does not say
whether new work of a class is presented while a stopped access of that class still completes: it is presented
at that completion. DESIGN CHOICE (log 41), unsafe for a claim about the waiting classes meanwhile. -/
def State.works (s : State) : List StoreWork :=
  (if (if s.inProgress .refresh then 1 else 0) < s.fsc.refreshOwed then [.refresh] else [])
    ++ (s.clearWork?.toList ++ s.headWork?.toList ++ s.passWork?.toList ++ s.finalWork?.toList
          ++ s.deliveryWork?.toList).filter fun w => !s.inProgress w.cls

/-- The classes that wait: none while the store is not READY (R141). -/
def State.waitingClasses (s : State) : List AccessClass :=
  if s.fsc.state = .ready then (s.works.map StoreWork.cls).dedup else []

/-- A granted row leaves the PLR's queue: the MGE takes it (R110). -/
def Plr.takeFor (p : Plr) (w : StoreWork) : Plr :=
  match w with
  | .merge .. | .calibAdd .. => { p with queue := p.queue.tail }
  | _ => p

/-- The grant: with no access in progress and the store READY, the most urgent waiting work takes the store
(R141). -/
def State.grant (s : State) : State :=
  match s.fsc.access, s.works with
  | none, w :: _ =>
    if s.fsc.state = .ready then
      (s.onFsc fun f => { f with access := some { work := w, result := .used } }).onPlr fun p => p.takeFor w
    else s
  | _, _ => s

/-- What the arbiter does at the end of an event that may have presented or ended work. -/
def State.arbitrate (s : State) : State :=
  let s1 := s.grant
  s1.onFsc fun f => { f with waiting := s1.waitingClasses }

/-- Everything that the blocks test at the end of an event: discarded rows, the calibration, the sequencer,
the delivery and the arbiter. -/
def State.pollAll (s : State) : State := s.takeDiscards.pollCal.pollCsq.pollDelivery.arbitrate

end Sys2Proof.Machine
end

