-- ==== Sys2Proof/Machine/Resets.lean ====
section
/-! DEFINITION. The resets: cold reset (R135, R137), and warm restart by the RESET pin or at the end of the
answer to WARM_RESTART (R22, R62, R65, R101, R104, R121, R134, R149, R161, R174). -/

namespace Sys2Proof.Machine

/-- A port after cold reset: its straps read and resolved beside the lower-numbered ports, the default filter
of its role, its PACE pin as it stands (R164, R169). -/
def coldPort (straps : Straps) (lower : List Role) (pace : Bool) : Port :=
  let role := resolveRole (strapRole straps) lower
  Port.fresh role (strapRate straps) (defaultKinds role) pace

/-- COLD_RESET (R135, and the cold reset values of every chapter): the reset state, with the straps read,
the pin levels and the waiting commands as they stand (log 2). R151 leaves the stream absent and says nothing of a
delivery unit in progress, whose end R161 gives at a warm restart alone: the unit is dropped at once, and the link is
idle. DESIGN CHOICE (log 56), unsafe for a claim about the link at a cold reset. -/
def execColdReset (port0 port1 port2 : Straps) (s : State) : Result :=
  let a := coldPort port0 [] (s.ports.get 0).pace
  let b := coldPort port1 [a.role] (s.ports.get 1).pace
  let c := coldPort port2 [a.role, b.role] (s.ports.get 2).pace
  .next { State.reset with
    pending := s.pending
    freeCount := s.freeCount
    ports := #v[a, b, c]
    dlt := { State.reset.dlt with ready := s.dlt.ready } }

/-- COLD_RESET_END (R137): the store enters TRAINING, without a notice. -/
def execColdResetEnd (s : State) : Result :=
  match s.fsc.state with
  | .cold => .next (s.onFsc fun f => { f with state := .training })
  | _ => .next s

/-- A cell state whose work a warm restart abandons (R22). -/
def CellState.restartLoses : CellState → Bool
  | .exposing | .finalizing => true
  | _ => false

/-- A cell record after warm restart (R22). -/
def CellRecord.restarted (c : CellRecord) : CellRecord :=
  if c.state.restartLoses then c.abandon
  else if c.state = .delivering then { c with state := .merged }
  else c

/-- A plate record after warm restart: only a record that a cell returns to PENDING in may change its state,
as R9 states (R22). -/
def PlateRecord.restarted (r : PlateRecord) : PlateRecord :=
  let x := { r with cells := r.cells.map CellRecord.restarted }
  if r.cells.any fun c => c.state.restartLoses then x.recaptured else x

/-- The slots a warm restart returns (R22). -/
def State.restartSlots (s : State) : List SlotNo :=
  s.plates.flatMap fun r => r.cells.filterMap fun c => if c.state.restartLoses then c.slot else none

/-- The cells a warm restart puts back at the head of the delivery queue (R161). -/
def State.restartStreams (s : State) : List CellRef :=
  s.plates.flatMap fun r => r.cells.filterMap fun c =>
    if c.state = .delivering then some ⟨r.key, c.column, c.row⟩ else none

/-- A work record after warm restart: a CODED one is kept whole (R65). -/
def WorkRecord.restarted (w : WorkRecord) : WorkRecord := if w.state = .coded then w else WorkRecord.freed

/-- The store state after warm restart (R149). R149 gives no row for COLD: a RESET_WARM in COLD leaves it COLD.
DESIGN CHOICE (log 43), unsafe for a claim about the store after it. -/
def StoreState.restarted : StoreState → StoreState
  | .retaining => .waking
  | x => x

/-- The store controller after warm restart (R149): the slots of lost cells are FREE, waiting requests are
dropped, and an access in progress completes to the store, `row` being what it writes, with its result not used;
refresh owed is kept. -/
def Fsc.restarted (f : Fsc) (lost : List SlotNo) (row : Option StoreRow) : Fsc :=
  { f with
    state := f.state.restarted
    held := lost.foldl (fun v k => setAt v k false) f.held
    holders := lost.foldl (fun v k => setAt v k none) f.holders
    access := f.access.map fun a => if a.work.cls = .refresh then a else a.stop row
    waiting := [] }

/-- The outstanding request of a port that drops its waiting answers: it stays outstanding while its answer is being
sent, since that frame completes, and otherwise loses its answer (R167, R173, R174, log 17). -/
def Port.stillOutstanding (p : Port) : Option (Byte × RequestKind) :=
  match p.line with
  | .answer a => if a.forOutstanding then p.outstanding else none
  | _ => none

/-- A port after warm restart (R174): role, rate, filter and gate kept; a frame being sent completes. -/
def Port.restarted (p : Port) : Port :=
  { p with framer := .hunt, outstanding := p.stillOutstanding, answers := [], notices := [], noticeNumber := 0,
           badFrame := false, overrun := false }

/-- The changes that warm restart itself makes, none of which raises a notice. -/
def State.warmRestart (s : State) : State :=
  { s with
    raised := []
    plates := s.plates.map PlateRecord.restarted
    csq := { state := .idle, ctx := none, frameReported := false, moveCounter := s.csq.moveCounter, move := none }
    mge := { work := s.mge.work.map WorkRecord.restarted, queue := [] }
    cal := { s.cal with op := none, tally := List.replicate s.geometry.height 0 }
    plr := Plr.cleared s.plr.tagCounter
    ltc := Ltc.cleared
    tbu := { s.tbu with timers := Timers.stopped }
    fsc := s.fsc.restarted s.restartSlots (s.fsc.access.bind fun a => s.storedRow? a.work)
    dlt :=
      { s.dlt with queue := s.restartStreams ++ s.dlt.queue, stream := none,
                   link := s.dlt.link.map fun u => { u with live := false } }
    ports := s.ports.map Port.restarted }

/-- After the restart the sequencer tests its start conditions and, in AUTO, the head of the queue is
streamed; what they change raises notices as at any event (R62, R161). -/
def State.resume (s : State) : State :=
  let s1 := s.warmRestart
  (s1.pollIdle.pollSlot.pollDelivery.arbitrate).announce s1.plates

/-- RESET_WARM (R22, R174): RESET with WARM held. -/
def execResetWarm (s : State) : Result := .next s.resume

end Sys2Proof.Machine
end

