-- ==== Sys2Proof/Machine/StoreEvents.lean ====
section
/-! DEFINITION. The meanings of the frame store's commands: bring-up and relock (R137, R148), refresh (R142),
and the completion of each class of access (R67, R68, R75, R91, R95, R96, R157). -/

namespace Sys2Proof.Machine

/-- The store enters FAULT with a reason and a STORE notice (R137, R148, R150). -/
def State.storeFault (s : State) (reason : FaultReason) : State :=
  (s.onFsc fun f => { f with state := .fault, reason := some reason }).raise
    (.store .fault s.fsc.state (.fault reason) none none)

/-- The store enters READY with a STORE notice; the CSQ tests its start conditions, a stream may start, and
the arbiter serves requests (R137, R148, R153). -/
def State.storeReady (s : State) (cause : StoreCause) : State :=
  ((s.onFsc fun f => { f with state := .ready }).raise (.store .ready s.fsc.state cause none
        none)).pollIdle.pollSlot.pollDelivery.arbitrate

/-- BRING_UP_PASS (R137): READY, or FAULT with reason SIZE where less than 1 GiB is fitted. -/
def execBringUpPass (fittedBytes : Nat) (s : State) : Result :=
  match s.fsc.state with
  | .training =>
    if Config.storeBytes ≤ fittedBytes then .next ((s.storeReady .bringUp).announce s.plates)
    else .next (s.storeFault .size).flush
  | _ => .next s

/-- BRING_UP_FAIL (R137): FAULT with reason TRAINING. -/
def execBringUpFail (s : State) : Result :=
  match s.fsc.state with
  | .training => .next (s.storeFault .training).flush
  | _ => .next s

/-- RELOCK_PASS (R148). -/
def execRelockPass (s : State) : Result :=
  match s.fsc.state with
  | .waking => .next ((s.storeReady .relock).announce s.plates)
  | _ => .next s

/-- RELOCK_FAIL (R148): FAULT with reason RELOCK. -/
def execRelockFail (s : State) : Result :=
  match s.fsc.state with
  | .waking => .next (s.storeFault .relock).flush
  | _ => .next s

/-- REFRESH_DUE (R142): refresh owed rises by one, to at most 2, while the store is READY, and the refresh may
be granted. -/
def execRefreshDue (s : State) : Result :=
  match s.fsc.state with
  | .ready => .next (s.onFsc fun f => { f with refreshOwed := min 2 (f.refreshOwed + 1) }).arbitrate
  | _ => .next s

/-- REFRESH_COMPLETE (R142): refresh owed falls by one and the arbiter grants the next waiting class. R142 sets refresh
owed to 0 at the acceptance of STANDBY and does not say what the completion of a refresh already in progress
then does: it leaves 0, or takes off a refresh that fell due after the wake. DESIGN CHOICE (log 42), unsafe for a
claim about that count. -/
def execRefreshComplete (s : State) : Result :=
  match s.fsc.access with
  | some a =>
    if a.work = .refresh then
      .next ((s.accessDone.onFsc fun f => { f with refreshOwed := f.refreshOwed - 1 }).arbitrate)
    else .next s
  | none => .next s

/-- The work record after a row merge: its counters follow the classes of the row's pixels (R71). -/
def WorkRecord.recounted (w : WorkRecord) (before after : List Accum) : WorkRecord :=
  { w with valid := recount .valid before after w.valid,
           satOnly := recount .satOnly before after w.satOnly,
           starvedOnly := recount .starvedOnly before after w.starvedOnly,
           dead := recount .dead before after w.dead }

/-- A row merge is complete: the accumulation row is written back and the counters follow (R68, R71). -/
def State.mergeDone (s : State) (k : SlotNo) (ordinal y : Nat) (codes : List CameraCode) : State :=
  (s.writeRow (some (s.mergedStoreRow k ordinal y codes))).onWork k fun w =>
    w.recounted (s.accumRow k y) (s.mergedRow k ordinal y codes)

/-- ROW_MERGE_COMPLETE (R68): the accumulation row of a handed row has been written; the next row is taken,
and the frame merged report may follow. -/
def execRowMergeComplete (s : State) : Result :=
  match s.fsc.access with
  | some ⟨.merge k ordinal y codes, result⟩ =>
    .next (((s.accessEnd result fun x => x.mergeDone k ordinal y codes).pollAll).announce s.plates)
  | _ => .next s

/-- A row of a clear has been written; with the last one the record is ACCUMULATING and the clear is reported
complete to the CSQ (R67). -/
def State.clearRowDone (s : State) (k : SlotNo) (y : Nat) : State :=
  let s1 := (s.writeRow (some (s.clearedStoreRow k y))).onWork k fun w => { w with rowsCleared := y + 1 }
  if s.geometry.height ≤ y + 1 then
    let s2 := s1.onWork k fun w => { w with state := .accumulating }
    match s.csq.ctx with
    | some c => if c.slot = k then s2.onCtx fun x => { x with clearComplete := true } else s2
    | none => s2
  else s1

/-- CLEAR_ROW_WRITE (R67). -/
def execClearRowWrite (s : State) : Result :=
  match s.fsc.access with
  | some ⟨.clear k y, result⟩ =>
    .next (((s.accessEnd result fun x => x.clearRowDone k y).pollAll).announce s.plates)
  | _ => .next s

/-- What a completed access of calibration accumulation has done (R91, R92, R95, R96). -/
def State.calibWorkDone (s : State) (w : StoreWork) : State :=
  match s.cal.op with
  | none => s
  | some op =>
    match w with
    | .calibAdd frame y codes => s.addCalibRow op.kind frame y codes
    | .openRow y => s.openRowDone y
    | .gainRow y => s.gainRowDone op y
    | _ => s

/-- CALIBRATION_ACCUMULATION_ROW (R91, R95, R96): a row of the sum, dark or gain plane has been written, or
a row of the open pass read. -/
def execCalibrationAccumulationRow (s : State) : Result :=
  match s.fsc.access with
  | some a =>
    if a.work.isCalib then
      .next (((s.accessEnd a.result fun x => x.calibWorkDone a.work).pollAll).announce s.plates)
    else .next s
  | none => .next s

/-- The entries of an exposure list that were merged (R83). -/
def mergedEntries (list : List Exposure) : List Exposure :=
  list.filter fun e => e.outcome == .merged || e.outcome == .patched

/-- The summary that a pass has formed (R83). -/
def WorkRecord.passSummary (w : WorkRecord) : Summary :=
  let es := mergedEntries w.list
  { clipLight := w.passClipLight, clipDark := w.passClipDark, dead := w.passDead,
    tornRows := (es.map fun e => if e.outcome = .patched then e.torn.getD 0 else 0).sum,
    exposuresMerged := es.length, extensionUsed := es.any fun e => e.rung == .ext }

/-- A work record whose pass is complete (R64, R77): CODED, with its summary and finalize time; S, F and the rows and
counts of the pass have no place in CODED. -/
def WorkRecord.coded (w : WorkRecord) (now : Seconds) : WorkRecord :=
  { w with state := .coded, satThreshold := 0, noiseFloor := 0, rowsFinalized := 0, passClipLight := 0,
           passClipDark := 0, passDead := 0, summary := some w.passSummary, finalizeTime := some now }

/-- The pass is complete (R77): the record is CODED with its summary and finalize time, the cell is MERGED
with its tries used raised, joins the delivery queue, and the next pass starts. -/
def State.passComplete (s : State) (k : SlotNo) : State :=
  let m := (s.work k).passSummary
  let s1 := ((s.onWork k fun w => w.coded s.tbu.clock).onMge
      fun x => { x with queue := x.queue.filter fun j => j != k }).startPass
  match (s.work k).owner with
  | none => s1
  | some c =>
    (s1.changeCell c
        (fun x =>
          { x with state := .merged, triesUsed := x.triesUsed + 1, summary := some m, lastOutcome := .finalized })
        id).onDlt fun d => { d with queue := d.queue ++ [c] }

/-- A density code row has been written, and rows finalized rises by one (R75, R81). -/
def State.finalRowDone (s : State) (k : SlotNo) (y : Nat) : State :=
  let t := s.passTotals k y
  let s1 := (s.writeRow (some (s.densityStoreRow k y))).onWork k fun w =>
    { w with rowsFinalized := y + 1, histogram := t.histogram, passClipLight := t.clipLight,
             passClipDark := t.clipDark, passDead := t.dead }
  if s.geometry.height ≤ y + 1 then s1.passComplete k else s1

/-- FINALIZATION_ROW_WRITE (R75, R77). -/
def execFinalizationRowWrite (s : State) : Result :=
  match s.fsc.access with
  | some ⟨.finalize k y, result⟩ =>
    .next (((s.accessEnd result fun x => x.finalRowDone k y).pollAll).announce s.plates)
  | _ => .next s

/-- The row buffer is FULL with the codes of the row read (R157). -/
def State.fillBuffer (s : State) (k : SlotNo) (y : Nat) : State :=
  s.onDlt fun d =>
    { d with stream := d.stream.map fun t =>
        { t with buffer := .full ((s.densityRow k y).map fun q => BitVec.ofNat 16 q) } }

/-- DELIVERY_READ_COMPLETE (R157, R160): the row buffer becomes FULL; a read whose stream has been cut is
discarded. A read writes nothing to the store. -/
def execDeliveryReadComplete (s : State) : Result :=
  match s.fsc.access with
  | some ⟨.deliver k y, result⟩ =>
    let s1 := if result = .used then s.accessDone.fillBuffer k y else s.accessDone
    .next (s1.serveLink.takeDiscards.arbitrate)
  | _ => .next s

end Sys2Proof.Machine
end

