-- ==== Sys2Proof/Machine/TimeEvents.lean ====
section
/-! DEFINITION. The meanings of the time base's commands and of the events that a timer or the shutter makes:
seconds and lamp-on minutes (R132, R133), timer expiries (R45, R46, R112, R128), lamp checks (R126) and the
exposure window (R106, R129). -/

namespace Sys2Proof.Machine

/-- The next second event is the sixtieth lamp-on second (R133). -/
def State.minuteDue (s : State) : Bool := s.ltc.lamp.lit && 59 ≤ s.tbu.lampSeconds

/-- The second event of the sixtieth lamp-on second (R132, R133): the clock rises, the lamp-on seconds are set to 0,
the minute counter rises with wrap, and the calibration ages (R99). -/
def State.minuteEvent (s : State) : State :=
  ((s.onTbu fun t =>
      { t with clock := t.clock + 1, lampSeconds := 0, lampMinutes := t.lampMinutes + 1 }).ageCalibration).flush

/-- SECOND_TICK (R132, R133): the clock rises by one with wrap, and a lamp-on second is counted while the lamp
is lit; with the sixtieth the lamp-on minute is counted at the same event. -/
def execSecondTick (s : State) : Result :=
  if s.minuteDue then .next s.minuteEvent
  else
    .next (s.onTbu fun t =>
      { t with clock := t.clock + 1, lampSeconds := if s.ltc.lamp.lit then t.lampSeconds + 1 else t.lampSeconds })

/-- LAMP_ON_MINUTE (R133, R99): the sixtieth lamp-on second as a command of its own. R133 makes it one event with
the second that completes the minute: the command is that event where the minute is due, and changes nothing
where SECOND_TICK has already been it (log 5). -/
def execLampOnMinute (s : State) : Result := if s.minuteDue then .next s.minuteEvent else .next s

/-- SETTLE_TIMER_EXPIRY (R46): the sequencer enters AWAIT_LAMP, where it tests the conditions of its next
trigger. A timer that is STOPPED does not expire (R134). -/
def execSettleTimerExpiry (s : State) : Result :=
  match s.tbu.timers.settle with
  | none => .next s
  | some _ =>
    let s1 := s.onTimers fun t => { t with settle := none }
    if s.csq.state = .settling then .next ((s1.setCsq .awaitLamp).pollLamp.flush) else .next s1

/-- MOVE_TIMER_EXPIRY (R45): the move record becomes EXPIRED, MOVE is added to the seated record, and the
sequencer pauses at MOVE. -/
def execMoveTimerExpiry (s : State) : Result :=
  match s.tbu.timers.move with
  | none => .next s
  | some _ => .next ((s.failMove .expired).announce s.plates)

/-- The frame timer has expired (R112), after its fault has been charged without dropping the link. -/
def State.timeoutWait (s : State) : State :=
  let g := s.plr.rowsReleased
  let stray := s.plr.straySeen
  let s1 := s.onPlr fun p =>
    let q := { p with awaitedTag := none, endPending := false,
                      reception := if p.reception = .receiving then .discarding else p.reception }
    if q.decision = .waiting then q.dropHeld else q
  if g = s.geometry.height then s1.reportFrameEnd 0 else s1.reportTimeout g stray

/-- FRAME_TIMER_EXPIRY (R112): a TIMEOUT of weight 16, and the wait ends as a timeout, or as a frame end
without torn rows where every row has been released. -/
def execFrameTimerExpiry (s : State) : Result :=
  match s.tbu.timers.frame with
  | none => .next s
  | some _ =>
    let s1 := (s.onTimers fun t => { t with frame := none }).chargeFault
      { kind := .timeout, exposure := s.plr.faultExposure, row := none } Config.timeoutWeight
    let s2 := if s1.plr.link = .dropped then s1 else s1.timeoutWait
    .next ((s.sealFaults s2).pollAll.announce s.plates)

/-- The reading of a check is recorded, and adopted as the warm-up reference where there is no reference (R125,
R126). -/
def State.takeReading (s : State) (r : Reading) : State :=
  s.onLtc fun l =>
    { l with last := some r, warmRef := if s.lampReference = none then some r else l.warmRef }

/-- The lamp has failed (R127): LAMP joins the seated record, and a running flat fails with reason LAMP. -/
def State.lampFailed (s : State) : State :=
  let s1 := s.lampFail.addSeatedHold fun h => { h with lamp := true }
  if s1.flatRunning then s1.failCalibration .lamp else s1

/-- LAMP_CHECK (R126): while the check timer runs, a reading below 1024 fails the lamp, one in tolerance
raises the run, one out of tolerance sets it to 0. A trigger that waits for STEADY goes out. With neither m_ref nor
a warm-up reference, R125 adopts the reading of a check, and R126 puts the floor test first: a reading below the
floor is not adopted. DESIGN CHOICE (log 49), unsafe for a claim about the reference of a FAILED lamp. -/
def execLampCheck (reading : Reading) (s : State) : Result :=
  match s.tbu.timers.check with
  | none => .next s
  | some _ =>
    if reading.toNat < Config.lampFloor then
      .next (((s.onLtc fun l => { l with last := some reading }).lampFailed.pollHold.arbitrate).announce s.plates)
    else
      let s1 := s.takeReading reading
      if inTolerance s.settings.lampTolerance (s1.lampReference.getD reading.toNat) reading.toNat then
        .next s1.checkPassed.pollAttemptTrigger.pollLamp.flush
      else .next s1.checkMissed.flush

/-- IDLE_TIMER_EXPIRY (R128): a lit lamp is switched off; a sequencer in AWAIT_LAMP asks for it again
(R47). -/
def execIdleTimerExpiry (s : State) : Result :=
  match s.tbu.timers.idle with
  | none => .next s
  | some _ =>
    if s.ltc.lamp.lit then .next (s.lampSwitchOff .idle).pollLamp.flush
    else .next (s.onTimers fun t => { t with idle := none })

/-- SHUTTER_RISE (R106, R129): the first rise while a frame is awaited opens the window, with a sample taken at
the rise. Any other rise is ignored. -/
def execShutterRise (reading : Reading) (s : State) : Result :=
  if s.plr.awaitedTag.isSome ∧ s.plr.shutterSeen = false then
    .next ((s.onPlr fun p => { p with shutterSeen := true }).onLtc fun l =>
      { l with windowOpen := true, windowSum := reading.toNat, windowSamples := 1,
               steadyThroughout := l.lamp == .steady })
  else .next s

/-- The window-end test of a try (R49). -/
def State.tryWindowEnd (s : State) (k : SlotNo) (m : Nat) (steady : Bool) : State :=
  let passes := steady && inTolerance s.settings.lampTolerance (s.cal.record.mRef.getD 0) m
  ((s.onLatest k fun e => e.atWindowEnd m passes).setCsq .readout).decideWindow passes

/-- The window-end test of a flat attempt (R94). -/
def State.attemptWindowEnd (s : State) (op : CalOp) (m : Nat) (steady : Bool) : State :=
  if op.passesTest s.settings.lampTolerance m steady then (s.onOp fun o => o.recordMean m).decideWindow true
  else (s.onOp fun o => { o with failedTest := true }).decideWindow false

/-- The window of the latest TRIGGER has ended: the requester decides (R49, R94, R106). -/
def State.windowEnded (s : State) (m : Nat) (steady : Bool) : State :=
  if s.plr.decision = .waiting ∧ s.plr.shutterSeen ∧ (s.plr.awaitedTag.isSome ∨ s.plr.endPending) then
    match s.plr.requester, s.cal.op with
    | some (.capture k _), _ => if s.csq.state = .exposing then s.tryWindowEnd k m steady else s
    | some (.calib _), some op => if op.kind = .flat then s.attemptWindowEnd op m steady else s
    | _, _ => s
  else s

/-- SHUTTER_FALL (R106, R129): an open window is closed, and its mean and steadiness are reported to the
requester. A fall while no window is open is ignored. -/
def execShutterFall (s : State) : Result :=
  if s.ltc.windowOpen then
    let s1 := s.onLtc fun l => { l with windowOpen := false, windowSum := 0, windowSamples := 0 }
    .next ((s1.windowEnded s.ltc.windowMean s.ltc.steadyThroughout).pollAll.announce s.plates)
  else .next s

end Sys2Proof.Machine
end

