-- ==== Sys2Proof/Machine/Uplink.lean ====
section
/-! DEFINITION. The meanings of the uplink's units (R107 to R113, R117). -/

namespace Sys2Proof.Machine

/-- An uplink event ends: its fault counts are sealed, the blocks test what it moved, its notices go out. -/
def State.uplinkEnd (s0 s : State) : Result := .next ((s0.sealFaults s).pollAll.announce s0.plates)

/-- An uplink event that can move nothing but the idle run ends. -/
def State.idleEnd (s0 s : State) : Result := .next ((s.pollIdle.pollSlot.arbitrate).announce s0.plates)

/-- A FRAME_START is judged (R108), after any frame it interrupts has ended. -/
def State.judgeStart (s : State) (tag : Byte) (good : Bool) : State :=
  if s.plr.link = .dropped then s.breakIdleRun
  else if !good then s.strayFrame
  else if s.plr.awaitedTag = some tag then s.onPlr fun p => { p with reception := .receiving, nextRow := 0 }
  else if s.plr.cancelledTag = some tag then
    s.onPlr fun p => { p with reception := .discarding, cancelledTag := none }
  else s.strayFrame

/-- FRAME_START (R108, R111). Where it interrupts a frame whose rows have all been merged, the frame's end leads to the
frame merged report and REVIEW at this event (R50, R72), and the FRAME_START may itself be charged as a stray. No rule
says whether REVIEW reads the link state before or after that charge, or finds the try abandoned by a drop it makes:
the charge comes first. DESIGN CHOICE (log 57), unsafe for a claim about the verdict of such a REVIEW. -/
def execFrameStart (tag : Byte) (check : BitVec 16) (s : State) : Result :=
  if s.plr.link = .dropped then .next s.breakIdleRun
  else
    let s1 := if s.plr.reception = .receiving then s.endFrame none else s
    s.uplinkEnd (s1.judgeStart tag (frameStartGood tag check))

/-- UPLINK_ROW (R109, R110, R113): checked in RECEIVING, thrown away in DISCARDING, and in BETWEEN taken as
the body of a stray frame. -/
def execUplinkRow (index : BitVec 16) (codeBytes : List Byte) (check : BitVec 16) (s : State) : Result :=
  if s.plr.link = .dropped then .next s.breakIdleRun
  else
    match s.plr.reception with
    | .between => s.uplinkEnd s.strayFrame
    | .discarding => .next s
    | .receiving => s.uplinkEnd (s.receiveRow (rowGood index codeBytes check) index.toNat codeBytes)

/-- FRAME_END (R111, R113): ends the open frame; thrown away in DISCARDING, and in BETWEEN taken as the body
of a stray frame. Where its check fails and its row count differs from H too, with no row torn, R111 does not say
whether the LENGTH fault of weight 0 is captured: none is. DESIGN CHOICE (log 53), unsafe for a claim about the capture
record after it. -/
def execFrameEnd (rowCount : BitVec 16) (check : BitVec 16) (s : State) : Result :=
  if s.plr.link = .dropped then .next s.breakIdleRun
  else
    match s.plr.reception with
    | .between => s.uplinkEnd s.strayFrame
    | .discarding => .next s
    | .receiving =>
      s.uplinkEnd (s.endFrame (if frameEndGood rowCount check then some rowCount.toNat else none))

/-- UPLINK_IDLE (R108, R111, R117): ends an open frame or the discarding of one; while the link is DROPPED it
raises or breaks the idle run. -/
def execUplinkIdle (check : BitVec 16) (s : State) : Result :=
  if s.plr.link = .dropped then s.idleEnd (s.idleWhileDropped (idleGood check))
  else
    match s.plr.reception with
    | .between => .next s
    | .discarding => .next (s.onPlr fun p => { p with reception := .between })
    | .receiving =>
      let s1 := s.endFrame none
      s.uplinkEnd (if s1.plr.link = .dropped then s1.idleWhileDropped (idleGood check) else s1)

/-- UNKNOWN_UNIT (R113, R117): thrown away; while the link is DROPPED it breaks the idle run. -/
def execUnknownUnit (_unitBytes : List Byte) (s : State) : Result :=
  if s.plr.link = .dropped then .next s.breakIdleRun else .next s

end Sys2Proof.Machine
end

