-- ==== Sys2Proof/Machine/DeliveryLink.lean ====
section
/-! DEFINITION. The meanings of the delivery link's commands (R157, R159, R160): the READY line and the end of the
sending of each unit. -/

namespace Sys2Proof.Machine

/-- READY_RISE (R157): the waiting stream sends its next unit. -/
def execReadyRise (s : State) : Result :=
  .next (s.onDlt fun d => { d with ready := true }).serveLink.arbitrate

/-- READY_FALL (R157): a unit in progress completes, and the stream waits at the next boundary. -/
def execReadyFall (s : State) : Result := .next (s.onDlt fun d => { d with ready := false })

/-- A unit of a sort has been sent: the link is free, and the stream it belongs to is changed. -/
def Dlt.unitSent (d : Dlt) (f : Stream → DeliveryUnit → Stream) : Dlt :=
  match d.link with
  | none => d
  | some u =>
    { d with link := none, stream := if u.live then d.stream.map fun t => f t u.content else d.stream }

/-- The link is sending a unit of a sort. -/
def Dlt.onLink (d : Dlt) (p : DeliveryUnit → Bool) : Bool :=
  match d.link with
  | some u => p u.content
  | none => false

/-- The phase that follows a sent START or HEADER; a cut stream stays before its END (R157, R160). -/
def Stream.advance (t : Stream) (next : StreamPhase) : Stream := if t.cut then t else { t with phase := next }

/-- START_SENT (R157): the phase moves to HEADER. -/
def execStartSent (s : State) : Result :=
  if s.dlt.onLink DeliveryUnit.isStart then
    .next (s.onDlt fun d => d.unitSent fun t _ => t.advance .header).serveLink.arbitrate
  else .next s

/-- HEADER_SENT (R157): rows may follow. -/
def execHeaderSent (s : State) : Result :=
  if s.dlt.onLink DeliveryUnit.isHeader then
    .next (s.onDlt fun d => d.unitSent fun t _ => t.advance .rows).serveLink.arbitrate
  else .next s

/-- A stream after a ROW has been sent (R157, R159, R160): its code bytes enter the CRC-32, the next row
rises, the buffer is EMPTY, and after the last row the phase is END. -/
def Stream.rowSent (t : Stream) (height : Nat) (u : DeliveryUnit) : Stream :=
  match u with
  | .row _ codes =>
    { t with crc := crc32Add t.crc (codeBytes codes), nextRow := t.nextRow + 1, buffer := .empty,
             phase := if height ≤ t.nextRow + 1 then .finish else t.phase }
  | _ => t

/-- DELIVERY_ROW_SENT (R157). -/
def execDeliveryRowSent (s : State) : Result :=
  if s.dlt.onLink DeliveryUnit.isRow then
    .next (s.onDlt fun d => d.unitSent fun t u => t.rowSent s.geometry.height u).serveLink.arbitrate
  else .next s

/-- A stream's END has been sent (R159, R160): the stream record is cleared, and the cell of an uncut stream
becomes DELIVERED. -/
def State.streamEnded (s : State) : State :=
  let s1 := s.onDlt fun d => { d with link := none, stream := none }
  match s.dlt.stream.bind (·.cell) with
  | some c => s1.changeCell c (fun x => { x with state := .delivered }) id
  | none => s1

/-- END_SENT (R159, R153): in AUTO the next stream starts. -/
def execEndSent (s : State) : Result :=
  if s.dlt.sending DeliveryUnit.isFinish then .next (s.streamEnded.pollDelivery.arbitrate.announce s.plates)
  else if s.dlt.onLink DeliveryUnit.isFinish then
    .next (s.onDlt fun d => { d with link := none }).serveLink.arbitrate
  else .next s

end Sys2Proof.Machine
end

