-- ==== Sys2Proof/Machine/StationLine.lean ====
section
/-! DEFINITION. The meanings of the station lines' events (R166 to R168, R172 to R174). -/

namespace Sys2Proof.Machine

/-- The ports take no frame while the store is COLD (R137). -/
def State.portsHeld (s : State) : Bool := s.fsc.state == .cold

/-- A port after characters have been received (R166): its framer stands where they leave it, and each bad frame
sets the bad-frame flag. A good frame is a command of its own, and comes with it. -/
def Port.receive (p : Port) (characters : List Character) : Port :=
  let r := p.framer.receive characters
  { p with framer := r.1, badFrame := p.badFrame || r.2.contains .bad }

/-- BAD_FRAME (R166): its characters pass the port's framer, which finds the frame bad, discards it whole and
returns to HUNT (log 18). -/
def execBadFrame (port : PortNo) (characters : List Character) (s : State) : Result :=
  if s.portsHeld then .next s else .next (s.onPort port fun p => p.receive characters)

/-- The tag an answer to a frame that is no request echoes: its first body byte, or 0 for an empty body
(R165, R167 row 1). -/
def echoTag : List Byte → Byte
  | [] => 0
  | t :: _ => t

/-- NON_REQUEST_FRAME (R166, R167 row 1): answered FIELD, with no other effect; the framer is back in HUNT. -/
def execNonRequestFrame (port : PortNo) (kind : Byte) (body : List Byte) (s : State) : Result :=
  if s.portsHeld then .next s
  else .next (s.onPort port fun p => (p.frameTaken.refuse (echoTag body) (.raw kind) .field).pump)

/-- A port after a break (R173): an answer being sent completes, every other answer and every notice is
dropped, the notice number is 0 and the gate SHUT. -/
def Port.broken (p : Port) : Port :=
  { p with
    framer := .hunt
    outstanding := p.stillOutstanding
    answers := []
    notices := []
    noticeNumber := 0
    gate := .shut }

/-- BREAK (R173). -/
def execLineBreak (port : PortNo) (s : State) : Result := .next (s.onPort port Port.broken)

/-- PACE_RISE (R172): the sending of notices stops at the next frame boundary. -/
def execPaceRise (port : PortNo) (s : State) : Result := .next (s.onPort port fun p => { p with pace := true })

/-- PACE_FALL (R172): the oldest queued notice may be sent. -/
def execPaceFall (port : PortNo) (s : State) : Result :=
  .next (s.onPort port fun p => Port.pump { p with pace := false })

/-- A port after the end of the sending of an answer (R168): the line is free, and the request it answers
stops being outstanding. -/
def Port.answered (p : Port) (a : Answer) : Port :=
  { p with line := .idle, outstanding := if a.forOutstanding then none else p.outstanding }

/-- The answer orders a warm restart (R174): DONE to a WARM_RESTART that is still outstanding. -/
def Port.restartOrdered (p : Port) (a : Answer) : Bool :=
  a.forOutstanding && p.outstanding.isSome && a.kind == .request .warmRestart && a.code == .done

/-- ANSWER_SENT (R168, R174): the next answer or notice is sent; the warm restart ordered by WARM_RESTART
begins here. -/
def execAnswerSent (port : PortNo) (s : State) : Result :=
  match (s.ports.get port).line with
  | .answer a =>
    if (s.ports.get port).restartOrdered a then .next (s.onPort port fun p => p.answered a).resume
    else .next (s.onPort port fun p => (p.answered a).pump)
  | _ => .next s

/-- NOTICE_SENT (R172): the line is free for the next answer or notice. -/
def execNoticeSent (port : PortNo) (s : State) : Result :=
  match (s.ports.get port).line with
  | .notice _ _ => .next (s.onPort port fun p => Port.pump { p with line := .idle })
  | _ => .next s

end Sys2Proof.Machine
end

