-- ==== Sys2Proof/Machine/PlateRequests.lean ====
section
/-! DEFINITION. The meanings of the plate register's requests (R5 to R8, R11 to R16). -/

namespace Sys2Proof.Machine

/-- The answer of a request that changes nothing. -/
def State.answer (s : State) (code : AnswerCode) : State × Reply := (s, Reply.plain code)

/-- A cell record as ENROL creates it (R3). -/
def CellRecord.fresh (column row : Nat) : CellRecord :=
  { column := column, row := row, state := .pending, triesUsed := 0, slot := none, summary := none,
    lastOutcome := .untried }

/-- A plate record as ENROL creates it (R6). -/
def PlateRecord.enrolled (key : PlateKey) (profile : ProfileNo) (handling : Handling) (emulsion : Emulsion)
    (columns rows : Nat) (now : Seconds) : PlateRecord :=
  { key := key, state := .enrolled, seated := false, holds := { console := false, move := false, lamp := false },
    profile := profile, handling := handling, emulsion := emulsion, columns := columns, rows := rows,
    cells := (gridCells columns rows).map fun p => CellRecord.fresh p.1 p.2,
    enrolTime := now, firstSeat := none, completion := none, kept := 0, failed := 0 }

/-- A number of columns or rows in its range (R2). -/
def gridSize? (n : Nat) : Option Nat := if 1 ≤ n ∧ n ≤ 6 then some n else none

/-- A profile index in its range (R24). -/
def profileNo? (n : Nat) : Option ProfileNo := if h : n < 4 then some ⟨n, h⟩ else none

/-- The record an ENROL asks for, or none where R6 row 1 refuses it. -/
def enrolRecord? (key : Option PlateKey) (profile : Option Nat) (handling : Arg Handling) (emulsion : Arg Emulsion)
    (columns rows : Option Nat) (now : Seconds) : Option PlateRecord :=
  match key, profile.bind profileNo?, handling, emulsion, columns.bind gridSize?, rows.bind gridSize? with
  | some k, some p, .given h, .given e, some c, some r => some (PlateRecord.enrolled k p h e c r now)
  | _, _, _, _, _, _ => none

/-- ENROL as the PRG takes it (R6). -/
def State.handleEnrol (s : State) (record : Option PlateRecord) : State × Reply :=
  match record with
  | none => s.answer .field
  | some r =>
    if (s.plate? r.key).isSome then s.answer .duplicate
    else if Config.maxPlates ≤ s.plates.length then s.answer .full
    else (s.onPlates fun ps => ps ++ [r], Reply.done false)

/-- ENROL (R6). -/
def execEnrol (q : Src) (key : Option PlateKey) (profile : Option Nat) (handling : Arg Handling)
    (emulsion : Arg Emulsion) (columns rows : Option Nat) (s : State) : Result :=
  s.serve q .enrol fun x => x.handleEnrol (enrolRecord? key profile handling emulsion columns rows s.tbu.clock)

/-- A request that names a record: FIELD without a key, UNKNOWN without a record (R7, R8, R11, R13 to
R15). -/
def State.withPlate (s : State) (key : Option PlateKey) (f : PlateRecord → State × Reply) : State × Reply :=
  match key with
  | none => s.answer .field
  | some k =>
    match s.plate? k with
    | none => s.answer .unknown
    | some r => f r

/-- The record after its SEATED: seated, the first-seat time set if absent, LAMP added under a FAILED lamp,
and ACTIVE where it is ENROLLED or CAPTURED with a PENDING cell (R7). -/
def PlateRecord.seat (r : PlateRecord) (now : Seconds) (lampFailed : Bool) : PlateRecord :=
  { r with
    seated := true
    firstSeat := some (r.firstSeat.getD now)
    holds := { r.holds with lamp := r.holds.lamp || lampFailed }
    state := if (r.state = .enrolled ∨ r.state = .captured) ∧ r.hasPending then .active else r.state }

/-- A plate becomes seated (R7 rows 6 and 7): an entry to ACTIVE asks for the lamp, and the CSQ tests its
start conditions. -/
def State.seatPlate (s : State) (r : PlateRecord) : State :=
  let x := r.seat s.tbu.clock (s.ltc.lamp == .failed)
  let s1 := s.onPlate r.key fun y => y.seat s.tbu.clock (s.ltc.lamp == .failed)
  let s2 := if x.state = .active then s1.lampSwitchOn else s1
  s2.pollIdle.pollSlot.arbitrate

/-- SEATED as the PRG takes it (R7). -/
def State.handleSeated (s : State) (r : PlateRecord) : State × Reply :=
  if r.state = .withdrawn then s.answer .state
  else if r.seated then s.answer .done
  else if s.anySeated then s.answer .busy
  else if s.calibrating then s.answer .busy
  else (s.seatPlate r, Reply.done false)

/-- SEATED (R7). -/
def execSeated (q : Src) (key : Option PlateKey) (s : State) : Result :=
  s.serve q .seated fun x => x.withPlate key x.handleSeated

/-- The record after its UNSEATED (R8 rows 4 and 5): not seated, MOVE and LAMP removed, ENROLLED where it was
ACTIVE. -/
def PlateRecord.unseat (r : PlateRecord) : PlateRecord :=
  { r with
    seated := false
    holds := { r.holds with move := false, lamp := false }
    state := if r.state = .active then .enrolled else r.state }

/-- UNSEATED as the PRG takes it (R8, R59). -/
def State.handleUnseated (s : State) (r : PlateRecord) : State × Reply :=
  if r.seated = false then s.answer .state
  else if r.state = .withdrawn then (s.removePlate r.key, Reply.done false)
  else (((s.onPlate r.key PlateRecord.unseat).leaveCaptureOf r.key).arbitrate, Reply.done false)

/-- UNSEATED (R8). -/
def execUnseated (q : Src) (key : Option PlateKey) (s : State) : Result :=
  s.serve q .unseated fun x => x.withPlate key x.handleUnseated

/-- A cell of a plate that WITHDRAW takes out of its work (R12). -/
def CellState.withdrawLoses : CellState → Bool
  | .exposing | .finalizing | .merged | .delivering | .delivered => true
  | .pending | .kept | .failed => false

/-- The record that WITHDRAW leaves on the stand (R12); the completion time is absent outside DONE and FAULTED
(R2). -/
def PlateRecord.withdrawn (r : PlateRecord) : PlateRecord :=
  { r with
    state := .withdrawn
    completion := none
    cells := r.cells.map fun c => if c.state.withdrawLoses then c.abandon else c }

/-- The work of a plate in other blocks is undone (R11, R12): its stream is cut, its cells leave the delivery
queue, and its slots are returned, which stops their passes. -/
def State.undoPlate (s : State) (key : PlateKey) : State :=
  let s1 := (s.cutPlateStream key).onDlt fun d => { d with queue := d.queue.filter fun c => c.key != key }
  match s.plate? key with
  | none => s1
  | some r => s1.returnSlots r.slots

/-- WITHDRAW as the PRG takes it (R11, R12). -/
def State.handleWithdraw (s : State) (r : PlateRecord) : State × Reply :=
  if r.state = .withdrawn then s.answer .state
  else
    let s1 :=
      if r.seated then ((s.leaveCaptureOf r.key).undoPlate r.key).onPlate r.key PlateRecord.withdrawn
      else (s.undoPlate r.key).removePlate r.key
    (s1.pollSlot.pollDelivery.arbitrate, Reply.done false)

/-- WITHDRAW (R11, R12). -/
def execWithdraw (q : Src) (key : Option PlateKey) (s : State) : Result :=
  s.serve q .withdraw fun x => x.withPlate key x.handleWithdraw

/-- RETIRE as the PRG takes it (R13). -/
def State.handleRetire (s : State) (r : PlateRecord) : State × Reply :=
  match r.state with
  | .done | .faulted => (s.removePlate r.key, Reply.done false)
  | _ => s.answer .state

/-- RETIRE (R13). -/
def execRetire (q : Src) (key : Option PlateKey) (s : State) : Result :=
  s.serve q .retire fun x => x.withPlate key x.handleRetire

/-- HOLD as the PRG takes it (R14). -/
def State.handleHold (s : State) (r : PlateRecord) : State × Reply :=
  if r.state = .withdrawn then s.answer .state
  else
    ((s.onPlate r.key fun x => { x with holds := { x.holds with console := true } }).pollHold, Reply.done false)

/-- HOLD (R14). -/
def execHold (q : Src) (key : Option PlateKey) (s : State) : Result :=
  s.serve q .hold fun x => x.withPlate key x.handleHold

/-- FREE as the PRG takes it (R15): the hold reasons are removed, a failed lamp is restarted where LAMP was
present, and a paused sequencer goes on (R57). -/
def State.handleFree (s : State) (r : PlateRecord) : State × Reply :=
  if r.state = .withdrawn then s.answer .state
  else
    let s1 := s.onPlate r.key fun x => { x with holds := { console := false, move := false, lamp := false } }
    let s2 := if r.holds.lamp ∧ s.ltc.lamp = .failed then s1.lampRestart else s1
    (s2.pollPaused.pollSlot.pollLamp.arbitrate, Reply.done false)

/-- FREE (R15). -/
def execFree (q : Src) (key : Option PlateKey) (s : State) : Result :=
  s.serve q .free fun x => x.withPlate key x.handleFree

/-- A MARK gives at least one field, and none outside its set (R16). -/
def markFields (handling : Arg Handling) (emulsion : Arg Emulsion) : Bool :=
  match handling, emulsion with
  | .outside, _ => false
  | _, .outside => false
  | .missing, .missing => false
  | _, _ => true

/-- The value an optional field gives, or the present one. -/
def givenOr {α : Type} (a : Arg α) (present : α) : α :=
  match a with
  | .given v => v
  | _ => present

/-- The record after its MARK (R16). -/
def PlateRecord.marked (r : PlateRecord) (handling : Arg Handling) (emulsion : Arg Emulsion) : PlateRecord :=
  { r with handling := givenOr handling r.handling, emulsion := givenOr emulsion r.emulsion }

/-- MARK as the PRG takes it, in the order R16 writes its conditions; its PLATE notice is raised whether or
not a field changes. -/
def State.handleMark (s : State) (handling : Arg Handling) (emulsion : Arg Emulsion) (r : PlateRecord) :
    State × Reply :=
  if markFields handling emulsion = false then s.answer .field
  else if r.seated ∨ r.state = .withdrawn then s.answer .state
  else
    ((s.onPlate r.key fun x => x.marked handling emulsion).raise (r.notice r.state false), Reply.done false)

/-- MARK (R16). -/
def execMark (q : Src) (key : Option PlateKey) (handling : Arg Handling) (emulsion : Arg Emulsion) (s : State) :
    Result :=
  s.serve q .mark fun x => x.withPlate key (x.handleMark handling emulsion)

/-- A plate record without its cell table (R5). -/
def PlateRecord.report (r : PlateRecord) : PlateReport :=
  { key := r.key, state := r.state, seated := r.seated, holds := r.holds, profile := r.profile,
    handling := r.handling, emulsion := r.emulsion, columns := r.columns, rows := r.rows, enrolTime := r.enrolTime,
    firstSeat := r.firstSeat, completion := r.completion, kept := r.kept, failed := r.failed }

/-- What READ_PLATE is answered (R5). -/
def State.readPlate (s : State) (sel : PlateSelector) : Reply :=
  match sel with
  | .missing => Reply.plain .field
  | .key k =>
    match s.plate? k with
    | some r => Reply.withData (.plate r.report none)
    | none => Reply.plain .unknown
  | .position p =>
    if Config.maxPlates ≤ p then Reply.plain .field
    else
      match s.plates[p]? with
      | some r => Reply.withData (.plate r.report (some s.plates.length))
      | none => Reply.plain .unknown

/-- READ_PLATE (R5). -/
def execReadPlate (q : Src) (sel : PlateSelector) (s : State) : Result :=
  s.serveQuiet q .readPlate fun x => (x, x.readPlate sel)

/-- What READ_CELL is answered (R5). -/
def State.readCell (s : State) (key : Option PlateKey) (column row : Option Nat) : Reply :=
  match key, column, row with
  | some k, some c, some y =>
    match s.plate? k with
    | none => Reply.plain .unknown
    | some r =>
      match r.cell? c y with
      | some x => Reply.withData (.cell x)
      | none => Reply.plain .field
  | _, _, _ => Reply.plain .field

/-- READ_CELL (R5). -/
def execReadCell (q : Src) (key : Option PlateKey) (column row : Option Nat) (s : State) : Result :=
  s.serveQuiet q .readCell fun x => (x, x.readCell key column row)

end Sys2Proof.Machine
end

