-- ==== Sys2Proof/Machine/ProfileRequests.lean ====
section
/-! DEFINITION. The meanings of the profile table's requests (R26, R27, R29, R31, R33 to R35). -/

namespace Sys2Proof.Machine

/-! ## WRITE_PROFILE -/

/-- The profile that given values make, each clamped on its own (R27). -/
def clampedProfile (ladder : List Nat) (satS floorF extT : Nat) (singleTry : Bool) (qceil : Nat) : Profile :=
  { ladder := ladder.map clampTime, satThreshold := clamp 256 4095 satS, noiseFloor := clamp 1 1024 floorF,
    extThreshold := clamp 0 1000 extT, singleTry := singleTry, qceil := clamp 8192 65534 qceil }

/-- A WRITE_PROFILE that R26 row 1 does not refuse: the index, the clamped profile, and whether a value was
clamped (R27). -/
def writtenProfile? (index : Option Nat) (ladder : Option (List Nat)) (satS floorF extT : Option Nat)
    (singleTry : Arg Bool) (qceil : Option Nat) : Option (ProfileNo × Profile × Bool) :=
  match index.bind profileNo?, ladder, satS, floorF, extT, singleTry, qceil with
  | some i, some l, some a, some f, some t, .given y, some q =>
    if 2 ≤ l.length ∧ l.length ≤ 8 then
      let p := clampedProfile l a f t y q
      some (i, p,
        p.ladder != l || p.satThreshold != a || p.noiseFloor != f || p.extThreshold != t || p.qceil != q)
    else none
  | _, _, _, _, _, _, _ => none

/-- A seated record references the profile (R26 row 3). -/
def State.profileSeated (s : State) (i : ProfileNo) : Bool := s.plates.any fun r => r.seated && r.profile == i

/-- A record that references the profile has a cell whose tries used is not 0 (R26 row 4). -/
def State.profileTried (s : State) (i : ProfileNo) : Bool :=
  s.plates.any fun r => r.profile == i && r.cells.any fun c => c.triesUsed != 0

/-- WRITE_PROFILE as the PFT takes it (R26). -/
def State.handleWriteProfile (s : State) (w : Option (ProfileNo × Profile × Bool)) : State × Reply :=
  match w with
  | none => s.answer .field
  | some (i, p, clamped) =>
    if strictlyIncreasing p.ladder = false then s.answer .field
    else if s.profileSeated i then s.answer .state
    else if p.singleTry && s.profileTried i then s.answer .state
    else ({ s with profiles := setAt s.profiles i p }, Reply.done clamped)

/-- WRITE_PROFILE (R26, R27). -/
def execWriteProfile (q : Src) (index : Option Nat) (ladder : Option (List Nat)) (satS floorF extT : Option Nat)
    (singleTry : Arg Bool) (qceil : Option Nat) (s : State) : Result :=
  s.serveQuiet q .writeProfile fun x =>
    x.handleWriteProfile (writtenProfile? index ladder satS floorF extT singleTry qceil)

/-! ## READ_PROFILE -/

/-- What READ_PROFILE is answered (R29). -/
def State.readProfile (s : State) (sel : ProfileSelector) : Reply :=
  match sel with
  | .profile i =>
    match profileNo? i with
    | some k => Reply.withData (.profile (s.profiles.get k))
    | none => Reply.plain .field
  | .settings => Reply.withData (.settings s.geometry s.settings s.cal.record.life)
  | .other => Reply.plain .field

/-- READ_PROFILE (R29). -/
def execReadProfile (q : Src) (sel : ProfileSelector) (s : State) : Result :=
  s.serveQuiet q .readProfile fun x => (x, x.readProfile sel)

/-! ## SET_FIELD -/

/-- The geometry that given values make: rounded down, then clamped (R31). -/
def givenField (width height : Nat) : Geometry :=
  { width := fieldSize 64 width, height := fieldSize 16 height }

/-- The calibration becomes NONE (R31). Where that removes m_ref from a lit lamp, a warm-up reference held since before
the flat is let go, so that the next check adopts its own reading (R125). That it goes at this event and not at that
check is DEDUCED (log 51), unsafe for a claim about a lamp report between the two. -/
def State.calibrationNone (s : State) : State :=
  let s1 := if s.cal.record.mRef.isSome ∧ s.ltc.lamp.lit then s.onLtc fun l => { l with warmRef := none } else s
  s1.setCalRecord fun r => r.withoutDark .none

/-- SET_FIELD as the PFT takes it (R31). -/
def State.handleSetField (s : State) (width height : Option Nat) : State × Reply :=
  match width, height with
  | some w, some h =>
    let g := givenField w h
    let clamped := g.width != w || g.height != h
    if s.anySeated then s.answer .busy
    else if (List.finRange 7).any fun k => s.fsc.held.get k then s.answer .busy
    else if s.calibrating then s.answer .busy
    else if g = s.geometry then (s, Reply.done clamped)
    else ({ s with geometry := g }.calibrationNone, Reply.done clamped)
  | _, _ => s.answer .field

/-- SET_FIELD (R31). -/
def execSetField (q : Src) (width height : Option Nat) (s : State) : Result :=
  s.serveQuiet q .setField fun x => x.handleSetField width height

/-! ## SET_CAPTURE -/

/-- A stored setting differs from the given value (R33). -/
def settingsClamped (given : List (Setting × Nat)) : Bool :=
  given.any fun p => clampSetting p.1 p.2 != p.2

/-- A lamp level change is refused (R34). -/
def State.lampLevelHeld (s : State) : Bool :=
  s.anySeated || s.anyCell (fun c => c == .exposing || c == .finalizing) || s.calibrating

/-- The effect of a changed lamp level (R34): a flat is invalidated, and a lit lamp is restarted at the new
level. -/
def State.lampLevelChanged (s : State) : State :=
  let s1 :=
    if s.cal.record.state = .valid ∨ s.cal.record.state = .stale then
      s.setCalRecord fun r => r.withoutFlat .darkOnly
    else s
  if s1.ltc.lamp.lit then s1.lampRestart else s1

/-- The link state under a new warning limit (R35), with its LINK notice (R119). -/
def State.relimit (s : State) : State :=
  let new := relimited s.settings.linkWarningLimit s.plr.faultCount s.plr.link
  if new = s.plr.link then s
  else (s.onPlr fun p => { p with link := new }).raise (.link new s.plr.link s.plr.faultCount .limit)

/-- The given settings replaced, with their effects in other blocks (R33 to R35). Where one SET_CAPTURE gives both a
new lamp level and a life at or below the age of a VALID record, the lamp level is applied first, so that one
CALIB notice tells of DARK_ONLY and none of STALE: R35 gives no order. DESIGN CHOICE (log 40), unsafe for a claim
about those notices. Where one gives both a new lamp level and a warm-up time or an idle time, and the lamp is lit, the
times are replaced first and the restart starts its timers from the new ones: R33 and R34 put both at one event, in no
order. DESIGN CHOICE (log 54), unsafe for a claim about the presets of those two timers. -/
def State.applySettings (s : State) (given : List (Setting × Nat)) : State :=
  let s1 := { s with settings := s.settings.updated given }
  let s2 := if s1.settings.lampLevel = s.settings.lampLevel then s1 else s1.lampLevelChanged
  let s3 :=
    match given.find? (·.1 == .calibrationLife) with
    | some p => s2.setLife (clampSetting .calibrationLife p.2)
    | none => s2
  if given.any (·.1 == .linkWarningLimit) then s3.relimit else s3

/-- SET_CAPTURE as the PFT takes it (R33, R34). -/
def State.handleSetCapture (s : State) (given : Option (List (Setting × Nat))) : State × Reply :=
  match given with
  | none => s.answer .field
  | some l =>
    if (s.settings.updated l).lampLevel ≠ s.settings.lampLevel ∧ s.lampLevelHeld then s.answer .busy
    else (s.applySettings l, Reply.done (settingsClamped l))

/-- SET_CAPTURE (R33 to R35). -/
def execSetCapture (q : Src) (settings : List (Option Setting × Nat)) (s : State) : Result :=
  s.serveQuiet q .setCapture fun x => x.handleSetCapture (captureSettings settings)

end Sys2Proof.Machine
end

