-- ==== Sys2Proof/Machine/TransportRequests.lean ====
section
/-! DEFINITION. The meanings of the transport's move reports (R44, R45). -/

namespace Sys2Proof.Machine

/-- The move ends by arrival (R44 row 6, R46): the timer is stopped and the sequencer settles; a dwell of 0
takes it to AWAIT_LAMP at this event. -/
def State.arrive (s : State) (m : MoveRecord) : State :=
  (((s.onTimers fun t => { t with move := none }).onCsq fun q =>
        { q with move := some (m.ended .arrived) }).enterSettling (s.handlingOf m.cell)).pollLamp

/-- AT_CELL as the CSQ takes it (R44). -/
def State.handleAtCell (s : State) (key : Option PlateKey) (column row number : Option Nat) : State × Reply :=
  match key, column, row, number with
  | some k, some c, some y, some n =>
    match s.csq.move with
    | none => s.answer .state
    | some m =>
      if n ≠ m.number.toNat then s.answer .late
      else
        match m.status with
        | .expired | .faulted | .abandoned => s.answer .late
        | .arrived => s.answer .done
        | .moving =>
          if m.cell = ⟨k, c, y⟩ then (s.arrive m, Reply.done false) else s.answer .field
  | _, _, _, _ => s.answer .field

/-- AT_CELL (R44). -/
def execAtCell (q : Src) (key : Option PlateKey) (column row number : Option Nat) (s : State) : Result :=
  s.serve q .atCell fun x => x.handleAtCell key column row number

/-- MOVE_FAULT as the CSQ takes it (R45). -/
def State.handleMoveFault (s : State) (key : Option PlateKey) (number : Option Nat) : State × Reply :=
  match key, number with
  | some k, some n =>
    match s.csq.move with
    | none => s.answer .state
    | some m =>
      if n ≠ m.number.toNat ∨ m.status ≠ .moving then s.answer .late
      else if m.cell.key ≠ k then s.answer .field
      else (s.failMove .faulted, Reply.done false)
  | _, _ => s.answer .field

/-- MOVE_FAULT (R45). -/
def execMoveFault (q : Src) (key : Option PlateKey) (number : Option Nat) (s : State) : Result :=
  s.serve q .moveFault fun x => x.handleMoveFault key number

end Sys2Proof.Machine
end

