-- ==== Sys2Proof/Machine/CalibrationRequests.lean ====
section
/-! DEFINITION. The meanings of the requests for the calibration, the link, the clock and the store (R89, R90,
R93, R102, R120, R132, R144, R145, R174). -/

namespace Sys2Proof.Machine

/-! ## CALIBRATE -/

/-- The refusal of a CALIBRATE by R89 rows 2 to 6, the first that matches. -/
def State.calibrateRefusal? (s : State) : Option AnswerCode :=
  if s.fsc.state ≠ .ready then some .notReady
  else if s.calibrating then some .busy
  else if s.anySeated then some .busy
  else if s.anyCell (fun c => c == .exposing || c == .finalizing) then some .busy
  else if s.plr.link = .dropped then some .busy
  else none

/-- STARTED, with the clamped flag (R89). -/
def Reply.started (clamped : Bool) : Reply := { code := .started, clamped := clamped, data := .none }

/-- An operation context before its first attempt (R90, R93). R90 gives a dark frame 0 and repeats 0; R93 sets neither
for a flat in LAMP_WAIT, when no frame is being taken: they are 0 and 0 there too. DESIGN CHOICE (log 55), unsafe for a
claim about what READ_CALIB or the notice of a failure gives as frame and repeat count in LAMP_WAIT. -/
def CalOp.initial (kind : CalKind) (phase : CalPhase) (levelHeld : Option Nat) : CalOp :=
  { kind := kind, phase := phase, frame := 0, repeats := 0, inFlight := false, reported := false,
    failedTest := false, levelHeld := levelHeld, means := [], mFirst := none, mRef := none, netSum := 0,
    netCount := 0, satCount := 0, openLevel := none, deadCount := 0, passRow := 0 }


/-- The start of a dark (R90): state NONE, t_ref recorded, the lamp off, frame 0 triggered. -/
def State.startDark (s : State) (tRef : Nat) : State :=
  let s1 := s.onCal fun c =>
    { record := { c.record.withoutDark .none with tRef := tRef }
      op := some (CalOp.initial .dark .frames none)
      tally := List.replicate s.geometry.height 0 }
  ((s1.calibNotice (some .dark) .started none none).lampSwitchOff .offRequest).pollAttemptTrigger

/-- The start of a flat (R93): state DARK_ONLY without flat fields, the lamp level replaced where one is given,
and the lamp started afresh. -/
def State.startFlat (s : State) (lampLevel : Nat) : State :=
  let s1 := s.onCal fun c =>
    { record := c.record.withoutFlat .darkOnly
      op := some (CalOp.initial .flat .lampWait (some lampLevel))
      tally := List.replicate s.geometry.height 0 }
  ({ s1 with settings := { s1.settings with lampLevel := lampLevel } }.calibNotice (some .flat) .started none
      none).lampRestart

/-- CALIBRATE DARK as the CAL takes it (R89). -/
def State.handleCalibrateDark (s : State) (kindGiven : Bool) (tRef lampLevel : Option Nat) : State × Reply :=
  if kindGiven = false ∨ lampLevel.isSome then s.answer .field
  else
    match s.calibrateRefusal? with
    | some code => s.answer code
    | none =>
      match tRef with
      | none => (s.startDark s.cal.record.tRef, Reply.started false)
      | some t => (s.startDark (clampTime t), Reply.started (clampTime t != t))

/-- CALIBRATE_DARK (R89, R90). -/
def execCalibrateDark (q : Src) (kindGiven : Bool) (tRef lampLevel : Option Nat) (s : State) : Result :=
  s.serveQuiet q .calibrate fun x => x.handleCalibrateDark kindGiven tRef lampLevel

/-- CALIBRATE FLAT as the CAL takes it (R89). -/
def State.handleCalibrateFlat (s : State) (kindGiven : Bool) (tRef lampLevel : Option Nat) : State × Reply :=
  if kindGiven = false ∨ tRef.isSome then s.answer .field
  else
    match s.calibrateRefusal? with
    | some code => s.answer code
    | none =>
      if s.cal.record.state = .none ∨ s.cal.record.state = .lost then s.answer .state
      else
        match lampLevel with
        | none => (s.startFlat s.settings.lampLevel, Reply.started false)
        | some l =>
          (s.startFlat (clampSetting .lampLevel l), Reply.started (clampSetting .lampLevel l != l))

/-- CALIBRATE_FLAT (R89, R93). -/
def execCalibrateFlat (q : Src) (kindGiven : Bool) (tRef lampLevel : Option Nat) (s : State) : Result :=
  s.serveQuiet q .calibrate fun x => x.handleCalibrateFlat kindGiven tRef lampLevel

/-! ## READ_CALIB, READ_FAULT, SET_CLOCK -/

/-- The operation context that READ_CALIB answers (R102). R102 does not say which frame and repeat count it carries while
no frame is being taken, and which rows it then counts: 0 and 0 in LAMP_WAIT; frame 3, its repeats and its rows in the
passes; in FRAMES, while a flat waits for a STEADY lamp, those of the frame to be triggered next. DESIGN CHOICE (log
55), unsafe for a claim about those three. -/
def State.calOpReport (s : State) (op : CalOp) : CalOpReport :=
  { kind := op.kind, phase := op.phase, frame := op.frame, repeats := op.repeats,
    rowsAdded := s.cal.tally.countP fun t => t == op.frame + 1,
    means := op.means, mFirst := op.mFirst, gainRows := if op.phase = .gainPass then some op.passRow else none }

/-- READ_CALIB (R102). -/
def execReadCalib (q : Src) (s : State) : Result :=
  s.serveQuiet q .readCalib fun x =>
    (x, Reply.withData (.calib x.cal.record (x.cal.op.map x.calOpReport)))

/-- READ_FAULT (R120): the record is answered and emptied. -/
def execReadFault (q : Src) (s : State) : Result :=
  s.serveQuiet q .readFault fun x =>
    (x.onPlr fun p => { p with capture := none },
      Reply.withData (.fault x.plr.capture x.plr.faultCount x.plr.link))

/-- SET_CLOCK as the TBU takes it (R132). -/
def State.handleSetClock (s : State) (value : Option Seconds) : State × Reply :=
  match value with
  | none => s.answer .field
  | some v => (s.onTbu fun t => { t with clock := v }, Reply.done false)

/-- SET_CLOCK (R132). -/
def execSetClock (q : Src) (value : Option Seconds) (s : State) : Result :=
  s.serveQuiet q .setClock fun x => x.handleSetClock value

/-! ## STANDBY and WARM_RESTART -/

/-- No try is in flight and none is being claimed (R144 row 3). -/
def CsqState.admitsStandby : CsqState → Bool
  | .idle | .awaitSlot | .paused .claim => true
  | _ => false

/-- The refusal of a STANDBY by R144 rows 2 to 5, the first that matches. R151 says that no stream runs at the
acceptance, and no row of R144 refuses a STANDBY while a cut stream, whose cell is no longer DELIVERING, still awaits
its END: it is accepted, and the cut stream sends its END in RETAINING. DESIGN CHOICE (log 58), unsafe for a claim that
no stream runs while the store retains. -/
def State.standbyRefusal? (s : State) : Option AnswerCode :=
  if s.fsc.state ≠ .ready then some .notReady
  else if s.csq.state.admitsStandby = false then some .busy
  else if s.anyCell (fun c => c == .exposing || c == .finalizing || c == .delivering) then some .busy
  else if s.calibrating then some .busy
  else none

/-- The cells whose slots lie outside a mask, with their slots (R145 step 2). -/
def State.cellsOutside (s : State) (mask : List RegionNo) : List (CellRef × SlotNo) :=
  s.plates.flatMap fun r => r.cells.filterMap fun c =>
    match c.slot with
    | some k => if mask.any fun m => m.val == k.val then none else some (⟨r.key, c.column, c.row⟩, k)
    | none => none

/-- A cell is lost at standby (R23): PENDING, out of the delivery queue, its slot returned; the LTC is not
told. -/
def State.loseCell (s : State) (p : CellRef × SlotNo) : State :=
  ((s.changeCellQuiet p.1 CellRecord.abandon id).dequeue p.1).returnSlot p.2

/-- The calibration at the acceptance of a STANDBY (R100). -/
def State.standbyCalibration (s : State) (mask : List RegionNo) : State :=
  if mask.contains 7 then s
  else
    match s.cal.record.state with
    | .darkOnly | .valid | .stale => s.setCalRecord fun r => r.withoutDark .lost
    | .none | .lost => s

/-- The store enters RETAINING (R145 steps 1 and 5): the mask and the retain marks are recorded, refresh owed
is 0, and the regions outside the mask lose their contents. -/
def State.enterRetention (s : State) (mask : List RegionNo) : State :=
  (s.onFsc fun f =>
      { f with state := .retaining, mask := mask, retain := Vector.ofFn fun r => mask.contains r,
               refreshOwed := 0, waiting := [], mem := retainOnly f.mem mask }).raise
    (.store .retaining .ready .standby (some mask) none)

/-- The acceptance of a STANDBY (R145). -/
def State.standby (s : State) (mask : List RegionNo) : State :=
  ((((s.cellsOutside mask).foldl State.loseCell s).standbyCalibration mask).lampSwitchOff
      .offRequest).enterRetention mask

/-- STANDBY as the FSC takes it (R144). -/
def State.handleStandby (s : State) (mask : Option (List RegionNo)) : State × Reply :=
  match mask with
  | none => s.answer .field
  | some m =>
    match s.standbyRefusal? with
    | some code => s.answer code
    | none => (s.standby m, Reply.done false)

/-- STANDBY (R144, R145). -/
def execStandby (q : Src) (mask : Option (List Nat)) (s : State) : Result :=
  s.serve q .standby fun x => x.handleStandby (regionMask mask)

/-- WARM_RESTART (R174): answered DONE; the restart begins at the end of the sending of that answer. -/
def execWarmRestart (q : Src) (s : State) : Result :=
  s.serveQuiet q .warmRestart fun x => (x, Reply.done false)

end Sys2Proof.Machine
end

