-- ==== Sys2Proof/Machine/ReleaseRequests.lean ====
section
/-! DEFINITION. The meanings of the delivery and release requests (R154, R155, R162, R21). -/

namespace Sys2Proof.Machine

/-- SET_DELIVERY as the DLT takes it (R154): a change to AUTO may start a stream; a change to FETCH touches the
mode alone. -/
def State.handleSetDelivery (s : State) (mode : Arg DeliveryMode) : State × Reply :=
  match mode with
  | .given .auto => (((s.onDlt fun d => { d with mode := .auto }).pollDelivery).arbitrate, Reply.done false)
  | .given .fetch => (s.onDlt fun d => { d with mode := .fetch }, Reply.done false)
  | _ => s.answer .field

/-- SET_DELIVERY (R154). -/
def execSetDelivery (q : Src) (mode : Arg DeliveryMode) (s : State) : Result :=
  s.serve q .setDelivery fun x => x.handleSetDelivery mode

/-- FETCH as the DLT takes it (R155). -/
def State.handleFetch (s : State) (key : Option PlateKey) (column row : Option Nat) : State × Reply :=
  match key, column, row with
  | some k, some c, some y =>
    if s.fsc.state ≠ .ready then s.answer .notReady
    else
      match s.plate? k with
      | none => s.answer .unknown
      | some r =>
        match r.cell? c y with
        | none => s.answer .field
        | some x =>
          if s.dlt.mode = .auto then s.answer .state
          else if s.dlt.stream.isSome then s.answer .busy
          else if x.state ≠ .merged then s.answer .state
          else (((s.startStream ⟨k, c, y⟩).serveLink).arbitrate, Reply.done false)
  | _, _, _ => s.answer .field

/-- FETCH (R155). -/
def execFetch (q : Src) (key : Option PlateKey) (column row : Option Nat) (s : State) : Result :=
  s.serve q .fetch fun x => x.handleFetch key column row

/-- The checks that both verdicts share (R162 rows 1 to 3). -/
def State.withCell (s : State) (key : Option PlateKey) (column row : Option Nat) (verdictGiven : Bool)
    (f : PlateRecord → CellRecord → State × Reply) : State × Reply :=
  match key, column, row, verdictGiven with
  | some k, some c, some y, true =>
    match s.plate? k with
    | none => s.answer .unknown
    | some r =>
      match r.cell? c y with
      | none => s.answer .field
      | some x => f r x
  | _, _, _, _ => s.answer .field

/-- A slot that a cell held is returned. -/
def State.returnCellSlot (s : State) (x : CellRecord) : State :=
  match x.slot with
  | some k => s.returnSlot k
  | none => s

/-- KEEP (R21): the cell is KEPT, its slot is returned, and the kept count rises. -/
def State.keepCell (s : State) (r : PlateRecord) (x : CellRecord) : State :=
  (((s.changeCell ⟨r.key, x.column, x.row⟩ (fun c => { c with state := .kept, slot := none })
        fun p => { p with kept := p.kept + 1 }).returnCellSlot x).pollSlot).arbitrate

/-- RELEASE KEEP as the DLT takes it (R162). -/
def State.handleKeep (s : State) (r : PlateRecord) (x : CellRecord) : State × Reply :=
  if x.state = .delivered then (s.keepCell r x, Reply.done false) else s.answer .state

/-- RELEASE_KEEP (R162, R21). -/
def execReleaseKeep (q : Src) (key : Option PlateKey) (column row : Option Nat) (verdictGiven : Bool) (s : State) :
    Result :=
  s.serve q .release fun x => x.withCell key column row verdictGiven x.handleKeep

/-- RECAPTURE (R21): below the try limit the cell is PENDING again, at the limit FAILED; its slot is returned
and it leaves the delivery queue. -/
def State.recaptureCell (s : State) (r : PlateRecord) (x : CellRecord) : State :=
  let ref : CellRef := ⟨r.key, x.column, x.row⟩
  let s1 :=
    if x.triesUsed < s.tryLimit r then s.changeCell ref (fun c => { c with state := .pending, slot := none }) id
    else
      s.changeCell ref (fun c => { c with state := .failed, slot := none }) fun p => { p with failed := p.failed + 1 }
  ((((s1.dequeue ref).returnCellSlot x).pollIdle).pollSlot).arbitrate

/-- RELEASE RECAPTURE as the DLT takes it (R162). -/
def State.handleRecapture (s : State) (r : PlateRecord) (x : CellRecord) : State × Reply :=
  if x.state = .merged ∨ x.state = .delivered then (s.recaptureCell r x, Reply.done false) else s.answer .state

/-- RELEASE_RECAPTURE (R162, R21). -/
def execReleaseRecapture (q : Src) (key : Option PlateKey) (column row : Option Nat) (verdictGiven : Bool)
    (s : State) : Result :=
  s.serve q .release fun x => x.withCell key column row verdictGiven x.handleRecapture

end Sys2Proof.Machine
end

