-- ==== Sys2Proof/Machine/PortRequests.lean ====
section
/-! DEFINITION. The meanings of the ports' own requests (R171, R173, R175), with the reports that READ_STATUS
answers (R40, R84, R119, R131, R150, R163, R175). -/

namespace Sys2Proof.Machine

/-- The kind set of a SET_FILTER, in the order of the kind bytes, or none where it names a kind that does not
exist (R171). -/
def kindSet? (kinds : List (Option NoticeKind)) : Option (List NoticeKind) :=
  if kinds.contains none then none else some (allNoticeKinds.filter fun k => kinds.contains (some k))

/-- SET_FILTER as the SPU takes it (R171). -/
def State.handleSetFilter (s : State) (port : PortNo) (kinds : Option (List (Option NoticeKind)))
    (keyCode keyMask : Option PlateKey) : State × Reply :=
  match kinds.bind kindSet?, keyCode, keyMask with
  | some ks, some code, some mask =>
    (s.onPort port fun p => { p with filter := { kinds := ks, keyCode := code, keyMask := mask } }, Reply.done false)
  | _, _, _ => s.answer .field

/-- SET_FILTER (R171). -/
def execSetFilter (q : Src) (kinds : Option (List (Option NoticeKind))) (keyCode keyMask : Option PlateKey)
    (s : State) : Result :=
  s.serveQuiet q .setFilter fun x => x.handleSetFilter q.port kinds keyCode keyMask

/-- RESUME (R173). -/
def execResume (q : Src) (s : State) : Result :=
  s.serveQuiet q .resume fun x => (x.onPort q.port fun p => { p with gate := .opened }, Reply.done false)

/-! ## READ_STATUS -/

/-- The report of one port (R175). -/
def Port.report (p : Port) : PortReport :=
  { role := p.role, rate := p.rate, gate := p.gate, filter := p.filter, noticeNumber := p.noticeNumber,
    queueCount := p.notices.length, pace := p.pace, outstanding := p.outstanding.isSome }

/-- The sequencer report (R40). -/
def State.sequencerReport (s : State) : SequencerReport :=
  let list := s.csq.ctx.map fun c => (s.work c.slot).list
  { state := s.csq.state, trial := s.csq.ctx.map fun c => (c.cell, c.slot),
    rung := s.csq.ctx.map fun c => (c.rung, c.repeatCount), entries := list.map List.length,
    latest := list.bind fun l => l.getLast?.map (·.outcome), move := s.csq.move }

/-- A record that a clear or a try works on (R84). -/
def WorkRecord.inTry (w : WorkRecord) : Bool := w.state == .clearing || w.state == .accumulating

/-- The merge report (R84). -/
def State.mergeReport (s : State) : MergeReport :=
  let records := s.mge.work.toList
  { records := records.map fun w => (w.state, w.owner), queue := s.mge.queue,
    rowsFinalized := (records.find? fun w => w.state == .running).map (·.rowsFinalized),
    counters := (records.find? WorkRecord.inTry).map fun w =>
      (w.valid, w.satOnly, w.starvedOnly, w.dead, w.list.length) }

/-- The link report (R119). -/
def Plr.report (p : Plr) : LinkReport :=
  { link := p.link, faultCount := p.faultCount, tagCounter := p.tagCounter, awaitedTag := p.awaitedTag,
    reception := p.reception, queued := p.queue.length, held := p.queue.countP fun r => !r.released,
    idleRun := if p.link = .dropped then some p.idleRun else none }

/-- The time left on a timer, absent while it is STOPPED: at most its preset, and otherwise open (R175,
log 3). -/
def timerLeft (timer : Option Nat) (ask : Nat) : Option Nat := timer.map fun preset => Config.timeLeft ask % (preset + 1)

/-- The lamp report (R131). -/
def State.lampReport (s : State) : LampReport :=
  { lamp := s.ltc.lamp, phase := s.ltc.phase, drive := s.ltc.drive,
    reference :=
      match s.cal.record.mRef with
      | some m => some (.mRef m)
      | none => s.ltc.warmRef.map fun r => .warmUp r.toNat
    last := s.ltc.last, run := s.ltc.run, warmUpLeft := timerLeft s.tbu.timers.warmUp s.freeCount,
    idleLeft := timerLeft s.tbu.timers.idle (s.freeCount + 1), windowOpen := s.ltc.windowOpen }

/-- The time report (R175): the clocks and the six timers of R134, in its order. -/
def State.timeReport (s : State) : TimeReport :=
  let t := s.tbu.timers
  { clock := s.tbu.clock, lampMinutes := s.tbu.lampMinutes, lampSeconds := s.tbu.lampSeconds,
    timeLeft := [timerLeft t.settle s.freeCount, timerLeft t.move (s.freeCount + 1),
      timerLeft t.frame (s.freeCount + 2), timerLeft t.warmUp (s.freeCount + 3), timerLeft t.check (s.freeCount + 4),
      timerLeft t.idle (s.freeCount + 5)] }

/-- The store report (R150): the entry of every region, and the slot pool. -/
def Fsc.report (f : Fsc) : StoreReport :=
  { state := f.state, reason := f.reason, mask := f.mask, regions := (List.finRange 8).map f.region,
    held := f.held.toList, refreshOwed := f.refreshOwed, access := f.access.map fun a => a.work.cls,
    waiting := f.waiting }

/-- The state of a row buffer (R151). -/
def RowBuffer.state : RowBuffer → BufferState
  | .empty => .empty
  | .reading => .reading
  | .full _ => .full

/-- The stream can send its next unit and waits only on READY (R157, R163). R163 does not say whether a stream whose
next row is still READING while READY is low waits on READY: it is reported as waiting on its row. DESIGN CHOICE
(log 45), unsafe for a claim about that report. -/
def Dlt.waitsOnReady (d : Dlt) (t : Stream) : Bool := !d.ready && d.link.isNone && t.nextUnit?.isSome

/-- The delivery report (R163). -/
def State.deliveryReport (s : State) : DeliveryReport :=
  { mode := s.dlt.mode, queue := s.dlt.queue.map fun c => (c, (s.cell? c).bind (·.slot)), ready := s.dlt.ready,
    stream := s.dlt.stream.map fun t =>
      { cell := t.cell, cut := t.cut, phase := t.phase, nextRow := t.nextRow, buffer := t.buffer.state,
        waitsOnReady := s.dlt.waitsOnReady t } }

/-- The report of a section (R175). -/
def State.statusReport (s : State) (x : StatusSection) : StatusReport :=
  match x with
  | .ports => .ports (s.ports.toList.map Port.report)
  | .sequencer => .sequencer s.sequencerReport
  | .merge => .merge s.mergeReport
  | .link => .link s.plr.report
  | .lamp => .lamp s.lampReport
  | .time => .time s.timeReport
  | .store => .store s.fsc.report
  | .delivery => .delivery s.deliveryReport

/-- The free values a section's report takes (log 3). -/
def sectionAsks : StatusSection → Nat
  | .lamp => 2
  | .time => 6
  | _ => 0

/-- READ_STATUS as the SPU takes it (R175): the flags of the asking port are answered and cleared. Where the request
wakes a RETAINING store, the wake's STORE notice is offered at the end of the event, after the flags are cleared
and the report is formed, so that a full queue leaves overrun set and PORTS shows the number before it: R175 gives
no order. DESIGN CHOICE (log 46), unsafe for a claim about those two. -/
def State.handleReadStatus (s : State) (port : PortNo) (sect : Arg StatusSection) : State × Reply :=
  match sect with
  | .given x =>
    let p := s.ports.get port
    ({ s with freeCount := s.freeCount + sectionAsks x }.onPort port fun y => { y with badFrame := false, overrun := false },
      Reply.withData (.status p.role p.badFrame p.overrun s.fsc.state (s.statusReport x)))
  | _ => s.answer .field

/-- READ_STATUS (R175). -/
def execReadStatus (q : Src) (sect : Arg StatusSection) (s : State) : Result :=
  s.serveQuiet q .readStatus fun x => x.handleReadStatus q.port sect

end Sys2Proof.Machine
end

