-- ==== Sys2Proof/Machine/Dispatch.lean ====
section
/-! DEFINITION. The meaning of every command: one arm for each constructor of Instr. The queue of waiting
commands is not a command's concern. -/

namespace Sys2Proof.Machine

/-- The effect of a command on everything but the queue of waiting commands. -/
def exec (i : Instr) (s : State) : Host.Outcome State Fault Refusal :=
  match i with
  | .coldReset port0 port1 port2 => Sys2Proof.Machine.execColdReset port0 port1 port2 s
  | .coldResetEnd => Sys2Proof.Machine.execColdResetEnd s
  | .resetWarm => Sys2Proof.Machine.execResetWarm s
  | .bringUpPass fittedBytes => Sys2Proof.Machine.execBringUpPass fittedBytes s
  | .bringUpFail => Sys2Proof.Machine.execBringUpFail s
  | .relockPass => Sys2Proof.Machine.execRelockPass s
  | .relockFail => Sys2Proof.Machine.execRelockFail s
  | .refreshDue => Sys2Proof.Machine.execRefreshDue s
  | .refreshComplete => Sys2Proof.Machine.execRefreshComplete s
  | .rowMergeComplete => Sys2Proof.Machine.execRowMergeComplete s
  | .clearRowWrite => Sys2Proof.Machine.execClearRowWrite s
  | .calibrationAccumulationRow => Sys2Proof.Machine.execCalibrationAccumulationRow s
  | .finalizationRowWrite => Sys2Proof.Machine.execFinalizationRowWrite s
  | .deliveryReadComplete => Sys2Proof.Machine.execDeliveryReadComplete s
  | .secondTick => Sys2Proof.Machine.execSecondTick s
  | .lampOnMinute => Sys2Proof.Machine.execLampOnMinute s
  | .settleTimerExpiry => Sys2Proof.Machine.execSettleTimerExpiry s
  | .moveTimerExpiry => Sys2Proof.Machine.execMoveTimerExpiry s
  | .frameTimerExpiry => Sys2Proof.Machine.execFrameTimerExpiry s
  | .warmUpExpiry => Sys2Proof.Machine.execWarmUpExpiry s
  | .lampCheck reading => Sys2Proof.Machine.execLampCheck reading s
  | .idleTimerExpiry => Sys2Proof.Machine.execIdleTimerExpiry s
  | .shutterRise reading => Sys2Proof.Machine.execShutterRise reading s
  | .shutterFall => Sys2Proof.Machine.execShutterFall s
  | .frameStart tag check => Sys2Proof.Machine.execFrameStart tag check s
  | .uplinkRow index codeBytes check => Sys2Proof.Machine.execUplinkRow index codeBytes check s
  | .frameEnd rowCount check => Sys2Proof.Machine.execFrameEnd rowCount check s
  | .uplinkIdle check => Sys2Proof.Machine.execUplinkIdle check s
  | .unknownUnit unitBytes => Sys2Proof.Machine.execUnknownUnit unitBytes s
  | .readyRise => Sys2Proof.Machine.execReadyRise s
  | .startSent => Sys2Proof.Machine.execStartSent s
  | .headerSent => Sys2Proof.Machine.execHeaderSent s
  | .deliveryRowSent => Sys2Proof.Machine.execDeliveryRowSent s
  | .endSent => Sys2Proof.Machine.execEndSent s
  | .badFrame port cause => Sys2Proof.Machine.execBadFrame port cause s
  | .nonRequestFrame port kind body => Sys2Proof.Machine.execNonRequestFrame port kind body s
  | .lineBreak port => Sys2Proof.Machine.execLineBreak port s
  | .paceFall port => Sys2Proof.Machine.execPaceFall port s
  | .answerSent port => Sys2Proof.Machine.execAnswerSent port s
  | .noticeSent port => Sys2Proof.Machine.execNoticeSent port s
  | .enrol q key profile handling emulsion columns rows => Sys2Proof.Machine.execEnrol q key profile handling emulsion columns rows s
  | .seated q key => Sys2Proof.Machine.execSeated q key s
  | .unseated q key => Sys2Proof.Machine.execUnseated q key s
  | .withdraw q key => Sys2Proof.Machine.execWithdraw q key s
  | .retire q key => Sys2Proof.Machine.execRetire q key s
  | .hold q key => Sys2Proof.Machine.execHold q key s
  | .free q key => Sys2Proof.Machine.execFree q key s
  | .mark q key handling emulsion => Sys2Proof.Machine.execMark q key handling emulsion s
  | .readPlate q sel => Sys2Proof.Machine.execReadPlate q sel s
  | .readCell q key column row => Sys2Proof.Machine.execReadCell q key column row s
  | .writeProfile q index ladder satS floorF extT singleTry qceil => Sys2Proof.Machine.execWriteProfile q index ladder satS floorF extT singleTry qceil s
  | .readProfile q sel => Sys2Proof.Machine.execReadProfile q sel s
  | .setField q width height => Sys2Proof.Machine.execSetField q width height s
  | .setCapture q settings => Sys2Proof.Machine.execSetCapture q settings s
  | .atCell q key column row number => Sys2Proof.Machine.execAtCell q key column row number s
  | .moveFault q key number => Sys2Proof.Machine.execMoveFault q key number s
  | .calibrateDark q kindGiven tRef lampLevel => Sys2Proof.Machine.execCalibrateDark q kindGiven tRef lampLevel s
  | .calibrateFlat q kindGiven tRef lampLevel => Sys2Proof.Machine.execCalibrateFlat q kindGiven tRef lampLevel s
  | .readCalib q => Sys2Proof.Machine.execReadCalib q s
  | .readFault q => Sys2Proof.Machine.execReadFault q s
  | .setClock q value => Sys2Proof.Machine.execSetClock q value s
  | .standby q mask => Sys2Proof.Machine.execStandby q mask s
  | .warmRestart q => Sys2Proof.Machine.execWarmRestart q s
  | .setDelivery q mode => Sys2Proof.Machine.execSetDelivery q mode s
  | .fetch q key column row => Sys2Proof.Machine.execFetch q key column row s
  | .releaseKeep q key column row verdictGiven => Sys2Proof.Machine.execReleaseKeep q key column row verdictGiven s
  | .releaseRecapture q key column row verdictGiven => Sys2Proof.Machine.execReleaseRecapture q key column row verdictGiven s
  | .setFilter q kinds keyCode keyMask => Sys2Proof.Machine.execSetFilter q kinds keyCode keyMask s
  | .resume q => Sys2Proof.Machine.execResume q s
  | .readStatus q sect => Sys2Proof.Machine.execReadStatus q sect s
  | .readyFall => Sys2Proof.Machine.execReadyFall s
  | .paceRise port => Sys2Proof.Machine.execPaceRise port s
  | .monitorSample reading => Sys2Proof.Machine.execMonitorSample reading s

end Sys2Proof.Machine
end

