-- ==== Sys2Proof/Machine/Step.lean ====
section
/-! DEFINITION. One step of the block: the command at the front of the queue is taken and its meaning runs with
the queue's rest; with no command waiting the block idles (log 10). -/

namespace Sys2Proof.Machine

/-- One step. On an empty queue the block idles. DESIGN CHOICE (log 10), safe: every change the manual gives is
made at the event of a command. -/
def step (s : State) : Host.Outcome State Fault Refusal :=
  match s.pending with
  | [] => .next s
  | c :: rest => exec c { s with pending := rest }

/-- The state with the command that a word spells put at the front of the queue; no row of the table gives
bits, so no word spells one and the state stays as it is (log 11). -/
def State.withFetchWord (s : State) (nbits w : Nat) : State :=
  match decodeTableWord nbits w with
  | some c => { s with pending := c :: s.pending }
  | none => s

end Sys2Proof.Machine
end

