-- ==== Sys2Proof/WellFormed.lean ====
section
/-! DEFINITION. Which commands are well formed: a command that reports a bad frame, a frame that is no request
or an unknown unit carries bytes that are one (R113, R165 to R167), and list operands fit a frame. The
meanings take any command; this check says which ones an outside event can be. -/

namespace Sys2Proof

/-- Characters that are one bad frame, after any characters that HUNT discards: a framer in HUNT finds the frame
bad at the last of them, and ends no other frame before (R166). -/
def badFrameCharacters (characters : List Character) : Bool :=
  (Machine.Framer.hunt.receive characters).2 == [.bad]
    && (Machine.Framer.hunt.receive characters.dropLast).2 == []

/-- A frame whose kind is no request kind, or whose body is empty (R165, R167 row 1). R165 gives the requests the
kinds 0x10..0x3F, 48 values for 28 requests, and does not say which: a kind of that range is taken for a
request's, and a frame with one and a body is no command of this row. DESIGN CHOICE (log 37). -/
def nonRequest (kind : Byte) (body : List Byte) : Bool :=
  body.length ≤ 200 && (body.isEmpty || kind.toNat < 0x10 || 0x3F < kind.toNat)

/-- Bytes that are no marker of the uplink: an unknown type byte, or a length that does not fit the type
(R107, R113). A ROW fits its type at any length that leaves it whole: a wrong number of code bytes is a
torn row (R109). -/
def unknownUplinkUnit : List Byte → Bool
  | [] => true
  | t :: rest =>
    if t = 0xA0#8 then rest.length != 2
    else if t = 0xA1#8 then rest.length != 3
    else if t = 0xA2#8 then rest.length < 4
    else if t = 0xA3#8 then rest.length != 4
    else true

/-- The check of a command. -/
def Instr.wellFormed : Instr → Bool
  | .badFrame _ characters => badFrameCharacters characters
  | .nonRequestFrame _ kind body => nonRequest kind body
  | .unknownUnit unitBytes => unknownUplinkUnit unitBytes
  | .writeProfile _ _ ladder _ _ _ _ _ => decide ((ladder.getD []).length ≤ 200)
  | .setCapture _ settings => decide (settings.length ≤ 200)
  | .standby _ mask => decide ((mask.getD []).length ≤ 200)
  | .setFilter _ kinds _ _ => decide ((kinds.getD []).length ≤ 200)
  | _ => true

end Sys2Proof
end

