-- ==== Sys2Proof/Safety.lean ====
section
/-! DEFINITION. What a safe state of the part is: the laws the manual calls laws of the device and the ranges its
tables give; and the terms in which statements say what a command leaves alone, when a request is taken, that it is
answered, which notices an event offers, and what READ_STATUS reports. -/

namespace Sys2Proof.Machine

/-! ## Laws of the device -/

/-- At most 24 records, no key twice, at most one record seated (R1, R7). -/
abbrev State.registerLaw (s : State) : Prop :=
  s.plates.length ≤ Config.maxPlates ∧ (s.plates.map (·.key)).Nodup ∧ s.plates.countP (·.seated) ≤ 1

/-- A record's cell table holds one cell record for each place of its grid (R3). -/
abbrev State.gridLaw (s : State) : Prop :=
  ∀ r ∈ s.plates, r.cells.map (fun c => (c.column, c.row)) = gridCells r.columns r.rows

/-- At most one cell in the whole register is in EXPOSING (R17). -/
abbrev State.exposingLaw (s : State) : Prop :=
  (s.plates.flatMap (·.cells)).countP (·.state == .exposing) ≤ 1

/-- Every cell record of the register, with its reference. -/
def State.cells (s : State) : List (CellRef × CellRecord) :=
  s.plates.flatMap fun r => r.cells.map fun c => (⟨r.key, c.column, c.row⟩, c)

/-- The cells of a WITHDRAWN record are PENDING, KEPT or FAILED, and those of a DONE or FAULTED record KEPT or FAILED
(R10, R12). -/
abbrev State.plateLaw (s : State) : Prop :=
  ∀ r ∈ s.plates,
    (r.state = .withdrawn → ∀ c ∈ r.cells, c.state = .pending ∨ c.state = .kept ∨ c.state = .failed)
      ∧ ((r.state = .done ∨ r.state = .faulted) → ∀ c ∈ r.cells, c.state = .kept ∨ c.state = .failed)

/-- A cell state in which the cell holds a slot (R18). -/
def CellState.holdsSlot : CellState → Bool
  | .exposing | .finalizing | .merged | .delivering | .delivered => true
  | .pending | .kept | .failed => false

/-- The law on slots (R18, R136, R139, R140): the cells in the five states that hold a slot, and no others, have one;
a slot is HELD when its region has a holder; and the holder of a region is the cell with that slot. No slot is
then held by two cells. -/
abbrev State.slotLaw (s : State) : Prop :=
  (∀ p ∈ s.cells, p.2.slot.isSome = p.2.state.holdsSlot)
    ∧ (∀ k : SlotNo, s.fsc.held.get k = (s.fsc.holders.get k).isSome)
    ∧ (∀ p ∈ s.cells, ∀ k ∈ p.2.slot.toList, s.fsc.holders.get k = some p.1)
    ∧ ∀ k : SlotNo, ∀ c ∈ (s.fsc.holders.get k).toList, ∃ p ∈ s.cells, p.1 = c ∧ p.2.slot = some k

/-- The law on the try in flight (R17, R38, R42 to R45): a context stands while a try is in flight; the move timer
runs, and the move record is MOVING, only in MOVING; a window opens only over a cleared slot; the cell of the
context is EXPOSING in its slot, on the seated ACTIVE plate, and no other cell is EXPOSING. -/
abbrev State.tryLaw (s : State) : Prop :=
  s.csq.ctx.isSome = !s.csq.state.admitsStandby
    ∧ (s.tbu.timers.move.isSome = true → s.csq.state = .moving)
    ∧ (s.csq.move.map (·.status) = some .moving ↔ s.csq.state = .moving)
    ∧ ((s.csq.state = .exposing ∨ s.csq.state = .readout ∨ s.csq.state = .review) →
        s.csq.ctx.map (·.clearComplete) = some true)
    ∧ (∀ c ∈ s.csq.ctx.toList, ∃ r ∈ s.plates, r.key = c.cell.key ∧ r.seated = true ∧ r.state = .active
        ∧ ∃ x ∈ r.cells, x.column = c.cell.column ∧ x.row = c.cell.row ∧ x.state = .exposing ∧ x.slot = some c.slot)
    ∧ ∀ p ∈ s.cells, p.2.state = .exposing → s.csq.ctx.map (·.cell) = some p.1

/-- The states of the work record of a cell's slot (R64, R67, R74, R77). -/
def CellState.workStates : CellState → List WorkState
  | .exposing => [.clearing, .accumulating]
  | .finalizing => [.queued, .running]
  | .merged | .delivering | .delivered => [.coded]
  | .pending | .kept | .failed => []

/-- The law on work records (R64, R65, R74): a record is FREE when its slot is, its owner is the slot's holder and its
state goes with the cell's; the finalization queue holds the QUEUED and RUNNING records once each, the head alone
RUNNING; the clear of the try in flight is complete when its record accumulates. -/
abbrev State.recordLaw (s : State) : Prop :=
  (∀ k : SlotNo, (s.work k).owner = s.fsc.holders.get k
      ∧ ((s.work k).state = .free ↔ s.fsc.holders.get k = none))
    ∧ (∀ p ∈ s.cells, ∀ k ∈ p.2.slot.toList, (s.work k).state ∈ p.2.state.workStates)
    ∧ s.mge.queue.Nodup
    ∧ (∀ k : SlotNo, k ∈ s.mge.queue ↔ (s.work k).state = .queued ∨ (s.work k).state = .running)
    ∧ (∀ k : SlotNo, (s.work k).state = .running ↔ s.mge.queue.head? = some k)
    ∧ ∀ c ∈ s.csq.ctx.toList, c.clearComplete = true ↔ (s.work c.slot).state = .accumulating

/-- The parts of a stream go together (R151, R157, R160): a cut stream, and no other, names neither cell nor slot, and
comes to its END; a row is being read in HEADER and ROWS alone. -/
def Stream.coherent (t : Stream) : Bool :=
  t.cell.isNone == t.cut && t.slot.isNone == t.cut && (!t.cut || t.phase == .finish)
    && (t.buffer != .reading || t.phase == .header || t.phase == .rows)

/-- A unit being sent whose stream still runs is the unit of its phase, a ROW the one of the next row from a FULL
buffer; of a stream that has been cut meanwhile it may be an earlier one (R157 to R160). -/
def Dlt.unitBelongs (d : Dlt) (u : LinkUnit) : Bool :=
  !u.live || d.stream.any fun t =>
    match u.content, t.buffer with
    | .start, _ => t.cut || t.phase == .start
    | .header _, _ => t.cut || t.phase == .header
    | .row y _, .full _ => (t.cut || t.phase == .rows) && y == t.nextRow
    | .row .., _ => false
    | .finish .., _ => t.phase == .finish

/-- The law on delivery (R151 to R153, R157 to R160): the delivery queue holds every MERGED cell once and no other; the
DELIVERING cell is the cell of the stream, with its slot; and the stream's parts and the unit being sent go with each
other. -/
abbrev State.deliveryLaw (s : State) : Prop :=
  s.dlt.queue.Nodup
    ∧ (∀ c ∈ s.dlt.queue, ∃ p ∈ s.cells, p.1 = c ∧ p.2.state = .merged)
    ∧ (∀ p ∈ s.cells, p.2.state = .merged → p.1 ∈ s.dlt.queue)
    ∧ (∀ p ∈ s.cells, p.2.state = .delivering → s.dlt.stream.bind (·.cell) = some p.1)
    ∧ (∀ t ∈ s.dlt.stream.toList,
        (∀ c ∈ t.cell.toList, ∃ p ∈ s.cells, p.1 = c ∧ p.2.state = .delivering ∧ p.2.slot = t.slot)
          ∧ t.coherent = true)
    ∧ ∀ u ∈ s.dlt.link.toList, s.dlt.unitBelongs u = true

/-- An access whose result is used belongs to work under way (R140, R141): a read of the stream is of its next row, for
which the buffer is READING (R157). -/
def State.accessBelongs (s : State) (a : Access) : Bool :=
  match a.result, a.work with
  | .used, .clear k _ => (s.work k).state == .clearing
  | .used, .merge k _ _ _ => (s.work k).state == .accumulating
  | .used, .finalize k _ => s.mge.queue.head? == some k
  | .used, .deliver k y =>
    s.dlt.stream.any fun t => t.slot == some k && t.buffer == .reading && y == t.nextRow
  | _, _ => true

/-- The laws on the work of cells, which hold together. -/
abbrev State.cellLaw (s : State) : Prop :=
  s.plateLaw ∧ s.slotLaw ∧ s.tryLaw ∧ s.recordLaw ∧ s.deliveryLaw
    ∧ ∀ a ∈ s.fsc.access.toList, s.accessBelongs a = true

/-- A cell's tries used never exceeds its try limit, and a cell still to be captured is below it (R19); a WITHDRAWN
record's cells are captured no more. -/
abbrev State.triesLaw (s : State) : Prop :=
  ∀ r ∈ s.plates, ∀ c ∈ r.cells, c.triesUsed ≤ s.tryLimit r
    ∧ (r.state ≠ .withdrawn → (c.state = .pending ∨ c.state = .exposing ∨ c.state = .finalizing) →
        c.triesUsed < s.tryLimit r)

/-- The pixels of a class in a slot's accumulation plane (R71). -/
def State.planeCount (s : State) (k : SlotNo) (x : PixelClass) : Nat :=
  ((List.range s.geometry.height).map fun y => classCount x (s.accumRow k y)).sum

/-- The class counters of an ACCUMULATING record count its plane (R71, R73); a CLEARING one has its counters at 0 and
the rows below rows cleared cleared (R67); a RUNNING one has a row left (R75). -/
abbrev State.counterLaw (s : State) : Prop :=
  ∀ k : SlotNo,
    ((s.work k).state = .accumulating →
        (s.work k).valid = s.planeCount k .valid ∧ (s.work k).satOnly = s.planeCount k .satOnly
          ∧ (s.work k).starvedOnly = s.planeCount k .starvedOnly ∧ (s.work k).dead = s.planeCount k .dead)
      ∧ ((s.work k).state = .clearing →
          (s.work k).valid = 0 ∧ (s.work k).satOnly = 0 ∧ (s.work k).starvedOnly = 0 ∧ (s.work k).dead = 0
            ∧ (s.work k).rowsCleared < s.geometry.height
            ∧ ∀ y < (s.work k).rowsCleared, s.accumRow k y = List.replicate s.geometry.width Accum.cleared)
      ∧ ((s.work k).state = .running → (s.work k).rowsFinalized < s.geometry.height)

/-- A row lies in region 7, or in a slot's region whose plane nothing has built on: its record neither accumulates
nor has cleared a row. -/
def State.rowHarmless (s : State) (r : StoreRow) : Prop :=
  regionBase 7 ≤ r.addr
    ∨ ∃ k : SlotNo, regionBase k.val ≤ r.addr ∧ r.addr + r.bytes.length ≤ regionBase (k.val + 1)
        ∧ (s.work k).state ≠ .accumulating ∧ ((s.work k).state = .clearing → (s.work k).rowsCleared = 0)

/-- The row of the access in progress (R67, R68, R75): a clear and a pass work on their next row, a merge on a row of
the field; and a stopped access writes where it harms no plane in use (R140, log 20). -/
abbrev State.rowLaw (s : State) : Prop :=
  (∀ k y, s.fsc.access = some { work := .clear k y, result := .used } → y = (s.work k).rowsCleared)
    ∧ (∀ k o y codes, s.fsc.access = some { work := .merge k o y codes, result := .used } →
        y < s.geometry.height ∧ codes.length = s.geometry.width)
    ∧ (∀ k y, s.fsc.access = some { work := .finalize k y, result := .used } → y = (s.work k).rowsFinalized)
    ∧ ∀ w r, s.fsc.access = some { work := w, result := .unused (some r) } → s.rowHarmless r

/-- The plate is never seated while a calibration runs (R89, R98). -/
abbrev State.calibrationLaw (s : State) : Prop := s.cal.op ≠ none → ∀ r ∈ s.plates, r.seated = false

/-- An entry of which rows are merged (R50, R73). -/
abbrev Exposure.isMerged (e : Exposure) : Prop := e.outcome = .merged ∨ e.outcome = .patched

/-- The law of the row merge (R73): every best value of a slot whose record is ACCUMULATING, that is of the cell in
EXPOSING, names a MERGED or PATCHED entry of its exposure list. -/
abbrev State.bestLaw (s : State) : Prop :=
  ∀ k : SlotNo, (s.work k).state = .accumulating → ∀ y < s.geometry.height, ∀ a ∈ s.accumRow k y, a.hasBest = true →
    ∃ e ∈ (s.work k).list, e.ordinal = a.ordinal ∧ e.isMerged

/-- The rows held for the window-end decision (R106). -/
abbrev Plr.heldRows (p : Plr) : Nat := p.queue.countP fun r => !r.released

/-- The law on the awaited frame, which keeps R73's (R39, R48 to R50, R68, R72, R91, R104 to R112). Ordinals are places
in the list. In EXPOSING the latest entry, the requester's, is PENDING, its rows held; in READOUT it is MERGED with its
rows released or UNSTEADY with its rows drained until the frame is reported, and merged or patched where rows have been
handed. The link waits for a requester's frame: of a try in these states alone, and of an attempt while it is in flight
and not reported. Rows in the queue are of the try in these states or of the attempt in flight. Rows handed and the row
being merged are the latest entry's; and a best that names it has had a row handed. Of the open frame no more rows are
handed, held and torn than have come. -/
abbrev State.frameLaw (s : State) : Prop :=
  let p := s.plr
  let reading : Prop := s.csq.state = .readout ∧ s.csq.frameReported = false
  let taking : Prop := s.cal.op.map (fun op => (op.phase, op.inFlight)) = some (.frames, true)
  let waits : Prop := p.awaitedTag ≠ none ∨ p.reception = .receiving ∨ p.endPending = true ∨ s.tbu.timers.frame ≠ none
  (∀ k : SlotNo, (s.work k).list.map (·.ordinal) = List.range (s.work k).list.length)
    ∧ (s.csq.state = .exposing ∨ s.csq.state = .readout → ∀ c ∈ s.csq.ctx.toList, ∃ e,
        (s.work c.slot).list.getLast? = some e ∧ p.requester = some (.capture c.slot e.ordinal)
          ∧ (s.csq.state = .exposing → e.outcome = .pending ∧ p.decision = .waiting ∧ p.rowsReleased = 0)
          ∧ (reading → (e.outcome = .merged ∧ p.decision = .release) ∨ (e.outcome = .unsteady ∧ p.decision = .drain))
          ∧ (0 < p.rowsReleased → e.isMerged)
          ∧ ∀ y < s.geometry.height, ∀ a ∈ s.accumRow c.slot y, a.hasBest = true → a.ordinal = e.ordinal →
              0 < p.rowsReleased)
    ∧ (s.csq.frameReported = true → s.csq.state = .readout)
    ∧ (waits → p.requester ≠ none)
    ∧ (waits → (∃ k o, p.requester = some (.capture k o)) → s.csq.state = .exposing ∨ reading)
    ∧ (waits → (∃ f, p.requester = some (.calib f)) → taking ∧ s.cal.op.map (·.reported) = some false)
    ∧ (∀ r ∈ p.queue, r.isCapture = false → taking)
    ∧ (∀ r ∈ p.queue, r.isCapture = true →
        (s.csq.state = .exposing ∨ s.csq.state = .readout) ∧ p.requester = some r.dest
          ∧ (r.released = true → 0 < p.rowsReleased) ∧ (r.released = false → p.decision = .waiting))
    ∧ (∀ k o y codes, s.fsc.access = some { work := .merge k o y codes, result := .used } →
        s.csq.state = .readout ∧ p.requester = some (.capture k o) ∧ 0 < p.rowsReleased)
    ∧ (p.reception = .receiving → p.awaitedTag ≠ none ∧ p.nextRow ≤ s.geometry.height
        ∧ p.rowsReleased + p.heldRows + p.tornCount ≤ p.nextRow)
    ∧ (p.awaitedTag ≠ none → p.reception ≠ .receiving → p.rowsReleased = 0 ∧ p.tornCount = 0 ∧ p.heldRows = 0)
    ∧ (p.endPending = true → p.awaitedTag = none
        ∧ p.rowsReleased + p.heldRows + p.tornCount ≤ s.geometry.height)

/-- The field has rows, and its accumulation plane lies in a region (R30, R136). -/
abbrev State.fieldFits (s : State) : Prop :=
  0 < s.geometry.height ∧ 8 * (s.geometry.width * s.geometry.height) ≤ Config.regionBytes

/-- A value in a range. -/
abbrev within (lo hi v : Nat) : Prop := lo ≤ v ∧ v ≤ hi

/-- A profile record in range (R24). -/
abbrev Profile.inRange (p : Profile) : Prop :=
  within 2 8 p.ladder.length ∧ (∀ t ∈ p.ladder, within 50 8000000 t) ∧ strictlyIncreasing p.ladder = true
    ∧ within 256 4095 p.satThreshold ∧ within 1 1024 p.noiseFloor ∧ within 0 1000 p.extThreshold
    ∧ within 8192 65534 p.qceil

/-- A field geometry in range (R30). -/
abbrev Geometry.inRange (g : Geometry) : Prop :=
  within 256 4096 g.width ∧ g.width % 64 = 0 ∧ within 256 4096 g.height ∧ g.height % 16 = 0

/-- The global capture settings in range (R32). -/
abbrev Settings.inRange (x : Settings) : Prop :=
  within 50 8000000 x.fragileCap ∧ within 0 5000 x.settleDwell ∧ within 1 120 x.moveTimeout
    ∧ within 100 10000 x.readoutAllowance ∧ within 0 1023 x.lampLevel ∧ within 1 600 x.warmUpTime
    ∧ within 1 64 x.lampTolerance ∧ within 1 120 x.idleTime ∧ within 8 191 x.linkWarningLimit

/-- The profile table holds values in range (R24, R30, R32). -/
abbrev State.tablesLaw (s : State) : Prop :=
  (∀ i : ProfileNo, (s.profiles.get i).inRange) ∧ s.geometry.inRange ∧ s.settings.inRange
    ∧ within 30 1440 s.cal.record.life

/-- The fault count is at most 511, and the link state is that of the count under the limit (R114, R115). -/
abbrev State.linkLaw (s : State) : Prop :=
  within 8 191 s.settings.linkWarningLimit ∧ s.plr.faultCount ≤ Config.maxFaultCount
    ∧ s.plr.link = linkOf s.settings.linkWarningLimit s.plr.faultCount

/-- The store's bytes stand in canonical form, and refresh owed is 0, 1 or 2 (R135, R142). -/
abbrev State.storeLaw (s : State) : Prop := memoryWf s.fsc.mem ∧ s.fsc.refreshOwed ≤ 2

/-- Each notice queue holds at most 16 notices (R172). -/
abbrev State.noticeLaw (s : State) : Prop := ∀ k : PortNo, (s.ports.get k).notices.length ≤ Config.maxNotices

/-- The answers of a port's outstanding request: on the line, or waiting for it. -/
def Port.ownAnswers (p : Port) : List Answer :=
  ((match p.line with
    | .answer a => [a]
    | _ => []) ++ p.answers).filter (·.forOutstanding)

/-- Of the answers that wait at a port at most 3 are of refused requests, which keeps a place of 4 free; and a request
is outstanding exactly while its one answer waits or is being sent (R167, R168). -/
abbrev State.answerLaw (s : State) : Prop :=
  ∀ k : PortNo, let p := s.ports.get k
    p.answers.countP (fun a => !a.forOutstanding) ≤ 3 ∧ p.answers.length ≤ 4
      ∧ p.ownAnswers.map (fun a => (a.tag, a.kind)) = p.outstanding.toList.map fun o => (o.1, EchoKind.request o.2)

/-- The row queue holds at most 8 rows, and every exposure list at most 16 entries (R39, R110). -/
abbrev State.queueLaw (s : State) : Prop :=
  s.plr.queue.length ≤ Config.maxQueuedRows ∧ ∀ k : SlotNo, (s.work k).list.length ≤ Config.maxExposures

/-- No notice waits to be offered between events (R171). -/
abbrev State.quiet (s : State) : Prop := s.raised = []

/-- A safe state keeps every law. -/
abbrev State.safe (s : State) : Prop :=
  s.registerLaw ∧ s.gridLaw ∧ s.exposingLaw ∧ s.cellLaw ∧ s.triesLaw ∧ s.counterLaw ∧ s.rowLaw ∧ s.tablesLaw
    ∧ s.linkLaw ∧ s.storeLaw ∧ s.noticeLaw ∧ s.answerLaw ∧ s.queueLaw ∧ s.quiet

/-! ## What a command leaves alone -/

/-- What no notice and no answer changes of a port. -/
abbrev Port.sameSetup (p q : Port) : Prop :=
  q.role = p.role ∧ q.rate = p.rate ∧ q.framer = p.framer ∧ q.gate = p.gate ∧ q.filter = p.filter
    ∧ q.pace = p.pace ∧ q.badFrame = p.badFrame

/-- Every port keeps its setup and its outstanding request: notices alone have reached the ports. -/
abbrev State.portsNoticed (s t : State) : Prop :=
  ∀ k : PortNo, (s.ports.get k).sameSetup (t.ports.get k) ∧ (t.ports.get k).outstanding = (s.ports.get k).outstanding

/-- The tables, the clocks and the store's bytes are as they were. -/
abbrev State.tablesKept (s t : State) : Prop :=
  t.pending = s.pending ∧ t.profiles = s.profiles ∧ t.geometry = s.geometry ∧ t.settings = s.settings
    ∧ t.tbu.clock = s.tbu.clock ∧ t.tbu.lampMinutes = s.tbu.lampMinutes ∧ t.tbu.lampSeconds = s.tbu.lampSeconds
    ∧ ∀ a, readByte t.fsc.mem a = readByte s.fsc.mem a

/-- Every byte of the store outside `n` bytes from an address on is as it was. -/
abbrev State.bytesKeptOutside (s t : State) (a n : Nat) : Prop :=
  ∀ x, x < a ∨ a + n ≤ x → readByte t.fsc.mem x = readByte s.fsc.mem x

/-! ## Notices -/

/-- The notices a port has queued and not sent to their end, with their numbers: the one on the line, and those that
wait (R172). -/
def Port.unsent (p : Port) : List (Byte × Notice) :=
  (match p.line with
    | .notice n x => [(n, x)]
    | _ => []) ++ p.notices

/-- Between two states every port has been offered these notices, in this order, and no others (R171); what an offer
does to a port is said in LinesSendAnswersThenNotices (R172). -/
abbrev State.offered (s t : State) (ns : List Notice) : Prop :=
  ∀ k : PortNo,
    let p := ns.foldl Port.offer (s.ports.get k)
    (t.ports.get k).unsent = p.unsent ∧ (t.ports.get k).noticeNumber = p.noticeNumber
      ∧ (t.ports.get k).overrun = p.overrun

/-- A notice is among those that every port has been offered between two states. -/
abbrev State.announced (s t : State) (n : Notice) : Prop := ∃ ns, n ∈ ns ∧ s.offered t ns

/-! ## Requests -/

/-- The port and tag, and the kind, of a command that is a request (R170). -/
def requestOf? : Instr → Option (Src × RequestKind)
  | .enrol q .. => some (q, .enrol)
  | .seated q _ => some (q, .seated)
  | .unseated q _ => some (q, .unseated)
  | .withdraw q _ => some (q, .withdraw)
  | .retire q _ => some (q, .retire)
  | .hold q _ => some (q, .hold)
  | .free q _ => some (q, .free)
  | .mark q .. => some (q, .mark)
  | .readPlate q _ => some (q, .readPlate)
  | .readCell q .. => some (q, .readCell)
  | .writeProfile q .. => some (q, .writeProfile)
  | .readProfile q _ => some (q, .readProfile)
  | .setField q .. => some (q, .setField)
  | .setCapture q _ => some (q, .setCapture)
  | .atCell q .. => some (q, .atCell)
  | .moveFault q .. => some (q, .moveFault)
  | .calibrateDark q .. => some (q, .calibrate)
  | .calibrateFlat q .. => some (q, .calibrate)
  | .readCalib q => some (q, .readCalib)
  | .readFault q => some (q, .readFault)
  | .setClock q _ => some (q, .setClock)
  | .standby q _ => some (q, .standby)
  | .warmRestart q => some (q, .warmRestart)
  | .setDelivery q _ => some (q, .setDelivery)
  | .fetch q .. => some (q, .fetch)
  | .releaseKeep q .. => some (q, .release)
  | .releaseRecapture q .. => some (q, .release)
  | .setFilter q .. => some (q, .setFilter)
  | .resume q => some (q, .resume)
  | .readStatus q _ => some (q, .readStatus)
  | _ => none

/-- A request from a port is taken and handed to its block (R167 row 5). -/
abbrev State.takes (s : State) (q : Src) (kind : RequestKind) : Prop :=
  s.fsc.state ≠ .cold ∧ s.fsc.state ≠ .retaining ∧ (s.ports.get q.port).outstanding = none
    ∧ permits (s.ports.get q.port).role kind = true

/-- An answer is being sent by a port or waits in its answer queue. -/
abbrev Port.holdsAnswer (p : Port) (a : Answer) : Prop := p.line = .answer a ∨ a ∈ p.answers

/-- A taken request is outstanding and its answer is on its way (R167 row 5). -/
abbrev State.answers (t : State) (q : Src) (kind : RequestKind) (r : Reply) : Prop :=
  (t.ports.get q.port).outstanding = some (q.tag, kind)
    ∧ (t.ports.get q.port).holdsAnswer
        { tag := q.tag, kind := .request kind, code := r.code, clamped := r.clamped, data := r.data,
          forOutstanding := true }

/-- A taken request is answered, and the ports are touched by its frame, by that answer and by notices alone. -/
abbrev State.served (s t : State) (q : Src) (kind : RequestKind) (r : Reply) : Prop :=
  t.answers q kind r ∧ (∀ k : PortNo, ((s.frameTaken q.port).ports.get k).sameSetup (t.ports.get k))
    ∧ ∀ k : PortNo, k ≠ q.port → (t.ports.get k).outstanding = (s.ports.get k).outstanding

/-- A taken request is answered, and nothing else changes but what the ports send; where no notice of another event
waits and no key stands twice, no notice is offered. -/
def State.answeredOnly (s : State) (i : Instr) (q : Src) (kind : RequestKind) (r : Reply) : Prop :=
  ∃ t, exec i s = .next t ∧ s.served t q kind r ∧ t = { s with raised := [], ports := t.ports }
    ∧ (s.quiet → s.registerLaw → s.offered t [])

/-- The sequencer is in the middle of a move, a settle, a window or a readout whose frame has not been reported, and
no calibration runs: the end of an event starts no claim, no trigger, no review and no attempt. -/
abbrev State.midTry (s : State) : Prop :=
  (s.csq.state = .moving ∨ s.csq.state = .settling ∨ s.csq.state = .exposing
      ∨ (s.csq.state = .readout ∧ s.csq.frameReported = false))
    ∧ s.cal.op = none

/-! ## Reports -/

/-- What READ_STATUS may report of a timer: nothing while it is STOPPED, and at most its preset while it runs (R134;
log 3). -/
def timerShown (timer left : Option Nat) : Prop :=
  match timer, left with
  | none, none => True
  | some preset, some v => v ≤ preset
  | _, _ => False

/-- The only slot whose record is in one of some states: a law of the device makes it one for the records that are
cleared or accumulated, and for the running pass (R42, R74). -/
abbrev State.onlyRecord (s : State) (p : WorkState → Prop) (k : SlotNo) : Prop :=
  p (s.work k).state ∧ ∀ j : SlotNo, p (s.work j).state → j = k

/-- What READ_STATUS, asked by a port, reports of a section (R40, R84, R119, R131, R150, R163, R175). The asking port
is itself a port with a request outstanding. -/
def State.reported (s : State) (asking : PortNo) (sect : StatusSection) (report : StatusReport) : Prop :=
  match sect, report with
  | .ports, .ports ps =>
    ps = (List.finRange 3).map fun k =>
      let p := s.ports.get k
      { role := p.role, rate := p.rate, gate := p.gate, filter := p.filter, noticeNumber := p.noticeNumber,
        queueCount := p.notices.length, pace := p.pace, outstanding := decide (k = asking) || p.outstanding.isSome }
  | .sequencer, .sequencer x =>
    x.state = s.csq.state ∧ x.move = s.csq.move
      ∧ (s.csq.ctx = none → x.trial = none ∧ x.rung = none ∧ x.entries = none ∧ x.latest = none)
      ∧ ∀ c, s.csq.ctx = some c → x.trial = some (c.cell, c.slot) ∧ x.rung = some (c.rung, c.repeatCount)
          ∧ x.entries = some (s.work c.slot).list.length
          ∧ x.latest = (s.work c.slot).list.getLast?.map (·.outcome)
  | .merge, .merge x =>
    let inTry (w : WorkState) : Prop := w = .clearing ∨ w = .accumulating
    x.records = ((List.finRange 7).map fun k => ((s.work k).state, (s.work k).owner)) ∧ x.queue = s.mge.queue
      ∧ (∀ k, s.onlyRecord (fun w => w = .running) k → x.rowsFinalized = some (s.work k).rowsFinalized)
      ∧ ((∀ k, (s.work k).state ≠ .running) → x.rowsFinalized = none)
      ∧ (∀ k, s.onlyRecord inTry k → x.counters = some ((s.work k).valid, (s.work k).satOnly, (s.work k).starvedOnly,
          (s.work k).dead, (s.work k).list.length))
      ∧ ((∀ k, ¬ inTry (s.work k).state) → x.counters = none)
  | .link, .link x =>
    x = { link := s.plr.link, faultCount := s.plr.faultCount, tagCounter := s.plr.tagCounter,
          awaitedTag := s.plr.awaitedTag, reception := s.plr.reception, queued := s.plr.queue.length,
          held := s.plr.queue.countP fun r => !r.released,
          idleRun := if s.plr.link = .dropped then some s.plr.idleRun else none }
  | .lamp, .lamp x =>
    timerShown s.tbu.timers.warmUp x.warmUpLeft ∧ timerShown s.tbu.timers.idle x.idleLeft
      ∧ x = { lamp := s.ltc.lamp, phase := s.ltc.phase, drive := s.ltc.drive,
              reference :=
                match s.cal.record.mRef, s.ltc.warmRef with
                | some m, _ => some (.mRef m)
                | none, some w => some (.warmUp w.toNat)
                | none, none => none
              last := s.ltc.last, run := s.ltc.run, warmUpLeft := x.warmUpLeft, idleLeft := x.idleLeft,
              windowOpen := s.ltc.windowOpen }
  | .time, .time x =>
    let t := s.tbu.timers
    x.clock = s.tbu.clock ∧ x.lampMinutes = s.tbu.lampMinutes ∧ x.lampSeconds = s.tbu.lampSeconds
      ∧ List.Forall₂ timerShown [t.settle, t.move, t.frame, t.warmUp, t.check, t.idle] x.timeLeft
  | .store, .store x =>
    x = { state := s.fsc.state, reason := s.fsc.reason, mask := s.fsc.mask,
          regions :=
            ((List.finRange 7).map fun k => { use := .slot k, holder := s.fsc.holders.get k,
                                              retain := s.fsc.retain.get (k.castLE (by decide)) })
              ++ [{ use := .calibration, holder := none, retain := s.fsc.retain.get 7 }]
          held := (List.finRange 7).map s.fsc.held.get, refreshOwed := s.fsc.refreshOwed,
          access := s.fsc.access.map fun a => a.work.cls, waiting := s.fsc.waiting }
  | .delivery, .delivery x =>
    x.mode = s.dlt.mode ∧ x.queue = (s.dlt.queue.map fun c => (c, (s.cell? c).bind (·.slot))) ∧ x.ready = s.dlt.ready
      ∧ (s.dlt.stream = none → x.stream = none)
      ∧ ∀ z, s.dlt.stream = some z → ∃ y, x.stream = some y ∧ y.cell = z.cell ∧ y.cut = z.cut ∧ y.phase = z.phase
          ∧ y.nextRow = z.nextRow ∧ (y.buffer = .empty ↔ z.buffer = .empty) ∧ (y.buffer = .reading ↔ z.buffer = .reading)
          ∧ (y.buffer = .full ↔ ∃ codes, z.buffer = .full codes) ∧ (s.dlt.ready = true → y.waitsOnReady = false)
          ∧ (s.dlt.ready = false → s.dlt.link = none → z.nextUnit? ≠ none → y.waitsOnReady = true)
  | _, _ => False

/-! ## Store accesses -/

/-- The command that completes an access of a work (R141). -/
def StoreWork.command : StoreWork → Instr
  | .refresh => .refreshComplete
  | .clear .. => .clearRowWrite
  | .merge .. => .rowMergeComplete
  | .calibAdd .. | .openRow _ | .gainRow _ => .calibrationAccumulationRow
  | .finalize .. => .finalizationRowWrite
  | .deliver .. => .deliveryReadComplete

/-- How urgent an access class is: 1 is served first (R141). -/
def AccessClass.priority : AccessClass → Nat
  | .refresh => 1
  | .rowMerge => 2
  | .calibration => 3
  | .finalization => 4
  | .delivery => 5

/-- A class has a request waiting at the arbiter (R141): a refresh owed beside the one in progress; a slot to clear, or
the row at the head of the queue, released and for the latest entry of an ACCUMULATING record, to merge; that row to
add to the frame being taken, or a row of the open or gain pass; the next row of the running pass; the row the stream
asks for. While an access of a class is in progress nothing else of it waits (log 41), a clear goes before a handed
row (log 34), and rows of a PATCHED entry are merged still (log 9). -/
def State.classWaits (s : State) (c : AccessClass) : Prop :=
  let idle : Prop := ∀ a, s.fsc.access = some a → a.work.cls ≠ c
  match c with
  | .refresh => (if s.fsc.access.map (·.work.cls) = some .refresh then 1 else 0) < s.fsc.refreshOwed
  | .rowMerge => idle
      ∧ ((∃ k : SlotNo, (s.work k).state = .clearing)
        ∨ ∃ r k o e, s.plr.queue.head? = some r ∧ r.released = true ∧ r.dest = .capture k o
            ∧ (s.work k).state = .accumulating ∧ (s.work k).list.getLast? = some e ∧ e.ordinal = o
            ∧ (e.outcome = .merged ∨ e.outcome = .patched) ∧ r.row < s.geometry.height
            ∧ r.codes.length = s.geometry.width)
  | .calibration => idle ∧ ∃ op, s.cal.op = some op
      ∧ (op.phase = .openPass ∨ op.phase = .gainPass
        ∨ (op.phase = .frames ∧ ∃ r, s.plr.queue.head? = some r ∧ r.released = true ∧ r.dest = .calib op.frame
            ∧ s.cal.tally.getD r.row 0 = op.frame))
  | .finalization => idle ∧ ∃ k, s.mge.queue.head? = some k ∧ (s.work k).state = .running
  | .delivery => idle ∧ ∃ x, s.dlt.stream = some x ∧ x.buffer = .reading ∧ x.slot ≠ none

/-- The store arbiter has done its work (R141, R142). The classes that wait are those with a request, the most urgent
first, once each, and none while the store is not READY; and a store with no access in progress has nothing
waiting. -/
def State.arbitrated (s : State) : Prop :=
  (∀ c, c ∈ s.fsc.waiting ↔ s.fsc.state = .ready ∧ s.classWaits c)
    ∧ s.fsc.waiting.Pairwise (fun c d => c.priority < d.priority)
    ∧ (s.fsc.access = none → s.fsc.waiting = [])

/-- A state before the grant that has led to it: the store free, and the row just taken at the head of the queue. -/
def State.beforeGrant (s : State) (a : Access) : State :=
  let row (who : Requester) (y : Nat) (codes : List CameraCode) : QueuedRow :=
    { dest := who, row := y, codes := codes, released := true }
  { s with
    fsc := { s.fsc with access := none }
    plr := { s.plr with
      queue :=
        match a.work with
        | .merge k o y codes => row (.capture k o) y codes :: s.plr.queue
        | .calibAdd f y codes => row (.calib f) y codes :: s.plr.queue
        | _ => s.plr.queue } }

/-- The access that a grant gives a free store (R141, R142): to the most urgent class that has a request, for the next
row of its work. Of two slots to clear, which no run has, the lower comes first. -/
def State.grants (s : State) (a : Access) : Prop :=
  a.result = .used ∧ s.classWaits a.work.cls ∧ (∀ c, s.classWaits c → a.work.cls.priority ≤ c.priority)
    ∧ match a.work with
      | .refresh => True
      | .clear k y => (s.work k).state = .clearing ∧ y = (s.work k).rowsCleared
          ∧ ∀ j : SlotNo, j < k → (s.work j).state ≠ .clearing
      | .merge .. => ∀ k : SlotNo, (s.work k).state ≠ .clearing
      | .calibAdd f .. => ∃ op, s.cal.op = some op ∧ op.phase = .frames ∧ f = op.frame
      | .openRow y => ∃ op, s.cal.op = some op ∧ op.phase = .openPass ∧ y = op.passRow
      | .gainRow y => ∃ op, s.cal.op = some op ∧ op.phase = .gainPass ∧ y = op.passRow
      | .finalize k y => s.mge.queue.head? = some k ∧ y = (s.work k).rowsFinalized
      | .deliver k y => ∃ x, s.dlt.stream = some x ∧ x.slot = some k ∧ y = x.nextRow

/-- A row stands in the store after a step, and no byte outside it has changed. -/
abbrev State.rowWritten (s t : State) (r : StoreRow) : Prop :=
  readBytes t.fsc.mem r.addr r.bytes.length = r.bytes ∧ s.bytesKeptOutside t r.addr r.bytes.length

end Sys2Proof.Machine
end

