-- ==== Sys2Proof/Certificates/Slice0/Obligations.lean ====
section
/-! DEFINITION. The statements for the provers. A statement about a request speaks of a request that the port
hands on (State.takes, R167 row 5); what happens to the others is said once, for all requests, in
RequestsAreAnswered. -/

open Sys2Proof Sys2Proof.Machine

/-! ## The machine -/

/-- The front command of the queue is run on the state with the rest of the queue. -/
def Obligations.StepRunsFrontCommand : Prop :=
  ∀ (c : Instr) (rest : List Instr) (s : State),
    step { s with pending := c :: rest } = exec c { s with pending := rest }

/-- Reset leaves the values the manual states, block by block (R1, R25, R30, R32, R38, R64, R74, R86, R104, R121,
R132, R133, R134, R135, R151, R164), and the state after reset keeps every law of the device. Which role and rate each
port has is the straps' (R169; the model's rig: log 1). -/
def Obligations.ResetValues : Prop :=
  let x := State.reset
  x.safe ∧ x.plates = []
    ∧ (∀ i : ProfileNo, x.profiles.get i =
        { ladder := [1000, 8000, 64000, 512000], satThreshold := 3968, noiseFloor := 24, extThreshold := 0,
          singleTry := false, qceil := 40960 })
    ∧ x.geometry = { width := 4096, height := 3072 }
    ∧ x.settings =
        { fragileCap := 2000000, settleDwell := 400, moveTimeout := 30, readoutAllowance := 2000, lampLevel := 512,
          warmUpTime := 90, lampTolerance := 16, idleTime := 15, linkWarningLimit := 64 }
    ∧ x.csq.state = .idle ∧ x.csq.ctx = none ∧ x.csq.moveCounter = 0 ∧ x.csq.move = none
    ∧ x.mge.queue = [] ∧ (∀ k : SlotNo, (x.work k).state = .free)
    ∧ x.cal.record =
        { state := .none, tRef := 2000, geometry := none, lampLevel := none, openLevel := none, mRef := none,
          deadCount := none, flatTime := none, age := 0, life := 240 }
    ∧ x.cal.op = none ∧ x.cal.tally = List.replicate x.geometry.height 0
    ∧ x.plr.tagCounter = 0 ∧ x.plr.awaitedTag = none ∧ x.plr.cancelledTag = none ∧ x.plr.reception = .between
    ∧ x.plr.nextRow = 0 ∧ x.plr.rowsReleased = 0 ∧ x.plr.tornCount = 0 ∧ x.plr.exposureCharge = 0
    ∧ x.plr.straySeen = false ∧ x.plr.decision = .waiting ∧ x.plr.exposureClean = true ∧ x.plr.queue = []
    ∧ x.plr.faultCount = 0 ∧ x.plr.link = .clean ∧ x.plr.idleRun = 0 ∧ x.plr.capture = none
    ∧ x.ltc.lamp = .off ∧ x.ltc.drive = 0 ∧ x.ltc.run = 0 ∧ x.ltc.warmRef = none ∧ x.ltc.last = none
    ∧ x.ltc.windowOpen = false
    ∧ x.tbu.clock = 0 ∧ x.tbu.lampMinutes = 0 ∧ x.tbu.lampSeconds = 0
    ∧ x.tbu.timers = { settle := none, move := none, frame := none, warmUp := none, check := none, idle := none }
    ∧ x.fsc.state = .cold ∧ (∀ k : SlotNo, x.fsc.held.get k = false ∧ x.fsc.holders.get k = none)
    ∧ (∀ r : RegionNo, x.fsc.retain.get r = false) ∧ x.fsc.mask = [] ∧ x.fsc.refreshOwed = 0 ∧ x.fsc.access = none
    ∧ x.dlt.mode = .auto ∧ x.dlt.queue = [] ∧ x.dlt.stream = none
    ∧ ∀ k : PortNo, (x.ports.get k).framer = .hunt ∧ (x.ports.get k).outstanding = none
        ∧ (x.ports.get k).answers = [] ∧ (x.ports.get k).notices = [] ∧ (x.ports.get k).gate = .opened
        ∧ (x.ports.get k).noticeNumber = 0 ∧ (x.ports.get k).badFrame = false ∧ (x.ports.get k).overrun = false
        ∧ (x.ports.get k).filter = { kinds := defaultKinds (x.ports.get k).role, keyCode := 0, keyMask := 0 }

/-! ## Resets and the store's states -/

/-- COLD_RESET completes and leaves the reset state, with each port's role and rate from its straps: of the ports
strapped TRANSPORT, or ARCHIVE, the lowest-numbered takes the role and the others are OFF (R169). Each port's framer is
in HUNT, its queues are empty, its flags clear, its number 0, its gate OPEN and its filter the default of its role
(R164, R171). What the model adds by choice: pin levels and waiting commands stand, and the line is idle (log 2); every
byte of the store reads 0, whose contents the manual calls without meaning (log 7); the fields that the rules imply
without naming them are absent, empty, no or 0 (log 29), and so are those whose reset value no rule gives (log 31); a
delivery unit in progress is dropped (log 56). -/
def Obligations.ColdResetReadsStraps : Prop :=
  ∀ (a b c : Straps) (s : State), ∃ t,
    exec (.coldReset a b c) s = .next t
      ∧ t = { State.reset with
                pending := s.pending
                freeCount := s.freeCount
                ports := t.ports
                dlt := { State.reset.dlt with ready := s.dlt.ready } }
      ∧ (t.ports.get 0).role = strapRole a
      ∧ (t.ports.get 1).role =
          (if strapRole b = strapRole a ∧ (strapRole b = .transport ∨ strapRole b = .archive) then .off
            else strapRole b)
      ∧ (t.ports.get 2).role =
          (if (strapRole c = strapRole a ∨ strapRole c = strapRole b)
              ∧ (strapRole c = .transport ∨ strapRole c = .archive) then .off
            else strapRole c)
      ∧ (t.ports.get 0).rate = strapRate a ∧ (t.ports.get 1).rate = strapRate b ∧ (t.ports.get 2).rate = strapRate c
      ∧ ∀ k : PortNo, let p := t.ports.get k
          p = { role := p.role, rate := p.rate, framer := .hunt, outstanding := none, answers := [], notices := [],
                gate := .opened, filter := { kinds := defaultKinds p.role, keyCode := 0, keyMask := 0 },
                noticeNumber := 0, badFrame := false, overrun := false, pace := (s.ports.get k).pace, line := .idle }

/-- The store comes up: COLD_RESET_END, and the results of bring-up and relock, each with its STORE notice (R137,
R148, R150). -/
def Obligations.StoreComesUp : Prop :=
  ∀ s : State,
    (s.fsc.state = .cold → exec .coldResetEnd s = .next { s with fsc := { s.fsc with state := .training } })
      ∧ (∀ n, s.fsc.state = .training → 1073741824 ≤ n →
          ∃ t, exec (.bringUpPass n) s = .next t ∧ t.fsc.state = .ready ∧ s.tablesKept t ∧ s.portsNoticed t
            ∧ (s.quiet → s.announced t (.store .ready .training .bringUp none none)))
      ∧ (∀ n, s.fsc.state = .training → n < 1073741824 →
          ∃ t, exec (.bringUpPass n) s = .next t ∧ s.portsNoticed t
            ∧ (s.quiet → s.offered t [.store .fault .training (.fault .size) none none])
            ∧ t = { s with raised := [], ports := t.ports, fsc := { s.fsc with state := .fault, reason := some .size } })
      ∧ (s.fsc.state = .training →
          ∃ t, exec .bringUpFail s = .next t ∧ s.portsNoticed t
            ∧ (s.quiet → s.offered t [.store .fault .training (.fault .training) none none])
            ∧ t = { s with raised := [], ports := t.ports,
                           fsc := { s.fsc with state := .fault, reason := some .training } })
      ∧ (s.fsc.state = .waking →
          ∃ t, exec .relockPass s = .next t ∧ t.fsc.state = .ready ∧ s.tablesKept t ∧ s.portsNoticed t
            ∧ (s.quiet → s.announced t (.store .ready .waking .relock none none)))
      ∧ (s.fsc.state = .waking →
          ∃ t, exec .relockFail s = .next t ∧ s.portsNoticed t
            ∧ (s.quiet → s.offered t [.store .fault .waking (.fault .relock) none none])
            ∧ t = { s with raised := [], ports := t.ports,
                           fsc := { s.fsc with state := .fault, reason := some .relock } })

/-- RESET_WARM keeps the profiles, the geometry, the settings, the clocks, the calibration record and the
store's bytes, aborts a calibration and clears its row tallies, puts every item of the link at its reset value but the
tag counter, and leaves each port its role, rate, filter and gate, with its framer in HUNT, no answer waiting, and its
bad-frame flag clear (R101, R104, R174). A RETAINING store enters WAKING and every other store state is kept, with the
fault reason, the mask, the retain marks and refresh owed; the result of an access in progress, but for a refresh, is
not used (R149; that COLD is kept too is the model's choice, log 43). Where nothing starts again at the same event, no
notice waits, the notice number is 0, the overrun flag is clear, and the frame being sent goes on (R149, R174), in a
register of distinct keys. No request stays outstanding but one whose answer is being sent: that frame completes (R167;
log 17). -/
def Obligations.WarmRestartKeepsTables : Prop :=
  ∀ s : State, ∃ t,
    exec .resetWarm s = .next t ∧ s.tablesKept t ∧ t.cal.record = s.cal.record ∧ t.cal.op = none
      ∧ t.cal.tally = List.replicate s.geometry.height 0
      ∧ t.plr.faultCount = 0 ∧ t.plr.link = .clean ∧ t.plr.awaitedTag = none ∧ t.plr.cancelledTag = none
      ∧ t.plr.reception = .between ∧ t.plr.nextRow = 0 ∧ t.plr.rowsReleased = 0 ∧ t.plr.tornCount = 0
      ∧ t.plr.straySeen = false ∧ t.plr.decision = .waiting ∧ t.plr.queue = [] ∧ t.plr.exposureCharge = 0
      ∧ t.plr.exposureClean = true ∧ t.plr.idleRun = 0 ∧ t.plr.capture = none
      ∧ t.plr.tagCounter = s.plr.tagCounter ∧ t.dlt.mode = s.dlt.mode
      ∧ t.plates.map (·.key) = s.plates.map (·.key)
      ∧ t.fsc.state = (if s.fsc.state = .retaining then .waking else s.fsc.state) ∧ t.fsc.reason = s.fsc.reason
      ∧ t.fsc.mask = s.fsc.mask ∧ t.fsc.retain = s.fsc.retain ∧ t.fsc.refreshOwed = s.fsc.refreshOwed
      ∧ (∀ a, s.fsc.access = some a → a.work.cls ≠ .refresh →
          ∃ b, t.fsc.access = some b ∧ b.work = a.work ∧ b.result ≠ .used)
      ∧ (s.registerLaw → ((s.cal.record.state ≠ .valid ∧ s.dlt.mode = .fetch) ∨ s.fsc.state ≠ .ready) → ∀ k : PortNo,
          (t.ports.get k).notices = [] ∧ (t.ports.get k).noticeNumber = 0 ∧ (t.ports.get k).overrun = false
            ∧ (t.ports.get k).line = (s.ports.get k).line)
      ∧ ∀ k : PortNo, (t.ports.get k).role = (s.ports.get k).role ∧ (t.ports.get k).rate = (s.ports.get k).rate
          ∧ (t.ports.get k).filter = (s.ports.get k).filter ∧ (t.ports.get k).gate = (s.ports.get k).gate
          ∧ (t.ports.get k).pace = (s.ports.get k).pace ∧ (t.ports.get k).framer = .hunt
          ∧ (∀ a, (s.ports.get k).line = .answer a → a.forOutstanding = true →
              (t.ports.get k).outstanding = (s.ports.get k).outstanding)
          ∧ ((∀ a, (s.ports.get k).line = .answer a → a.forOutstanding = false) → (t.ports.get k).outstanding = none)
          ∧ (t.ports.get k).answers = [] ∧ (t.ports.get k).badFrame = false

/-- What warm restart makes of each cell (R22): EXPOSING and FINALIZING cells are PENDING, abandoned and without a
slot, a DELIVERING cell is MERGED with its slot and back at the head of the delivery queue, and no other cell
changes; the sequencer, the lamp and the timers stand at rest, and every work record but a CODED one is FREE (R38,
R65, R121, R134, R161). Nothing starts again at the same event: the calibration record is not VALID and the
delivery mode is FETCH, or the store is not READY. -/
def Obligations.WarmRestartAbandonsWork : Prop :=
  ∀ s : State, ((s.cal.record.state ≠ .valid ∧ s.dlt.mode = .fetch) ∨ s.fsc.state ≠ .ready) → ∃ t,
    exec .resetWarm s = .next t
      ∧ (∀ c : CellRef, t.cell? c = (s.cell? c).map fun x =>
          match x.state with
          | .exposing | .finalizing => { x with state := .pending, slot := none, lastOutcome := .abandoned }
          | .delivering => { x with state := .merged }
          | _ => x)
      ∧ t.csq = { state := .idle, ctx := none, frameReported := false, moveCounter := s.csq.moveCounter, move := none }
      ∧ t.ltc.lamp = .off ∧ t.ltc.drive = 0 ∧ t.tbu.timers = Timers.stopped ∧ t.dlt.stream = none
      ∧ (∃ back, t.dlt.queue = back ++ s.dlt.queue
          ∧ ∀ c, c ∈ back ↔ ∃ p ∈ s.cells, p.1 = c ∧ p.2.state = .delivering)
      ∧ (∀ k : SlotNo, (s.work k).state ≠ .coded → (t.work k).state = .free)
      ∧ (∀ p ∈ s.cells, (p.2.state = .exposing ∨ p.2.state = .finalizing) → ∀ k, p.2.slot = some k →
          t.fsc.held.get k = false ∧ t.fsc.holders.get k = none)
      ∧ ∀ k : SlotNo, (s.work k).state = .coded → t.work k = s.work k

/-! ## Store accesses -/

/-- Refreshes: one falls due while the store is READY, and takes a free store at once; one completes; that a third due
while two are owed leaves the count at 2 is the model's reading of R142's range (R142; log 19), and that a refresh
which completes with none owed leaves the count at 0 is the model's choice (log 42). A completed read fills the
stream's row buffer with the codes of its row (R157). After each of these the classes that wait are those R141 names,
most urgent first, none while the store is not READY, and the store just freed has been granted to the most urgent of
them (R141; the readings of State.classWaits: logs 9, 34, 41). -/
def Obligations.RefreshesAndReadsComplete : Prop :=
  (∀ s : State,
    (s.fsc.state = .ready → ∃ t,
      exec .refreshDue s = .next t ∧ t.fsc.refreshOwed = min 2 (s.fsc.refreshOwed + 1)
        ∧ (s.fsc.access = none → t.fsc.access = some { work := .refresh, result := .used })
        ∧ (s.fsc.access ≠ none → t.fsc.access = s.fsc.access) ∧ t.fsc.mem = s.fsc.mem ∧ t.arbitrated
        ∧ t = { s with fsc := t.fsc, plr := t.plr })
      ∧ ∀ result, s.fsc.access = some { work := .refresh, result := result } → ∃ t,
          exec .refreshComplete s = .next t ∧ t.fsc.refreshOwed = s.fsc.refreshOwed - 1
            ∧ (2 ≤ s.fsc.refreshOwed → s.fsc.state = .ready →
                t.fsc.access = some { work := .refresh, result := .used })
            ∧ t.fsc.mem = s.fsc.mem ∧ t.arbitrated
            ∧ (∀ b, t.fsc.access = some b → (t.beforeGrant b).grants b) ∧ t = { s with fsc := t.fsc, plr := t.plr })
    ∧ ∀ (s : State) (k : SlotNo) (y : Nat) (x : Stream),
      s.fsc.access = some { work := .deliver k y, result := .used } → s.dlt.stream = some x →
      ∃ t, exec .deliveryReadComplete s = .next t
        ∧ t.dlt.stream = some { x with buffer := .full ((s.densityRow k y).map fun q => BitVec.ofNat 16 q) }
        ∧ t.fsc.mem = s.fsc.mem ∧ t.fsc.refreshOwed = s.fsc.refreshOwed
        ∧ t = { s with dlt := t.dlt, fsc := t.fsc, plr := t.plr }

/-- ROW_MERGE_COMPLETE writes the merged accumulation row of its slot and no other byte of the store (R68); in READOUT
before the frame is reported, and in the middle of a try, the class counters follow the classes of the row's
pixels and the exposure list stands (R71). The bytes of an accumulation are the model's layout (log 6). -/
def Obligations.RowMergeWritesItsRow : Prop :=
  ∀ (s : State) (k : SlotNo) (o y : Nat) (codes : List CameraCode),
    s.fsc.access = some { work := .merge k o y codes, result := .used } →
    let w := s.work k
    let before := s.accumRow k y
    let after := mergeRow w.list w.satThreshold w.noiseFloor o codes (s.planeRow .dark y) (s.planeRow .gain y) before
    ∃ t, exec .rowMergeComplete s = .next t
      ∧ s.rowWritten t { addr := accumAddr k s.geometry.width y, bytes := accumBytes after }
      ∧ (s.midTry → (t.work k).valid = recount .valid before after w.valid
          ∧ (t.work k).satOnly = recount .satOnly before after w.satOnly
          ∧ (t.work k).starvedOnly = recount .starvedOnly before after w.starvedOnly
          ∧ (t.work k).dead = recount .dead before after w.dead ∧ (t.work k).list = w.list)
      ∧ t.profiles = s.profiles ∧ t.geometry = s.geometry ∧ t.settings = s.settings ∧ t.tbu.clock = s.tbu.clock
      ∧ t.plr.faultCount = s.plr.faultCount ∧ t.plr.link = s.plr.link ∧ s.portsNoticed t

/-- CLEAR_ROW_WRITE writes cleared accumulations into one row of its slot and nothing else; in the middle of a try,
the last row puts the record in ACCUMULATING and reports the clear complete (R67). The bytes of an accumulation are
the model's layout (log 6), and that rows are cleared from row 0 upward, one at each access, so that row y leaves y +
1 rows cleared, is the model's choice (log 48). -/
def Obligations.ClearRowWritesItsRow : Prop :=
  ∀ (s : State) (k : SlotNo) (y : Nat),
    s.fsc.access = some { work := .clear k y, result := .used } →
    ∃ t, exec .clearRowWrite s = .next t
      ∧ readBytes t.fsc.mem (accumAddr k s.geometry.width y) (8 * s.geometry.width)
          = accumBytes (List.replicate s.geometry.width Accum.cleared)
      ∧ s.bytesKeptOutside t (accumAddr k s.geometry.width y) (8 * s.geometry.width)
      ∧ (s.midTry → (t.work k).rowsCleared = y + 1
          ∧ (t.work k).state = (if s.geometry.height ≤ y + 1 then .accumulating else (s.work k).state)
          ∧ ∀ c, s.csq.ctx = some c → c.slot = k → s.geometry.height ≤ y + 1 →
              t.csq.ctx = some { c with clearComplete := true })
      ∧ t.profiles = s.profiles ∧ t.geometry = s.geometry ∧ t.settings = s.settings ∧ t.tbu.clock = s.tbu.clock
      ∧ t.plr.faultCount = s.plr.faultCount ∧ t.plr.link = s.plr.link ∧ s.portsNoticed t

/-- CALIBRATION_ACCUMULATION_ROW writes a row of the dark plane for frame 3 of a dark, of the sum plane for every
other frame, a row of the gain plane in the gain pass, and nothing in the open pass; every other byte of the store
stands. Frame 0 writes the codes themselves and a later frame adds them to the sum (R91); a dark row is (sum + 2)
div 4 of each pixel (R92); a flat gain is 0 where n × 4 < O or o is at least 4032, and else 16384 × O ÷ n rounded,
half up, 65535 at most, with o = (sum + 2) div 4 and n = o − d (R95, R96). The byte order in the store (log 6) and
the 0 read for an absent open level (log 33) are the model's. -/
def Obligations.CalibrationRowWritesItsPlane : Prop :=
  ∀ (s : State) (op : CalOp) (w : StoreWork) (y : Nat),
    s.cal.op = some op → s.fsc.access = some { work := w, result := .used } →
    (∀ frame codes, w = .calibAdd frame y codes →
        let sums := if frame = 0 then codes.map (fun c => c.toNat)
          else List.zipWith (fun a c => a + c.toNat) (s.planeRow .sum y) codes
        let p : Plane := if op.kind = .dark ∧ frame = 3 then .dark else .sum
        let row := if op.kind = .dark ∧ frame = 3 then sums.map (fun a => (a + 2) / 4) else sums
        ∃ t, exec .calibrationAccumulationRow s = .next t
          ∧ readBytes t.fsc.mem (planeAddr p s.geometry y) (2 * row.length) = wordBytes row
          ∧ s.bytesKeptOutside t (planeAddr p s.geometry y) (2 * row.length)
          ∧ t.settings = s.settings ∧ t.profiles = s.profiles ∧ t.geometry = s.geometry)
      ∧ (w = .gainRow y →
          let open_ := op.openLevel.getD 0
          let gain (o d : Nat) : Nat :=
            if (o - d : Int) * 4 < open_ ∨ 4032 ≤ o then 0
            else min 65535 ((2 * (16384 * open_) + (o - d)) / (2 * (o - d)))
          let row := List.zipWith (fun a d => gain ((a + 2) / 4) d) (s.planeRow .sum y) (s.planeRow .dark y)
          ∃ t, exec .calibrationAccumulationRow s = .next t
            ∧ readBytes t.fsc.mem (planeAddr .gain s.geometry y) (2 * row.length) = wordBytes row
            ∧ s.bytesKeptOutside t (planeAddr .gain s.geometry y) (2 * row.length)
            ∧ t.settings = s.settings ∧ t.profiles = s.profiles ∧ t.geometry = s.geometry)
      ∧ (w = .openRow y → ∃ t, exec .calibrationAccumulationRow s = .next t ∧ t.fsc.mem = s.fsc.mem
            ∧ t.settings = s.settings ∧ t.profiles = s.profiles ∧ t.geometry = s.geometry)

/-- The end of a calibration frame, at the event at which its last handed row is written (R91, R92, R94). Where every
row's tally is k + 1 the next frame is taken, and triggered where the lamp requirement and the link allow it; after
frame 3 a dark is complete, its record DARK_ONLY with the geometry and no operation, and a flat goes on to the open
pass with m_ref the rounded mean of its four means. Where a row is missing the same frame is taken again, at most
twice; a third failure ends the calibration and leaves the record as it stands, with reason LAMP where that attempt
failed its window test and LINK otherwise (R94, R97, R103). -/
def Obligations.CalibrationFramesEnd : Prop :=
  ∀ (s : State) (op : CalOp) (y : Nat) (codes : List CameraCode),
    s.cal.op = some op → op.phase = .frames → op.inFlight = true → op.reported = true →
    s.fsc.access = some { work := .calibAdd op.frame y codes, result := .used } →
    (∀ z ∈ s.plr.queue, z.isCalib = false) →
    let tally := s.cal.tally.set y (op.frame + 1)
    let complete : Prop := ∀ z < s.geometry.height, tally.getD z 0 = op.frame + 1
    let lit : Prop := op.kind = .dark ∨ s.ltc.lamp = .steady
    let tries (t : State) (frame repeats : Nat) : Prop :=
      ∃ o, t.cal.op = some o ∧ o.kind = op.kind ∧ o.phase = .frames ∧ o.frame = frame ∧ o.repeats = repeats
        ∧ o.means = op.means ∧ o.mFirst = op.mFirst
        ∧ (lit → s.canTrigger = true → o.inFlight = true ∧ o.reported = false
            ∧ t.plr.awaitedTag = some (s.plr.tagCounter + 1)
            ∧ t.plr.downlink = some
                { tag := s.plr.tagCounter + 1, time := s.cal.record.tRef,
                  lamp := if op.kind = .dark then .none else .steady })
        ∧ (¬ lit → o.inFlight = false)
    ∃ t, exec .calibrationAccumulationRow s = .next t ∧ t.cal.tally = tally ∧ s.portsNoticed t
      ∧ (complete → op.frame < 3 → tries t (op.frame + 1) 0 ∧ t.cal.record = s.cal.record)
      ∧ (complete → 3 ≤ op.frame → op.kind = .dark →
          t.cal.op = none ∧ t.cal.record = { s.cal.record with state := .darkOnly, geometry := some s.geometry })
      ∧ (complete → 3 ≤ op.frame → op.kind = .flat →
          t.cal.record = s.cal.record ∧ ∃ o, t.cal.op = some o ∧ o.phase = .openPass ∧ o.passRow = 0
            ∧ o.mRef = some ((op.means.sum + 2) / 4))
      ∧ (¬ complete → op.repeats < 2 → tries t op.frame (op.repeats + 1) ∧ t.cal.record = s.cal.record)
      ∧ (¬ complete → 2 ≤ op.repeats → t.cal.op = none ∧ t.cal.record = s.cal.record
          ∧ (s.quiet → s.announced t (.calib s.cal.record.state (some op.kind) (if op.failedTest then .lamp else .link)
              none (some (op.frame, op.repeats)))))

/-- The passes of a flat, row by row (R95, R96). Each row of the open pass adds its net codes above 0, their number
and its saturated pixels; after the last row more than one pixel in a hundred saturated ends the calibration,
SATURATED, an open level below 256 ends it, DIM, and else the open level is their mean and the gain pass begins. Each
row of the gain pass counts its dead pixels; after the last row the record is VALID with the flat fields, age 0 and
the time as flat time. A calibration that fails leaves the record as it stands (R97). The end raises its CALIB notice
(R103). The 0 read for an absent open level (log 33), and that a failure in a pass carries the frame and repeat count of
the context (log 55), are the model's. -/
def Obligations.CalibrationPassesEnd : Prop :=
  ∀ (s : State) (op : CalOp) (y : Nat), s.cal.op = some op → 0 < s.geometry.height →
    let row := s.flatRow y
    let h := s.geometry.height
    let net := op.netSum + (row.map fun p => p.1 - p.2).sum
    let count := op.netCount + row.countP fun p => decide (p.2 < p.1)
    let sat := op.satCount + row.countP fun p => decide (4032 ≤ p.1)
    let gains := row.map fun p => flatGain (op.openLevel.getD 0) p.1 p.2
    let dead := op.deadCount + gains.countP fun g => g == 0
    let saturated : Prop := s.geometry.width * h < sat * 100
    let dim : Prop := count = 0 ∨ net / count < 256
    (op.phase = .openPass → s.fsc.access = some { work := .openRow y, result := .used } →
        ∃ t, exec .calibrationAccumulationRow s = .next t ∧ t.cal.record = s.cal.record ∧ s.portsNoticed t
          ∧ (op.passRow + 1 ≠ h → t.cal.op = some
              { op with netSum := net, netCount := count, satCount := sat, passRow := op.passRow + 1 })
          ∧ (op.passRow + 1 = h → (saturated ∨ dim) → t.cal.op = none
              ∧ (s.quiet → s.announced t (.calib s.cal.record.state (some op.kind)
                  (if s.geometry.width * h < sat * 100 then .saturated else .dim) none (some (op.frame, op.repeats)))))
          ∧ (op.passRow + 1 = h → ¬ saturated → ¬ dim → t.cal.op = some
              { op with netSum := net, netCount := count, satCount := sat, passRow := 0, phase := .gainPass,
                        openLevel := some (net / count) }))
      ∧ (op.phase = .gainPass → s.fsc.access = some { work := .gainRow y, result := .used } →
        ∃ t, exec .calibrationAccumulationRow s = .next t ∧ s.portsNoticed t
          ∧ (op.passRow + 1 ≠ h → t.cal.record = s.cal.record
              ∧ t.cal.op = some { op with deadCount := dead, passRow := op.passRow + 1 })
          ∧ ∀ o m, op.passRow + 1 = h → op.openLevel = some o → op.mRef = some m →
              t.cal.op = none ∧ t.cal.record = { s.cal.record with
                state := .valid, lampLevel := op.levelHeld, openLevel := some o, mRef := some m,
                deadCount := some dead, flatTime := some s.tbu.clock, age := 0 }
                ∧ (s.quiet → s.announced t (.calib .valid (some .flat) .done (some (o, m, dead)) none)))

/-- FINALIZATION_ROW_WRITE writes the density code of every pixel of its row, and no other byte of the store (R75,
R78 to R81). The code is 65535 where the flat gain is 0; without a best value 0 where the pixel has seen saturation
and Qceil otherwise; Qceil where the monitor mean of its best entry is 0; and else that of N over M, with N = 16384
× O × t_b × m_b and M = f × t_ref × m_ref (R78, R79; densityCode: DensityCodeIsRoundedLogarithm). The byte order in
the store (log 6) and the 0 read for an absent reference (log 33) are the model's. -/
def Obligations.FinalizationRowWritesItsCodes : Prop :=
  ∀ (s : State) (k : SlotNo) (y : Nat),
    s.fsc.access = some { work := .finalize k y, result := .used } →
    let w := s.work k
    let entry (a : Accum) : Option Exposure := w.list.find? fun e => e.ordinal == a.ordinal
    let time (a : Accum) : Nat := ((entry a).map (·.time)).getD 0
    let mean (a : Accum) : Nat := ((entry a).map (·.monitor)).getD 0
    let code (g : Nat) (a : Accum) : Nat :=
      if g = 0 then 65535
      else if a.hasBest = false ∧ a.seenSaturated = true then 0
      else if a.hasBest = false ∨ mean a = 0 then w.qceil.getD 0
      else densityCode (16384 * s.cal.record.openLevel.getD 0 * time a * mean a)
        (a.best * s.cal.record.tRef * s.cal.record.mRef.getD 0) (w.qceil.getD 0)
    let codes := List.zipWith code (s.planeRow .gain y) (s.accumRow k y)
    ∃ t, exec .finalizationRowWrite s = .next t
      ∧ readBytes t.fsc.mem (densityAddr k s.geometry.width y) (2 * codes.length) = wordBytes codes
      ∧ s.bytesKeptOutside t (densityAddr k s.geometry.width y) (2 * codes.length)
      ∧ (s.midTry → y + 1 < s.geometry.height → (t.work k).rowsFinalized = y + 1)
      ∧ t.profiles = s.profiles ∧ t.geometry = s.geometry ∧ t.settings = s.settings ∧ t.tbu.clock = s.tbu.clock
      ∧ t.plr.faultCount = s.plr.faultCount ∧ t.plr.link = s.plr.link ∧ s.portsNoticed t

/-- The last row of a pass ends it: the record is CODED with the summary and histogram the pass has formed and the
time as finalize time, its S and F at rest; its cell is MERGED with tries used raised by one and its summary replaced,
and joins the end of the delivery queue; the next queued record starts its pass; and a plate left with no cell to
capture is CAPTURED (R9, R19, R64, R74, R77, R82, R83). The mode is FETCH and a try of another cell is under way, so
that nothing else starts at the same event. The 0 read for an absent reference is the model's (log 33). -/
def Obligations.FinalizationEnds : Prop :=
  ∀ (s : State) (k : SlotNo) (y : Nat) (c : CellRef) (r : PlateRecord) (x : CellRecord),
    s.fsc.access = some { work := .finalize k y, result := .used } → s.geometry.height ≤ y + 1 →
    (s.work k).owner = some c → s.registerLaw → s.plate? c.key = some r → r.cell? c.column c.row = some x → s.midTry →
    s.dlt.mode = .fetch →
    let w := s.work k
    let pixels := (s.planeRow .gain y).zip (s.accumRow k y)
    let caseOf (q : Nat × Accum) : PixelCase := pixelCase w.list q.1 q.2
    let codeOf (q : Nat × Accum) : Nat := pixelCode s.references w.list (w.qceil.getD 0) q.1 q.2
    let cases (x : PixelCase) : Nat := pixels.countP fun q => caseOf q == x
    let counts (o : ExposureOutcome) : Bool := o == .merged || o == .patched
    let m : Summary :=
      { clipLight := w.passClipLight + cases .clipLight, clipDark := w.passClipDark + cases .clipDark
        dead := w.passDead + cases .dead
        tornRows := ((w.list.filter fun e => e.outcome == .patched).map fun e => e.torn.getD 0).sum
        exposuresMerged := w.list.countP fun e => counts e.outcome
        extensionUsed := w.list.any fun e => counts e.outcome && e.rung == .ext }
    ∃ t, exec .finalizationRowWrite s = .next t
      ∧ (t.work k).state = .coded ∧ (t.work k).summary = some m
      ∧ (w.histogram.length = 64 → ∀ b < 64, (t.work k).histogram.getD b 0 =
          w.histogram.getD b 0 + pixels.countP fun q => caseOf q != .dead && min 63 (codeOf q / 1024) == b)
      ∧ (t.work k).finalizeTime = some s.tbu.clock ∧ (t.work k).satThreshold = 0 ∧ (t.work k).noiseFloor = 0
      ∧ (t.work k).list = w.list ∧ (t.work k).firstTrigger = w.firstTrigger ∧ (t.work k).qceil = w.qceil
      ∧ t.cell? c = some { x with state := .merged, triesUsed := x.triesUsed + 1, summary := some m,
                                  lastOutcome := .finalized }
      ∧ t.dlt.queue = s.dlt.queue ++ [c]
      ∧ t.mge.queue = s.mge.queue.filter (fun j => j != k)
      ∧ (∀ j rest, s.mge.queue = k :: j :: rest → j ≠ k → (s.work j).state = .queued → (t.work j).state = .running)
      ∧ ((r.state = .active ∨ r.state = .enrolled) →
          (∀ z ∈ r.cells, (z.column, z.row) ≠ (c.column, c.row) →
            z.state ≠ .pending ∧ z.state ≠ .exposing ∧ z.state ≠ .finalizing) →
          (t.plate? c.key).map (·.state) = some .captured)
      ∧ t.profiles = s.profiles ∧ t.geometry = s.geometry ∧ t.settings = s.settings ∧ t.tbu.clock = s.tbu.clock
      ∧ s.portsNoticed t

/-- Every access in progress is ended by its command, whatever its row. The row that a used access writes is written
whole; a stopped access writes the row it was forming when it was stopped, and changes no work record, no tally and
no calibration record (R140, R149; that R140's access still writes its row is log 20). No other byte of the store
changes, and no row is refused for its place (log 32). The free store is then granted to the most urgent class with a
request, for the next row of its work: refresh, row merge, calibration accumulation, finalization, delivery, in this
order; and the classes that wait after it are those with a request, none while the store is not READY (R141, R142; the
readings of State.classWaits: logs 9, 34, 41). -/
def Obligations.AccessesComplete : Prop :=
  ∀ (s : State) (a : Access), s.fsc.access = some a → a.work ≠ .refresh → ∃ t,
    exec a.work.command s = .next t
      ∧ (a.result = .used → ∀ r, s.storedRow? a.work = some r → s.rowWritten t r)
      ∧ (a.result = .used → s.storedRow? a.work = none → t.fsc.mem = s.fsc.mem)
      ∧ (∀ r, a.result = .unused (some r) → a.work.command ≠ .deliveryReadComplete → s.rowWritten t r)
      ∧ ((a.result = .unused none ∨ a.work.command = .deliveryReadComplete) → t.fsc.mem = s.fsc.mem)
      ∧ (a.result ≠ .used → s.midTry → t.mge = s.mge ∧ t.cal = s.cal ∧ t.csq = s.csq)
      ∧ t.arbitrated ∧ (∀ b, t.fsc.access = some b → (t.beforeGrant b).grants b) ∧ s.portsNoticed t

/-! ## Time base and lamp -/

/-- A second event raises the clock with wrap and counts a lamp-on second while the lamp is lit; the sixtieth sets the
count to 0, raises the minute counter with wrap and ages the calibration, which turns STALE when its age reaches its
life, with its CALIB notice (R132, R133, R99, R103). LAMP_ON_MINUTE is that sixtieth second's event under its own row,
where it is due: the model's reading of the two rows (log 5). -/
def Obligations.SecondsAndMinutesCount : Prop :=
  ∀ s : State,
    let lit : Prop := s.ltc.lamp = .warming ∨ s.ltc.lamp = .steady ∨ s.ltc.lamp = .drifting
    let r := s.cal.record
    let ages : Bool := (r.state == .valid || r.state == .stale) && r.age < 65535
    let minute (i : Instr) : Prop :=
      ∃ t, exec i s = .next t ∧ s.portsNoticed t
        ∧ (s.quiet → s.offered t (if ages = true ∧ r.state = .valid ∧ r.life ≤ r.age + 1 then
            [.calib .stale none .none none none] else []))
        ∧ t = { s with
                  raised := []
                  ports := t.ports
                  tbu := { s.tbu with clock := s.tbu.clock + 1, lampSeconds := 0, lampMinutes := s.tbu.lampMinutes + 1 }
                  cal := { s.cal with record := { r with
                    age := if ages then r.age + 1 else r.age
                    state := if ages = true ∧ r.state = .valid ∧ r.life ≤ r.age + 1 then .stale else r.state } } }
    (¬ lit → exec .secondTick s = .next { s with tbu := { s.tbu with clock := s.tbu.clock + 1 } })
      ∧ (lit → s.tbu.lampSeconds < 59 → exec .secondTick s = .next { s with
          tbu := { s.tbu with clock := s.tbu.clock + 1, lampSeconds := s.tbu.lampSeconds + 1 } })
      ∧ (lit → s.tbu.lampSeconds = 59 → minute .secondTick ∧ minute .lampOnMinute)

/-- The end of the settle dwell takes the sequencer to AWAIT_LAMP, where it pauses under a hold reason, asks
for a lamp that is OFF, waits for a lamp that is not STEADY, and triggers under a STEADY one once its slot is
clear (R46, R47). -/
def Obligations.SettleExpiryEntersAwaitLamp : Prop :=
  ∀ (s : State) (p : Nat) (c : TryContext) (r : PlateRecord),
    s.tbu.timers.settle = some p → s.csq.state = .settling → s.csq.ctx = some c → s.plate? c.cell.key = some r →
    ∃ t, exec .settleTimerExpiry s = .next t ∧ t.tbu.timers.settle = none ∧ t.plates = s.plates
      ∧ s.tablesKept t ∧ s.portsNoticed t
      ∧ (r.holds.any = true → t.csq.state = .paused .trigger ∧ t.ltc = s.ltc ∧ t.plr = s.plr)
      ∧ (r.holds.any = false → s.ltc.lamp = .off → t.csq.state = .awaitLamp ∧ t.ltc.lamp = .warming ∧ t.plr = s.plr)
      ∧ (r.holds.any = false → s.ltc.lamp ≠ .off → s.ltc.lamp ≠ .steady →
          t.csq.state = .awaitLamp ∧ t.ltc = s.ltc ∧ t.plr = s.plr)
      ∧ (r.holds.any = false → s.ltc.lamp = .steady → c.clearComplete = true → s.canTrigger = true →
          (s.work c.slot).list.length < 16 →
          t.csq.state = .exposing ∧ t.plr.awaitedTag = some (s.plr.tagCounter + 1)
            ∧ t.plr.downlink = some { tag := s.plr.tagCounter + 1, time := c.nominal, lamp := .steady }
            ∧ (t.work c.slot).list.length = (s.work c.slot).list.length + 1)

/-- The frame timer's expiry charges 16, sets the link state from the count, and fills an empty fault capture
record with the TIMEOUT, whose exposure is absent where the frame had ended and none was awaited; the wait is over,
and what is awaited after it is a new TRIGGER's frame (R112, R114, R115, R120). A change of link state raises its LINK
notice (R119). Below 384 the requester settles the try's latest entry: a PENDING one, whose window has not ended,
is TIMED_OUT with its average discarded (R49); a MERGED one is PATCHED with H − g torn rows where g > 0 rows were
handed, STRAY_LOST where none was and a stray was seen, and else TIMED_OUT; an UNSTEADY one stays; and where g = H it is
a frame end without torn rows (R50, R112). Held rows are removed and an open frame is discarded. Where rows are still
being merged the sequencer waits in READOUT; where none is left the review follows at once, and repeats the rung (R52,
R72). A count that reaches 384 drops the link: nothing is awaited, the queue is empty and reception BETWEEN
(R116); the try in flight is abandoned, its cell PENDING and its slot FREE, the plate staying seated and ACTIVE, and a
sequencer that waits to claim is in IDLE (R60); a running calibration fails with reason LINK (R98, R103). -/
def Obligations.FrameTimeoutCharges : Prop :=
  (∀ (s : State) (p : Nat) (k : SlotNo) (o : Nat) (e : Exposure), s.tbu.timers.frame = some p →
    s.plr.link ≠ .dropped → s.plr.faultCount + 16 < 384 → s.plr.requester = some (.capture k o) → s.cal.op = none →
    (s.work k).list.getLast? = some e →
    let g := s.plr.rowsReleased
    let h := s.geometry.height
    let list := (s.work k).list
    let settled : Exposure :=
      if g = h then e
      else if e.outcome = .pending then { e with outcome := .timedOut }
      else if e.outcome = .merged then
        if 0 < g then { e with outcome := .patched, torn := some (h - g) }
        else { e with outcome := if s.plr.straySeen then .strayLost else .timedOut }
      else e
    let reception : Reception := if s.plr.reception = .receiving then .discarding else s.plr.reception
    let handed (x : QueuedRow) : Bool := s.plr.decision != .waiting || x.released
    (s.csq.state = .readout → s.csq.frameReported = false → s.busyWith StoreWork.isMerge = true → ∃ t,
        exec .frameTimerExpiry s = .next t ∧ t.csq = { s.csq with frameReported := true }
          ∧ (t.work k).list = list.dropLast ++ [settled] ∧ t.plr.queue = s.plr.queue.filter handed
          ∧ t.plr.reception = reception ∧ t.plr.awaitedTag = none ∧ t.plr.endPending = false
          ∧ t.tbu.timers.frame = none)
      ∧ ∀ c, (s.csq.state = .exposing ∧ e.outcome = .pending
            ∨ s.csq.state = .readout ∧ (e.outcome = .merged ∨ e.outcome = .unsteady ∧ c.singleTry = false)) →
          s.csq.ctx = some c → c.slot = k → c.repeatCount < 2 → list.length < 16 → 0 < h → g = 0 →
          s.busyWith StoreWork.isMerge = false → (∀ x ∈ s.plr.queue, x.isCapture = true → handed x = false) → ∃ t,
          exec .frameTimerExpiry s = .next t ∧ t.csq.ctx = some c.raiseRepeat ∧ t.csq.frameReported = false
            ∧ (t.work k).list.take list.length = list.dropLast ++ [settled] ∧ t.plr.reception = reception
            ∧ t.plr.endPending = false ∧ (s.csq.state = .exposing → t.ltc.windowOpen = false)
            ∧ (s.ltc.lamp ≠ .steady → (t.csq.state = .awaitLamp ∨ t.csq.state = .paused .trigger)
                ∧ (t.work k).list = list.dropLast ++ [settled] ∧ t.plr.awaitedTag = none
                ∧ t.tbu.timers.frame = none))
  ∧ ∀ (s : State) (p : Nat), s.tbu.timers.frame = some p → s.plr.link ≠ .dropped → ∃ t,
    exec .frameTimerExpiry s = .next t
      ∧ t.plr.faultCount = min 511 (s.plr.faultCount + 16)
      ∧ t.plr.link = linkOf s.settings.linkWarningLimit t.plr.faultCount
      ∧ (s.plr.capture = none → t.plr.capture =
          some { kind := .timeout, exposure := if s.plr.awaitedTag = none then none else s.plr.requester
                 row := none, count := t.plr.faultCount })
      ∧ (∀ r, s.plr.capture = some r → t.plr.capture = some r)
      ∧ (t.plr.awaitedTag = none ∨ t.plr.awaitedTag = some (s.plr.tagCounter + 1)) ∧ s.tablesKept t ∧ s.portsNoticed t
      ∧ (t.plr.link ≠ s.plr.link → s.quiet →
          s.announced t (.link t.plr.link s.plr.link t.plr.faultCount (.fault .timeout)))
      ∧ (384 ≤ s.plr.faultCount + 16 →
          t.plr.link = .dropped ∧ t.tbu.timers.frame = none ∧ t.plr.awaitedTag = none ∧ t.plr.cancelledTag = none
            ∧ t.plr.straySeen = false ∧ t.plr.queue = [] ∧ t.plr.reception = .between ∧ t.plr.idleRun = 0
            ∧ (s.csq.ctx = none → (s.csq.state = .awaitSlot ∨ s.csq.state = .paused .claim) → t.csq.state = .idle)
            ∧ (∀ c r x, s.registerLaw → s.csq.ctx = some c → s.plate? c.cell.key = some r → r.state = .active →
                r.seated = true → r.cell? c.cell.column c.cell.row = some x → c.cell ∉ s.dlt.queue →
                t.csq.state = .idle ∧ t.csq.ctx = none
                  ∧ t.cell? c.cell = some { x with state := .pending, slot := none, lastOutcome := .abandoned }
                  ∧ t.fsc.held.get c.slot = false ∧ (t.work c.slot).state = .free
                  ∧ ∃ z, t.plate? c.cell.key = some z ∧ z.state = .active ∧ z.seated = true)
            ∧ ∀ op, s.cal.op = some op → t.cal.op = none ∧ t.cal.record = s.cal.record
                ∧ (s.quiet → s.announced t
                    (.calib s.cal.record.state (some op.kind) .link none (some (op.frame, op.repeats)))))

/-- A warm-up that ends puts the lamp in phase CHECKING and starts the 100 ms check timer (R124); the first rise of
SHUTTER after a TRIGGER opens the window with one sample; a sample is added to an open window (R106, R129). The idle
timer's expiry switches a lit lamp off and stops its timers, with its LAMP notice, while the sequencer does not wait
for the lamp (R128, R131). That the rise carries the window's first sample (log 26), and that the last reading is kept
at a switch-off and carried by its notice (log 28), are the model's readings. A lit lamp that a SET_CAPTURE restarts
starts its warm-up and idle timers from the times that stand after the request, those it gives itself included: the
model's choice (R33, R34, R123; log 54). -/
def Obligations.LampTimersAndWindow : Prop :=
  (∀ (s : State) (r : Reading),
    (∀ p, s.tbu.timers.warmUp = some p → exec .warmUpExpiry s = .next { s with
        ltc := { s.ltc with phase := some .checking }
        tbu := { s.tbu with timers := { s.tbu.timers with warmUp := none, check := some 100000 } } })
      ∧ (s.plr.awaitedTag ≠ none → s.plr.shutterSeen = false → exec (.shutterRise r) s = .next { s with
          plr := { s.plr with shutterSeen := true }
          ltc := { s.ltc with windowOpen := true, windowSum := r.toNat, windowSamples := 1,
                              steadyThroughout := s.ltc.lamp == .steady } })
      ∧ (s.ltc.windowOpen = true → exec (.monitorSample r) s = .next { s with
          ltc := { s.ltc with windowSum := s.ltc.windowSum + r.toNat, windowSamples := s.ltc.windowSamples + 1 } }))
    ∧ (∀ (s : State) (p : Nat), s.tbu.timers.idle = some p →
    (s.ltc.lamp = .warming ∨ s.ltc.lamp = .steady ∨ s.ltc.lamp = .drifting) → s.csq.state ≠ .awaitLamp →
    ∃ t, exec .idleTimerExpiry s = .next t ∧ s.portsNoticed t
      ∧ (s.quiet → s.offered t [.lamp .off s.ltc.lamp 0 s.ltc.last .idle])
      ∧ t = { s with
                raised := []
                ports := t.ports
                ltc := { s.ltc with lamp := .off, phase := none, drive := 0, warmRef := none, run := 0,
                                    steadyThroughout := false }
                tbu := { s.tbu with timers := { s.tbu.timers with warmUp := none, check := none, idle := none } } })
    ∧ (∀ (s : State) (q : Src) (l : List (Setting × Nat)) (level : Nat), s.takes q .setCapture → (l.map (·.1)).Nodup →
    (.lampLevel, level) ∈ l → min 1023 level ≠ s.settings.lampLevel → (∀ r ∈ s.plates, r.seated = false) →
    (∀ r ∈ s.plates, ∀ c ∈ r.cells, c.state ≠ .exposing ∧ c.state ≠ .finalizing) → s.cal.op = none →
    (s.ltc.lamp = .warming ∨ s.ltc.lamp = .steady ∨ s.ltc.lamp = .drifting) →
    ∃ t, exec (.setCapture q (l.map fun p => (some p.1, p.2))) s = .next t
      ∧ t.ltc.lamp = .warming ∧ t.ltc.drive = min 1023 level
      ∧ (∀ w, (.warmUpTime, w) ∈ l → t.settings.warmUpTime = max 1 (min 600 w))
      ∧ (∀ i, (.idleTime, i) ∈ l → t.settings.idleTime = max 1 (min 120 i))
      ∧ t.tbu.timers = { s.tbu.timers with
          warmUp := some (t.settings.warmUpTime * 1000000), check := none,
          idle := some (t.settings.idleTime * 60000000) })

/-- A check of a lit lamp: below 1024 the lamp fails and LAMP joins the seated record; in tolerance of m_ref, or else
of the warm-up reference, the run rises to at most 5 and at 5 the lamp is STEADY; out of tolerance the run is 0 and a
STEADY lamp is DRIFTING (R125 to R127). A reading of 1024 or above is adopted as the warm-up reference where neither
reference is present (R125). Below 1024 a running flat fails with reason LAMP: nothing is awaited and its rows are
drained, the record stands, and its CALIB notice is raised with the frame and repeats reached; a dark goes on (R97,
R98, R103, R127). A change of lamp state raises its LAMP notice (R131). That frame and repeats reached are those of the
context where no frame is being taken is the model's choice (log 55). -/
def Obligations.LampCheckJudges : Prop :=
  ∀ (s : State) (p : Nat) (r : Reading), s.tbu.timers.check = some p →
    (s.ltc.lamp = .warming ∨ s.ltc.lamp = .steady ∨ s.ltc.lamp = .drifting) →
    ∃ t, exec (.lampCheck r) s = .next t ∧ t.ltc.last = some r ∧ s.tablesKept t ∧ s.portsNoticed t
      ∧ (r.toNat < 1024 → t.ltc.lamp = .failed ∧ t.ltc.drive = 0 ∧ t.ltc.run = 0 ∧ t.tbu.timers.check = none
          ∧ t.tbu.timers.idle = none
          ∧ (s.quiet → s.announced t (.lamp .failed s.ltc.lamp 0 (some r) .floor))
          ∧ ∀ key, t.plate? key = (s.plate? key).map fun x =>
              if x.seated then { x with holds := { x.holds with lamp := true } } else x)
      ∧ (r.toNat < 1024 → ∀ op, s.cal.op = some op →
          (op.kind = .flat → t.cal.op = none ∧ t.cal.record = s.cal.record ∧ t.plr.awaitedTag = none
            ∧ t.plr.queue = [] ∧ t.tbu.timers.frame = none ∧ t.ltc.windowOpen = false
            ∧ (s.quiet → s.announced t
                (.calib s.cal.record.state (some .flat) .lamp none (some (op.frame, op.repeats)))))
          ∧ (op.kind = .dark → t.cal = s.cal ∧ t.plr.awaitedTag = s.plr.awaitedTag))
      ∧ (1024 ≤ r.toNat → t.plates = s.plates ∧ t.ltc.drive = s.ltc.drive
          ∧ t.ltc.warmRef = (if s.cal.record.mRef = none ∧ s.ltc.warmRef = none then some r else s.ltc.warmRef)
          ∧ (s.quiet → s.offered t (if t.ltc.lamp = s.ltc.lamp then [] else
              [.lamp t.ltc.lamp s.ltc.lamp s.ltc.drive (some r) (if s.ltc.lamp = .warming then .warmUpEnd else .check)]))
          ∧ let ref := s.cal.record.mRef.getD ((s.ltc.warmRef.getD r).toNat)
            (inTolerance s.settings.lampTolerance ref r.toNat = true →
                t.ltc.run = min 5 (s.ltc.run + 1) ∧ t.ltc.lamp = if 4 ≤ s.ltc.run then .steady else s.ltc.lamp)
              ∧ (inTolerance s.settings.lampTolerance ref r.toNat = false →
                  t.ltc.run = 0 ∧ t.ltc.lamp = if s.ltc.lamp = .steady then .drifting else s.ltc.lamp))

/-- The end of a window of a try: the mean over the samples, rounded, enters the latest entry, whose outcome is
provisionally MERGED when the lamp was STEADY throughout and the mean lies in tolerance of m_ref, and else
UNSTEADY; every held row is released, or removed; the sequencer is in READOUT (R49, R106, R129). A frame that ended
before is reported at that event: its timer stops, and a MERGED entry becomes PATCHED where rows were torn; its rows
then wait for their merge, or, drained, the rung is repeated (R50, R52, R111). The end of a window of a flat: the
attempt passes when the lamp was STEADY throughout and, after m_first is set, the mean lies in tolerance of it; the
first to pass sets m_first; the mean is recorded for its frame if none is; its rows are released; an attempt that fails
has them drained (R94; the mark that it failed, failedTest, is the model's: CalibrationFramesEnd). -/
def Obligations.WindowEndJudgesExposure : Prop :=
  (∀ (s : State) (f : Nat) (op : CalOp), s.ltc.windowOpen = true → 0 < s.ltc.windowSamples →
    s.plr.requester = some (.calib f) → s.plr.decision = .waiting → s.plr.shutterSeen = true →
    s.plr.awaitedTag ≠ none → s.plr.endPending = false → s.cal.op = some op → op.kind = .flat →
    op.inFlight = true → op.reported = false →
    let m := (s.ltc.windowSum + s.ltc.windowSamples / 2) / s.ltc.windowSamples
    let passes : Prop := s.ltc.steadyThroughout = true
      ∧ ∀ first, op.mFirst = some first → inTolerance s.settings.lampTolerance first m = true
    ∃ t, exec .shutterFall s = .next t ∧ t.cal.record = s.cal.record ∧ t.cal.tally = s.cal.tally
      ∧ t.ltc.windowOpen = false ∧ t.plr.faultCount = s.plr.faultCount ∧ t.plr.awaitedTag = s.plr.awaitedTag
      ∧ (passes → t.cal.op = some { op with
            mFirst := some (op.mFirst.getD m)
            means := if op.means.length = op.frame then op.means ++ [m] else op.means }
          ∧ t.plr.decision = .release ∧ (∀ x ∈ t.plr.queue, x.released = true)
          ∧ t.plr.rowsReleased = s.plr.rowsReleased + s.plr.queue.countP fun x => !x.released)
      ∧ (¬ passes → t.cal.op = some { op with failedTest := true } ∧ t.plr.decision = .drain
          ∧ t.plr.rowsReleased = s.plr.rowsReleased
          ∧ ((∀ x ∈ s.plr.queue, x.released = false) → t.plr.queue = []))
      ∧ s.tablesKept t ∧ s.portsNoticed t)
  ∧ (∀ (s : State) (k : SlotNo) (o ref : Nat) (e : Exposure) (c : TryContext), s.ltc.windowOpen = true →
    0 < s.ltc.windowSamples → s.plr.requester = some (.capture k o) → s.plr.decision = .waiting →
    s.plr.shutterSeen = true → s.plr.endPending = true → s.csq.state = .exposing → s.csq.ctx = some c → c.slot = k →
    s.cal.op = none → s.cal.record.mRef = some ref → (s.work k).list.getLast? = some e →
    s.plr.tornCount < s.geometry.height → (∀ x ∈ s.plr.queue, x.dest = .capture k o ∧ x.released = false) →
    s.busyWith StoreWork.isMerge = false →
    let m := (s.ltc.windowSum + s.ltc.windowSamples / 2) / s.ltc.windowSamples
    let list := (s.work k).list
    ∃ t, exec .shutterFall s = .next t ∧ t.plr.endPending = false ∧ t.plr.faultCount = s.plr.faultCount
      ∧ (s.ltc.steadyThroughout = true → inTolerance s.settings.lampTolerance ref m = true →
          s.plr.queue ≠ [] → (s.work k).state = .accumulating → e.ordinal = o →
          (∀ x ∈ s.plr.queue, x.row < s.geometry.height ∧ x.codes.length = s.geometry.width) →
          t.csq = { s.csq with state := .readout, frameReported := true } ∧ t.tbu.timers.frame = none
            ∧ (t.work k).list = list.dropLast ++ [{ e with
                monitor := m
                outcome := if s.plr.tornCount = 0 then .merged else .patched
                torn := if s.plr.tornCount = 0 then e.torn else some s.plr.tornCount }])
      ∧ (¬ (s.ltc.steadyThroughout = true ∧ inTolerance s.settings.lampTolerance ref m = true) →
          c.singleTry = false → c.repeatCount < 2 → list.length < 16 →
          t.csq.ctx = some c.raiseRepeat
            ∧ (t.work k).list.take list.length = list.dropLast ++ [{ e with monitor := m, outcome := .unsteady }]
            ∧ (s.ltc.lamp ≠ .steady → (t.csq.state = .awaitLamp ∨ t.csq.state = .paused .trigger)
                ∧ t.plr.queue = [] ∧ t.tbu.timers.frame = none))
      ∧ s.tablesKept t ∧ s.portsNoticed t)
  ∧ ∀ (s : State) (k : SlotNo) (o ref : Nat), s.ltc.windowOpen = true → 0 < s.ltc.windowSamples →
    s.plr.requester = some (.capture k o) → s.plr.decision = .waiting → s.plr.shutterSeen = true →
    s.plr.awaitedTag ≠ none → s.plr.endPending = false → s.csq.state = .exposing → s.csq.frameReported = false →
    s.cal.op = none → s.cal.record.mRef = some ref →
    ∃ t, exec .shutterFall s = .next t
      ∧ let m := (s.ltc.windowSum + s.ltc.windowSamples / 2) / s.ltc.windowSamples
        let passes := s.ltc.steadyThroughout && inTolerance s.settings.lampTolerance ref m
        (t.work k).list = (s.work k).list.modify ((s.work k).list.length - 1)
            (fun e => { e with monitor := m, outcome := if passes then .merged else .unsteady })
          ∧ t.plr.decision = (if passes then .release else .drain)
          ∧ (∀ x ∈ t.plr.queue, x.released = true)
          ∧ (passes = true → t.plr.rowsReleased = s.plr.rowsReleased + s.plr.queue.countP fun x => !x.released)
          ∧ (passes = false → t.plr.rowsReleased = s.plr.rowsReleased)
          ∧ (passes = false → (∀ x ∈ s.plr.queue, x.released = false) → t.plr.queue = [])
          ∧ (passes = true → s.fsc.access ≠ none → (s.work k).state = .accumulating →
              (s.work k).list.getLast?.map (·.ordinal) = some o →
              (∀ x ∈ s.plr.queue, x.dest = .capture k o ∧ x.row < s.geometry.height
                ∧ x.codes.length = s.geometry.width) →
              t.plr.queue = s.plr.queue.map fun x => { x with released := true })
          ∧ t.csq = { s.csq with state := .readout } ∧ t.ltc.windowOpen = false ∧ t.plr.faultCount = s.plr.faultCount
          ∧ s.tablesKept t ∧ s.portsNoticed t

/-! ## Pixel uplink -/

/-- A FRAME_START between frames in the middle of a try: the awaited tag opens the frame; a failed check, or a tag
neither awaited nor cancelled, is a stray of weight 8, which below 384 is marked and discarded (R108, R114). A
FRAME_START or an IDLE in an open frame ends it as a FRAME_END with a failing check would; the FRAME_START is then
judged against no awaited tag, so that only the cancelled tag spares it the stray (R108, R111). A row is still being
merged, so that the review does not follow at the same event. A ROW or a FRAME_END between frames is the body of a
stray frame, whose rest is discarded; in DISCARDING it is thrown away without charge, and an IDLE ends the discarding;
an unknown unit costs nothing (R108, R113). The model's readings here: an IDLE ends an open frame or a discarding
whatever its check (log 22), and the fault record of several torn rows holds the count after the whole event (log
21). -/
def Obligations.FrameStartIsJudged : Prop :=
  (∀ (s : State) (tag : Byte) (check : BitVec 16), s.midTry → s.plr.link ≠ .dropped → s.plr.reception ≠ .receiving →
    ∃ t, exec (.frameStart tag check) s = .next t ∧ s.tablesKept t ∧ s.portsNoticed t
      ∧ (crc16 [0xA1#8, tag] = check → s.plr.awaitedTag = some tag →
          t.plr.reception = .receiving ∧ t.plr.nextRow = 0 ∧ t.plr.faultCount = s.plr.faultCount
            ∧ t.plr.awaitedTag = some tag ∧ t.csq = s.csq)
      ∧ (crc16 [0xA1#8, tag] = check → s.plr.awaitedTag ≠ some tag → s.plr.cancelledTag = some tag →
          t.plr.reception = .discarding ∧ t.plr.cancelledTag = none ∧ t.plr.faultCount = s.plr.faultCount
            ∧ t.csq = s.csq)
      ∧ ((crc16 [0xA1#8, tag] ≠ check ∨ (s.plr.awaitedTag ≠ some tag ∧ s.plr.cancelledTag ≠ some tag)) →
          t.plr.faultCount = min 511 (s.plr.faultCount + 8)
            ∧ t.plr.link = linkOf s.settings.linkWarningLimit t.plr.faultCount
            ∧ (s.plr.faultCount + 8 < 384 → t.plr.reception = .discarding ∧ t.plr.straySeen = true
                ∧ t.plr.awaitedTag = s.plr.awaitedTag ∧ t.csq = s.csq)))
    ∧ (∀ (s : State) (k : SlotNo) (o : Nat), s.midTry → s.plr.link ≠ .dropped → s.plr.reception = .receiving →
      s.plr.awaitedTag ≠ none → s.plr.requester = some (.capture k o) → s.busyWith StoreWork.isMerge = true →
      let missing := s.geometry.height - s.plr.nextRow
      let count := if missing = 0 then (if s.plr.exposureClean then s.plr.faultCount - 4 else s.plr.faultCount)
        else s.plr.faultCount + 8 * missing
      s.plr.exposureCharge + 8 * missing ≤ 64 → s.plr.faultCount + 8 * missing + 8 < 384 →
      let frameEnded (t : State) : Prop :=
        t.plr.awaitedTag = none ∧ t.plr.tornCount = s.plr.tornCount + missing
          ∧ (s.csq.state = .readout → s.plr.decision ≠ .waiting → t.csq = { s.csq with frameReported := true }
              ∧ t.tbu.timers.frame = none)
          ∧ (s.plr.decision = .waiting → t.csq = s.csq ∧ t.plr.endPending = true
              ∧ t.tbu.timers.frame = s.tbu.timers.frame)
          ∧ s.tablesKept t ∧ s.portsNoticed t
      (∀ check, ∃ t, exec (.uplinkIdle check) s = .next t ∧ frameEnded t ∧ t.plr.reception = .between
          ∧ t.plr.faultCount = count ∧ t.plr.cancelledTag = s.plr.cancelledTag ∧ t.plr.straySeen = s.plr.straySeen
          ∧ (s.plr.capture = none → 0 < missing → t.plr.capture =
              some { kind := .length, exposure := some (.capture k o), row := some s.plr.nextRow, count := count })
          ∧ (missing = 0 → t.plr.capture = s.plr.capture))
        ∧ ∀ (tag : Byte) (check : BitVec 16),
            let spared : Prop := crc16 [0xA1#8, tag] = check ∧ s.plr.cancelledTag = some tag
            ∃ t, exec (.frameStart tag check) s = .next t ∧ frameEnded t ∧ t.plr.reception = .discarding
              ∧ (spared → t.plr.faultCount = count ∧ t.plr.cancelledTag = none ∧ t.plr.straySeen = s.plr.straySeen)
              ∧ (¬ spared → t.plr.faultCount = count + 8 ∧ t.plr.cancelledTag = s.plr.cancelledTag
                  ∧ t.plr.straySeen = true
                  ∧ (missing = 0 → s.plr.capture = none → t.plr.capture =
                      some { kind := .stray, exposure := none, row := none, count := count + 8 })))
    ∧ (∀ (s : State) (i : Instr), s.plr.link ≠ .dropped →
      ((∃ x b c, i = .uplinkRow x b c) ∨ ∃ n c, i = .frameEnd n c) →
      (s.plr.reception = .discarding → exec i s = .next s)
        ∧ (s.plr.reception = .between → s.midTry → s.plr.faultCount + 8 < 384 →
            ∃ t, exec i s = .next t ∧ t.plr.reception = .discarding ∧ t.plr.straySeen = true
              ∧ t.plr.faultCount = s.plr.faultCount + 8
              ∧ t.plr.link = linkOf s.settings.linkWarningLimit t.plr.faultCount
              ∧ t.plr.awaitedTag = s.plr.awaitedTag ∧ t.plr.exposureCharge = s.plr.exposureCharge
              ∧ (s.plr.capture = none → t.plr.capture =
                  some { kind := .stray, exposure := none, row := none, count := t.plr.faultCount })
              ∧ t.csq = s.csq ∧ s.tablesKept t ∧ s.portsNoticed t))
    ∧ ∀ (s : State), s.plr.link ≠ .dropped →
      (∀ check, s.plr.reception = .between → exec (.uplinkIdle check) s = .next s)
        ∧ (∀ check, s.plr.reception = .discarding →
            exec (.uplinkIdle check) s = .next { s with plr := { s.plr with reception := .between } })
        ∧ ∀ b, exec (.unknownUnit b) s = .next s

/-- A ROW of the open frame, in the middle of a try (R109, R110, R114, R120). The row whose index is expected, whole
and good, enters the queue: held while the decision is awaited, released under RELEASE, where it goes to a free store
at once; under DRAIN it is thrown away, and behind 8 rows it is torn, OVERFLOW. A row that fails its check or has the
wrong length is torn, CHECK or LENGTH; one of another frame place is thrown away, SEQUENCE; the rows skipped before
one are torn, SEQUENCE, and it then enters. Each fault charges 8 while the exposure charge is below 64, else 0. That
the record of a thrown-away row holds the index received, also where its check failed, is the model's reading (log
23). So is the count it holds for several torn rows, that after the whole event (log 21). -/
def Obligations.UplinkRowIsQueuedOrTorn : Prop :=
  ∀ (s : State) (index : BitVec 16) (bytes : List Byte) (check : BitVec 16) (who : Requester), s.midTry →
    s.plr.link ≠ .dropped → s.plr.reception = .receiving → s.plr.requester = some who → s.plr.awaitedTag ≠ none →
    let i := s.plr.nextRow
    let h := s.geometry.height
    let good : Prop := crc16 (0xA2#8 :: (leBytes 2 index.toNat ++ bytes)) = check
    let whole : Prop := good ∧ bytes.length = 3 * s.geometry.width / 2
    let row (released : Bool) : QueuedRow :=
      { dest := who, row := index.toNat, codes := unpackCodes bytes, released := released }
    let held : Prop := s.plr.decision = .waiting ∧ ∀ x ∈ s.plr.queue, x.released = false
    let weight := if s.plr.exposureCharge < 64 then 8 else 0
    let charged (t : State) (n : Nat) (kind : FaultKind) (at_ : Nat) : Prop :=
      t.plr.faultCount = s.plr.faultCount + n ∧ t.plr.exposureCharge = s.plr.exposureCharge + n
        ∧ t.plr.exposureClean = false ∧ t.plr.link = linkOf s.settings.linkWarningLimit t.plr.faultCount
        ∧ (s.plr.capture = none → t.plr.capture =
            some { kind := kind, exposure := some who, row := some at_, count := t.plr.faultCount })
    ∃ t, exec (.uplinkRow index bytes check) s = .next t ∧ s.tablesKept t ∧ s.portsNoticed t
      ∧ (whole → index.toNat = i → i < h → s.plr.queue.length < 8 → s.plr.decision ≠ .drain →
          t.plr.nextRow = i + 1 ∧ t.plr.faultCount = s.plr.faultCount ∧ t.plr.tornCount = s.plr.tornCount
            ∧ t.plr.rowsReleased = (if s.plr.decision = .release then s.plr.rowsReleased + 1 else s.plr.rowsReleased)
            ∧ t.csq = s.csq
            ∧ (held → t.plr.queue = s.plr.queue ++ [row false])
            ∧ (s.plr.decision = .release → s.inProgress .rowMerge = true → t.plr.queue = s.plr.queue ++ [row true])
            ∧ ∀ k o e, s.plr.decision = .release → s.plr.queue = [] → s.fsc.access = none → s.fsc.state = .ready →
                s.fsc.refreshOwed = 0 → (∀ j : SlotNo, (s.work j).state ≠ .clearing) → who = .capture k o →
                (s.work k).state = .accumulating → (s.work k).list.getLast? = some e → e.ordinal = o →
                e.outcome = .merged → (unpackCodes bytes).length = s.geometry.width →
                t.plr.queue = [] ∧ t.fsc.access =
                  some { work := .merge k o index.toNat (unpackCodes bytes), result := .used })
      ∧ (whole → index.toNat = i → i < h → s.plr.decision = .drain →
          t.plr.nextRow = i + 1 ∧ t.plr.faultCount = s.plr.faultCount ∧ t.plr.tornCount = s.plr.tornCount
            ∧ t.plr.rowsReleased = s.plr.rowsReleased ∧ t.csq = s.csq
            ∧ ((∀ x ∈ s.plr.queue, x.released = false) → t.plr.queue = s.plr.queue))
      ∧ (whole → index.toNat = i → i < h → 8 ≤ s.plr.queue.length → s.plr.decision ≠ .drain →
          s.plr.faultCount + 8 < 384 →
          t.plr.nextRow = i + 1 ∧ t.plr.tornCount = s.plr.tornCount + 1 ∧ charged t weight .overflow i
            ∧ (held → t.plr.queue = s.plr.queue) ∧ t.csq = s.csq)
      ∧ (i < h → s.plr.faultCount + 8 < 384 → (¬ good ∨ (good ∧ bytes.length ≠ 3 * s.geometry.width / 2)) →
          t.plr.nextRow = i + 1 ∧ t.plr.tornCount = s.plr.tornCount + 1
            ∧ (¬ good → charged t weight .check i) ∧ (good → charged t weight .length i)
            ∧ (held → t.plr.queue = s.plr.queue) ∧ t.csq = s.csq)
      ∧ (((whole ∧ i < h) ∨ h ≤ i) → (index.toNat < i ∨ h ≤ index.toNat) → s.plr.faultCount + 8 < 384 →
          t.plr.nextRow = i ∧ t.plr.tornCount = s.plr.tornCount ∧ charged t weight .sequence index.toNat
            ∧ (held → t.plr.queue = s.plr.queue) ∧ t.csq = s.csq)
      ∧ (whole → i < index.toNat → index.toNat < h → held → s.plr.queue.length < 8 →
          let n := index.toNat - i
          s.plr.exposureCharge + 8 * n ≤ 64 → s.plr.faultCount + 8 * n < 384 →
          t.plr.nextRow = index.toNat + 1 ∧ t.plr.tornCount = s.plr.tornCount + n ∧ charged t (8 * n) .sequence i
            ∧ t.plr.queue = s.plr.queue ++ [row false] ∧ t.csq = s.csq)

/-- A FRAME_END ends the open frame (R111, R114, R120). In READOUT, before the frame is reported, the timer stops, no
frame is awaited, and the sequencer is told: the latest entry's outcome becomes what R50 makes of its torn count. With
no row missing a clean exposure lowers the count by 4; a row count other than H, in a FRAME_END whose check passes, is
captured as a LENGTH fault of weight 0; missing rows are torn, LENGTH, 8 each below an exposure charge of 64. While
the window decision is awaited the timer runs on and the report waits. A row is still being merged, so that the review
does not follow at the same event. The record of several missing rows holds the count after the whole event (log 21).
That a FRAME_END whose check fails captures nothing where no row is missing, whatever its row count, is the model's
choice (log 53). -/
def Obligations.FrameEndEndsFrame : Prop :=
  ∀ (s : State) (n check : BitVec 16) (k : SlotNo) (o : Nat), s.midTry → s.plr.link ≠ .dropped →
    s.plr.reception = .receiving → s.plr.awaitedTag ≠ none → s.plr.requester = some (.capture k o) →
    s.plr.faultCount ≤ 383 → s.busyWith StoreWork.isMerge = true →
    let good : Prop := crc16 (0xA3#8 :: leBytes 2 n.toNat) = check
    let h := s.geometry.height
    let missing := h - s.plr.nextRow
    let atEnd (torn : Nat) (e : Exposure) : Exposure :=
      if e.outcome = .merged then
        if torn = 0 then e
        else if torn < h then { e with outcome := .patched, torn := some torn }
        else { e with outcome := .tornRepeat, torn := some h }
      else e
    let reported (t : State) (torn : Nat) : Prop :=
      t.plr.tornCount = torn ∧ t.tbu.timers.frame = none ∧ t.plr.endPending = false
        ∧ t.csq = { s.csq with frameReported := true }
        ∧ (t.work k).list = (s.work k).list.modify ((s.work k).list.length - 1) (atEnd torn)
    let decremented (t : State) : Prop :=
      t.plr.faultCount = (if s.plr.exposureClean then s.plr.faultCount - 4 else s.plr.faultCount)
        ∧ ((s.plr.exposureClean = true ∨ (good ∧ n.toNat ≠ h)) →
            t.plr.link = linkOf s.settings.linkWarningLimit t.plr.faultCount)
    ∃ t, exec (.frameEnd n check) s = .next t ∧ s.tablesKept t ∧ s.portsNoticed t
      ∧ (missing = 0 → t.plr.reception = .between ∧ t.plr.awaitedTag = none ∧ decremented t
          ∧ (good → n.toNat ≠ h → s.plr.capture = none → t.plr.capture =
              some { kind := .length, exposure := some (.capture k o), row := none, count := t.plr.faultCount })
          ∧ ((¬ good ∨ n.toNat = h) → t.plr.capture = s.plr.capture)
          ∧ (s.csq.state = .readout → s.plr.decision ≠ .waiting → reported t s.plr.tornCount)
          ∧ (s.plr.decision = .waiting → t.plr.endPending = true ∧ t.plr.tornCount = s.plr.tornCount
              ∧ t.csq = s.csq ∧ t.tbu.timers.frame = s.tbu.timers.frame))
      ∧ (0 < missing → s.plr.exposureCharge + 8 * missing ≤ 64 → s.plr.faultCount + 8 * missing < 384 →
          t.plr.reception = .between ∧ t.plr.awaitedTag = none ∧ t.plr.exposureClean = false
            ∧ t.plr.faultCount = s.plr.faultCount + 8 * missing
            ∧ t.plr.link = linkOf s.settings.linkWarningLimit t.plr.faultCount
            ∧ (s.plr.capture = none → t.plr.capture =
                some { kind := .length, exposure := some (.capture k o), row := some s.plr.nextRow,
                       count := t.plr.faultCount })
            ∧ (s.csq.state = .readout → s.plr.decision ≠ .waiting → reported t (s.plr.tornCount + missing))
            ∧ (s.plr.decision = .waiting → t.plr.endPending = true ∧ t.plr.tornCount = s.plr.tornCount + missing
                ∧ t.csq = s.csq ∧ t.tbu.timers.frame = s.tbu.timers.frame))

/-- While the link is DROPPED an IDLE whose check passes raises the idle run, the 48th in a row brings the link
back to CLEAN with a fault count of 0 and its LINK notice, and every other unit sets the run to 0 and changes nothing
else (R116, R117, R119). -/
def Obligations.DroppedLinkCountsIdles : Prop :=
  ∀ s : State, s.plr.link = .dropped →
    (∀ check, crc16 [0xA0#8] = check → s.plr.idleRun + 1 < 48 →
        ∃ t, exec (.uplinkIdle check) s = .next t ∧ t.plr.idleRun = s.plr.idleRun + 1 ∧ t.plr.link = .dropped
          ∧ t.plr.faultCount = s.plr.faultCount ∧ s.tablesKept t ∧ s.portsNoticed t)
      ∧ (∀ check, crc16 [0xA0#8] = check → 48 ≤ s.plr.idleRun + 1 →
          ∃ t, exec (.uplinkIdle check) s = .next t ∧ t.plr.idleRun = 0 ∧ t.plr.link = .clean ∧ t.plr.faultCount = 0
            ∧ t.plr.tagCounter = s.plr.tagCounter ∧ s.tablesKept t ∧ s.portsNoticed t
            ∧ (s.quiet → s.announced t (.link .clean .dropped 0 .recovered)))
      ∧ (∀ check, crc16 [0xA0#8] ≠ check →
          ∃ t, exec (.uplinkIdle check) s = .next t ∧ t.plr.idleRun = 0 ∧ t.plr.link = .dropped
            ∧ t.plr.faultCount = s.plr.faultCount ∧ s.tablesKept t ∧ s.portsNoticed t)
      ∧ (∀ i, ((∃ tag c, i = .frameStart tag c) ∨ (∃ x b c, i = .uplinkRow x b c) ∨ (∃ n c, i = .frameEnd n c)
            ∨ ∃ b, i = .unknownUnit b) →
          exec i s = .next { s with plr := { s.plr with idleRun := 0 } })

/-! ## Delivery link -/

/-- READY: its fall changes the line alone; its rise lets the stream's next unit begin on a free link (R157). START
sent moves the phase to HEADER, HEADER sent to ROWS, and each ROW sent adds its code bytes to the CRC-32, raises the
next row and empties the buffer, the last one moving the phase to END; the buffer then asks for its next row (R157),
and while READY is high the next unit begins at once. That unit is START, the stream's HEADER, a ROW from a full buffer
under its row index, its codes reversed in a mirrored stream, or END with the cut flag, the rows sent and the CRC-32
(R157 to R160). A cut stream's phase stays at END (R160). The bytes of a unit are its type, its fields, least
significant byte first, the CRC-32 inverted, and the CRC-16 over all of them (R156).
The END of an uncut stream makes its cell DELIVERED, with its CELL notice, and clears the stream (R4, R159); the END
of a cut one clears the stream and changes no cell, also where it was being sent with cut flag 0 when the stream was
cut, which is the model's choice (R160; log 44). No other stream waits: the mode is FETCH, or the queue is empty. -/
def Obligations.StreamUnitsAdvance : Prop :=
  let next (x : Stream) (link : Option LinkUnit) : Prop :=
    (x.phase = .start → link = some { content := .start, live := true })
      ∧ (x.phase = .header → link = some { content := .header x.header, live := true })
      ∧ (∀ codes, x.phase = .rows → x.buffer = .full codes → link = some
          { content := .row x.nextRow (if x.mirrored then codes.reverse else codes), live := true })
      ∧ (x.phase = .rows → (∀ codes, x.buffer ≠ .full codes) → link = none)
      ∧ (x.phase = .finish → link = some { content := .finish x.cut x.nextRow x.crc, live := true })
  (∀ (h : HeaderRecord) (i n : Nat) (codes : List DensityCode) (cut : Bool) (crc : BitVec 32),
      let checked (b : List Byte) : List Byte := b ++ leBytes 2 (crc16 b).toNat
      let flag (b : Bool) : Byte := if b then 1 else 0
      DeliveryUnit.start.bytes = checked [0xD0]
        ∧ (DeliveryUnit.header h).bytes = checked (0xD1#8 ::
            (leBytes 2 h.key.toNat ++ leBytes 1 h.column ++ leBytes 1 h.row ++ leBytes 1 h.tryNumber
              ++ leBytes 1 h.profile.val ++ [flag (h.handling == .fragile), flag (h.emulsion == .down)]
              ++ leBytes 2 h.width ++ leBytes 2 h.height ++ leBytes 1 h.exposuresMerged ++ [flag h.extensionUsed]
              ++ leBytes 4 h.firstTrigger.toNat ++ leBytes 4 h.finalizeTime.toNat ++ leBytes 4 h.clipLight
              ++ leBytes 4 h.clipDark ++ leBytes 4 h.dead ++ leBytes 4 h.tornRows ++ leBytes 2 h.qceil
              ++ h.histogram.flatMap (leBytes 4)))
        ∧ (DeliveryUnit.row i codes).bytes = checked (0xD2#8 :: (leBytes 2 i ++ codes.flatMap fun q => leBytes 2 q.toNat))
        ∧ (DeliveryUnit.finish cut n crc).bytes =
            checked (0xD3#8 :: flag cut :: (leBytes 2 n ++ leBytes 4 (~~~crc).toNat))
        ∧ (h.histogram.length = 64 → (DeliveryUnit.header h).bytes.length = 299))
  ∧ (∀ s : State,
      exec .readyFall s = .next { s with dlt := { s.dlt with ready := false } }
        ∧ ∃ t, exec .readyRise s = .next t ∧ t.dlt.ready = true
            ∧ (∀ x u, s.dlt.stream = some x → s.dlt.link = none → x.nextUnit? = some u →
                t.dlt.link = some { content := u, live := true })
            ∧ (∀ x, s.dlt.stream = some x → s.dlt.link = none → next x t.dlt.link)
            ∧ (s.dlt.link ≠ none → t.dlt.link = s.dlt.link) ∧ t.dlt.queue = s.dlt.queue ∧ t.fsc.mem = s.fsc.mem
            ∧ t = { s with dlt := t.dlt, fsc := t.fsc, plr := t.plr })
    ∧ (∀ (s : State) (x : Stream), s.dlt.stream = some x →
      let asked (y : Stream) : Stream :=
        if (y.phase = .header ∨ y.phase = .rows) ∧ y.buffer = .empty ∧ y.nextRow < s.geometry.height then
          { y with buffer := .reading }
        else y
      let moved (i : Instr) (y : Stream) : Prop :=
        ∃ t, exec i s = .next t ∧ t.dlt.stream = some (asked y) ∧ t.dlt.queue = s.dlt.queue ∧ t.dlt.mode = s.dlt.mode
          ∧ (s.dlt.ready = true → next y t.dlt.link) ∧ (s.dlt.ready = false → t.dlt.link = none)
          ∧ t.fsc.mem = s.fsc.mem ∧ t = { s with dlt := t.dlt, fsc := t.fsc, plr := t.plr }
      (s.dlt.link = some { content := .start, live := true } →
          moved .startSent { x with phase := if x.cut then x.phase else .header })
        ∧ (∀ h, s.dlt.link = some { content := .header h, live := true } →
            moved .headerSent { x with phase := if x.cut then x.phase else .rows })
        ∧ (∀ i codes, s.dlt.link = some { content := .row i codes, live := true } →
            moved .deliveryRowSent
              { x with crc := crc32Add x.crc (codeBytes codes), nextRow := x.nextRow + 1, buffer := .empty,
                       phase := if s.geometry.height ≤ x.nextRow + 1 then .finish else x.phase }))
    ∧ (∀ (s : State) (x : Stream) (cut : Bool) (n : Nat) (crc : BitVec 32),
    s.dlt.stream = some x → s.dlt.link = some { content := .finish cut n crc, live := true } →
    (s.dlt.mode = .fetch ∨ s.dlt.queue = []) →
    ∃ t, exec .endSent s = .next t ∧ t.dlt = { s.dlt with stream := none, link := none } ∧ s.tablesKept t
      ∧ s.portsNoticed t
      ∧ (∀ c, x.cell = some c → t.cell? c = (s.cell? c).map fun y => { y with state := .delivered })
      ∧ (∀ c y, x.cell = some c → s.registerLaw → s.gridLaw → s.cell? c = some y → y.state = .delivering → s.quiet →
          s.announced t (.cell c .delivered y.triesUsed y.slot y.lastOutcome y.summary))
      ∧ (x.cell = none → t.plates = s.plates))

/-! ## Station lines -/

/-- The characters of one bad frame, received from HUNT, set the port's bad-frame flag and leave its framer in HUNT; a
good frame that is no request is answered FIELD with its first body byte as tag, or 0, unless 3 answers wait, when
the answer is dropped and the flag set (R166, R167 row 1).
A break resets its port alone: answers and notices are dropped, the notice number is 0, the gate SHUT, and
a request whose answer is not being sent stops being outstanding; role, rate, filter, flags and the frame
being sent are kept (R173).
The model's choices and readings here: a good frame among the characters of BAD_FRAME is not answered (log 18); a
frame of any kind byte that comes as NON_REQUEST_FRAME is answered FIELD (log 37); and a request whose answer is being
sent stays outstanding across a break (log 17). -/
def Obligations.BadFramesAndBreaks : Prop :=
  (∀ (s : State) (k : PortNo), s.fsc.state ≠ .cold →
      (∀ characters, badFrameCharacters characters = true → (s.ports.get k).framer = .hunt →
          exec (.badFrame k characters) s = .next (s.onPort k fun p => { p with badFrame := true }))
        ∧ (∀ characters, ∃ t, exec (.badFrame k characters) s = .next t
            ∧ t = s.onPort k fun p =>
                { p with framer := (p.framer.receive characters).1
                         badFrame := p.badFrame || decide (FrameResult.bad ∈ (p.framer.receive characters).2) })
        ∧ ∀ (kind : Byte) (body : List Byte), ∃ t, exec (.nonRequestFrame k kind body) s = .next t
            ∧ t = { s with ports := t.ports } ∧ (∀ j, j ≠ k → t.ports.get j = s.ports.get j)
            ∧ (t.ports.get k).outstanding = (s.ports.get k).outstanding ∧ (t.ports.get k).framer = .hunt
            ∧ ((s.ports.get k).answers.length < 3 → (t.ports.get k).badFrame = (s.ports.get k).badFrame
                ∧ (t.ports.get k).holdsAnswer
                    { tag := (match body with
                        | [] => 0
                        | b :: _ => b),
                      kind := .raw kind, code := .field, clamped := false, data := .none, forOutstanding := false })
            ∧ (3 ≤ (s.ports.get k).answers.length → (t.ports.get k).badFrame = true))
    ∧ (∀ (s : State) (k : PortNo), ∃ t,
      exec (.lineBreak k) s = .next t ∧ t = { s with ports := t.ports } ∧ (∀ j, j ≠ k → t.ports.get j = s.ports.get j)
        ∧ t.ports.get k =
            { s.ports.get k with framer := .hunt, answers := [], notices := [], noticeNumber := 0, gate := .shut,
                                 outstanding := (t.ports.get k).outstanding }
        ∧ (∀ a, (s.ports.get k).line = .answer a → a.forOutstanding = true →
            (t.ports.get k).outstanding = (s.ports.get k).outstanding)
        ∧ ((∀ a, (s.ports.get k).line = .answer a → a.forOutstanding = false) → (t.ports.get k).outstanding = none))

/-- PACE: a rise changes the level alone; while it is held, and while the gate is SHUT, a line that becomes free sends
an answer that waits and no notice; its fall lets the oldest notice go. An answer goes before a notice; the end of an
answer ends its request, and the end of the DONE to a WARM_RESTART begins the restart (R168, R172, R174). A notice
offered to a port passes its filter by its kind and, where it carries a plate key, by that key. While the gate is OPEN
it takes the next notice number, and enters the queue, or with 16 waiting is dropped and sets overrun; a notice that
does not pass, or meets a SHUT gate, changes nothing (R171, R172). A frame leaves its queue when its sending begins
(log 16), and the restart follows the DONE of a WARM_RESTART that is still outstanding (log 17): the model's
readings. -/
def Obligations.LinesSendAnswersThenNotices : Prop :=
  (∀ (p : Port) (n : Notice),
    let passes : Prop := n.kind ∈ p.filter.kinds
      ∧ ∀ key, n.plateKey? = some key → (key ^^^ p.filter.keyCode) &&& p.filter.keyMask = 0
    ((¬ passes ∨ p.gate = .shut) → p.offer n = p)
      ∧ (passes → p.gate = .opened → p.notices.length < 16 → p.offer n =
          { p with noticeNumber := p.noticeNumber + 1, notices := p.notices ++ [(p.noticeNumber + 1, n)] })
      ∧ (passes → p.gate = .opened → 16 ≤ p.notices.length → p.offer n =
          { p with noticeNumber := p.noticeNumber + 1, overrun := true }))
  ∧ ∀ (s : State) (k : PortNo),
    let p := s.ports.get k
    let ended (a : Answer) (y : Port) : Port :=
      { y with line := .idle, outstanding := if a.forOutstanding then none else y.outstanding }
    let restarts (a : Answer) : Prop :=
      a.forOutstanding = true ∧ p.outstanding ≠ none ∧ a.kind = .request .warmRestart ∧ a.code = .done
    exec (.paceRise k) s = .next (s.onPort k fun x => { x with pace := true })
      ∧ (∀ n rest, p.line = .idle → p.answers = [] → p.gate = .opened → p.notices = n :: rest →
          exec (.paceFall k) s =
            .next (s.onPort k fun x => { x with pace := false, line := .notice n.1 n.2, notices := rest }))
      ∧ ((p.line ≠ .idle ∨ (p.answers = [] ∧ (p.gate = .shut ∨ p.notices = []))) →
          exec (.paceFall k) s = .next (s.onPort k fun x => { x with pace := false }))
      ∧ (∀ n x a rest, p.line = .notice n x → p.answers = a :: rest →
          exec (.noticeSent k) s = .next (s.onPort k fun y => { y with line := .answer a, answers := rest }))
      ∧ (∀ n x m rest, p.line = .notice n x → p.answers = [] → p.pace = false → p.gate = .opened →
          p.notices = m :: rest →
          exec (.noticeSent k) s = .next (s.onPort k fun y => { y with line := .notice m.1 m.2, notices := rest }))
      ∧ (∀ n x, p.line = .notice n x → p.answers = [] → (p.pace = true ∨ p.gate = .shut ∨ p.notices = []) →
          exec (.noticeSent k) s = .next (s.onPort k fun y => { y with line := .idle }))
      ∧ (∀ a b rest, p.line = .answer a → ¬ restarts a → p.answers = b :: rest →
          exec (.answerSent k) s =
            .next (s.onPort k fun y => { ended a y with line := .answer b, answers := rest }))
      ∧ (∀ a m rest, p.line = .answer a → ¬ restarts a → p.answers = [] → p.pace = false → p.gate = .opened →
          p.notices = m :: rest →
          exec (.answerSent k) s =
            .next (s.onPort k fun y => { ended a y with line := .notice m.1 m.2, notices := rest }))
      ∧ (∀ a, p.line = .answer a → ¬ restarts a → p.answers = [] →
          (p.pace = true ∨ p.gate = .shut ∨ p.notices = []) →
          exec (.answerSent k) s = .next (s.onPort k (ended a)))
      ∧ (∀ a, p.line = .answer a → restarts a →
          (∃ t, exec (.answerSent k) s = .next t)
            ∧ exec (.answerSent k) s = exec .resetWarm (s.onPort k (ended a)))

/-! ## Requests: plate register -/

/-- ENROL adds a record in ENROLLED at the end of the register, with a PENDING cell for each place of its grid;
a key in use is answered DUPLICATE and a full register FULL, with no change (R6, R3). The new record raises one PLATE
notice (R4). -/
def Obligations.EnrolAddsRecord : Prop :=
  ∀ (s : State) (q : Src) (key : PlateKey) (p : ProfileNo) (h : Handling) (e : Emulsion) (c r : Nat),
    s.takes q .enrol → within 1 6 c → within 1 6 r →
    let i : Instr := .enrol q (some key) (some p.val) (.given h) (.given e) (some c) (some r)
    (s.plate? key = none → s.plates.length < 24 → ∃ t, exec i s = .next t
        ∧ s.served t q .enrol (Reply.done false) ∧ t = { s with raised := [], ports := t.ports, plates := t.plates }
        ∧ (s.quiet → s.registerLaw → s.offered t
            [.plate key .enrolled false { console := false, move := false, lamp := false } 0 0 false])
        ∧ ∃ x, t.plates = s.plates ++ [x] ∧ x.key = key ∧ x.state = .enrolled ∧ x.seated = false
            ∧ x.holds = { console := false, move := false, lamp := false } ∧ x.profile = p ∧ x.handling = h
            ∧ x.emulsion = e ∧ x.columns = c ∧ x.rows = r ∧ x.enrolTime = s.tbu.clock ∧ x.firstSeat = none
            ∧ x.completion = none ∧ x.kept = 0 ∧ x.failed = 0 ∧ x.cells.length = c * r
            ∧ ∀ i j, i < c → j < r → x.cell? i j = some
                { column := i, row := j, state := .pending, triesUsed := 0, slot := none, summary := none,
                  lastOutcome := .untried })
      ∧ (s.plate? key ≠ none → s.answeredOnly i q .enrol (Reply.plain .duplicate))
      ∧ (s.plate? key = none → 24 ≤ s.plates.length → s.answeredOnly i q .enrol (Reply.plain .full))

/-- SEATED on an unseated record, with none seated and no calibration running, seats it: ACTIVE where it is ENROLLED
or CAPTURED with a PENDING cell, first-seat time set once, LAMP added under a FAILED lamp, and an OFF lamp lit for an
entry to ACTIVE (R7, R122). The refusals of rows 2 to 5 change nothing. Where the plate does not become ACTIVE, its
PLATE notice is raised, and UNLOAD for a CAPTURED one (R4). -/
def Obligations.SeatedSeatsPlate : Prop :=
  ∀ (s : State) (q : Src) (key : PlateKey) (r : PlateRecord), s.takes q .seated → s.registerLaw →
    s.plate? key = some r →
    (r.state ≠ .withdrawn → s.plates.all (fun x => !x.seated) = true → s.cal.op = none →
        let active := (r.state = .enrolled ∨ r.state = .captured) ∧ r.hasPending = true
        ∃ t x, exec (.seated q (some key)) s = .next t ∧ s.served t q .seated (Reply.done false)
          ∧ t.plate? key = some x ∧ x.seated = true ∧ (active → x.state = .active) ∧ (¬ active → x.state = r.state)
          ∧ x.firstSeat = some (r.firstSeat.getD s.tbu.clock)
          ∧ x.holds = { r.holds with lamp := r.holds.lamp || s.ltc.lamp == .failed }
          ∧ (active → s.ltc.lamp = .off → t.ltc.lamp = .warming ∧ t.ltc.drive = s.settings.lampLevel)
          ∧ (¬ active → r.state ≠ .active → s.csq.state = .idle → s.quiet → s.offered t
              (.plate key r.state true x.holds r.kept r.failed false ::
                if r.state = .captured then [.unload key] else []))
          ∧ (∀ other, other ≠ key → t.plate? other = s.plate? other) ∧ s.tablesKept t)
      ∧ (r.state = .withdrawn → s.answeredOnly (.seated q (some key)) q .seated (Reply.plain .state))
      ∧ (r.state ≠ .withdrawn → r.seated = true →
          s.answeredOnly (.seated q (some key)) q .seated (Reply.plain .done))
      ∧ (r.state ≠ .withdrawn → r.seated = false →
          (s.plates.any (fun x => x.seated) = true ∨ s.cal.op ≠ none) →
          s.answeredOnly (.seated q (some key)) q .seated (Reply.plain .busy))

/-- The claim (R17, R28, R36, R42, R43, R67, R139). A plate seated while the sequencer is IDLE and its start
conditions hold, with no hold reason, no cell EXPOSING and a slot FREE, has its first PENDING cell in serpentine order
captured at that event: the cell is EXPOSING in the lowest-numbered FREE slot, which is HELD with the cell as its
region's holder and its record CLEARING with the profile's S and F; the context copies the profile under the effective
ladder, at its first rung; the next move number is used, MOVE_TO's record is MOVING, and the move timer is started.
The ports are offered the CELL notice, the PLATE notice of the entry to ACTIVE, MOVE_TO with the cell, the handling
and the move number, and LAMP where the lamp is lit at that event (R4, R43, R131; their order across blocks is the
model's, log 8). -/
def Obligations.ClaimTakesLowestSlot : Prop :=
  ∀ (s : State) (q : Src) (key : PlateKey) (r : PlateRecord) (column row : Nat) (x : CellRecord) (k : SlotNo),
    s.takes q .seated → s.registerLaw → s.plate? key = some r → (r.state = .enrolled ∨ r.state = .captured) →
    s.plates.all (fun y => !y.seated) = true → s.cal.op = none → s.csq.state = .idle →
    s.cal.record.state = .valid → s.fsc.state = .ready → s.plr.link ≠ .dropped → s.ltc.lamp ≠ .failed →
    r.holds = { console := false, move := false, lamp := false } →
    (∀ y ∈ s.plates, ∀ c ∈ y.cells, c.state ≠ .exposing) →
    (serpentine r.columns r.rows).find? (fun p => ((r.cell? p.1 p.2).map (·.state)) == some .pending)
      = some (column, row) →
    r.cell? column row = some x → s.fsc.held.get k = false → (∀ j : SlotNo, j < k → s.fsc.held.get j = true) →
    let p := s.profiles.get r.profile
    let ladder := effectiveLadder p.ladder r.handling s.settings.fragileCap
    let c : CellRef := { key := key, column := column, row := row }
    ∃ t ctx, exec (.seated q (some key)) s = .next t ∧ s.served t q .seated (Reply.done false)
      ∧ t.cell? c = some { x with state := .exposing, slot := some k }
      ∧ t.fsc.held.get k = true ∧ t.fsc.holders.get k = some c
      ∧ (∀ j, j ≠ k → t.fsc.held.get j = s.fsc.held.get j ∧ t.fsc.holders.get j = s.fsc.holders.get j)
      ∧ (t.work k).state = .clearing ∧ (t.work k).owner = some c ∧ (t.work k).satThreshold = p.satThreshold
      ∧ (t.work k).noiseFloor = p.noiseFloor ∧ (t.work k).list = [] ∧ (t.work k).rowsCleared = 0
      ∧ t.csq = { state := .moving, ctx := some ctx, frameReported := false, moveCounter := s.csq.moveCounter + 1,
                  move := some { number := s.csq.moveCounter + 1, cell := c, status := .moving } }
      ∧ ctx = { cell := c, slot := k, ladder := ladder, satThreshold := p.satThreshold, noiseFloor := p.noiseFloor,
                extThreshold := p.extThreshold, singleTry := p.singleTry,
                extCap := if r.handling = .fragile then s.settings.fragileCap else 8000000,
                rung := .step ((ladder.head?.map (·.index)).getD 0), repeats := List.replicate ladder.length 0,
                extRepeats := 0, extTaken := false, extTime := 0, clearComplete := false }
      ∧ t.tbu.timers.move = some (s.settings.moveTimeout * 1000000)
      ∧ (s.gridLaw → s.quiet → s.offered t
          ([.cell c .exposing x.triesUsed (some k) x.lastOutcome x.summary,
            .plate key .active true r.holds r.kept r.failed false,
            .moveTo c r.handling (s.csq.moveCounter + 1)]
            ++ if s.ltc.lamp = .off then [.lamp .warming .off s.settings.lampLevel none .switchOn] else []))
      ∧ s.tablesKept t

/-- REVIEW, at the event at which the last handed row of a reported frame is merged (R19, R51 to R56, R72). An entry
MERGED, or PATCHED within the torn-row allowance of the link state or under a single-try profile, is accepted: the
next rung of the effective ladder, or the extension rung where R54's conditions hold, waits for its trigger; after the
last rung without an extension, and after EXT, the cell is handed over to FINALIZING with the profile's Qceil. Any
other entry is repeated, at most twice a rung; a third repeat, and an UNSTEADY one under a single-try profile, end the
try with REPEATS, and a trigger wanted over 16 entries ends it with LIST_FULL. Tries used then rises, and below the
try limit the try begins anew in its slot; at the limit the cell is FAILED. -/
def Obligations.ReviewDecides : Prop :=
  ∀ (s : State) (o y : Nat) (codes : List CameraCode) (c : TryContext) (e : Exposure) (r : PlateRecord)
    (x : CellRecord),
    s.fsc.access = some { work := .merge c.slot o y codes, result := .used } → s.csq.state = .readout →
    s.csq.frameReported = true → s.csq.ctx = some c → (∀ z ∈ s.plr.queue, z.isCapture = false) → s.cal.op = none →
    (s.work c.slot).list.getLast? = some e → s.registerLaw → s.plate? c.cell.key = some r →
    r.cell? c.cell.column c.cell.row = some x → r.holds.any = false → c.cell ∉ s.dlt.queue →
    s.fsc.held.get c.slot = true → s.plr.awaitedTag = none → s.plr.link ≠ .dropped →
    let list := (s.work c.slot).list
    let p := s.profiles.get r.profile
    let limit := if p.singleTry then 1 else 3
    let allowance := if s.plr.link = .guarded then 0 else 4
    let accepted : Prop :=
      e.outcome = .merged ∨ (e.outcome = .patched ∧ (c.singleTry = true ∨ e.torn.getD 0 ≤ allowance))
    let stops : Prop := e.outcome = .unsteady ∧ c.singleTry = true
    let lastRung : Prop := ∃ i, c.rung = .step i ∧ nextRung c.ladder i = none
    let longer := min (4 * c.nominal) c.extCap
    let merged (k : PixelClass) (counter : Nat) : Nat :=
      recount k (s.accumRow c.slot y) (s.mergedRow c.slot o y codes) counter
    let dead := merged .dead (s.work c.slot).dead
    let starvedOnly := merged .starvedOnly (s.work c.slot).starvedOnly
    let extended : Prop := 0 < c.extThreshold ∧ c.extTaken = false ∧ c.nominal < longer
      ∧ c.extThreshold * (s.geometry.width * s.geometry.height - dead) < starvedOnly * 1000
    ∃ t, exec .rowMergeComplete s = .next t ∧ s.portsNoticed t
      ∧ let goesOn (c2 : TryContext) : Prop :=
          t.csq.ctx = some c2 ∧ t.csq.frameReported = false ∧ t.cell? c.cell = some x
            ∧ (s.ltc.lamp ≠ .steady → t.csq.state = .awaitLamp ∧ t.plr.awaitedTag = none
                ∧ (t.work c.slot).list = list)
            ∧ (s.ltc.lamp = .steady → c.clearComplete = true → t.csq.state = .exposing
                ∧ t.plr.awaitedTag = some (s.plr.tagCounter + 1)
                ∧ t.plr.downlink = some { tag := s.plr.tagCounter + 1, time := c2.nominal, lamp := .steady }
                ∧ (t.work c.slot).list = list ++
                    [{ ordinal := list.length, rung := c2.rung, time := c2.nominal, monitor := 0, outcome := .pending,
                       torn := none }])
        let ends (outcome : LastOutcome) : Prop :=
          (x.triesUsed + 1 < limit →
              t.cell? c.cell = some { x with triesUsed := x.triesUsed + 1, lastOutcome := outcome }
                ∧ t.csq.state = .awaitLamp ∧ (t.work c.slot).state = .clearing ∧ (t.work c.slot).list = []
                ∧ (t.work c.slot).owner = some c.cell
                ∧ ∃ c2, t.csq.ctx = some c2 ∧ c2.cell = c.cell ∧ c2.slot = c.slot ∧ c2.clearComplete = false
                    ∧ c2.extTaken = false ∧ c2.extRepeats = 0 ∧ (∀ n ∈ c2.repeats, n = 0)
                    ∧ c2.ladder = effectiveLadder p.ladder r.handling s.settings.fragileCap
                    ∧ c2.rung = .step ((c2.ladder.head?.map (·.index)).getD 0))
            ∧ (limit ≤ x.triesUsed + 1 →
                t.cell? c.cell = some
                    { x with triesUsed := x.triesUsed + 1, lastOutcome := outcome, state := .failed, slot := none }
                  ∧ (t.plate? c.cell.key).map (·.failed) = some (r.failed + 1)
                  ∧ ((∀ z ∈ s.cells, z.2.state ≠ .pending) →
                      t.csq.state = .idle ∧ t.csq.ctx = none ∧ t.fsc.held.get c.slot = false
                        ∧ (t.work c.slot).state = .free))
        (∀ i n, accepted → c.rung = .step i → nextRung c.ladder i = some n → list.length < 16 →
            goesOn { c with rung := .step n.index })
          ∧ (accepted → lastRung → extended → list.length < 16 →
              goesOn { c with extTaken := true, rung := .ext, extTime := longer })
          ∧ (¬ accepted → ¬ stops → c.repeatCount < 2 → list.length < 16 → goesOn c.raiseRepeat)
          ∧ (16 ≤ list.length →
              ((accepted ∧ ∃ i n, c.rung = .step i ∧ nextRung c.ladder i = some n)
                ∨ (accepted ∧ lastRung ∧ extended)
                ∨ (¬ accepted ∧ ¬ stops ∧ c.repeatCount < 2)) → ends .listFull)
          ∧ ((stops ∨ (¬ accepted ∧ 2 ≤ c.repeatCount)) → ends .repeats)
          ∧ (accepted → (c.rung = .ext ∨ (lastRung ∧ ¬ extended)) → c.slot ∉ s.mge.queue →
              t.cell? c.cell = some { x with state := .finalizing } ∧ t.mge.queue = s.mge.queue ++ [c.slot]
                ∧ (t.work c.slot).qceil = some p.qceil ∧ (t.work c.slot).list = list
                ∧ (t.work c.slot).state = (if s.mge.queue = [] then .running else .queued)
                ∧ ∀ c2, t.csq.ctx = some c2 → c2.cell ≠ c.cell)

/-- UNSEATED: an ACTIVE record returns to ENROLLED, its try abandoned and the sequencer in IDLE; any other but a
WITHDRAWN one keeps its state; MOVE and LAMP leave the hold reasons; a WITHDRAWN record is removed (R8, R20,
R59). The work of the abandoned try's state stops: a move is ABANDONED and its timer stopped, a settle timer is
stopped, and in EXPOSING and READOUT the wait for the frame is cancelled: nothing is awaited, the frame's rows are
removed, an open frame is discarded, and the tag of a frame that has not begun becomes the cancelled tag (R59,
R118). -/
def Obligations.UnseatedUnseatsPlate : Prop :=
  ∀ (s : State) (q : Src) (key : PlateKey) (r : PlateRecord), s.takes q .unseated → s.registerLaw →
    s.plate? key = some r → r.seated = true →
    (r.state = .active → ∀ c, s.csq.ctx = some c → c.cell.key = key → s.cell? c.cell ≠ none →
        ∃ t x, exec (.unseated q (some key)) s = .next t ∧ s.served t q .unseated (Reply.done false)
          ∧ t.plate? key = some x ∧ x.seated = false ∧ x.state = .enrolled
          ∧ x.holds = { r.holds with move := false, lamp := false }
          ∧ t.csq.ctx = none ∧ t.csq.state = .idle
          ∧ t.cell? c.cell = (s.cell? c.cell).map
              (fun y => { y with state := .pending, slot := none, lastOutcome := .abandoned })
          ∧ t.fsc.held.get c.slot = false ∧ (t.work c.slot).state = .free
          ∧ (s.csq.state = .moving → t.tbu.timers.move = none
              ∧ t.csq.move = s.csq.move.map fun m => { m with status := .abandoned })
          ∧ (s.csq.state = .settling → t.tbu.timers.settle = none)
          ∧ (s.csq.state = .exposing → t.ltc.windowOpen = false)
          ∧ ((s.csq.state = .exposing ∨ s.csq.state = .readout) →
              t.plr.awaitedTag = none ∧ t.plr.queue = [] ∧ t.plr.endPending = false ∧ t.tbu.timers.frame = none
                ∧ t.plr.faultCount = s.plr.faultCount
                ∧ (s.plr.reception = .receiving →
                    t.plr.reception = .discarding ∧ t.plr.cancelledTag = s.plr.cancelledTag)
                ∧ (s.plr.reception ≠ .receiving → t.plr.reception = s.plr.reception
                    ∧ ∀ tag, s.plr.awaitedTag = some tag → t.plr.cancelledTag = some tag))
          ∧ (∀ other, other ≠ key → t.plate? other = s.plate? other) ∧ s.tablesKept t)
      ∧ (r.state ≠ .withdrawn → s.csq.ctx = none →
          ∃ t x, exec (.unseated q (some key)) s = .next t ∧ s.served t q .unseated (Reply.done false)
            ∧ t.plate? key = some x ∧ x.seated = false
            ∧ x.state = (if r.state = .active then .enrolled else r.state)
            ∧ x.holds = { r.holds with move := false, lamp := false } ∧ x.cells = r.cells
            ∧ (∀ other, other ≠ key → t.plate? other = s.plate? other) ∧ s.tablesKept t)
      ∧ (r.state = .withdrawn → ∃ t, exec (.unseated q (some key)) s = .next t
          ∧ s.served t q .unseated (Reply.done false) ∧ t.plate? key = none
          ∧ t = { s with raised := [], ports := t.ports, plates := s.plates.filter fun x => x.key != key })

/-- WITHDRAW removes an unseated record, and puts a seated one in WITHDRAWN with every cell that held a slot
back in PENDING, its try abandoned, and no completion time (R2, R11, R12; that WITHDRAWN has none is read from R2,
log 36); none of its cells stays in the delivery queue, and its stream no longer names a cell. The slots of its
cells are FREE, with their work records, and their passes leave the finalization queue (R65, R140), but for a slot
that a claim waiting for one takes at once. -/
def Obligations.WithdrawUndoesPlate : Prop :=
  ∀ (s : State) (q : Src) (key : PlateKey) (r : PlateRecord), s.takes q .withdraw → s.registerLaw →
    s.plate? key = some r → r.state ≠ .withdrawn →
    ∃ t, exec (.withdraw q (some key)) s = .next t ∧ s.served t q .withdraw (Reply.done false)
      ∧ (∀ c ∈ t.dlt.queue, c.key ≠ key)
      ∧ (∀ x c, t.dlt.stream = some x → x.cell = some c → c.key ≠ key)
      ∧ (r.seated = false → t.plate? key = none)
      ∧ (r.seated = true → (∀ c, s.csq.ctx = some c → c.cell.key ≠ key) → ∃ x, t.plate? key = some x
          ∧ x.state = .withdrawn ∧ x.seated = true ∧ x.holds = r.holds ∧ x.completion = none
          ∧ x.cells = r.cells.map fun c =>
              if c.state = .pending ∨ c.state = .kept ∨ c.state = .failed then c
              else { c with state := .pending, slot := none, lastOutcome := .abandoned })
      ∧ (r.seated = true → ∀ c, s.csq.ctx = some c → c.cell.key = key →
          t.csq.ctx = none ∧ t.csq.state = .idle ∧ (t.plate? key).map (·.state) = some .withdrawn
            ∧ t.cell? c.cell = (s.cell? c.cell).map
                (fun y => { y with state := .pending, slot := none, lastOutcome := .abandoned })
            ∧ (s.gridLaw → (s.cell? c.cell).map (·.state) = some .exposing → ∃ x, t.plate? key = some x
                ∧ x.seated = true ∧ x.holds = r.holds ∧ x.completion = none
                ∧ x.cells = r.cells.map fun y =>
                    if y.state = .pending ∨ y.state = .kept ∨ y.state = .failed then y
                    else { y with state := .pending, slot := none, lastOutcome := .abandoned }))
      ∧ (s.csq.state ≠ .awaitSlot →
          (∀ x, s.csq.ctx = some x → x.cell.key = key → (s.cell? x.cell).bind (·.slot) = some x.slot) →
          ∀ c y k, c.key = key → s.cell? c = some y → y.slot = some k →
            t.fsc.held.get k = false ∧ t.fsc.holders.get k = none ∧ (t.work k).state = .free ∧ k ∉ t.mge.queue)
      ∧ s.tablesKept t

/-- RETIRE removes a record in DONE or FAULTED and nothing else; MARK replaces the handling or the emulsion of an
unseated record and nothing else; both answer STATE where they may not (R13, R16). Each raises one PLATE notice (R4),
RETIRE's with the removed mark and the record as it stood (log 39), MARK's also where no field changes (log 25). -/
def Obligations.RetireAndMark : Prop :=
  ∀ (s : State) (q : Src) (key : PlateKey) (r : PlateRecord), s.plate? key = some r →
    (s.takes q .retire → (r.state = .done ∨ r.state = .faulted) → ∃ t, exec (.retire q (some key)) s = .next t
        ∧ s.served t q .retire (Reply.done false)
        ∧ (s.quiet → s.registerLaw → s.offered t [.plate key r.state r.seated r.holds r.kept r.failed true])
        ∧ t = { s with raised := [], ports := t.ports, plates := s.plates.filter fun x => x.key != key })
      ∧ (s.takes q .retire → r.state ≠ .done → r.state ≠ .faulted →
          s.answeredOnly (.retire q (some key)) q .retire (Reply.plain .state))
      ∧ (s.takes q .mark → r.seated = false → r.state ≠ .withdrawn → ∀ (h : Arg Handling) (e : Arg Emulsion),
          h ≠ .outside → e ≠ .outside → (h ≠ .missing ∨ e ≠ .missing) →
          ∃ t, exec (.mark q (some key) h e) s = .next t ∧ s.served t q .mark (Reply.done false)
            ∧ (s.quiet → s.registerLaw → s.offered t [.plate key r.state r.seated r.holds r.kept r.failed false])
            ∧ t = { s with raised := [], ports := t.ports, plates := t.plates }
            ∧ ∀ other, t.plate? other = (s.plate? other).map fun x =>
                if other = key then
                  { x with
                    handling := (match h with
                      | .given v => v
                      | _ => x.handling)
                    emulsion := (match e with
                      | .given v => v
                      | _ => x.emulsion) }
                else x)
      ∧ (s.takes q .mark → r.seated = true → ∀ v, s.answeredOnly (.mark q (some key) (.given v) .missing) q .mark
          (Reply.plain .state))
      ∧ (s.takes q .mark → s.answeredOnly (.mark q (some key) .missing .missing) q .mark (Reply.plain .field))

/-- HOLD adds CONSOLE to a record, and a sequencer that waits to claim or to trigger for it pauses (R14, R42,
R47). FREE removes every hold reason of a record, restarts a FAILED lamp where LAMP was among them, and lets a
sequencer paused for it go on: a move is sent anew with its MOVE_TO notice, a trigger waits for the lamp (R15, R57). A
HOLD that adds the reason raises one PLATE notice (R4). -/
def Obligations.HoldsAreAddedAndRemoved : Prop :=
  (∀ (s : State) (q : Src) (key : PlateKey) (r : PlateRecord), s.takes q .hold → s.registerLaw →
    s.plate? key = some r →
    (r.state ≠ .withdrawn → ∃ t, exec (.hold q (some key)) s = .next t ∧ s.served t q .hold (Reply.done false)
        ∧ (∀ other, t.plate? other = (s.plate? other).map fun x =>
            if other = key then { x with holds := { x.holds with console := true } } else x)
        ∧ (r.seated = true → s.csq.state = .awaitSlot → t.csq = { s.csq with state := .paused .claim })
        ∧ (r.seated = true → s.csq.state = .awaitLamp → t.csq = { s.csq with state := .paused .trigger })
        ∧ (s.csq.state ≠ .awaitSlot → s.csq.state ≠ .awaitLamp → t.csq = s.csq)
        ∧ (s.quiet → s.offered t (if r.holds.console then [] else
            [.plate key r.state r.seated { r.holds with console := true } r.kept r.failed false]))
        ∧ t = { s with raised := [], ports := t.ports, plates := t.plates, csq := t.csq })
      ∧ (r.state = .withdrawn → s.answeredOnly (.hold q (some key)) q .hold (Reply.plain .state)))
    ∧ (∀ (s : State) (q : Src) (key : PlateKey) (r : PlateRecord), s.takes q .free → s.registerLaw →
    s.plate? key = some r → r.state ≠ .withdrawn →
    ∃ t x, exec (.free q (some key)) s = .next t ∧ s.served t q .free (Reply.done false) ∧ s.tablesKept t
      ∧ t.plate? key = some x ∧ x.holds = { console := false, move := false, lamp := false }
      ∧ x.state = r.state ∧ x.seated = r.seated
      ∧ (r.holds.lamp = true → s.ltc.lamp = .failed →
          t.ltc.lamp = .warming ∧ t.ltc.drive = s.settings.lampLevel ∧ t.tbu.timers.warmUp ≠ none)
      ∧ (r.seated = true → s.csq.state = .paused .move → ∀ c, s.csq.ctx = some c →
          t.csq.state = .moving ∧ t.csq.ctx = some c ∧ t.csq.moveCounter = s.csq.moveCounter + 1
            ∧ t.csq.move = some { number := s.csq.moveCounter + 1, cell := c.cell, status := .moving }
            ∧ t.tbu.timers.move = some (s.settings.moveTimeout * 1000000)
            ∧ (c.cell.key = key → s.quiet → s.announced t (.moveTo c.cell r.handling (s.csq.moveCounter + 1))))
      ∧ (r.seated = true → s.csq.state = .paused .trigger → s.ltc.lamp ≠ .steady →
          ∀ c, s.csq.ctx = some c → c.cell.key = key → t.csq = { s.csq with state := .awaitLamp }))

/-! ## Requests: profiles and settings -/

/-- WRITE_PROFILE replaces a profile whole by the clamped values, with the clamped flag where one differs from
the value given, and raises no notice. A missing field, an index outside 0..3, a ladder of fewer than 2 or more
than 8 times, a single-try outside its set, and a ladder that is not strictly increasing after clamping are
answered FIELD; a profile of a seated record, and a write of single-try yes to a profile of a record with a
tried cell, are answered STATE (R26, R27). -/
def Obligations.WriteProfileReplaces : Prop :=
  (∀ (s : State) (q : Src) (p : ProfileNo) (ladder : List Nat) (a f x c : Nat) (y : Bool), s.takes q .writeProfile →
    2 ≤ ladder.length → ladder.length ≤ 8 →
    let i : Instr := .writeProfile q (some p.val) (some ladder) (some a) (some f) (some x) (.given y) (some c)
    let new : Profile :=
      { ladder := ladder.map fun t => max 50 (min 8000000 t), satThreshold := max 256 (min 4095 a),
        noiseFloor := max 1 (min 1024 f), extThreshold := min 1000 x, singleTry := y,
        qceil := max 8192 (min 65534 c) }
    (strictlyIncreasing new.ladder = true → (∀ r ∈ s.plates, r.seated = true → r.profile ≠ p) →
        (y = true → ∀ r ∈ s.plates, r.profile = p → ∀ z ∈ r.cells, z.triesUsed = 0) →
        ∃ t b, exec i s = .next t ∧ s.served t q .writeProfile (Reply.done b)
          ∧ (b = true ↔ ¬ (new.ladder = ladder ∧ new.satThreshold = a ∧ new.noiseFloor = f ∧ new.extThreshold = x
              ∧ new.qceil = c))
          ∧ t.profiles.get p = new ∧ (∀ j, j ≠ p → t.profiles.get j = s.profiles.get j)
          ∧ (s.quiet → ∀ k : PortNo, (t.ports.get k).noticeNumber = (s.ports.get k).noticeNumber)
          ∧ t = { s with raised := [], ports := t.ports, profiles := t.profiles })
      ∧ (strictlyIncreasing new.ladder = false → s.answeredOnly i q .writeProfile (Reply.plain .field))
      ∧ (strictlyIncreasing new.ladder = true → (∃ r ∈ s.plates, r.seated = true ∧ r.profile = p) →
          s.answeredOnly i q .writeProfile (Reply.plain .state))
      ∧ (strictlyIncreasing new.ladder = true → (∀ r ∈ s.plates, r.seated = true → r.profile ≠ p) → y = true →
          (∃ r ∈ s.plates, r.profile = p ∧ ∃ z ∈ r.cells, z.triesUsed ≠ 0) →
          s.answeredOnly i q .writeProfile (Reply.plain .state)))
    ∧ ∀ (s : State) (q : Src) (index : Option Nat) (ladder : Option (List Nat)) (a f x c : Option Nat) (y : Arg Bool),
      s.takes q .writeProfile →
      (index = none ∨ (∃ n, index = some n ∧ 4 ≤ n) ∨ ladder = none
        ∨ (∃ l, ladder = some l ∧ (l.length < 2 ∨ 8 < l.length)) ∨ a = none ∨ f = none ∨ x = none ∨ c = none
        ∨ y = .missing ∨ y = .outside) →
      s.answeredOnly (.writeProfile q index ladder a f x y c) q .writeProfile (Reply.plain .field)

/-- SET_FIELD rounds down and clamps; a new geometry replaces the present one and sets the calibration to NONE;
the present geometry changes nothing; a seated plate, a held slot or a running calibration is answered BUSY
(R31). Where m_ref is removed from a lit lamp, no warm-up reference is left, so that the next check adopts its own
reading (R125); that it is let go at this event is the model's reading (log 51). -/
def Obligations.SetFieldSetsGeometry : Prop :=
  ∀ (s : State) (q : Src) (w h : Nat), s.takes q .setField →
    let g : Geometry := { width := max 256 (min 4096 (w / 64 * 64)), height := max 256 (min 4096 (h / 16 * 16)) }
    let clamped : Bool := g.width != w || g.height != h
    let free : Prop := (∀ r ∈ s.plates, r.seated = false) ∧ (∀ k : SlotNo, s.fsc.held.get k = false) ∧ s.cal.op = none
    (free → g ≠ s.geometry → ∃ t, exec (.setField q (some w) (some h)) s = .next t
        ∧ s.served t q .setField (Reply.done clamped)
        ∧ t = { s with
                  raised := []
                  ports := t.ports
                  geometry := g
                  ltc := { s.ltc with warmRef :=
                    if s.cal.record.mRef ≠ none
                      ∧ (s.ltc.lamp = .warming ∨ s.ltc.lamp = .steady ∨ s.ltc.lamp = .drifting) then none
                    else s.ltc.warmRef }
                  cal := { s.cal with record := { s.cal.record with
                    state := .none, geometry := none, lampLevel := none, openLevel := none, mRef := none,
                    deadCount := none, flatTime := none } } })
      ∧ (free → g = s.geometry → s.answeredOnly (.setField q (some w) (some h)) q .setField (Reply.done clamped))
      ∧ (¬ free → s.answeredOnly (.setField q (some w) (some h)) q .setField (Reply.plain .busy))

/-- SET_CAPTURE, the archive's, brings every given setting into its range and stores it, and keeps the others, with
the clamped flag where a stored value differs from the given one; without a setting, with one that does not exist, or
with one twice it is answered FIELD (R33). A new lamp level turns a VALID or STALE calibration DARK_ONLY and restarts
a lit lamp at the new level; where a plate is seated, a cell is EXPOSING or FINALIZING, or a calibration runs, it is
answered BUSY (R34). A life at or below the age of a VALID calibration turns it STALE, and a new warning limit makes a
CLEAN or WARNED link what the fault count says (R35). Each of these changes raises its notice, and nothing else raises
one. The restart stops the check timer and starts the warm-up and the idle timer from the times that stand before or
after the request: where it gives new ones itself the manual does not say which, and LampTimersAndWindow states the
model's choice. -/
def Obligations.SetCaptureStoresSettings : Prop :=
  (∀ role, permits role .setCapture = true ↔ role = .archive)
  ∧ (∀ (s : State) (q : Src) (l : List (Option Setting × Nat)), s.takes q .setCapture →
      (l = [] ∨ none ∈ l.map (·.1) ∨ ¬ (l.map (·.1)).Nodup) →
      s.answeredOnly (.setCapture q l) q .setCapture (Reply.plain .field))
  ∧ ∀ (s : State) (q : Src) (l : List (Setting × Nat)), s.takes q .setCapture → l ≠ [] → (l.map (·.1)).Nodup →
    let given := l.map fun p => (some p.1, p.2)
    let inRange (p : Setting × Nat) : Nat := max (settingRange p.1).1 (min (settingRange p.1).2 p.2)
    let value (x : Setting) (old : Nat) : Nat := ((l.find? fun p => p.1 == x).map inRange).getD old
    let gives (x : Setting) : Bool := (l.map (·.1)).contains x
    let clamped : Bool := l.any fun p => inRange p != p.2
    let level := value .lampLevel s.settings.lampLevel
    let limit := value .linkWarningLimit s.settings.linkWarningLimit
    let r := s.cal.record
    let life := value .calibrationLife r.life
    let flat : Prop := r.state = .valid ∨ r.state = .stale
    let relimits : Prop := gives .linkWarningLimit = true ∧ (s.plr.link = .clean ∨ s.plr.link = .warned)
    let lit : Prop := s.ltc.lamp = .warming ∨ s.ltc.lamp = .steady ∨ s.ltc.lamp = .drifting
    let held : Prop := (∃ r ∈ s.plates, r.seated = true)
      ∨ (∃ r ∈ s.plates, ∃ c ∈ r.cells, c.state = .exposing ∨ c.state = .finalizing) ∨ s.cal.op ≠ none
    ((level = s.settings.lampLevel ∨ ¬ held) → ∃ t, exec (.setCapture q given) s = .next t
        ∧ s.served t q .setCapture (Reply.done clamped)
        ∧ t.settings =
            { fragileCap := value .fragileCap s.settings.fragileCap
              settleDwell := value .settleDwell s.settings.settleDwell
              moveTimeout := value .moveTimeout s.settings.moveTimeout
              readoutAllowance := value .readoutAllowance s.settings.readoutAllowance
              lampLevel := level
              warmUpTime := value .warmUpTime s.settings.warmUpTime
              lampTolerance := value .lampTolerance s.settings.lampTolerance
              idleTime := value .idleTime s.settings.idleTime
              linkWarningLimit := limit }
        ∧ (level = s.settings.lampLevel → t.cal = { s.cal with record := { r with
            life := life
            state := if gives .calibrationLife = true ∧ r.state = .valid ∧ life ≤ r.age then .stale else r.state } })
        ∧ (level ≠ s.settings.lampLevel → flat → t.cal = { s.cal with record := { r with
            state := .darkOnly, lampLevel := none, openLevel := none, mRef := none, deadCount := none,
            flatTime := none, life := life } })
        ∧ (level ≠ s.settings.lampLevel → ¬ flat → t.cal = { s.cal with record := { r with life := life } })
        ∧ t.plr = { s.plr with link := t.plr.link } ∧ (¬ relimits → t.plr.link = s.plr.link)
        ∧ (relimits → t.plr.link = if limit ≤ s.plr.faultCount then .warned else .clean)
        ∧ (level ≠ s.settings.lampLevel → lit →
            t.ltc.lamp = .warming ∧ t.ltc.phase = some .timed ∧ t.ltc.drive = level
              ∧ ∃ w i, (w = s.settings.warmUpTime ∨ w = t.settings.warmUpTime)
                  ∧ (i = s.settings.idleTime ∨ i = t.settings.idleTime)
                  ∧ t.tbu.timers = { s.tbu.timers with
                      warmUp := some (w * 1000000), check := none, idle := some (i * 60000000) })
        ∧ ((level = s.settings.lampLevel ∨ ¬ lit) → t.ltc = s.ltc ∧ t.tbu = s.tbu)
        ∧ (s.quiet →
            (t.plr.link ≠ s.plr.link → s.announced t (.link t.plr.link s.plr.link s.plr.faultCount .limit))
              ∧ (t.cal.record.state ≠ r.state → s.announced t (.calib t.cal.record.state none .none none none))
              ∧ (level ≠ s.settings.lampLevel → lit → s.announced t (.lamp .warming s.ltc.lamp level none .restart))
              ∧ (t.plr.link = s.plr.link → t.cal.record.state = r.state →
                  (level = s.settings.lampLevel ∨ ¬ lit) → s.offered t []))
        ∧ t = { s with raised := [], ports := t.ports, settings := t.settings, cal := t.cal, plr := t.plr,
                       ltc := t.ltc, tbu := { s.tbu with timers := t.tbu.timers } })
      ∧ (level ≠ s.settings.lampLevel → held →
          s.answeredOnly (.setCapture q given) q .setCapture (Reply.plain .busy))

/-! ## Requests: transport -/

/-- AT_CELL for the present move stops the move timer, marks the record ARRIVED, and starts the settle dwell: twice as
long for a FRAGILE plate, to at most 5000 ms. A report of another move, or of one that has ended, is answered LATE, a
repeated one DONE, a wrong cell FIELD, and none STATE (R44, R46, R37). With a settle dwell of 0 ms the sequencer
passes to AWAIT_LAMP at that event (R37, R134): it pauses under a hold reason, asks for a lamp that is OFF, waits for
one that is not STEADY or for its clear, and else triggers (R47). The expiry of the move timer, and a MOVE_FAULT for
the present move, each end the move as a failure: the timer stops, the record is EXPIRED or FAULTED, MOVE joins the
seated record's hold reasons, and the sequencer pauses with resume point MOVE, its try kept (R45). -/
def Obligations.MovesEnd : Prop :=
  (∀ (s : State) (q : Src), s.takes q .atCell →
    (∀ (m : MoveRecord) (r : PlateRecord), s.csq.move = some m → m.status = .moving → s.plate? m.cell.key = some r →
        0 < s.settings.settleDwell →
        ∃ t, exec (.atCell q (some m.cell.key) (some m.cell.column) (some m.cell.row) (some m.number.toNat)) s = .next t
          ∧ s.served t q .atCell (Reply.done false)
          ∧ t = { s with
                    raised := []
                    ports := t.ports
                    csq := { s.csq with state := .settling, move := some { m with status := .arrived } }
                    tbu := { s.tbu with timers := { s.tbu.timers with
                      move := none
                      settle := some (1000 * (if r.handling = .fragile then min (2 * s.settings.settleDwell) 5000
                        else s.settings.settleDwell)) } } })
      ∧ (∀ (m : MoveRecord) (c : TryContext) (r : PlateRecord), s.csq.move = some m → m.status = .moving →
        s.csq.ctx = some c → c.cell = m.cell → s.plate? m.cell.key = some r → s.settings.settleDwell = 0 →
        ∃ t, exec (.atCell q (some m.cell.key) (some m.cell.column) (some m.cell.row) (some m.number.toNat)) s = .next t
          ∧ s.served t q .atCell (Reply.done false) ∧ t.csq.move = some { m with status := .arrived }
          ∧ t.tbu.timers.move = none ∧ t.tbu.timers.settle = s.tbu.timers.settle ∧ t.plates = s.plates ∧ s.tablesKept t
          ∧ (r.holds.any = true → t.csq.state = .paused .trigger ∧ t.ltc = s.ltc ∧ t.plr = s.plr)
          ∧ (r.holds.any = false → s.ltc.lamp = .off → t.csq.state = .awaitLamp ∧ t.ltc.lamp = .warming ∧ t.plr = s.plr)
          ∧ (r.holds.any = false → s.ltc.lamp ≠ .off → (s.ltc.lamp ≠ .steady ∨ c.clearComplete = false) →
              t.csq.state = .awaitLamp ∧ t.ltc = s.ltc ∧ t.plr = s.plr)
          ∧ (r.holds.any = false → s.ltc.lamp = .steady → c.clearComplete = true → s.canTrigger = true →
              (s.work c.slot).list.length < 16 →
              t.csq.state = .exposing ∧ t.plr.awaitedTag = some (s.plr.tagCounter + 1)
                ∧ t.plr.downlink = some { tag := s.plr.tagCounter + 1, time := c.nominal, lamp := .steady }
                ∧ (t.work c.slot).list.length = (s.work c.slot).list.length + 1))
      ∧ (∀ key c y n, s.csq.move = none →
          s.answeredOnly (.atCell q (some key) (some c) (some y) (some n)) q .atCell (Reply.plain .state))
      ∧ ∀ (m : MoveRecord), s.csq.move = some m →
          (∀ key c y n, (n ≠ m.number.toNat ∨ m.status = .expired ∨ m.status = .faulted ∨ m.status = .abandoned) →
              s.answeredOnly (.atCell q (some key) (some c) (some y) (some n)) q .atCell (Reply.plain .late))
            ∧ (∀ key c y, m.status = .arrived →
                s.answeredOnly (.atCell q (some key) (some c) (some y) (some m.number.toNat)) q .atCell
                  (Reply.plain .done))
            ∧ (∀ key c y, m.status = .moving → (key ≠ m.cell.key ∨ c ≠ m.cell.column ∨ y ≠ m.cell.row) →
                s.answeredOnly (.atCell q (some key) (some c) (some y) (some m.number.toNat)) q .atCell
                  (Reply.plain .field)))
    ∧ (∀ s : State,
    let failed (t : State) (status : MoveStatus) : Prop :=
      t.csq = { s.csq with state := .paused .move, move := s.csq.move.map fun m => { m with status := status } }
        ∧ t.tbu = { s.tbu with timers := { s.tbu.timers with move := none } }
        ∧ (∀ key, t.plate? key = (s.plate? key).map fun r =>
            if r.seated then { r with holds := { r.holds with move := true } } else r)
        ∧ t = { s with raised := [], plates := t.plates, csq := t.csq, tbu := t.tbu, ports := t.ports }
    (∀ p, s.tbu.timers.move = some p →
        ∃ t, exec .moveTimerExpiry s = .next t ∧ failed t .expired ∧ s.portsNoticed t)
      ∧ ∀ (q : Src) (m : MoveRecord), s.takes q .moveFault → s.csq.move = some m →
          (m.status = .moving → ∃ t, exec (.moveFault q (some m.cell.key) (some m.number.toNat)) s = .next t
              ∧ failed t .faulted ∧ s.served t q .moveFault (Reply.done false))
            ∧ (∀ key n, (n ≠ m.number.toNat ∨ m.status ≠ .moving) →
                s.answeredOnly (.moveFault q (some key) (some n)) q .moveFault (Reply.plain .late))
            ∧ (∀ key, m.status = .moving → key ≠ m.cell.key →
                s.answeredOnly (.moveFault q (some key) (some m.number.toNat)) q .moveFault (Reply.plain .field)))

/-! ## Requests: calibration, link, store -/

/-- CALIBRATE DARK, taken, sets the state to NONE without dark or flat fields, records the clamped t_ref, sets every
row tally to 0, switches the lamp off, and triggers frame 0 at t_ref without a lamp requirement (R89, R90, R105).
CALIBRATE FLAT, taken, sets the state to DARK_ONLY without flat fields, replaces the lamp level where one is given,
and starts the lamp afresh at that level; in NONE and LOST it is answered STATE (R89, R93, R123). Each raises its
CALIB notice, STARTED (R103). -/
def Obligations.CalibrationsStart : Prop :=
  (∀ (s : State) (q : Src) (tRef : Option Nat), s.takes q .calibrate →
    let clear : Prop := (∀ r ∈ s.plates, r.seated = false)
      ∧ (∀ r ∈ s.plates, ∀ c ∈ r.cells, c.state ≠ .exposing ∧ c.state ≠ .finalizing) ∧ s.plr.link ≠ .dropped
    let time := match tRef with
      | some t => max 50 (min 8000000 t)
      | none => s.cal.record.tRef
    (s.fsc.state = .ready → s.cal.op = none → clear → s.plr.awaitedTag = none → ∃ t op,
        exec (.calibrateDark q true tRef none) s = .next t
          ∧ s.served t q .calibrate { code := .started, clamped := tRef.isSome && time != tRef.getD 0, data := .none }
          ∧ t.cal.record = { s.cal.record with
              state := .none, tRef := time, geometry := none, lampLevel := none, openLevel := none, mRef := none,
              deadCount := none, flatTime := none }
          ∧ t.cal.tally = List.replicate s.geometry.height 0
          ∧ t.cal.op = some op ∧ op.kind = .dark ∧ op.frame = 0 ∧ op.repeats = 0 ∧ op.inFlight = true
          ∧ t.ltc.lamp = .off ∧ t.ltc.drive = 0
          ∧ t.plr.awaitedTag = some (s.plr.tagCounter + 1)
          ∧ t.plr.downlink = some { tag := s.plr.tagCounter + 1, time := time, lamp := .none }
          ∧ t.tbu.timers.frame = some (time + s.settings.readoutAllowance * 1000)
          ∧ t = { s with raised := [], ports := t.ports, cal := t.cal, ltc := t.ltc, tbu := t.tbu, plr := t.plr }
          ∧ t.plr.faultCount = s.plr.faultCount ∧ t.tbu.clock = s.tbu.clock
          ∧ (s.quiet → s.announced t (.calib .none (some .dark) .started none none)))
      ∧ (s.fsc.state ≠ .ready → s.answeredOnly (.calibrateDark q true tRef none) q .calibrate (Reply.plain .notReady))
      ∧ (s.fsc.state = .ready → (s.cal.op ≠ none ∨ ¬ clear) →
          s.answeredOnly (.calibrateDark q true tRef none) q .calibrate (Reply.plain .busy)))
    ∧ (∀ (s : State) (q : Src) (lampLevel : Option Nat), s.takes q .calibrate → s.fsc.state = .ready → s.cal.op = none →
    (∀ r ∈ s.plates, r.seated = false) →
    (∀ r ∈ s.plates, ∀ c ∈ r.cells, c.state ≠ .exposing ∧ c.state ≠ .finalizing) → s.plr.link ≠ .dropped →
    let level := match lampLevel with
      | some l => min 1023 l
      | none => s.settings.lampLevel
    (s.cal.record.state ≠ .none → s.cal.record.state ≠ .lost → ∃ t op,
        exec (.calibrateFlat q true none lampLevel) s = .next t
          ∧ s.served t q .calibrate
              { code := .started, clamped := lampLevel.isSome && level != lampLevel.getD 0, data := .none }
          ∧ t.cal.record = { s.cal.record with
              state := .darkOnly, lampLevel := none, openLevel := none, mRef := none, deadCount := none,
              flatTime := none }
          ∧ t.cal.tally = List.replicate s.geometry.height 0
          ∧ t.cal.op = some op ∧ op.kind = .flat ∧ op.phase = .lampWait ∧ op.levelHeld = some level
          ∧ t.settings = { s.settings with lampLevel := level }
          ∧ t.ltc.lamp = .warming ∧ t.ltc.phase = some .timed ∧ t.ltc.drive = level ∧ t.ltc.warmRef = none
          ∧ t.tbu.timers = { s.tbu.timers with
              warmUp := some (s.settings.warmUpTime * 1000000), check := none, idle := none }
          ∧ t = { s with raised := [], ports := t.ports, cal := t.cal, ltc := t.ltc, tbu := t.tbu,
                         settings := t.settings }
          ∧ (s.quiet → s.announced t (.calib .darkOnly (some .flat) .started none none)))
      ∧ ((s.cal.record.state = .none ∨ s.cal.record.state = .lost) →
          s.answeredOnly (.calibrateFlat q true none lampLevel) q .calibrate (Reply.plain .state)))

/-- The reads are taken from every role but OFF (R170), answer what stands in the register, the profile table and the
calibration record, with the operation context while a calibration runs, and change nothing (R5, R29, R102). Which
frame, repeat count and rows the context shows while no frame is being taken is the model's choice (log 55). -/
def Obligations.ReadsChangeNothing : Prop :=
  (∀ role, role ≠ .off → permits role .readPlate = true ∧ permits role .readCell = true
      ∧ permits role .readProfile = true ∧ permits role .readCalib = true)
  ∧ ∀ (s : State) (q : Src),
    (s.takes q .readPlate →
        (∀ key r, s.plate? key = some r →
            s.answeredOnly (.readPlate q (.key key)) q .readPlate (Reply.withData (.plate r.report none)))
          ∧ (∀ key, s.plate? key = none →
              s.answeredOnly (.readPlate q (.key key)) q .readPlate (Reply.plain .unknown))
          ∧ (∀ p r, p < 24 → s.plates[p]? = some r →
              s.answeredOnly (.readPlate q (.position p)) q .readPlate
                (Reply.withData (.plate r.report (some s.plates.length))))
          ∧ (∀ p, p < 24 → s.plates.length ≤ p →
              s.answeredOnly (.readPlate q (.position p)) q .readPlate (Reply.plain .unknown))
          ∧ (∀ p, 24 ≤ p → s.answeredOnly (.readPlate q (.position p)) q .readPlate (Reply.plain .field)))
      ∧ (s.takes q .readCell → ∀ key c y,
          (∀ r x, s.plate? key = some r → r.cell? c y = some x →
              s.answeredOnly (.readCell q (some key) (some c) (some y)) q .readCell (Reply.withData (.cell x)))
            ∧ (s.plate? key = none →
                s.answeredOnly (.readCell q (some key) (some c) (some y)) q .readCell (Reply.plain .unknown))
            ∧ (∀ r, s.plate? key = some r → r.cell? c y = none →
                s.answeredOnly (.readCell q (some key) (some c) (some y)) q .readCell (Reply.plain .field)))
      ∧ (s.takes q .readProfile →
          (∀ p : ProfileNo, s.answeredOnly (.readProfile q (.profile p.val)) q .readProfile
              (Reply.withData (.profile (s.profiles.get p))))
            ∧ s.answeredOnly (.readProfile q .settings) q .readProfile
                (Reply.withData (.settings s.geometry s.settings s.cal.record.life))
            ∧ (∀ n, 4 ≤ n → s.answeredOnly (.readProfile q (.profile n)) q .readProfile (Reply.plain .field))
            ∧ s.answeredOnly (.readProfile q .other) q .readProfile (Reply.plain .field))
      ∧ (s.takes q .readCalib →
          (s.cal.op = none →
              s.answeredOnly (.readCalib q) q .readCalib (Reply.withData (.calib s.cal.record none)))
            ∧ ∀ op, s.cal.op = some op →
              s.answeredOnly (.readCalib q) q .readCalib (Reply.withData (.calib s.cal.record (some
                { kind := op.kind, phase := op.phase, frame := op.frame, repeats := op.repeats
                  rowsAdded := s.cal.tally.countP fun n => n == op.frame + 1
                  means := op.means, mFirst := op.mFirst
                  gainRows := if op.phase = .gainPass then some op.passRow else none }))))

/-- READ_FAULT answers the fault capture record with the count and the link state, and empties it (R120); READ_STATUS
answers the asking port's role and flags and the store state, and clears the flags, with the report of the section as
State.reported gives it (R40, R84, R119, R131, R150, R163, R175; the time left on a timer is free within its preset:
log 3; a notice being sent is no longer counted: log 16); without a section that exists it is answered FIELD and
clears nothing. SET_CLOCK sets the clock, SET_FILTER the asking port's filter, RESUME opens the asking port's gate,
and WARM_RESTART is answered DONE; none changes anything else but what the ports send (R132, R171, R173, R174). -/
def Obligations.ReadsAndPortRequests : Prop :=
  (∀ (s : State) (q : Src),
    (s.takes q .readFault → ∃ t, exec (.readFault q) s = .next t
        ∧ s.served t q .readFault (Reply.withData (.fault s.plr.capture s.plr.faultCount s.plr.link))
        ∧ t = { s with raised := [], ports := t.ports, plr := { s.plr with capture := none } })
      ∧ (s.takes q .readStatus → ∀ x, ∃ t report, exec (.readStatus q (.given x)) s = .next t
          ∧ t.answers q .readStatus (Reply.withData (.status (s.ports.get q.port).role (s.ports.get q.port).badFrame
              (s.ports.get q.port).overrun s.fsc.state report))
          ∧ s.reported q.port x report ∧ (t.ports.get q.port).badFrame = false
          ∧ (s.raised = [] → (t.ports.get q.port).overrun = false)
          ∧ t = { s with raised := [], freeCount := t.freeCount, ports := t.ports }
          ∧ ∀ k, k ≠ q.port → (s.ports.get k).sameSetup (t.ports.get k)
              ∧ (t.ports.get k).outstanding = (s.ports.get k).outstanding)
      ∧ (s.takes q .readStatus → ∀ x, (x = .missing ∨ x = .outside) →
          s.answeredOnly (.readStatus q x) q .readStatus (Reply.plain .field)))
    ∧ (∀ (s : State) (q : Src),
    (s.takes q .setClock → ∀ v, ∃ t, exec (.setClock q (some v)) s = .next t
        ∧ s.served t q .setClock (Reply.done false)
        ∧ t = { s with raised := [], ports := t.ports, tbu := { s.tbu with clock := v } })
      ∧ (s.takes q .setFilter → ∀ (ks : List NoticeKind) (code mask : PlateKey), ∃ t,
          exec (.setFilter q (some (ks.map some)) (some code) (some mask)) s = .next t
            ∧ t.answers q .setFilter (Reply.done false) ∧ t = { s with raised := [], ports := t.ports }
            ∧ (t.ports.get q.port).filter.keyCode = code ∧ (t.ports.get q.port).filter.keyMask = mask
            ∧ (∀ k, k ∈ (t.ports.get q.port).filter.kinds ↔ k ∈ ks)
            ∧ ({ (s.ports.get q.port).frameTaken with filter := (t.ports.get q.port).filter }).sameSetup (t.ports.get q.port)
            ∧ ∀ k, k ≠ q.port → (s.ports.get k).sameSetup (t.ports.get k)
                ∧ (t.ports.get k).outstanding = (s.ports.get k).outstanding)
      ∧ (s.takes q .resume → ∃ t, exec (.resume q) s = .next t ∧ t.answers q .resume (Reply.done false)
          ∧ t = { s with raised := [], ports := t.ports }
          ∧ ({ (s.ports.get q.port).frameTaken with gate := .opened }).sameSetup (t.ports.get q.port)
          ∧ ∀ k, k ≠ q.port → (s.ports.get k).sameSetup (t.ports.get k)
              ∧ (t.ports.get k).outstanding = (s.ports.get k).outstanding)
      ∧ (s.takes q .warmRestart → s.answeredOnly (.warmRestart q) q .warmRestart (Reply.done false)))

/-- STANDBY, taken, puts the store in RETAINING: the mask and the retain marks are recorded, a cell whose slot lies
outside the mask is PENDING again without it, and its plate ACTIVE or ENROLLED again by R9; the lamp is OFF, the
calibration without region 7 is LOST, and the bytes of the retained regions stand. A cell of a retained slot keeps its
record, its slot its mark, its holder and its finished work record, and its place in the delivery queue; no other
record changes (R144, R145, R23, R100). The STORE notice carries the mask (R150). A mask that is missing or names a
region that does not exist is answered FIELD, a store that is not READY NOT_READY, and a try, a cell in EXPOSING,
FINALIZING or DELIVERING or a calibration BUSY, with no change (R144). That a lost cell is PENDING also at its try
limit is the model's reading (log 47), and that a cut stream whose END has not been sent does not refuse the STANDBY is
its choice (log 58). -/
def Obligations.StandbyRetains : Prop :=
  (∀ (s : State) (q : Src), s.takes q .standby →
    let refused (mask : Option (List Nat)) (code : AnswerCode) : Prop :=
      s.answeredOnly (.standby q mask) q .standby (Reply.plain code)
    refused none .field
      ∧ (∀ mask, (∃ r ∈ mask, 8 ≤ r) → refused (some mask) .field)
      ∧ ∀ mask, (∀ r ∈ mask, r < 8) →
          (s.fsc.state ≠ .ready → refused (some mask) .notReady)
            ∧ (s.fsc.state = .ready →
                ((s.csq.state ≠ .idle ∧ s.csq.state ≠ .awaitSlot ∧ s.csq.state ≠ .paused .claim)
                  ∨ (∃ r ∈ s.plates, ∃ c ∈ r.cells,
                      c.state = .exposing ∨ c.state = .finalizing ∨ c.state = .delivering)
                  ∨ s.cal.op ≠ none) →
                refused (some mask) .busy))
  ∧ ∀ (s : State) (q : Src) (mask : List RegionNo), s.takes q .standby → s.fsc.state = .ready →
    s.csq.state.admitsStandby = true → s.cal.op = none →
    (∀ r ∈ s.plates, ∀ c ∈ r.cells, c.state ≠ .exposing ∧ c.state ≠ .finalizing ∧ c.state ≠ .delivering) →
    ∃ t, exec (.standby q (some (mask.map (·.val)))) s = .next t ∧ s.served t q .standby (Reply.done false)
      ∧ t.fsc.state = .retaining ∧ t.fsc.refreshOwed = 0 ∧ (∀ r, r ∈ t.fsc.mask ↔ r ∈ mask)
      ∧ (∀ r : RegionNo, t.fsc.retain.get r = mask.contains r)
      ∧ (s.quiet → s.announced t (.store .retaining .ready .standby (some t.fsc.mask) none))
      ∧ (∀ r ∈ mask, ∀ a, regionOf a = r.val → readByte t.fsc.mem a = readByte s.fsc.mem a)
      ∧ (∀ (c : CellRef) (x : CellRecord) (k : SlotNo), s.cell? c = some x → x.slot = some k →
          (∀ r ∈ mask, r.val ≠ k.val) →
          t.cell? c = some { x with state := .pending, slot := none, lastOutcome := .abandoned }
            ∧ c ∉ t.dlt.queue ∧ t.fsc.held.get k = false)
      ∧ t.cal.record.state =
          (if 7 ∉ mask ∧ (s.cal.record.state = .darkOnly ∨ s.cal.record.state = .valid ∨ s.cal.record.state = .stale)
            then .lost else s.cal.record.state)
      ∧ (7 ∈ mask → t.cal.record = s.cal.record)
      ∧ (∀ k : SlotNo, (∃ r ∈ mask, r.val = k.val) →
          t.fsc.held.get k = s.fsc.held.get k ∧ t.fsc.holders.get k = s.fsc.holders.get k
            ∧ ((s.work k).state = .coded → t.work k = s.work k))
      ∧ t.dlt.queue.Sublist s.dlt.queue
      ∧ (s.registerLaw → s.gridLaw →
          (∀ (c : CellRef) (x : CellRecord), s.cell? c = some x →
              (∀ k, x.slot = some k → ∃ r ∈ mask, r.val = k.val) →
              t.cell? c = some x ∧ (c ∈ s.dlt.queue → c ∈ t.dlt.queue))
            ∧ ∀ key r, s.plate? key = some r →
                let lost : Prop := ∃ x ∈ r.cells, ∃ k, x.slot = some k ∧ ∀ m ∈ mask, m.val ≠ k.val
                (¬ lost → t.plate? key = some r)
                  ∧ (lost → (t.plate? key).map (·.state) = some
                      (if r.state = .captured ∨ (r.state = .enrolled ∧ r.seated = true) then
                        if r.seated then .active else .enrolled
                       else r.state)))
      ∧ t.ltc.lamp = .off ∧ t.ltc.drive = 0 ∧ t.profiles = s.profiles ∧ t.geometry = s.geometry
      ∧ t.settings = s.settings ∧ t.tbu.clock = s.tbu.clock ∧ t.csq = s.csq

/-! ## Requests: delivery and release -/

/-- FETCH starts the stream of a MERGED cell from its place in the queue, and SET_DELIVERY sets the mode, AUTO
starting the head of the queue; the cell is DELIVERING and the stream stands at its START, mirrored for emulsion
DOWN (R153 to R155). Its header is built at that event from the plate record, the cell record and the CODED work
record: the delivered column is the cell's, or columns − 1 − column in a mirrored stream, and the try number is the
tries used (R153, R156, R158). START begins on a free link where READY is high, and waits where it is low (R153,
R157). FETCH is refused in the order of R155: FIELD for a missing field, NOT_READY, UNKNOWN for a key no record has,
FIELD for a place with no cell, STATE in AUTO, BUSY while a stream runs, STATE for a cell that is not MERGED; a
missing or unknown mode is answered FIELD (R154); none of these changes anything. -/
def Obligations.StreamsStart : Prop :=
  (∀ (s : State) (q : Src), s.takes q .fetch →
    let refused (key : Option PlateKey) (column row : Option Nat) (code : AnswerCode) : Prop :=
      s.answeredOnly (.fetch q key column row) q .fetch (Reply.plain code)
    (∀ key column row, (key = none ∨ column = none ∨ row = none) → refused key column row .field)
      ∧ ∀ key c y,
          (s.fsc.state ≠ .ready → refused (some key) (some c) (some y) .notReady)
            ∧ (s.fsc.state = .ready → s.plate? key = none → refused (some key) (some c) (some y) .unknown)
            ∧ ∀ r, s.fsc.state = .ready → s.plate? key = some r →
                (r.cell? c y = none → refused (some key) (some c) (some y) .field)
                  ∧ ∀ x, r.cell? c y = some x →
                      (s.dlt.mode = .auto → refused (some key) (some c) (some y) .state)
                        ∧ (s.dlt.mode = .fetch → s.dlt.stream ≠ none → refused (some key) (some c) (some y) .busy)
                        ∧ (s.dlt.mode = .fetch → s.dlt.stream = none → x.state ≠ .merged →
                            refused (some key) (some c) (some y) .state))
  ∧ (∀ (s : State) (q : Src) (mode : Arg DeliveryMode), s.takes q .setDelivery → (mode = .missing ∨ mode = .outside) →
      s.answeredOnly (.setDelivery q mode) q .setDelivery (Reply.plain .field))
  ∧ ∀ (s : State) (q : Src) (c : CellRef) (r : PlateRecord) (x : CellRecord) (k : SlotNo),
    s.fsc.state = .ready → s.dlt.stream = none → s.plate? c.key = some r → r.cell? c.column c.row = some x →
    x.state = .merged → x.slot = some k →
    let started (t : State) : Prop :=
      t.cell? c = some { x with state := .delivering }
        ∧ t.dlt.queue = s.dlt.queue.filter (fun y => y != c)
        ∧ (∃ z, t.dlt.stream = some z ∧ z.cell = some c ∧ z.slot = some k ∧ z.mirrored = (r.emulsion == .down)
            ∧ z.phase = .start ∧ z.nextRow = 0 ∧ z.buffer = .empty ∧ z.cut = false ∧ z.crc = 0xFFFFFFFF#32
            ∧ ∀ m first final qceil, (s.work k).summary = some m → (s.work k).firstTrigger = some first →
                (s.work k).finalizeTime = some final → (s.work k).qceil = some qceil → z.header =
                  { key := c.key, column := if r.emulsion = .down then r.columns - 1 - c.column else c.column
                    row := c.row, tryNumber := x.triesUsed, profile := r.profile, handling := r.handling
                    emulsion := r.emulsion, width := s.geometry.width, height := s.geometry.height
                    exposuresMerged := m.exposuresMerged, extensionUsed := m.extensionUsed, firstTrigger := first
                    finalizeTime := final, clipLight := m.clipLight, clipDark := m.clipDark, dead := m.dead
                    tornRows := m.tornRows, qceil := qceil, histogram := (s.work k).histogram })
        ∧ (s.dlt.link = none → t.dlt.link = if s.dlt.ready then some { content := .start, live := true } else none)
        ∧ s.tablesKept t
    (s.takes q .fetch → s.dlt.mode = .fetch →
        ∃ t, exec (.fetch q (some c.key) (some c.column) (some c.row)) s = .next t
          ∧ s.served t q .fetch (Reply.done false) ∧ started t ∧ t.dlt.mode = .fetch)
      ∧ (s.takes q .fetch → s.dlt.mode = .auto →
          s.answeredOnly (.fetch q (some c.key) (some c.column) (some c.row)) q .fetch (Reply.plain .state))
      ∧ (∀ rest, s.takes q .setDelivery → s.dlt.queue = c :: rest →
          ∃ t, exec (.setDelivery q (.given .auto)) s = .next t ∧ s.served t q .setDelivery (Reply.done false)
            ∧ started t ∧ t.dlt.mode = .auto)
      ∧ (s.takes q .setDelivery → ∃ t, exec (.setDelivery q (.given .fetch)) s = .next t
          ∧ s.served t q .setDelivery (Reply.done false) ∧ t.dlt = { s.dlt with mode := .fetch } ∧ t.plates = s.plates
          ∧ s.tablesKept t)

/-- RELEASE KEEP makes a DELIVERED cell KEPT and RECAPTURE makes a MERGED or DELIVERED cell PENDING below the
try limit and FAILED at it; the slot is returned, the count rises, and a verdict on a cell in another state is
answered STATE (R21, R162). A sequencer that waits neither in IDLE nor in AWAIT_SLOT is not moved; nor does one that
waits there claim anything while the calibration is not VALID, the store not READY, the link DROPPED, or no plate
without a hold reason is seated (R41, R42). Otherwise, where a seated ACTIVE plate has a PENDING cell, a sequencer in
AWAIT_SLOT, and at a RECAPTURE one in IDLE, claims a PENDING cell of it at that event, the recaptured one included, in
the lowest slot FREE after the return (R139, R162; which of its cells: ClaimTakesLowestSlot). -/
def Obligations.ReleaseSettlesCell : Prop :=
  ∀ (s : State) (q : Src) (c : CellRef) (r : PlateRecord) (x : CellRecord),
    s.takes q .release → s.registerLaw → s.plate? c.key = some r → r.cell? c.column c.row = some x →
    let limit := if (s.profiles.get r.profile).singleTry then 1 else 3
    let keep : Instr := .releaseKeep q (some c.key) (some c.column) (some c.row) true
    let recapture : Instr := .releaseRecapture q (some c.key) (some c.column) (some c.row) true
    let returned (t : State) (k : SlotNo) : Prop := t.fsc.held.get k = false ∧ (t.work k).state = .free
    let cellIs (t : State) (state : CellState) : Prop := t.cell? c = some { x with state := state, slot := none }
    let barred : Prop := s.cal.record.state ≠ .valid ∨ s.fsc.state ≠ .ready ∨ s.plr.link = .dropped
      ∨ ∀ p ∈ s.plates, p.seated = true → p.holds.any = true
    let admitted : Prop := s.cal.record.state = .valid ∧ s.fsc.state = .ready ∧ s.plr.link ≠ .dropped ∧ s.gridLaw
      ∧ ∀ p ∈ s.plates, ∀ y ∈ p.cells, y.state ≠ .exposing
    let capturing (p : PlateRecord) : Prop := p ∈ s.plates ∧ p.seated = true ∧ p.holds.any = false ∧ p.state = .active
      ∧ ∃ y ∈ p.cells, y.state = .pending
    let claimed (t : State) (k : SlotNo) (key : PlateKey) : Prop :=
      ∃ ctx, t.csq.ctx = some ctx ∧ t.csq.state = .moving ∧ ctx.cell.key = key
        ∧ (ctx.cell = c ∨ (s.cell? ctx.cell).map (·.state) = some .pending)
        ∧ (t.cell? ctx.cell).map (fun y => (y.state, y.slot)) = some (.exposing, some ctx.slot)
        ∧ t.fsc.held.get ctx.slot = true ∧ t.fsc.holders.get ctx.slot = some ctx.cell
        ∧ (t.work ctx.slot).state = .clearing
        ∧ (ctx.slot = k ∨ s.fsc.held.get ctx.slot = false)
        ∧ (∀ j : SlotNo, j < ctx.slot → j ≠ k ∧ s.fsc.held.get j = true)
        ∧ (ctx.slot ≠ k → returned t k)
    (∀ k, x.slot = some k → x.state = .delivered → c ∉ s.dlt.queue →
        ∃ t, exec keep s = .next t ∧ s.served t q .release (Reply.done false)
          ∧ cellIs t .kept ∧ (t.plate? c.key).map (·.kept) = some (r.kept + 1) ∧ c ∉ t.dlt.queue ∧ s.tablesKept t
          ∧ (s.csq.state ≠ .awaitSlot → returned t k ∧ t.csq = s.csq)
          ∧ (s.csq.state = .awaitSlot → barred → returned t k ∧ t.csq.ctx = s.csq.ctx)
          ∧ (s.csq.state = .awaitSlot → admitted → ∀ p, capturing p → claimed t k p.key))
      ∧ (x.state ≠ .delivered → s.answeredOnly keep q .release (Reply.plain .state))
      ∧ (∀ k, x.slot = some k → (x.state = .merged ∨ x.state = .delivered) →
          let waiting : Prop := s.csq.state = .idle ∨ s.csq.state = .awaitSlot
          let settled (t : State) : Prop :=
            (x.triesUsed < limit → cellIs t .pending) ∧ (limit ≤ x.triesUsed → cellIs t .failed)
          ∃ t, exec recapture s = .next t ∧ s.served t q .release (Reply.done false)
            ∧ (t.plate? c.key).map (·.failed) = some (if x.triesUsed < limit then r.failed else r.failed + 1)
            ∧ c ∉ t.dlt.queue ∧ s.tablesKept t
            ∧ (¬ waiting → returned t k ∧ settled t ∧ t.csq = s.csq)
            ∧ (waiting → barred → returned t k ∧ settled t ∧ t.csq.ctx = s.csq.ctx)
            ∧ (waiting → admitted → ∀ p, (capturing p ∨ (p = r ∧ x.triesUsed < limit ∧ r.seated = true
                  ∧ r.holds.any = false ∧ (r.state = .active ∨ r.state = .enrolled ∨ r.state = .captured))) →
                claimed t k p.key ∧ (t.csq.ctx.map (·.cell) ≠ some c → settled t)))
      ∧ (x.state ≠ .merged → x.state ≠ .delivered → s.answeredOnly recapture q .release (Reply.plain .state))

/-- A verdict and its plate (R9, R10, R21). One that leaves every cell KEPT or FAILED completes the plate: DONE where
its failed count is 0, else FAULTED, with the time as completion time; from ACTIVE and ENROLLED it passes through
CAPTURED at the same event. One that leaves no cell to capture, but some to release, makes it CAPTURED. A RECAPTURE
below the try limit takes a CAPTURED plate back to ACTIVE where it is seated, else to ENROLLED. A try of another plate
is under way. -/
def Obligations.VerdictCompletesPlate : Prop :=
  ∀ (s : State) (q : Src) (c : CellRef) (r : PlateRecord) (x : CellRecord) (k : SlotNo),
    s.takes q .release → s.registerLaw → s.gridLaw → s.plate? c.key = some r → r.cell? c.column c.row = some x →
    x.slot = some k → s.midTry →
    let limit := if (s.profiles.get r.profile).singleTry then 1 else 3
    let others (p : CellState → Prop) : Prop :=
      ∀ z ∈ r.cells, (z.column, z.row) ≠ (c.column, c.row) → p z.state
    let ended (y : CellState) : Prop := y = .kept ∨ y = .failed
    let finished (t : State) (failed : Nat) : Prop :=
      ∃ z, t.plate? c.key = some z ∧ z.state = (if failed = 0 then .done else .faulted) ∧ z.failed = failed
        ∧ z.completion = some s.tbu.clock ∧ z.seated = r.seated
    (x.state = .delivered → r.state = .captured → others ended →
        ∃ t, exec (.releaseKeep q (some c.key) (some c.column) (some c.row) true) s = .next t ∧ finished t r.failed)
      ∧ ((x.state = .merged ∨ x.state = .delivered) → limit ≤ x.triesUsed →
          (r.state = .captured ∨ r.state = .active ∨ r.state = .enrolled) → others ended →
          ∃ t, exec (.releaseRecapture q (some c.key) (some c.column) (some c.row) true) s = .next t
            ∧ finished t (r.failed + 1))
      ∧ ((x.state = .merged ∨ x.state = .delivered) → limit ≤ x.triesUsed →
          (r.state = .active ∨ r.state = .enrolled) →
          others (fun y => y ≠ .pending ∧ y ≠ .exposing ∧ y ≠ .finalizing) → ¬ others ended →
          ∃ t, exec (.releaseRecapture q (some c.key) (some c.column) (some c.row) true) s = .next t
            ∧ (t.plate? c.key).map (·.state) = some .captured)
      ∧ ((x.state = .merged ∨ x.state = .delivered) → x.triesUsed < limit → r.state = .captured →
          ∃ t, exec (.releaseRecapture q (some c.key) (some c.column) (some c.row) true) s = .next t
            ∧ (t.plate? c.key).map (·.state) = some (if r.seated then .active else .enrolled))

/-! ## Rules of the whole machine -/

/-- Every request that a port hands on is answered at that event and stands outstanding (R167 row 5). A request of a
port with one outstanding is answered BUSY, and one outside the port's role is answered ROLE, and neither changes
anything but what the ports send (R167 rows 3 and 4). The store is neither COLD nor RETAINING, fewer than 3 answers
wait, and no notice of another event is left (log 29). A request on any port wakes a RETAINING store, with its STORE
notice (R150); but for READ_STATUS it is answered NOT_READY, or BUSY where one is outstanding, and has no other
effect; READ_STATUS is served, and like the others does not become outstanding, its answer dropped where 3 wait (R147,
R167 row 2). That the bad-frame flag is then set although the report clears it is the model's choice (log 50). -/
def Obligations.RequestsAreAnswered : Prop :=
  (∀ (s : State) (i : Instr) (q : Src) (kind : RequestKind), requestOf? i = some (q, kind) → s.takes q kind →
    ∃ t r, exec i s = .next t ∧ t.answers q kind r)
    ∧ (∀ (s : State) (i : Instr) (q : Src) (kind : RequestKind), requestOf? i = some (q, kind) →
      s.fsc.state ≠ .cold → s.fsc.state ≠ .retaining → (s.ports.get q.port).answers.length < 3 → s.quiet →
      let refused (code : AnswerCode) : Prop :=
        ∃ t, exec i s = .next t ∧ t = { s with ports := t.ports } ∧ (s.frameTaken q.port).portsNoticed t
          ∧ (t.ports.get q.port).holdsAnswer
              { tag := q.tag, kind := .request kind, code := code, clamped := false, data := .none,
                forOutstanding := false }
      ((s.ports.get q.port).outstanding ≠ none → refused .busy)
        ∧ ((s.ports.get q.port).outstanding = none → permits (s.ports.get q.port).role kind = false → refused .role))
    ∧ (∀ (s : State) (i : Instr) (q : Src) (kind : RequestKind), requestOf? i = some (q, kind) →
      s.fsc.state = .retaining →
      ∃ t, exec i s = .next t ∧ t.fsc = { s.fsc with state := .waking }
        ∧ (s.quiet → kind ≠ .readStatus → s.announced t (.store .waking .retaining .wake none (some q.port)))
        ∧ ((kind ≠ .readStatus ∨ (s.ports.get q.port).outstanding ≠ none) →
            t = { s with raised := [], ports := t.ports, fsc := t.fsc }
              ∧ ((s.ports.get q.port).answers.length < 3 → (t.ports.get q.port).holdsAnswer
                  { tag := q.tag, kind := .request kind,
                    code := if (s.ports.get q.port).outstanding = none then .notReady else .busy,
                    clamped := false, data := .none, forOutstanding := false }))
          ∧ (kind = .readStatus → (s.ports.get q.port).outstanding = none →
              (t.ports.get q.port).outstanding = none
                ∧ ((s.ports.get q.port).answers.length < 3 → ∃ r : Reply, (t.ports.get q.port).holdsAnswer
                    { tag := q.tag, kind := .request kind, code := r.code, clamped := r.clamped, data := r.data,
                      forOutstanding := false })
                ∧ (3 ≤ (s.ports.get q.port).answers.length → (t.ports.get q.port).badFrame = true)))

/-- Only the requests that set them, and COLD_RESET, change the profiles, the geometry and the settings, and they, the
second events and no other command the clock: no event of the camera, the lamp, the store or a timer does (R28, R30,
R32, R132; LAMP_ON_MINUTE as a second event: log 5).
Only COLD_RESET, STANDBY and the completions of row writes change a byte of the store (R136, R141,
R145). -/
def Obligations.OnlyTheseCommandsChange : Prop :=
  (∀ (s t : State) (i : Instr), exec i s = .next t →
      (t.profiles ≠ s.profiles → (∃ a b c, i = .coldReset a b c) ∨ ∃ q a b c d e f g, i = .writeProfile q a b c d e f g)
        ∧ (t.geometry ≠ s.geometry → (∃ a b c, i = .coldReset a b c) ∨ ∃ q w h, i = .setField q w h)
        ∧ (t.settings ≠ s.settings → (∃ a b c, i = .coldReset a b c) ∨ (∃ q l, i = .setCapture q l)
            ∨ ∃ q b x l, i = .calibrateFlat q b x l)
        ∧ (t.tbu.clock ≠ s.tbu.clock → (∃ a b c, i = .coldReset a b c) ∨ (∃ q v, i = .setClock q v) ∨ i = .secondTick
            ∨ i = .lampOnMinute))
    ∧ (∀ (s t : State) (i : Instr), exec i s = .next t → t.fsc.mem ≠ s.fsc.mem →
      (∃ a b c, i = .coldReset a b c) ∨ (∃ q m, i = .standby q m) ∨ i = .rowMergeComplete ∨ i = .clearRowWrite
        ∨ i = .calibrationAccumulationRow ∨ i = .finalizationRowWrite)

/-- Every step keeps the register's bounds: at most 24 records, no key twice, at most one record seated, and a
cell record for each place of each grid (R1, R3, R7); and at most one cell of the register in EXPOSING (R17). -/
def Obligations.StepKeepsRegister : Prop :=
  (∀ s t : State, s.registerLaw → s.gridLaw → step s = .next t → t.registerLaw ∧ t.gridLaw)
    ∧ ∀ s t : State, s.registerLaw → s.gridLaw → s.exposingLaw → step s = .next t → t.exposingLaw

/-- Every step keeps the laws on the work of cells, together: which cells hold a slot and which slots are HELD (R18,
R136, R139, R140); what a try in flight is (R17, R38, R42 to R45); that work records and the finalization queue go
with the cells (R64, R65, R74); that the delivery queue is the MERGED cells and the stream's cell the DELIVERING one
(R151 to R153, R160); that a stream's phase, row buffer and cut mark and the unit being sent go with each other (R157 to
R160); and that an access whose result is used belongs to work under way, a read to the row that the buffer is READING
(R140, R141, R157). -/
def Obligations.StepKeepsCellWork : Prop :=
  ∀ s t : State, s.registerLaw → s.gridLaw → s.cellLaw → step s = .next t → t.cellLaw

/-- Every step but a STANDBY's keeps tries used within the try limit, and below it for a cell still to be captured
(R19). A STANDBY may lose a MERGED cell at its limit, which R23 makes PENDING with its tries used: such a cell is then
tried once more (log 47). -/
def Obligations.StepKeepsTries : Prop :=
  ∀ s t : State, s.registerLaw → s.gridLaw → s.cellLaw → s.triesLaw →
    (∀ q mask, s.pending.head? ≠ some (.standby q mask)) → step s = .next t → t.triesLaw

/-- Every step keeps the class counters of a slot the counts of its plane's pixels, each pixel in one class (R67,
R71). Every step keeps R73's law, with the law on the frame of a try that it rests on (R39, R48 to R50, R68, R72,
R104 to R112) and no plate seated during a calibration (R89, R98): every best value of the cell in EXPOSING names a
MERGED or PATCHED entry of its list; and while the record accumulates no pixel loses its best, and the nominal time
of its best entry never falls (R70, R73). The law holds at reset. The bytes of an accumulation are the model's
layout (log 6), what a stopped access writes is its reading (log 20), and that the rows cleared so far are those
below rowsCleared is its choice (log 48). -/
def Obligations.StepKeepsClassCounts : Prop :=
  (∀ s t : State, s.registerLaw → s.gridLaw → s.cellLaw → s.fieldFits → s.counterLaw → s.rowLaw → step s = .next t →
      t.counterLaw ∧ t.rowLaw)
    ∧ (State.reset.calibrationLaw ∧ State.reset.frameLaw ∧ State.reset.bestLaw)
    ∧ (∀ s t : State, s.registerLaw → s.calibrationLaw → step s = .next t → t.calibrationLaw)
    ∧ ∀ s t : State, s.registerLaw → s.gridLaw → s.cellLaw → s.fieldFits → s.counterLaw → s.rowLaw → s.queueLaw →
      s.calibrationLaw → s.frameLaw → s.bestLaw → step s = .next t →
      t.frameLaw ∧ t.bestLaw
        ∧ ∀ k : SlotNo, (s.work k).state = .accumulating → (t.work k).state = .accumulating →
            ∀ y < s.geometry.height,
              List.Forall₂ (fun a b => a.hasBest = true → b.hasBest = true
                  ∧ timeOf (t.work k).list a.ordinal ≤ timeOf (t.work k).list b.ordinal)
                (s.accumRow k y) (t.accumRow k y)

/-- A TRIGGER leaves at a step only under the next tag, and under a STEADY lamp but for a dark's, which has no lamp
requirement (R48, R90, R93, R105). -/
def Obligations.TriggersUnderSteadyLamp : Prop :=
  ∀ s t : State, step s = .next t →
    t.plr.downlink = s.plr.downlink ∨ t.plr.downlink = none
      ∨ ∃ x, t.plr.downlink = some x ∧ x.tag = s.plr.tagCounter + 1 ∧ t.plr.awaitedTag = some x.tag
          ∧ ((x.lamp = .steady ∧ t.ltc.lamp = .steady)
              ∨ (x.lamp = .none ∧ ∃ op, t.cal.op = some op ∧ op.kind = .dark))

/-- Every step keeps the profiles, the geometry, the settings and the calibration life in their ranges (R24,
R30, R32, R86), and the fault count at most 511 with the link state that of the count (R114, R115). -/
def Obligations.StepKeepsRanges : Prop :=
  (∀ s t : State, s.tablesLaw → step s = .next t → t.tablesLaw)
    ∧ ∀ s t : State, s.linkLaw → step s = .next t → t.linkLaw

/-- Every step keeps the store's bytes in canonical form and refresh owed at most 2 (R135, R142). -/
def Obligations.StepKeepsStore : Prop :=
  ∀ s t : State, s.storeLaw → step s = .next t → t.storeLaw

/-- Every step keeps each notice queue at most 16 notices, the row queue at most 8 rows and every exposure list at
most 16 entries, and leaves no notice unoffered (R39, R110, R172); and keeps a request outstanding exactly while its
one answer waits or is being sent, with at most 3 other answers waiting (R167, R168). An answer being sent is no
longer in its queue (log 16), and its request stays outstanding across a break or a restart (log 17): the model's
readings. -/
def Obligations.StepKeepsQueues : Prop :=
  (∀ s t : State, s.noticeLaw → s.queueLaw → s.quiet → step s = .next t → t.noticeLaw ∧ t.queueLaw ∧ t.quiet)
    ∧ ∀ s t : State, s.answerLaw → step s = .next t → t.answerLaw

/-! ## Arithmetic -/

/-- The density code of a measured pixel: the largest code k in 0..Qceil that is 0 or satisfies
10^((2k − 1)/16384) × M ≤ N, which is round-half-up(8192 × log10(N / M)) clamped (R79, R80). The code of every pixel
(R78): 65535 for a flat gain of 0, counted as dead; without a best value 0 for one that has seen saturation, counted as
clip-light, and Qceil for another, counted as clip-dark; Qceil, counted as clip-dark, where the monitor mean of the best
entry is 0; and else, counted as none, the code of N = 16384 × O × t_b × m_b and M = f × t_ref × m_ref (R79). A code
other than a dead pixel's is at most Qceil (R80). -/
def Obligations.DensityCodeIsRoundedLogarithm : Prop :=
  (∀ num den qceil : Nat, 0 < den → qceil ≤ 65534 →
    densityCode num den qceil ≤ qceil
      ∧ (0 < densityCode num den qceil →
          10 ^ (2 * densityCode num den qceil - 1) * den ^ 16384 ≤ num ^ 16384)
      ∧ ∀ k, densityCode num den qceil < k → k ≤ qceil → num ^ 16384 < 10 ^ (2 * k - 1) * den ^ 16384)
    ∧ ∀ (ref : References) (list : List Exposure) (qceil g : Nat) (a : Accum),
      let code (c : PixelCase) (q : Nat) : Prop := pixelCase list g a = c ∧ pixelCode ref list qceil g a = q
      (g = 0 → code .dead 65535)
        ∧ (g ≠ 0 → a.hasBest = false → a.seenSaturated = true → code .clipLight 0)
        ∧ (g ≠ 0 → a.hasBest = false → a.seenSaturated = false → code .clipDark qceil)
        ∧ (∀ e, list.find? (fun x => x.ordinal == a.ordinal) = some e → g ≠ 0 → a.hasBest = true →
            (e.monitor = 0 → code .clipDark qceil)
              ∧ (e.monitor ≠ 0 → code .measured
                  (densityCode (16384 * ref.openLevel * e.time * e.monitor) (a.best * ref.tRef * ref.mRef) qceil)))
        ∧ (g ≠ 0 → pixelCode ref list qceil g a ≤ qceil)

/-- The two codes of each three-byte group of a row are read as they are written (R107). The bytes of a station frame,
received from HUNT after any bytes that are not SYNC, are read as its kind and body; with another check, or with a
character's stop bit missing, they are one bad frame; and so is SYNC with a length above 200 (R165, R166). -/
def Obligations.CodesAndFramesRoundTrip : Prop :=
  (∀ codes : List CameraCode, codes.length % 2 = 0 →
      unpackCodes (packCodes codes) = codes ∧ (packCodes codes).length = 3 * codes.length / 2)
    ∧ ∀ (kind : Byte) (body noise : List Byte), body.length ≤ 200 → (∀ b ∈ noise, b ≠ 0xC5) →
      let char (b : Byte) : Character := { value := b, stopBit := true }
      let covered := BitVec.ofNat 8 body.length :: kind :: body
      (Framer.hunt.receive ((noise ++ stationFrame kind body).map char)) = (.hunt, [.good kind body])
        ∧ (∀ check : BitVec 16, check ≠ crc16 covered →
            Framer.hunt.receive ((noise ++ 0xC5#8 :: covered ++ leBytes 2 check.toNat).map char) = (.hunt, [.bad]))
        ∧ (∀ n v, n ≤ body.length + 3 →
            Framer.hunt.receive
                ((noise ++ (stationFrame kind body).take (n + 1)).map char ++ [{ value := v, stopBit := false }])
              = (.hunt, [.bad]))
        ∧ (∀ n : Byte, 200 < n.toNat →
            Framer.hunt.receive ((noise ++ [0xC5#8, n]).map char) = (.hunt, [.bad]))
        ∧ ∀ v, Framer.hunt.receive [{ value := v, stopBit := false }] = (.hunt, [])

/-- What the row merges of a try leave of one pixel (R69, R70, R71, R73). Exposures are merged in any order of their
nominal times. A pixel of flat gain 0 is dead. Otherwise it has a best value exactly when some exposure is valid for
it, and then that of a valid exposure of the longest nominal time, the latest of these; it has seen saturation, and
seen starvation, exactly when some exposure was saturated, or starved, for it; and it is in one of the five
classes. -/
def Obligations.BestIsLongestValid : Prop :=
  ∀ (list : List Exposure) (satS floorF d g : Nat) (merges : List (Nat × Nat)),
    let a := merges.foldl (fun a p => mergePixel list satS floorF p.1 p.2 d g a) Accum.cleared
    let time (p : Nat × Nat) : Nat := timeOf list p.1
    let valid (p : Nat × Nat) : Prop := p.2 < satS ∧ d + floorF ≤ p.2
    (g = 0 → (a.dead = true ↔ merges ≠ []) ∧ a.hasBest = false)
      ∧ (g ≠ 0 →
          a.dead = false ∧ (a.seenSaturated = true ↔ ∃ p ∈ merges, satS ≤ p.2)
            ∧ (a.seenStarved = true ↔ ∃ p ∈ merges, p.2 < satS ∧ p.2 < d + floorF)
            ∧ (a.hasBest = true ↔ ∃ p ∈ merges, valid p)
            ∧ (a.hasBest = true → ∃ before p later, merges = before ++ p :: later ∧ valid p ∧ a.ordinal = p.1
                ∧ a.best = (p.2 - d) * g ∧ (∀ z ∈ before, valid z → time z ≤ time p)
                ∧ ∀ z ∈ later, valid z → time z < time p))
      ∧ (a.cls = .dead ↔ g = 0 ∧ merges ≠ [])
      ∧ (a.cls = .valid ↔ g ≠ 0 ∧ ∃ p ∈ merges, valid p)
      ∧ (a.cls = .satOnly ↔ g ≠ 0 ∧ (¬ ∃ p ∈ merges, valid p) ∧ ∃ p ∈ merges, satS ≤ p.2)
      ∧ (a.cls = .starvedOnly ↔ g ≠ 0 ∧ merges ≠ [] ∧ ¬ ∃ p ∈ merges, valid p ∨ satS ≤ p.2)
      ∧ (a.cls = .unseen ↔ merges = [])
end

