-- ==== Sys2Proof/Laws/State.lean ====
section
/-! SUPPORT. What each field of the state is after the update of one block: one lemma per field per update. -/

namespace Sys2Proof.Machine

variable (s : State)

/-! ## State.onPlates -/

@[simp] theorem State.onPlates_pending (f : List PlateRecord → List PlateRecord) : (s.onPlates f).pending = s.pending := rfl
@[simp] theorem State.onPlates_raised (f : List PlateRecord → List PlateRecord) : (s.onPlates f).raised = s.raised := rfl
@[simp] theorem State.onPlates_freeCount (f : List PlateRecord → List PlateRecord) : (s.onPlates f).freeCount = s.freeCount := rfl
@[simp] theorem State.onPlates_plates (f : List PlateRecord → List PlateRecord) : (s.onPlates f).plates = f s.plates := rfl
@[simp] theorem State.onPlates_profiles (f : List PlateRecord → List PlateRecord) : (s.onPlates f).profiles = s.profiles := rfl
@[simp] theorem State.onPlates_geometry (f : List PlateRecord → List PlateRecord) : (s.onPlates f).geometry = s.geometry := rfl
@[simp] theorem State.onPlates_settings (f : List PlateRecord → List PlateRecord) : (s.onPlates f).settings = s.settings := rfl
@[simp] theorem State.onPlates_csq (f : List PlateRecord → List PlateRecord) : (s.onPlates f).csq = s.csq := rfl
@[simp] theorem State.onPlates_mge (f : List PlateRecord → List PlateRecord) : (s.onPlates f).mge = s.mge := rfl
@[simp] theorem State.onPlates_cal (f : List PlateRecord → List PlateRecord) : (s.onPlates f).cal = s.cal := rfl
@[simp] theorem State.onPlates_plr (f : List PlateRecord → List PlateRecord) : (s.onPlates f).plr = s.plr := rfl
@[simp] theorem State.onPlates_ltc (f : List PlateRecord → List PlateRecord) : (s.onPlates f).ltc = s.ltc := rfl
@[simp] theorem State.onPlates_tbu (f : List PlateRecord → List PlateRecord) : (s.onPlates f).tbu = s.tbu := rfl
@[simp] theorem State.onPlates_fsc (f : List PlateRecord → List PlateRecord) : (s.onPlates f).fsc = s.fsc := rfl
@[simp] theorem State.onPlates_dlt (f : List PlateRecord → List PlateRecord) : (s.onPlates f).dlt = s.dlt := rfl
@[simp] theorem State.onPlates_ports (f : List PlateRecord → List PlateRecord) : (s.onPlates f).ports = s.ports := rfl

/-! ## State.onCsq -/

@[simp] theorem State.onCsq_pending (f : Csq → Csq) : (s.onCsq f).pending = s.pending := rfl
@[simp] theorem State.onCsq_raised (f : Csq → Csq) : (s.onCsq f).raised = s.raised := rfl
@[simp] theorem State.onCsq_freeCount (f : Csq → Csq) : (s.onCsq f).freeCount = s.freeCount := rfl
@[simp] theorem State.onCsq_plates (f : Csq → Csq) : (s.onCsq f).plates = s.plates := rfl
@[simp] theorem State.onCsq_profiles (f : Csq → Csq) : (s.onCsq f).profiles = s.profiles := rfl
@[simp] theorem State.onCsq_geometry (f : Csq → Csq) : (s.onCsq f).geometry = s.geometry := rfl
@[simp] theorem State.onCsq_settings (f : Csq → Csq) : (s.onCsq f).settings = s.settings := rfl
@[simp] theorem State.onCsq_csq (f : Csq → Csq) : (s.onCsq f).csq = f s.csq := rfl
@[simp] theorem State.onCsq_mge (f : Csq → Csq) : (s.onCsq f).mge = s.mge := rfl
@[simp] theorem State.onCsq_cal (f : Csq → Csq) : (s.onCsq f).cal = s.cal := rfl
@[simp] theorem State.onCsq_plr (f : Csq → Csq) : (s.onCsq f).plr = s.plr := rfl
@[simp] theorem State.onCsq_ltc (f : Csq → Csq) : (s.onCsq f).ltc = s.ltc := rfl
@[simp] theorem State.onCsq_tbu (f : Csq → Csq) : (s.onCsq f).tbu = s.tbu := rfl
@[simp] theorem State.onCsq_fsc (f : Csq → Csq) : (s.onCsq f).fsc = s.fsc := rfl
@[simp] theorem State.onCsq_dlt (f : Csq → Csq) : (s.onCsq f).dlt = s.dlt := rfl
@[simp] theorem State.onCsq_ports (f : Csq → Csq) : (s.onCsq f).ports = s.ports := rfl

/-! ## State.onMge -/

@[simp] theorem State.onMge_pending (f : Mge → Mge) : (s.onMge f).pending = s.pending := rfl
@[simp] theorem State.onMge_raised (f : Mge → Mge) : (s.onMge f).raised = s.raised := rfl
@[simp] theorem State.onMge_freeCount (f : Mge → Mge) : (s.onMge f).freeCount = s.freeCount := rfl
@[simp] theorem State.onMge_plates (f : Mge → Mge) : (s.onMge f).plates = s.plates := rfl
@[simp] theorem State.onMge_profiles (f : Mge → Mge) : (s.onMge f).profiles = s.profiles := rfl
@[simp] theorem State.onMge_geometry (f : Mge → Mge) : (s.onMge f).geometry = s.geometry := rfl
@[simp] theorem State.onMge_settings (f : Mge → Mge) : (s.onMge f).settings = s.settings := rfl
@[simp] theorem State.onMge_csq (f : Mge → Mge) : (s.onMge f).csq = s.csq := rfl
@[simp] theorem State.onMge_mge (f : Mge → Mge) : (s.onMge f).mge = f s.mge := rfl
@[simp] theorem State.onMge_cal (f : Mge → Mge) : (s.onMge f).cal = s.cal := rfl
@[simp] theorem State.onMge_plr (f : Mge → Mge) : (s.onMge f).plr = s.plr := rfl
@[simp] theorem State.onMge_ltc (f : Mge → Mge) : (s.onMge f).ltc = s.ltc := rfl
@[simp] theorem State.onMge_tbu (f : Mge → Mge) : (s.onMge f).tbu = s.tbu := rfl
@[simp] theorem State.onMge_fsc (f : Mge → Mge) : (s.onMge f).fsc = s.fsc := rfl
@[simp] theorem State.onMge_dlt (f : Mge → Mge) : (s.onMge f).dlt = s.dlt := rfl
@[simp] theorem State.onMge_ports (f : Mge → Mge) : (s.onMge f).ports = s.ports := rfl

/-! ## State.onCal -/

@[simp] theorem State.onCal_pending (f : Cal → Cal) : (s.onCal f).pending = s.pending := rfl
@[simp] theorem State.onCal_raised (f : Cal → Cal) : (s.onCal f).raised = s.raised := rfl
@[simp] theorem State.onCal_freeCount (f : Cal → Cal) : (s.onCal f).freeCount = s.freeCount := rfl
@[simp] theorem State.onCal_plates (f : Cal → Cal) : (s.onCal f).plates = s.plates := rfl
@[simp] theorem State.onCal_profiles (f : Cal → Cal) : (s.onCal f).profiles = s.profiles := rfl
@[simp] theorem State.onCal_geometry (f : Cal → Cal) : (s.onCal f).geometry = s.geometry := rfl
@[simp] theorem State.onCal_settings (f : Cal → Cal) : (s.onCal f).settings = s.settings := rfl
@[simp] theorem State.onCal_csq (f : Cal → Cal) : (s.onCal f).csq = s.csq := rfl
@[simp] theorem State.onCal_mge (f : Cal → Cal) : (s.onCal f).mge = s.mge := rfl
@[simp] theorem State.onCal_cal (f : Cal → Cal) : (s.onCal f).cal = f s.cal := rfl
@[simp] theorem State.onCal_plr (f : Cal → Cal) : (s.onCal f).plr = s.plr := rfl
@[simp] theorem State.onCal_ltc (f : Cal → Cal) : (s.onCal f).ltc = s.ltc := rfl
@[simp] theorem State.onCal_tbu (f : Cal → Cal) : (s.onCal f).tbu = s.tbu := rfl
@[simp] theorem State.onCal_fsc (f : Cal → Cal) : (s.onCal f).fsc = s.fsc := rfl
@[simp] theorem State.onCal_dlt (f : Cal → Cal) : (s.onCal f).dlt = s.dlt := rfl
@[simp] theorem State.onCal_ports (f : Cal → Cal) : (s.onCal f).ports = s.ports := rfl

/-! ## State.onPlr -/

@[simp] theorem State.onPlr_pending (f : Plr → Plr) : (s.onPlr f).pending = s.pending := rfl
@[simp] theorem State.onPlr_raised (f : Plr → Plr) : (s.onPlr f).raised = s.raised := rfl
@[simp] theorem State.onPlr_freeCount (f : Plr → Plr) : (s.onPlr f).freeCount = s.freeCount := rfl
@[simp] theorem State.onPlr_plates (f : Plr → Plr) : (s.onPlr f).plates = s.plates := rfl
@[simp] theorem State.onPlr_profiles (f : Plr → Plr) : (s.onPlr f).profiles = s.profiles := rfl
@[simp] theorem State.onPlr_geometry (f : Plr → Plr) : (s.onPlr f).geometry = s.geometry := rfl
@[simp] theorem State.onPlr_settings (f : Plr → Plr) : (s.onPlr f).settings = s.settings := rfl
@[simp] theorem State.onPlr_csq (f : Plr → Plr) : (s.onPlr f).csq = s.csq := rfl
@[simp] theorem State.onPlr_mge (f : Plr → Plr) : (s.onPlr f).mge = s.mge := rfl
@[simp] theorem State.onPlr_cal (f : Plr → Plr) : (s.onPlr f).cal = s.cal := rfl
@[simp] theorem State.onPlr_plr (f : Plr → Plr) : (s.onPlr f).plr = f s.plr := rfl
@[simp] theorem State.onPlr_ltc (f : Plr → Plr) : (s.onPlr f).ltc = s.ltc := rfl
@[simp] theorem State.onPlr_tbu (f : Plr → Plr) : (s.onPlr f).tbu = s.tbu := rfl
@[simp] theorem State.onPlr_fsc (f : Plr → Plr) : (s.onPlr f).fsc = s.fsc := rfl
@[simp] theorem State.onPlr_dlt (f : Plr → Plr) : (s.onPlr f).dlt = s.dlt := rfl
@[simp] theorem State.onPlr_ports (f : Plr → Plr) : (s.onPlr f).ports = s.ports := rfl

/-! ## State.onLtc -/

@[simp] theorem State.onLtc_pending (f : Ltc → Ltc) : (s.onLtc f).pending = s.pending := rfl
@[simp] theorem State.onLtc_raised (f : Ltc → Ltc) : (s.onLtc f).raised = s.raised := rfl
@[simp] theorem State.onLtc_freeCount (f : Ltc → Ltc) : (s.onLtc f).freeCount = s.freeCount := rfl
@[simp] theorem State.onLtc_plates (f : Ltc → Ltc) : (s.onLtc f).plates = s.plates := rfl
@[simp] theorem State.onLtc_profiles (f : Ltc → Ltc) : (s.onLtc f).profiles = s.profiles := rfl
@[simp] theorem State.onLtc_geometry (f : Ltc → Ltc) : (s.onLtc f).geometry = s.geometry := rfl
@[simp] theorem State.onLtc_settings (f : Ltc → Ltc) : (s.onLtc f).settings = s.settings := rfl
@[simp] theorem State.onLtc_csq (f : Ltc → Ltc) : (s.onLtc f).csq = s.csq := rfl
@[simp] theorem State.onLtc_mge (f : Ltc → Ltc) : (s.onLtc f).mge = s.mge := rfl
@[simp] theorem State.onLtc_cal (f : Ltc → Ltc) : (s.onLtc f).cal = s.cal := rfl
@[simp] theorem State.onLtc_plr (f : Ltc → Ltc) : (s.onLtc f).plr = s.plr := rfl
@[simp] theorem State.onLtc_ltc (f : Ltc → Ltc) : (s.onLtc f).ltc = f s.ltc := rfl
@[simp] theorem State.onLtc_tbu (f : Ltc → Ltc) : (s.onLtc f).tbu = s.tbu := rfl
@[simp] theorem State.onLtc_fsc (f : Ltc → Ltc) : (s.onLtc f).fsc = s.fsc := rfl
@[simp] theorem State.onLtc_dlt (f : Ltc → Ltc) : (s.onLtc f).dlt = s.dlt := rfl
@[simp] theorem State.onLtc_ports (f : Ltc → Ltc) : (s.onLtc f).ports = s.ports := rfl

/-! ## State.onTbu -/

@[simp] theorem State.onTbu_pending (f : Tbu → Tbu) : (s.onTbu f).pending = s.pending := rfl
@[simp] theorem State.onTbu_raised (f : Tbu → Tbu) : (s.onTbu f).raised = s.raised := rfl
@[simp] theorem State.onTbu_freeCount (f : Tbu → Tbu) : (s.onTbu f).freeCount = s.freeCount := rfl
@[simp] theorem State.onTbu_plates (f : Tbu → Tbu) : (s.onTbu f).plates = s.plates := rfl
@[simp] theorem State.onTbu_profiles (f : Tbu → Tbu) : (s.onTbu f).profiles = s.profiles := rfl
@[simp] theorem State.onTbu_geometry (f : Tbu → Tbu) : (s.onTbu f).geometry = s.geometry := rfl
@[simp] theorem State.onTbu_settings (f : Tbu → Tbu) : (s.onTbu f).settings = s.settings := rfl
@[simp] theorem State.onTbu_csq (f : Tbu → Tbu) : (s.onTbu f).csq = s.csq := rfl
@[simp] theorem State.onTbu_mge (f : Tbu → Tbu) : (s.onTbu f).mge = s.mge := rfl
@[simp] theorem State.onTbu_cal (f : Tbu → Tbu) : (s.onTbu f).cal = s.cal := rfl
@[simp] theorem State.onTbu_plr (f : Tbu → Tbu) : (s.onTbu f).plr = s.plr := rfl
@[simp] theorem State.onTbu_ltc (f : Tbu → Tbu) : (s.onTbu f).ltc = s.ltc := rfl
@[simp] theorem State.onTbu_tbu (f : Tbu → Tbu) : (s.onTbu f).tbu = f s.tbu := rfl
@[simp] theorem State.onTbu_fsc (f : Tbu → Tbu) : (s.onTbu f).fsc = s.fsc := rfl
@[simp] theorem State.onTbu_dlt (f : Tbu → Tbu) : (s.onTbu f).dlt = s.dlt := rfl
@[simp] theorem State.onTbu_ports (f : Tbu → Tbu) : (s.onTbu f).ports = s.ports := rfl

/-! ## State.onFsc -/

@[simp] theorem State.onFsc_pending (f : Fsc → Fsc) : (s.onFsc f).pending = s.pending := rfl
@[simp] theorem State.onFsc_raised (f : Fsc → Fsc) : (s.onFsc f).raised = s.raised := rfl
@[simp] theorem State.onFsc_freeCount (f : Fsc → Fsc) : (s.onFsc f).freeCount = s.freeCount := rfl
@[simp] theorem State.onFsc_plates (f : Fsc → Fsc) : (s.onFsc f).plates = s.plates := rfl
@[simp] theorem State.onFsc_profiles (f : Fsc → Fsc) : (s.onFsc f).profiles = s.profiles := rfl
@[simp] theorem State.onFsc_geometry (f : Fsc → Fsc) : (s.onFsc f).geometry = s.geometry := rfl
@[simp] theorem State.onFsc_settings (f : Fsc → Fsc) : (s.onFsc f).settings = s.settings := rfl
@[simp] theorem State.onFsc_csq (f : Fsc → Fsc) : (s.onFsc f).csq = s.csq := rfl
@[simp] theorem State.onFsc_mge (f : Fsc → Fsc) : (s.onFsc f).mge = s.mge := rfl
@[simp] theorem State.onFsc_cal (f : Fsc → Fsc) : (s.onFsc f).cal = s.cal := rfl
@[simp] theorem State.onFsc_plr (f : Fsc → Fsc) : (s.onFsc f).plr = s.plr := rfl
@[simp] theorem State.onFsc_ltc (f : Fsc → Fsc) : (s.onFsc f).ltc = s.ltc := rfl
@[simp] theorem State.onFsc_tbu (f : Fsc → Fsc) : (s.onFsc f).tbu = s.tbu := rfl
@[simp] theorem State.onFsc_fsc (f : Fsc → Fsc) : (s.onFsc f).fsc = f s.fsc := rfl
@[simp] theorem State.onFsc_dlt (f : Fsc → Fsc) : (s.onFsc f).dlt = s.dlt := rfl
@[simp] theorem State.onFsc_ports (f : Fsc → Fsc) : (s.onFsc f).ports = s.ports := rfl

/-! ## State.onDlt -/

@[simp] theorem State.onDlt_pending (f : Dlt → Dlt) : (s.onDlt f).pending = s.pending := rfl
@[simp] theorem State.onDlt_raised (f : Dlt → Dlt) : (s.onDlt f).raised = s.raised := rfl
@[simp] theorem State.onDlt_freeCount (f : Dlt → Dlt) : (s.onDlt f).freeCount = s.freeCount := rfl
@[simp] theorem State.onDlt_plates (f : Dlt → Dlt) : (s.onDlt f).plates = s.plates := rfl
@[simp] theorem State.onDlt_profiles (f : Dlt → Dlt) : (s.onDlt f).profiles = s.profiles := rfl
@[simp] theorem State.onDlt_geometry (f : Dlt → Dlt) : (s.onDlt f).geometry = s.geometry := rfl
@[simp] theorem State.onDlt_settings (f : Dlt → Dlt) : (s.onDlt f).settings = s.settings := rfl
@[simp] theorem State.onDlt_csq (f : Dlt → Dlt) : (s.onDlt f).csq = s.csq := rfl
@[simp] theorem State.onDlt_mge (f : Dlt → Dlt) : (s.onDlt f).mge = s.mge := rfl
@[simp] theorem State.onDlt_cal (f : Dlt → Dlt) : (s.onDlt f).cal = s.cal := rfl
@[simp] theorem State.onDlt_plr (f : Dlt → Dlt) : (s.onDlt f).plr = s.plr := rfl
@[simp] theorem State.onDlt_ltc (f : Dlt → Dlt) : (s.onDlt f).ltc = s.ltc := rfl
@[simp] theorem State.onDlt_tbu (f : Dlt → Dlt) : (s.onDlt f).tbu = s.tbu := rfl
@[simp] theorem State.onDlt_fsc (f : Dlt → Dlt) : (s.onDlt f).fsc = s.fsc := rfl
@[simp] theorem State.onDlt_dlt (f : Dlt → Dlt) : (s.onDlt f).dlt = f s.dlt := rfl
@[simp] theorem State.onDlt_ports (f : Dlt → Dlt) : (s.onDlt f).ports = s.ports := rfl

/-! ## State.onTimers -/

@[simp] theorem State.onTimers_pending (f : Timers → Timers) : (s.onTimers f).pending = s.pending := rfl
@[simp] theorem State.onTimers_raised (f : Timers → Timers) : (s.onTimers f).raised = s.raised := rfl
@[simp] theorem State.onTimers_freeCount (f : Timers → Timers) : (s.onTimers f).freeCount = s.freeCount := rfl
@[simp] theorem State.onTimers_plates (f : Timers → Timers) : (s.onTimers f).plates = s.plates := rfl
@[simp] theorem State.onTimers_profiles (f : Timers → Timers) : (s.onTimers f).profiles = s.profiles := rfl
@[simp] theorem State.onTimers_geometry (f : Timers → Timers) : (s.onTimers f).geometry = s.geometry := rfl
@[simp] theorem State.onTimers_settings (f : Timers → Timers) : (s.onTimers f).settings = s.settings := rfl
@[simp] theorem State.onTimers_csq (f : Timers → Timers) : (s.onTimers f).csq = s.csq := rfl
@[simp] theorem State.onTimers_mge (f : Timers → Timers) : (s.onTimers f).mge = s.mge := rfl
@[simp] theorem State.onTimers_cal (f : Timers → Timers) : (s.onTimers f).cal = s.cal := rfl
@[simp] theorem State.onTimers_plr (f : Timers → Timers) : (s.onTimers f).plr = s.plr := rfl
@[simp] theorem State.onTimers_ltc (f : Timers → Timers) : (s.onTimers f).ltc = s.ltc := rfl
@[simp] theorem State.onTimers_tbu (f : Timers → Timers) : (s.onTimers f).tbu = { s.tbu with timers := f s.tbu.timers } := rfl
@[simp] theorem State.onTimers_fsc (f : Timers → Timers) : (s.onTimers f).fsc = s.fsc := rfl
@[simp] theorem State.onTimers_dlt (f : Timers → Timers) : (s.onTimers f).dlt = s.dlt := rfl
@[simp] theorem State.onTimers_ports (f : Timers → Timers) : (s.onTimers f).ports = s.ports := rfl

/-! ## State.onPort -/

@[simp] theorem State.onPort_pending (p : PortNo) (f : Port → Port) : (s.onPort p f).pending = s.pending := rfl
@[simp] theorem State.onPort_raised (p : PortNo) (f : Port → Port) : (s.onPort p f).raised = s.raised := rfl
@[simp] theorem State.onPort_freeCount (p : PortNo) (f : Port → Port) : (s.onPort p f).freeCount = s.freeCount := rfl
@[simp] theorem State.onPort_plates (p : PortNo) (f : Port → Port) : (s.onPort p f).plates = s.plates := rfl
@[simp] theorem State.onPort_profiles (p : PortNo) (f : Port → Port) : (s.onPort p f).profiles = s.profiles := rfl
@[simp] theorem State.onPort_geometry (p : PortNo) (f : Port → Port) : (s.onPort p f).geometry = s.geometry := rfl
@[simp] theorem State.onPort_settings (p : PortNo) (f : Port → Port) : (s.onPort p f).settings = s.settings := rfl
@[simp] theorem State.onPort_csq (p : PortNo) (f : Port → Port) : (s.onPort p f).csq = s.csq := rfl
@[simp] theorem State.onPort_mge (p : PortNo) (f : Port → Port) : (s.onPort p f).mge = s.mge := rfl
@[simp] theorem State.onPort_cal (p : PortNo) (f : Port → Port) : (s.onPort p f).cal = s.cal := rfl
@[simp] theorem State.onPort_plr (p : PortNo) (f : Port → Port) : (s.onPort p f).plr = s.plr := rfl
@[simp] theorem State.onPort_ltc (p : PortNo) (f : Port → Port) : (s.onPort p f).ltc = s.ltc := rfl
@[simp] theorem State.onPort_tbu (p : PortNo) (f : Port → Port) : (s.onPort p f).tbu = s.tbu := rfl
@[simp] theorem State.onPort_fsc (p : PortNo) (f : Port → Port) : (s.onPort p f).fsc = s.fsc := rfl
@[simp] theorem State.onPort_dlt (p : PortNo) (f : Port → Port) : (s.onPort p f).dlt = s.dlt := rfl
@[simp] theorem State.onPort_ports (p : PortNo) (f : Port → Port) : (s.onPort p f).ports = setAt s.ports p (f (s.ports.get p)) := rfl

/-! ## State.onWork -/

@[simp] theorem State.onWork_pending (k : SlotNo) (f : WorkRecord → WorkRecord) : (s.onWork k f).pending = s.pending :=
  rfl
@[simp] theorem State.onWork_raised (k : SlotNo) (f : WorkRecord → WorkRecord) : (s.onWork k f).raised = s.raised :=
  rfl
@[simp] theorem State.onWork_freeCount (k : SlotNo) (f : WorkRecord → WorkRecord) : (s.onWork k f).freeCount = s.freeCount :=
  rfl
@[simp] theorem State.onWork_plates (k : SlotNo) (f : WorkRecord → WorkRecord) : (s.onWork k f).plates = s.plates :=
  rfl
@[simp] theorem State.onWork_profiles (k : SlotNo) (f : WorkRecord → WorkRecord) : (s.onWork k f).profiles = s.profiles :=
  rfl
@[simp] theorem State.onWork_geometry (k : SlotNo) (f : WorkRecord → WorkRecord) : (s.onWork k f).geometry = s.geometry :=
  rfl
@[simp] theorem State.onWork_settings (k : SlotNo) (f : WorkRecord → WorkRecord) : (s.onWork k f).settings = s.settings :=
  rfl
@[simp] theorem State.onWork_csq (k : SlotNo) (f : WorkRecord → WorkRecord) : (s.onWork k f).csq = s.csq :=
  rfl
@[simp] theorem State.onWork_mge (k : SlotNo) (f : WorkRecord → WorkRecord) : (s.onWork k f).mge = { s.mge with work := setAt s.mge.work k (f (s.mge.work.get k)) } :=
  rfl
@[simp] theorem State.onWork_cal (k : SlotNo) (f : WorkRecord → WorkRecord) : (s.onWork k f).cal = s.cal :=
  rfl
@[simp] theorem State.onWork_plr (k : SlotNo) (f : WorkRecord → WorkRecord) : (s.onWork k f).plr = s.plr :=
  rfl
@[simp] theorem State.onWork_ltc (k : SlotNo) (f : WorkRecord → WorkRecord) : (s.onWork k f).ltc = s.ltc :=
  rfl
@[simp] theorem State.onWork_tbu (k : SlotNo) (f : WorkRecord → WorkRecord) : (s.onWork k f).tbu = s.tbu :=
  rfl
@[simp] theorem State.onWork_fsc (k : SlotNo) (f : WorkRecord → WorkRecord) : (s.onWork k f).fsc = s.fsc :=
  rfl
@[simp] theorem State.onWork_dlt (k : SlotNo) (f : WorkRecord → WorkRecord) : (s.onWork k f).dlt = s.dlt :=
  rfl
@[simp] theorem State.onWork_ports (k : SlotNo) (f : WorkRecord → WorkRecord) : (s.onWork k f).ports = s.ports :=
  rfl

/-! ## State.write -/

@[simp] theorem State.write_pending (a : Nat) (b : List Byte) : (s.write a b).pending = s.pending := rfl
@[simp] theorem State.write_raised (a : Nat) (b : List Byte) : (s.write a b).raised = s.raised := rfl
@[simp] theorem State.write_freeCount (a : Nat) (b : List Byte) : (s.write a b).freeCount = s.freeCount := rfl
@[simp] theorem State.write_plates (a : Nat) (b : List Byte) : (s.write a b).plates = s.plates := rfl
@[simp] theorem State.write_profiles (a : Nat) (b : List Byte) : (s.write a b).profiles = s.profiles := rfl
@[simp] theorem State.write_geometry (a : Nat) (b : List Byte) : (s.write a b).geometry = s.geometry := rfl
@[simp] theorem State.write_settings (a : Nat) (b : List Byte) : (s.write a b).settings = s.settings := rfl
@[simp] theorem State.write_csq (a : Nat) (b : List Byte) : (s.write a b).csq = s.csq := rfl
@[simp] theorem State.write_mge (a : Nat) (b : List Byte) : (s.write a b).mge = s.mge := rfl
@[simp] theorem State.write_cal (a : Nat) (b : List Byte) : (s.write a b).cal = s.cal := rfl
@[simp] theorem State.write_plr (a : Nat) (b : List Byte) : (s.write a b).plr = s.plr := rfl
@[simp] theorem State.write_ltc (a : Nat) (b : List Byte) : (s.write a b).ltc = s.ltc := rfl
@[simp] theorem State.write_tbu (a : Nat) (b : List Byte) : (s.write a b).tbu = s.tbu := rfl
@[simp] theorem State.write_fsc (a : Nat) (b : List Byte) : (s.write a b).fsc = { s.fsc with mem := writeBytes s.fsc.mem a b } := rfl
@[simp] theorem State.write_dlt (a : Nat) (b : List Byte) : (s.write a b).dlt = s.dlt := rfl
@[simp] theorem State.write_ports (a : Nat) (b : List Byte) : (s.write a b).ports = s.ports := rfl

/-! ## State.raise -/

@[simp] theorem State.raise_pending (n : Notice) : (s.raise n).pending = s.pending := rfl
@[simp] theorem State.raise_raised (n : Notice) : (s.raise n).raised = s.raised ++ [n] := rfl
@[simp] theorem State.raise_freeCount (n : Notice) : (s.raise n).freeCount = s.freeCount := rfl
@[simp] theorem State.raise_plates (n : Notice) : (s.raise n).plates = s.plates := rfl
@[simp] theorem State.raise_profiles (n : Notice) : (s.raise n).profiles = s.profiles := rfl
@[simp] theorem State.raise_geometry (n : Notice) : (s.raise n).geometry = s.geometry := rfl
@[simp] theorem State.raise_settings (n : Notice) : (s.raise n).settings = s.settings := rfl
@[simp] theorem State.raise_csq (n : Notice) : (s.raise n).csq = s.csq := rfl
@[simp] theorem State.raise_mge (n : Notice) : (s.raise n).mge = s.mge := rfl
@[simp] theorem State.raise_cal (n : Notice) : (s.raise n).cal = s.cal := rfl
@[simp] theorem State.raise_plr (n : Notice) : (s.raise n).plr = s.plr := rfl
@[simp] theorem State.raise_ltc (n : Notice) : (s.raise n).ltc = s.ltc := rfl
@[simp] theorem State.raise_tbu (n : Notice) : (s.raise n).tbu = s.tbu := rfl
@[simp] theorem State.raise_fsc (n : Notice) : (s.raise n).fsc = s.fsc := rfl
@[simp] theorem State.raise_dlt (n : Notice) : (s.raise n).dlt = s.dlt := rfl
@[simp] theorem State.raise_ports (n : Notice) : (s.raise n).ports = s.ports := rfl

/-! ## Vectors -/

theorem setAt_get {α : Type} {n : Nat} (v : Vector α n) (i j : Fin n) (x : α) :
    (setAt v i x).get j = if i = j then x else v.get j := by
  show (v.set i.val x i.isLt)[j.val] = if i = j then x else v[j.val]
  simp [Vector.getElem_set, Fin.ext_iff]

@[simp] theorem setAt_get_self {α : Type} {n : Nat} (v : Vector α n) (i : Fin n) (x : α) : (setAt v i x).get i = x := by
  simp [setAt_get]

theorem setAt_get_ne {α : Type} {n : Nat} (v : Vector α n) {i j : Fin n} (x : α) (h : i ≠ j) :
    (setAt v i x).get j = v.get j := by
  simp [setAt_get, h]

end Sys2Proof.Machine
end

