-- ==== Sys2Proof/Laws/Frames.lean ====
section
/-! SUPPORT. The frame of every operation of the model: which parts of the state it leaves as they are, one
lemma per operation, so that no later proof unfolds it for a part it does not touch. -/

namespace Sys2Proof.Machine

set_option Elab.async false

@[simp] theorem State.finish_frame (s : State) (ns : List Notice) :
    (s.finish ns).pending = s.pending ∧ (s.finish ns).freeCount = s.freeCount ∧ (s.finish ns).plates = s.plates
      ∧ (s.finish ns).profiles = s.profiles ∧ (s.finish ns).geometry = s.geometry
      ∧ (s.finish ns).settings = s.settings ∧ (s.finish ns).csq = s.csq ∧ (s.finish ns).mge = s.mge
      ∧ (s.finish ns).cal = s.cal ∧ (s.finish ns).plr = s.plr ∧ (s.finish ns).ltc = s.ltc
      ∧ (s.finish ns).tbu = s.tbu ∧ (s.finish ns).fsc = s.fsc ∧ (s.finish ns).dlt = s.dlt := by
  and_intros <;>
    rfl

@[simp] theorem State.announce_frame (s : State) (base : List PlateRecord) :
    (s.announce base).pending = s.pending ∧ (s.announce base).freeCount = s.freeCount
      ∧ (s.announce base).plates = s.plates ∧ (s.announce base).profiles = s.profiles
      ∧ (s.announce base).geometry = s.geometry ∧ (s.announce base).settings = s.settings
      ∧ (s.announce base).csq = s.csq ∧ (s.announce base).mge = s.mge ∧ (s.announce base).cal = s.cal
      ∧ (s.announce base).plr = s.plr ∧ (s.announce base).ltc = s.ltc ∧ (s.announce base).tbu = s.tbu
      ∧ (s.announce base).fsc = s.fsc ∧ (s.announce base).dlt = s.dlt := by
  and_intros <;>
    rfl

@[simp] theorem State.flush_frame (s : State) :
    (s.flush).pending = s.pending ∧ (s.flush).freeCount = s.freeCount ∧ (s.flush).plates = s.plates
      ∧ (s.flush).profiles = s.profiles ∧ (s.flush).geometry = s.geometry ∧ (s.flush).settings = s.settings
      ∧ (s.flush).csq = s.csq ∧ (s.flush).mge = s.mge ∧ (s.flush).cal = s.cal ∧ (s.flush).plr = s.plr
      ∧ (s.flush).ltc = s.ltc ∧ (s.flush).tbu = s.tbu ∧ (s.flush).fsc = s.fsc ∧ (s.flush).dlt = s.dlt := by
  and_intros <;>
    rfl

@[simp] theorem State.wake_frame (s : State) (p : PortNo) :
    (s.wake p).pending = s.pending ∧ (s.wake p).freeCount = s.freeCount ∧ (s.wake p).plates = s.plates
      ∧ (s.wake p).profiles = s.profiles ∧ (s.wake p).geometry = s.geometry ∧ (s.wake p).settings = s.settings
      ∧ (s.wake p).csq = s.csq ∧ (s.wake p).mge = s.mge ∧ (s.wake p).cal = s.cal ∧ (s.wake p).plr = s.plr
      ∧ (s.wake p).ltc = s.ltc ∧ (s.wake p).tbu = s.tbu ∧ (s.wake p).dlt = s.dlt ∧ (s.wake p).ports = s.ports
      ∧ (s.wake p).fsc.mem = s.fsc.mem ∧ (s.wake p).fsc.refreshOwed = s.fsc.refreshOwed
      ∧ (s.wake p).fsc.reason = s.fsc.reason ∧ (s.wake p).fsc.mask = s.fsc.mask
      ∧ (s.wake p).fsc.retain = s.fsc.retain ∧ (s.wake p).fsc.access = s.fsc.access
      ∧ (s.wake p).fsc.held = s.fsc.held := by
  and_intros <;>
    rfl

@[simp] theorem State.refuse_frame (s : State) (q : Src) (kind : RequestKind) (code : AnswerCode) :
    (s.refuse q kind code).pending = s.pending ∧ (s.refuse q kind code).raised = s.raised
      ∧ (s.refuse q kind code).freeCount = s.freeCount ∧ (s.refuse q kind code).plates = s.plates
      ∧ (s.refuse q kind code).profiles = s.profiles ∧ (s.refuse q kind code).geometry = s.geometry
      ∧ (s.refuse q kind code).settings = s.settings ∧ (s.refuse q kind code).csq = s.csq
      ∧ (s.refuse q kind code).mge = s.mge ∧ (s.refuse q kind code).cal = s.cal
      ∧ (s.refuse q kind code).plr = s.plr ∧ (s.refuse q kind code).ltc = s.ltc
      ∧ (s.refuse q kind code).tbu = s.tbu ∧ (s.refuse q kind code).fsc = s.fsc
      ∧ (s.refuse q kind code).dlt = s.dlt := by
  and_intros <;>
    rfl

@[simp] theorem State.frameTaken_frame (s : State) (p : PortNo) :
    (s.frameTaken p).pending = s.pending ∧ (s.frameTaken p).raised = s.raised
      ∧ (s.frameTaken p).freeCount = s.freeCount ∧ (s.frameTaken p).plates = s.plates
      ∧ (s.frameTaken p).profiles = s.profiles ∧ (s.frameTaken p).geometry = s.geometry
      ∧ (s.frameTaken p).settings = s.settings ∧ (s.frameTaken p).csq = s.csq ∧ (s.frameTaken p).mge = s.mge
      ∧ (s.frameTaken p).cal = s.cal ∧ (s.frameTaken p).plr = s.plr ∧ (s.frameTaken p).ltc = s.ltc
      ∧ (s.frameTaken p).tbu = s.tbu ∧ (s.frameTaken p).fsc = s.fsc ∧ (s.frameTaken p).dlt = s.dlt := by
  and_intros <;>
    rfl

@[simp] theorem State.writeRow_frame (s : State) (row : Option StoreRow) :
    (s.writeRow row).pending = s.pending ∧ (s.writeRow row).raised = s.raised
      ∧ (s.writeRow row).freeCount = s.freeCount ∧ (s.writeRow row).plates = s.plates
      ∧ (s.writeRow row).profiles = s.profiles ∧ (s.writeRow row).geometry = s.geometry
      ∧ (s.writeRow row).settings = s.settings ∧ (s.writeRow row).csq = s.csq ∧ (s.writeRow row).mge = s.mge
      ∧ (s.writeRow row).cal = s.cal ∧ (s.writeRow row).plr = s.plr ∧ (s.writeRow row).ltc = s.ltc
      ∧ (s.writeRow row).tbu = s.tbu ∧ (s.writeRow row).dlt = s.dlt ∧ (s.writeRow row).ports = s.ports
      ∧ (s.writeRow row).fsc.state = s.fsc.state ∧ (s.writeRow row).fsc.refreshOwed = s.fsc.refreshOwed
      ∧ (s.writeRow row).fsc.reason = s.fsc.reason ∧ (s.writeRow row).fsc.mask = s.fsc.mask
      ∧ (s.writeRow row).fsc.retain = s.fsc.retain ∧ (s.writeRow row).fsc.access = s.fsc.access
      ∧ (s.writeRow row).fsc.held = s.fsc.held := by
  and_intros <;>
    (unfold State.writeRow; (repeat' split) <;> rfl)

@[simp] theorem State.stopAccess_frame (s : State) (p : StoreWork → Bool) :
    (s.stopAccess p).pending = s.pending ∧ (s.stopAccess p).raised = s.raised
      ∧ (s.stopAccess p).freeCount = s.freeCount ∧ (s.stopAccess p).plates = s.plates
      ∧ (s.stopAccess p).profiles = s.profiles ∧ (s.stopAccess p).geometry = s.geometry
      ∧ (s.stopAccess p).settings = s.settings ∧ (s.stopAccess p).csq = s.csq ∧ (s.stopAccess p).mge = s.mge
      ∧ (s.stopAccess p).cal = s.cal ∧ (s.stopAccess p).plr = s.plr ∧ (s.stopAccess p).ltc = s.ltc
      ∧ (s.stopAccess p).tbu = s.tbu ∧ (s.stopAccess p).dlt = s.dlt ∧ (s.stopAccess p).ports = s.ports
      ∧ (s.stopAccess p).fsc.state = s.fsc.state ∧ (s.stopAccess p).fsc.mem = s.fsc.mem
      ∧ (s.stopAccess p).fsc.refreshOwed = s.fsc.refreshOwed ∧ (s.stopAccess p).fsc.reason = s.fsc.reason
      ∧ (s.stopAccess p).fsc.mask = s.fsc.mask ∧ (s.stopAccess p).fsc.retain = s.fsc.retain
      ∧ (s.stopAccess p).fsc.held = s.fsc.held := by
  and_intros <;>
    rfl

@[simp] theorem State.accessDone_frame (s : State) :
    (s.accessDone).pending = s.pending ∧ (s.accessDone).raised = s.raised
      ∧ (s.accessDone).freeCount = s.freeCount ∧ (s.accessDone).plates = s.plates
      ∧ (s.accessDone).profiles = s.profiles ∧ (s.accessDone).geometry = s.geometry
      ∧ (s.accessDone).settings = s.settings ∧ (s.accessDone).csq = s.csq ∧ (s.accessDone).mge = s.mge
      ∧ (s.accessDone).cal = s.cal ∧ (s.accessDone).plr = s.plr ∧ (s.accessDone).ltc = s.ltc
      ∧ (s.accessDone).tbu = s.tbu ∧ (s.accessDone).dlt = s.dlt ∧ (s.accessDone).ports = s.ports
      ∧ (s.accessDone).fsc.state = s.fsc.state ∧ (s.accessDone).fsc.mem = s.fsc.mem
      ∧ (s.accessDone).fsc.refreshOwed = s.fsc.refreshOwed ∧ (s.accessDone).fsc.reason = s.fsc.reason
      ∧ (s.accessDone).fsc.mask = s.fsc.mask ∧ (s.accessDone).fsc.retain = s.fsc.retain
      ∧ (s.accessDone).fsc.held = s.fsc.held := by
  and_intros <;>
    rfl

@[simp] theorem State.lampNotice_frame (s : State) (old : LampState) (cause : LampCause) :
    (s.lampNotice old cause).pending = s.pending ∧ (s.lampNotice old cause).freeCount = s.freeCount
      ∧ (s.lampNotice old cause).plates = s.plates ∧ (s.lampNotice old cause).profiles = s.profiles
      ∧ (s.lampNotice old cause).geometry = s.geometry ∧ (s.lampNotice old cause).settings = s.settings
      ∧ (s.lampNotice old cause).csq = s.csq ∧ (s.lampNotice old cause).mge = s.mge
      ∧ (s.lampNotice old cause).cal = s.cal ∧ (s.lampNotice old cause).plr = s.plr
      ∧ (s.lampNotice old cause).ltc = s.ltc ∧ (s.lampNotice old cause).tbu = s.tbu
      ∧ (s.lampNotice old cause).fsc = s.fsc ∧ (s.lampNotice old cause).dlt = s.dlt
      ∧ (s.lampNotice old cause).ports = s.ports := by
  and_intros <;>
    rfl

@[simp] theorem State.lampWarm_frame (s : State) (cause : LampCause) :
    (s.lampWarm cause).pending = s.pending ∧ (s.lampWarm cause).freeCount = s.freeCount
      ∧ (s.lampWarm cause).plates = s.plates ∧ (s.lampWarm cause).profiles = s.profiles
      ∧ (s.lampWarm cause).geometry = s.geometry ∧ (s.lampWarm cause).settings = s.settings
      ∧ (s.lampWarm cause).csq = s.csq ∧ (s.lampWarm cause).mge = s.mge ∧ (s.lampWarm cause).cal = s.cal
      ∧ (s.lampWarm cause).plr = s.plr ∧ (s.lampWarm cause).fsc = s.fsc ∧ (s.lampWarm cause).dlt = s.dlt
      ∧ (s.lampWarm cause).ports = s.ports ∧ (s.lampWarm cause).ltc.windowOpen = s.ltc.windowOpen
      ∧ (s.lampWarm cause).tbu.clock = s.tbu.clock ∧ (s.lampWarm cause).tbu.lampMinutes = s.tbu.lampMinutes
      ∧ (s.lampWarm cause).tbu.lampSeconds = s.tbu.lampSeconds := by
  and_intros <;>
    rfl

@[simp] theorem State.lampSwitchOn_frame (s : State) :
    (s.lampSwitchOn).pending = s.pending ∧ (s.lampSwitchOn).freeCount = s.freeCount
      ∧ (s.lampSwitchOn).plates = s.plates ∧ (s.lampSwitchOn).profiles = s.profiles
      ∧ (s.lampSwitchOn).geometry = s.geometry ∧ (s.lampSwitchOn).settings = s.settings
      ∧ (s.lampSwitchOn).csq = s.csq ∧ (s.lampSwitchOn).mge = s.mge ∧ (s.lampSwitchOn).cal = s.cal
      ∧ (s.lampSwitchOn).plr = s.plr ∧ (s.lampSwitchOn).fsc = s.fsc ∧ (s.lampSwitchOn).dlt = s.dlt
      ∧ (s.lampSwitchOn).ports = s.ports ∧ (s.lampSwitchOn).ltc.windowOpen = s.ltc.windowOpen
      ∧ (s.lampSwitchOn).tbu.clock = s.tbu.clock ∧ (s.lampSwitchOn).tbu.lampMinutes = s.tbu.lampMinutes
      ∧ (s.lampSwitchOn).tbu.lampSeconds = s.tbu.lampSeconds := by
  and_intros <;>
    (unfold State.lampSwitchOn; (repeat' split) <;> rfl)

@[simp] theorem State.lampRestart_frame (s : State) :
    (s.lampRestart).pending = s.pending ∧ (s.lampRestart).freeCount = s.freeCount
      ∧ (s.lampRestart).plates = s.plates ∧ (s.lampRestart).profiles = s.profiles
      ∧ (s.lampRestart).geometry = s.geometry ∧ (s.lampRestart).settings = s.settings
      ∧ (s.lampRestart).csq = s.csq ∧ (s.lampRestart).mge = s.mge ∧ (s.lampRestart).cal = s.cal
      ∧ (s.lampRestart).plr = s.plr ∧ (s.lampRestart).fsc = s.fsc ∧ (s.lampRestart).dlt = s.dlt
      ∧ (s.lampRestart).ports = s.ports ∧ (s.lampRestart).ltc.windowOpen = s.ltc.windowOpen
      ∧ (s.lampRestart).tbu.clock = s.tbu.clock ∧ (s.lampRestart).tbu.lampMinutes = s.tbu.lampMinutes
      ∧ (s.lampRestart).tbu.lampSeconds = s.tbu.lampSeconds := by
  and_intros <;>
    rfl

@[simp] theorem State.lampDark_frame (s : State) :
    (s.lampDark).pending = s.pending ∧ (s.lampDark).raised = s.raised ∧ (s.lampDark).freeCount = s.freeCount
      ∧ (s.lampDark).plates = s.plates ∧ (s.lampDark).profiles = s.profiles
      ∧ (s.lampDark).geometry = s.geometry ∧ (s.lampDark).settings = s.settings ∧ (s.lampDark).csq = s.csq
      ∧ (s.lampDark).mge = s.mge ∧ (s.lampDark).cal = s.cal ∧ (s.lampDark).plr = s.plr
      ∧ (s.lampDark).fsc = s.fsc ∧ (s.lampDark).dlt = s.dlt ∧ (s.lampDark).ports = s.ports
      ∧ (s.lampDark).ltc.windowOpen = s.ltc.windowOpen ∧ (s.lampDark).tbu.clock = s.tbu.clock
      ∧ (s.lampDark).tbu.lampMinutes = s.tbu.lampMinutes ∧ (s.lampDark).tbu.lampSeconds = s.tbu.lampSeconds := by
  and_intros <;>
    rfl

@[simp] theorem State.lampSwitchOff_frame (s : State) (cause : LampCause) :
    (s.lampSwitchOff cause).pending = s.pending ∧ (s.lampSwitchOff cause).freeCount = s.freeCount
      ∧ (s.lampSwitchOff cause).plates = s.plates ∧ (s.lampSwitchOff cause).profiles = s.profiles
      ∧ (s.lampSwitchOff cause).geometry = s.geometry ∧ (s.lampSwitchOff cause).settings = s.settings
      ∧ (s.lampSwitchOff cause).csq = s.csq ∧ (s.lampSwitchOff cause).mge = s.mge
      ∧ (s.lampSwitchOff cause).cal = s.cal ∧ (s.lampSwitchOff cause).plr = s.plr
      ∧ (s.lampSwitchOff cause).fsc = s.fsc ∧ (s.lampSwitchOff cause).dlt = s.dlt
      ∧ (s.lampSwitchOff cause).ports = s.ports ∧ (s.lampSwitchOff cause).ltc.windowOpen = s.ltc.windowOpen
      ∧ (s.lampSwitchOff cause).tbu.clock = s.tbu.clock
      ∧ (s.lampSwitchOff cause).tbu.lampMinutes = s.tbu.lampMinutes
      ∧ (s.lampSwitchOff cause).tbu.lampSeconds = s.tbu.lampSeconds := by
  and_intros <;>
    (unfold State.lampSwitchOff; (repeat' split) <;> rfl)

@[simp] theorem State.lampExposureStart_frame (s : State) :
    (s.lampExposureStart).pending = s.pending ∧ (s.lampExposureStart).raised = s.raised
      ∧ (s.lampExposureStart).freeCount = s.freeCount ∧ (s.lampExposureStart).plates = s.plates
      ∧ (s.lampExposureStart).profiles = s.profiles ∧ (s.lampExposureStart).geometry = s.geometry
      ∧ (s.lampExposureStart).settings = s.settings ∧ (s.lampExposureStart).csq = s.csq
      ∧ (s.lampExposureStart).mge = s.mge ∧ (s.lampExposureStart).cal = s.cal
      ∧ (s.lampExposureStart).plr = s.plr ∧ (s.lampExposureStart).ltc = s.ltc
      ∧ (s.lampExposureStart).fsc = s.fsc ∧ (s.lampExposureStart).dlt = s.dlt
      ∧ (s.lampExposureStart).ports = s.ports ∧ (s.lampExposureStart).tbu.clock = s.tbu.clock
      ∧ (s.lampExposureStart).tbu.lampMinutes = s.tbu.lampMinutes
      ∧ (s.lampExposureStart).tbu.lampSeconds = s.tbu.lampSeconds := by
  and_intros <;>
    rfl

@[simp] theorem State.lampFlatEnded_frame (s : State) :
    (s.lampFlatEnded).pending = s.pending ∧ (s.lampFlatEnded).raised = s.raised
      ∧ (s.lampFlatEnded).freeCount = s.freeCount ∧ (s.lampFlatEnded).plates = s.plates
      ∧ (s.lampFlatEnded).profiles = s.profiles ∧ (s.lampFlatEnded).geometry = s.geometry
      ∧ (s.lampFlatEnded).settings = s.settings ∧ (s.lampFlatEnded).csq = s.csq ∧ (s.lampFlatEnded).mge = s.mge
      ∧ (s.lampFlatEnded).cal = s.cal ∧ (s.lampFlatEnded).plr = s.plr ∧ (s.lampFlatEnded).ltc = s.ltc
      ∧ (s.lampFlatEnded).fsc = s.fsc ∧ (s.lampFlatEnded).dlt = s.dlt ∧ (s.lampFlatEnded).ports = s.ports
      ∧ (s.lampFlatEnded).tbu.clock = s.tbu.clock ∧ (s.lampFlatEnded).tbu.lampMinutes = s.tbu.lampMinutes
      ∧ (s.lampFlatEnded).tbu.lampSeconds = s.tbu.lampSeconds := by
  and_intros <;>
    (unfold State.lampFlatEnded; (repeat' split) <;> rfl)

@[simp] theorem State.discardWindow_frame (s : State) :
    (s.discardWindow).pending = s.pending ∧ (s.discardWindow).raised = s.raised
      ∧ (s.discardWindow).freeCount = s.freeCount ∧ (s.discardWindow).plates = s.plates
      ∧ (s.discardWindow).profiles = s.profiles ∧ (s.discardWindow).geometry = s.geometry
      ∧ (s.discardWindow).settings = s.settings ∧ (s.discardWindow).csq = s.csq ∧ (s.discardWindow).mge = s.mge
      ∧ (s.discardWindow).cal = s.cal ∧ (s.discardWindow).plr = s.plr ∧ (s.discardWindow).tbu = s.tbu
      ∧ (s.discardWindow).fsc = s.fsc ∧ (s.discardWindow).dlt = s.dlt ∧ (s.discardWindow).ports = s.ports
      ∧ (s.discardWindow).ltc.lamp = s.ltc.lamp := by
  and_intros <;>
    rfl

@[simp] theorem State.checkPassed_frame (s : State) :
    (s.checkPassed).pending = s.pending ∧ (s.checkPassed).freeCount = s.freeCount
      ∧ (s.checkPassed).plates = s.plates ∧ (s.checkPassed).profiles = s.profiles
      ∧ (s.checkPassed).geometry = s.geometry ∧ (s.checkPassed).settings = s.settings
      ∧ (s.checkPassed).csq = s.csq ∧ (s.checkPassed).mge = s.mge ∧ (s.checkPassed).cal = s.cal
      ∧ (s.checkPassed).plr = s.plr ∧ (s.checkPassed).tbu = s.tbu ∧ (s.checkPassed).fsc = s.fsc
      ∧ (s.checkPassed).dlt = s.dlt ∧ (s.checkPassed).ports = s.ports
      ∧ (s.checkPassed).ltc.windowOpen = s.ltc.windowOpen := by
  and_intros <;>
    (unfold State.checkPassed; dsimp only; (repeat' split) <;> (try simp))

@[simp] theorem State.checkMissed_frame (s : State) :
    (s.checkMissed).pending = s.pending ∧ (s.checkMissed).freeCount = s.freeCount
      ∧ (s.checkMissed).plates = s.plates ∧ (s.checkMissed).profiles = s.profiles
      ∧ (s.checkMissed).geometry = s.geometry ∧ (s.checkMissed).settings = s.settings
      ∧ (s.checkMissed).csq = s.csq ∧ (s.checkMissed).mge = s.mge ∧ (s.checkMissed).cal = s.cal
      ∧ (s.checkMissed).plr = s.plr ∧ (s.checkMissed).tbu = s.tbu ∧ (s.checkMissed).fsc = s.fsc
      ∧ (s.checkMissed).dlt = s.dlt ∧ (s.checkMissed).ports = s.ports
      ∧ (s.checkMissed).ltc.windowOpen = s.ltc.windowOpen := by
  and_intros <;>
    (unfold State.checkMissed; (repeat' split) <;> rfl)

@[simp] theorem State.lampFail_frame (s : State) :
    (s.lampFail).pending = s.pending ∧ (s.lampFail).freeCount = s.freeCount ∧ (s.lampFail).plates = s.plates
      ∧ (s.lampFail).profiles = s.profiles ∧ (s.lampFail).geometry = s.geometry
      ∧ (s.lampFail).settings = s.settings ∧ (s.lampFail).csq = s.csq ∧ (s.lampFail).mge = s.mge
      ∧ (s.lampFail).cal = s.cal ∧ (s.lampFail).plr = s.plr ∧ (s.lampFail).fsc = s.fsc
      ∧ (s.lampFail).dlt = s.dlt ∧ (s.lampFail).ports = s.ports
      ∧ (s.lampFail).ltc.windowOpen = s.ltc.windowOpen ∧ (s.lampFail).tbu.clock = s.tbu.clock
      ∧ (s.lampFail).tbu.lampMinutes = s.tbu.lampMinutes ∧ (s.lampFail).tbu.lampSeconds = s.tbu.lampSeconds := by
  and_intros <;>
    rfl

@[simp] theorem State.onPlate_frame (s : State) (key : PlateKey) (f : PlateRecord → PlateRecord) :
    (s.onPlate key f).pending = s.pending ∧ (s.onPlate key f).raised = s.raised
      ∧ (s.onPlate key f).freeCount = s.freeCount ∧ (s.onPlate key f).profiles = s.profiles
      ∧ (s.onPlate key f).geometry = s.geometry ∧ (s.onPlate key f).settings = s.settings
      ∧ (s.onPlate key f).csq = s.csq ∧ (s.onPlate key f).mge = s.mge ∧ (s.onPlate key f).cal = s.cal
      ∧ (s.onPlate key f).plr = s.plr ∧ (s.onPlate key f).ltc = s.ltc ∧ (s.onPlate key f).tbu = s.tbu
      ∧ (s.onPlate key f).fsc = s.fsc ∧ (s.onPlate key f).dlt = s.dlt ∧ (s.onPlate key f).ports = s.ports := by
  and_intros <;>
    rfl

@[simp] theorem State.removePlate_frame (s : State) (key : PlateKey) :
    (s.removePlate key).pending = s.pending ∧ (s.removePlate key).raised = s.raised
      ∧ (s.removePlate key).freeCount = s.freeCount ∧ (s.removePlate key).profiles = s.profiles
      ∧ (s.removePlate key).geometry = s.geometry ∧ (s.removePlate key).settings = s.settings
      ∧ (s.removePlate key).csq = s.csq ∧ (s.removePlate key).mge = s.mge ∧ (s.removePlate key).cal = s.cal
      ∧ (s.removePlate key).plr = s.plr ∧ (s.removePlate key).ltc = s.ltc ∧ (s.removePlate key).tbu = s.tbu
      ∧ (s.removePlate key).fsc = s.fsc ∧ (s.removePlate key).dlt = s.dlt ∧ (s.removePlate key).ports = s.ports := by
  and_intros <;>
    rfl

@[simp] theorem State.changeCellQuiet_frame (s : State) (c : CellRef) (f : CellRecord → CellRecord) (g : PlateRecord → PlateRecord) :
    (s.changeCellQuiet c f g).pending = s.pending ∧ (s.changeCellQuiet c f g).raised = s.raised
      ∧ (s.changeCellQuiet c f g).freeCount = s.freeCount ∧ (s.changeCellQuiet c f g).profiles = s.profiles
      ∧ (s.changeCellQuiet c f g).geometry = s.geometry ∧ (s.changeCellQuiet c f g).settings = s.settings
      ∧ (s.changeCellQuiet c f g).csq = s.csq ∧ (s.changeCellQuiet c f g).mge = s.mge
      ∧ (s.changeCellQuiet c f g).cal = s.cal ∧ (s.changeCellQuiet c f g).plr = s.plr
      ∧ (s.changeCellQuiet c f g).ltc = s.ltc ∧ (s.changeCellQuiet c f g).tbu = s.tbu
      ∧ (s.changeCellQuiet c f g).fsc = s.fsc ∧ (s.changeCellQuiet c f g).dlt = s.dlt
      ∧ (s.changeCellQuiet c f g).ports = s.ports := by
  and_intros <;>
    rfl

@[simp] theorem State.changeCell_frame (s : State) (c : CellRef) (f : CellRecord → CellRecord) (g : PlateRecord → PlateRecord) :
    (s.changeCell c f g).pending = s.pending ∧ (s.changeCell c f g).freeCount = s.freeCount
      ∧ (s.changeCell c f g).profiles = s.profiles ∧ (s.changeCell c f g).geometry = s.geometry
      ∧ (s.changeCell c f g).settings = s.settings ∧ (s.changeCell c f g).csq = s.csq
      ∧ (s.changeCell c f g).mge = s.mge ∧ (s.changeCell c f g).cal = s.cal ∧ (s.changeCell c f g).plr = s.plr
      ∧ (s.changeCell c f g).fsc = s.fsc ∧ (s.changeCell c f g).dlt = s.dlt
      ∧ (s.changeCell c f g).ports = s.ports ∧ (s.changeCell c f g).ltc.windowOpen = s.ltc.windowOpen
      ∧ (s.changeCell c f g).tbu.clock = s.tbu.clock ∧ (s.changeCell c f g).tbu.lampMinutes = s.tbu.lampMinutes
      ∧ (s.changeCell c f g).tbu.lampSeconds = s.tbu.lampSeconds := by
  and_intros <;>
    (unfold State.changeCell; dsimp only; (repeat' split) <;> (try simp))

@[simp] theorem State.startPass_frame (s : State) :
    (s.startPass).pending = s.pending ∧ (s.startPass).raised = s.raised ∧ (s.startPass).freeCount = s.freeCount
      ∧ (s.startPass).plates = s.plates ∧ (s.startPass).profiles = s.profiles
      ∧ (s.startPass).geometry = s.geometry ∧ (s.startPass).settings = s.settings ∧ (s.startPass).csq = s.csq
      ∧ (s.startPass).cal = s.cal ∧ (s.startPass).plr = s.plr ∧ (s.startPass).ltc = s.ltc
      ∧ (s.startPass).tbu = s.tbu ∧ (s.startPass).fsc = s.fsc ∧ (s.startPass).dlt = s.dlt
      ∧ (s.startPass).ports = s.ports ∧ (s.startPass).mge.queue = s.mge.queue := by
  and_intros <;>
    (unfold State.startPass; (repeat' split) <;> rfl)

@[simp] theorem State.returnSlot_frame (s : State) (k : SlotNo) :
    (s.returnSlot k).pending = s.pending ∧ (s.returnSlot k).raised = s.raised
      ∧ (s.returnSlot k).freeCount = s.freeCount ∧ (s.returnSlot k).plates = s.plates
      ∧ (s.returnSlot k).profiles = s.profiles ∧ (s.returnSlot k).geometry = s.geometry
      ∧ (s.returnSlot k).settings = s.settings ∧ (s.returnSlot k).csq = s.csq ∧ (s.returnSlot k).cal = s.cal
      ∧ (s.returnSlot k).ltc = s.ltc ∧ (s.returnSlot k).tbu = s.tbu ∧ (s.returnSlot k).dlt = s.dlt
      ∧ (s.returnSlot k).ports = s.ports ∧ (s.returnSlot k).plr.faultCount = s.plr.faultCount
      ∧ (s.returnSlot k).plr.link = s.plr.link ∧ (s.returnSlot k).plr.awaitedTag = s.plr.awaitedTag
      ∧ (s.returnSlot k).plr.reception = s.plr.reception ∧ (s.returnSlot k).plr.nextRow = s.plr.nextRow
      ∧ (s.returnSlot k).plr.tornCount = s.plr.tornCount ∧ (s.returnSlot k).plr.tagCounter = s.plr.tagCounter
      ∧ (s.returnSlot k).plr.capture = s.plr.capture ∧ (s.returnSlot k).plr.requester = s.plr.requester
      ∧ (s.returnSlot k).fsc.state = s.fsc.state ∧ (s.returnSlot k).fsc.mem = s.fsc.mem
      ∧ (s.returnSlot k).fsc.refreshOwed = s.fsc.refreshOwed ∧ (s.returnSlot k).fsc.reason = s.fsc.reason
      ∧ (s.returnSlot k).fsc.mask = s.fsc.mask ∧ (s.returnSlot k).fsc.retain = s.fsc.retain := by
  and_intros <;>
    simp [State.returnSlot]

@[simp] theorem State.returnSlots_frame (s : State) (ks : List SlotNo) :
    (s.returnSlots ks).pending = s.pending ∧ (s.returnSlots ks).raised = s.raised
      ∧ (s.returnSlots ks).freeCount = s.freeCount ∧ (s.returnSlots ks).plates = s.plates
      ∧ (s.returnSlots ks).profiles = s.profiles ∧ (s.returnSlots ks).geometry = s.geometry
      ∧ (s.returnSlots ks).settings = s.settings ∧ (s.returnSlots ks).csq = s.csq
      ∧ (s.returnSlots ks).cal = s.cal ∧ (s.returnSlots ks).ltc = s.ltc ∧ (s.returnSlots ks).tbu = s.tbu
      ∧ (s.returnSlots ks).dlt = s.dlt ∧ (s.returnSlots ks).ports = s.ports
      ∧ (s.returnSlots ks).plr.faultCount = s.plr.faultCount ∧ (s.returnSlots ks).plr.link = s.plr.link
      ∧ (s.returnSlots ks).plr.awaitedTag = s.plr.awaitedTag
      ∧ (s.returnSlots ks).plr.reception = s.plr.reception ∧ (s.returnSlots ks).plr.nextRow = s.plr.nextRow
      ∧ (s.returnSlots ks).plr.tornCount = s.plr.tornCount
      ∧ (s.returnSlots ks).plr.tagCounter = s.plr.tagCounter ∧ (s.returnSlots ks).plr.capture = s.plr.capture
      ∧ (s.returnSlots ks).plr.requester = s.plr.requester ∧ (s.returnSlots ks).fsc.state = s.fsc.state
      ∧ (s.returnSlots ks).fsc.mem = s.fsc.mem ∧ (s.returnSlots ks).fsc.refreshOwed = s.fsc.refreshOwed
      ∧ (s.returnSlots ks).fsc.reason = s.fsc.reason ∧ (s.returnSlots ks).fsc.mask = s.fsc.mask
      ∧ (s.returnSlots ks).fsc.retain = s.fsc.retain := by
  and_intros <;>
    (unfold State.returnSlots; induction ks generalizing s with
      | nil => rfl
      | cons k ks ih => simp only [List.foldl]; rw [ih]; simp)

@[simp] theorem State.claimSlot_frame (s : State) (k : SlotNo) (c : CellRef) :
    (s.claimSlot k c).pending = s.pending ∧ (s.claimSlot k c).raised = s.raised
      ∧ (s.claimSlot k c).freeCount = s.freeCount ∧ (s.claimSlot k c).plates = s.plates
      ∧ (s.claimSlot k c).profiles = s.profiles ∧ (s.claimSlot k c).geometry = s.geometry
      ∧ (s.claimSlot k c).settings = s.settings ∧ (s.claimSlot k c).csq = s.csq ∧ (s.claimSlot k c).mge = s.mge
      ∧ (s.claimSlot k c).cal = s.cal ∧ (s.claimSlot k c).plr = s.plr ∧ (s.claimSlot k c).ltc = s.ltc
      ∧ (s.claimSlot k c).tbu = s.tbu ∧ (s.claimSlot k c).dlt = s.dlt ∧ (s.claimSlot k c).ports = s.ports
      ∧ (s.claimSlot k c).fsc.state = s.fsc.state ∧ (s.claimSlot k c).fsc.mem = s.fsc.mem
      ∧ (s.claimSlot k c).fsc.refreshOwed = s.fsc.refreshOwed ∧ (s.claimSlot k c).fsc.reason = s.fsc.reason
      ∧ (s.claimSlot k c).fsc.mask = s.fsc.mask ∧ (s.claimSlot k c).fsc.retain = s.fsc.retain
      ∧ (s.claimSlot k c).fsc.access = s.fsc.access := by
  and_intros <;>
    rfl

@[simp] theorem State.startClear_frame (s : State) (k : SlotNo) (c : CellRef) (satS floorF : Nat) :
    (s.startClear k c satS floorF).pending = s.pending ∧ (s.startClear k c satS floorF).raised = s.raised
      ∧ (s.startClear k c satS floorF).freeCount = s.freeCount
      ∧ (s.startClear k c satS floorF).plates = s.plates ∧ (s.startClear k c satS floorF).profiles = s.profiles
      ∧ (s.startClear k c satS floorF).geometry = s.geometry
      ∧ (s.startClear k c satS floorF).settings = s.settings ∧ (s.startClear k c satS floorF).csq = s.csq
      ∧ (s.startClear k c satS floorF).cal = s.cal ∧ (s.startClear k c satS floorF).plr = s.plr
      ∧ (s.startClear k c satS floorF).ltc = s.ltc ∧ (s.startClear k c satS floorF).tbu = s.tbu
      ∧ (s.startClear k c satS floorF).fsc = s.fsc ∧ (s.startClear k c satS floorF).dlt = s.dlt
      ∧ (s.startClear k c satS floorF).ports = s.ports ∧ (s.startClear k c satS floorF).mge.queue = s.mge.queue := by
  and_intros <;>
    rfl

@[simp] theorem State.queuePass_frame (s : State) (k : SlotNo) (qceil : Nat) :
    (s.queuePass k qceil).pending = s.pending ∧ (s.queuePass k qceil).raised = s.raised
      ∧ (s.queuePass k qceil).freeCount = s.freeCount ∧ (s.queuePass k qceil).plates = s.plates
      ∧ (s.queuePass k qceil).profiles = s.profiles ∧ (s.queuePass k qceil).geometry = s.geometry
      ∧ (s.queuePass k qceil).settings = s.settings ∧ (s.queuePass k qceil).csq = s.csq
      ∧ (s.queuePass k qceil).cal = s.cal ∧ (s.queuePass k qceil).plr = s.plr
      ∧ (s.queuePass k qceil).ltc = s.ltc ∧ (s.queuePass k qceil).tbu = s.tbu
      ∧ (s.queuePass k qceil).fsc = s.fsc ∧ (s.queuePass k qceil).dlt = s.dlt
      ∧ (s.queuePass k qceil).ports = s.ports := by
  and_intros <;>
    simp [State.queuePass]

@[simp] theorem State.dequeue_frame (s : State) (c : CellRef) :
    (s.dequeue c).pending = s.pending ∧ (s.dequeue c).raised = s.raised ∧ (s.dequeue c).freeCount = s.freeCount
      ∧ (s.dequeue c).plates = s.plates ∧ (s.dequeue c).profiles = s.profiles
      ∧ (s.dequeue c).geometry = s.geometry ∧ (s.dequeue c).settings = s.settings ∧ (s.dequeue c).csq = s.csq
      ∧ (s.dequeue c).mge = s.mge ∧ (s.dequeue c).cal = s.cal ∧ (s.dequeue c).plr = s.plr
      ∧ (s.dequeue c).ltc = s.ltc ∧ (s.dequeue c).tbu = s.tbu ∧ (s.dequeue c).fsc = s.fsc
      ∧ (s.dequeue c).ports = s.ports ∧ (s.dequeue c).dlt.mode = s.dlt.mode
      ∧ (s.dequeue c).dlt.ready = s.dlt.ready ∧ (s.dequeue c).dlt.link = s.dlt.link
      ∧ (s.dequeue c).dlt.stream = s.dlt.stream := by
  and_intros <;>
    rfl

@[simp] theorem State.sendTrigger_frame (s : State) (who : Requester) (time : Nat) (lamp : LampRequirement) (decision : Decision) :
    (s.sendTrigger who time lamp decision).pending = s.pending
      ∧ (s.sendTrigger who time lamp decision).raised = s.raised
      ∧ (s.sendTrigger who time lamp decision).freeCount = s.freeCount
      ∧ (s.sendTrigger who time lamp decision).plates = s.plates
      ∧ (s.sendTrigger who time lamp decision).profiles = s.profiles
      ∧ (s.sendTrigger who time lamp decision).geometry = s.geometry
      ∧ (s.sendTrigger who time lamp decision).settings = s.settings
      ∧ (s.sendTrigger who time lamp decision).csq = s.csq ∧ (s.sendTrigger who time lamp decision).mge = s.mge
      ∧ (s.sendTrigger who time lamp decision).cal = s.cal ∧ (s.sendTrigger who time lamp decision).ltc = s.ltc
      ∧ (s.sendTrigger who time lamp decision).fsc = s.fsc ∧ (s.sendTrigger who time lamp decision).dlt = s.dlt
      ∧ (s.sendTrigger who time lamp decision).ports = s.ports
      ∧ (s.sendTrigger who time lamp decision).plr.faultCount = s.plr.faultCount
      ∧ (s.sendTrigger who time lamp decision).plr.link = s.plr.link
      ∧ (s.sendTrigger who time lamp decision).plr.queue = s.plr.queue
      ∧ (s.sendTrigger who time lamp decision).plr.reception = s.plr.reception
      ∧ (s.sendTrigger who time lamp decision).plr.nextRow = s.plr.nextRow
      ∧ (s.sendTrigger who time lamp decision).plr.capture = s.plr.capture
      ∧ (s.sendTrigger who time lamp decision).tbu.clock = s.tbu.clock
      ∧ (s.sendTrigger who time lamp decision).tbu.lampMinutes = s.tbu.lampMinutes
      ∧ (s.sendTrigger who time lamp decision).tbu.lampSeconds = s.tbu.lampSeconds := by
  and_intros <;>
    rfl

@[simp] theorem State.cancelWait_frame (s : State) :
    (s.cancelWait).pending = s.pending ∧ (s.cancelWait).raised = s.raised
      ∧ (s.cancelWait).freeCount = s.freeCount ∧ (s.cancelWait).plates = s.plates
      ∧ (s.cancelWait).profiles = s.profiles ∧ (s.cancelWait).geometry = s.geometry
      ∧ (s.cancelWait).settings = s.settings ∧ (s.cancelWait).csq = s.csq ∧ (s.cancelWait).mge = s.mge
      ∧ (s.cancelWait).cal = s.cal ∧ (s.cancelWait).ltc = s.ltc ∧ (s.cancelWait).fsc = s.fsc
      ∧ (s.cancelWait).dlt = s.dlt ∧ (s.cancelWait).ports = s.ports
      ∧ (s.cancelWait).plr.faultCount = s.plr.faultCount ∧ (s.cancelWait).plr.link = s.plr.link
      ∧ (s.cancelWait).plr.nextRow = s.plr.nextRow ∧ (s.cancelWait).plr.tornCount = s.plr.tornCount
      ∧ (s.cancelWait).plr.tagCounter = s.plr.tagCounter ∧ (s.cancelWait).plr.capture = s.plr.capture
      ∧ (s.cancelWait).plr.requester = s.plr.requester ∧ (s.cancelWait).tbu.clock = s.tbu.clock
      ∧ (s.cancelWait).tbu.lampMinutes = s.tbu.lampMinutes ∧ (s.cancelWait).tbu.lampSeconds = s.tbu.lampSeconds := by
  and_intros <;>
    rfl

@[simp] theorem State.calibNotice_frame (s : State) (kind : Option CalKind) (result : CalResult) (flat : Option (Nat × Nat × Nat)) (reached : Option (Nat × Nat)) :
    (s.calibNotice kind result flat reached).pending = s.pending
      ∧ (s.calibNotice kind result flat reached).freeCount = s.freeCount
      ∧ (s.calibNotice kind result flat reached).plates = s.plates
      ∧ (s.calibNotice kind result flat reached).profiles = s.profiles
      ∧ (s.calibNotice kind result flat reached).geometry = s.geometry
      ∧ (s.calibNotice kind result flat reached).settings = s.settings
      ∧ (s.calibNotice kind result flat reached).csq = s.csq
      ∧ (s.calibNotice kind result flat reached).mge = s.mge
      ∧ (s.calibNotice kind result flat reached).cal = s.cal
      ∧ (s.calibNotice kind result flat reached).plr = s.plr
      ∧ (s.calibNotice kind result flat reached).ltc = s.ltc
      ∧ (s.calibNotice kind result flat reached).tbu = s.tbu
      ∧ (s.calibNotice kind result flat reached).fsc = s.fsc
      ∧ (s.calibNotice kind result flat reached).dlt = s.dlt
      ∧ (s.calibNotice kind result flat reached).ports = s.ports := by
  and_intros <;>
    rfl

@[simp] theorem State.setCalRecord_frame (s : State) (f : CalRecord → CalRecord) :
    (s.setCalRecord f).pending = s.pending ∧ (s.setCalRecord f).freeCount = s.freeCount
      ∧ (s.setCalRecord f).plates = s.plates ∧ (s.setCalRecord f).profiles = s.profiles
      ∧ (s.setCalRecord f).geometry = s.geometry ∧ (s.setCalRecord f).settings = s.settings
      ∧ (s.setCalRecord f).csq = s.csq ∧ (s.setCalRecord f).mge = s.mge ∧ (s.setCalRecord f).plr = s.plr
      ∧ (s.setCalRecord f).ltc = s.ltc ∧ (s.setCalRecord f).tbu = s.tbu ∧ (s.setCalRecord f).fsc = s.fsc
      ∧ (s.setCalRecord f).dlt = s.dlt ∧ (s.setCalRecord f).ports = s.ports
      ∧ (s.setCalRecord f).cal.op = s.cal.op ∧ (s.setCalRecord f).cal.tally = s.cal.tally := by
  and_intros <;>
    rfl

@[simp] theorem State.onOp_frame (s : State) (f : CalOp → CalOp) :
    (s.onOp f).pending = s.pending ∧ (s.onOp f).raised = s.raised ∧ (s.onOp f).freeCount = s.freeCount
      ∧ (s.onOp f).plates = s.plates ∧ (s.onOp f).profiles = s.profiles ∧ (s.onOp f).geometry = s.geometry
      ∧ (s.onOp f).settings = s.settings ∧ (s.onOp f).csq = s.csq ∧ (s.onOp f).mge = s.mge
      ∧ (s.onOp f).plr = s.plr ∧ (s.onOp f).ltc = s.ltc ∧ (s.onOp f).tbu = s.tbu ∧ (s.onOp f).fsc = s.fsc
      ∧ (s.onOp f).dlt = s.dlt ∧ (s.onOp f).ports = s.ports ∧ (s.onOp f).cal.record = s.cal.record
      ∧ (s.onOp f).cal.tally = s.cal.tally := by
  and_intros <;>
    rfl

@[simp] theorem State.endCalibration_frame (s : State) (op : CalOp) :
    (s.endCalibration op).pending = s.pending ∧ (s.endCalibration op).raised = s.raised
      ∧ (s.endCalibration op).freeCount = s.freeCount ∧ (s.endCalibration op).plates = s.plates
      ∧ (s.endCalibration op).profiles = s.profiles ∧ (s.endCalibration op).geometry = s.geometry
      ∧ (s.endCalibration op).settings = s.settings ∧ (s.endCalibration op).csq = s.csq
      ∧ (s.endCalibration op).mge = s.mge ∧ (s.endCalibration op).plr = s.plr
      ∧ (s.endCalibration op).ltc = s.ltc ∧ (s.endCalibration op).fsc = s.fsc
      ∧ (s.endCalibration op).dlt = s.dlt ∧ (s.endCalibration op).ports = s.ports
      ∧ (s.endCalibration op).cal.record = s.cal.record ∧ (s.endCalibration op).cal.tally = s.cal.tally
      ∧ (s.endCalibration op).tbu.clock = s.tbu.clock
      ∧ (s.endCalibration op).tbu.lampMinutes = s.tbu.lampMinutes
      ∧ (s.endCalibration op).tbu.lampSeconds = s.tbu.lampSeconds := by
  and_intros <;>
    (unfold State.endCalibration; (repeat' split) <;> simp)

@[simp] theorem State.failCalibration_frame (s : State) (reason : CalResult) :
    (s.failCalibration reason).pending = s.pending ∧ (s.failCalibration reason).freeCount = s.freeCount
      ∧ (s.failCalibration reason).plates = s.plates ∧ (s.failCalibration reason).profiles = s.profiles
      ∧ (s.failCalibration reason).geometry = s.geometry ∧ (s.failCalibration reason).settings = s.settings
      ∧ (s.failCalibration reason).csq = s.csq ∧ (s.failCalibration reason).mge = s.mge
      ∧ (s.failCalibration reason).dlt = s.dlt ∧ (s.failCalibration reason).ports = s.ports
      ∧ (s.failCalibration reason).cal.record = s.cal.record
      ∧ (s.failCalibration reason).cal.tally = s.cal.tally
      ∧ (s.failCalibration reason).plr.faultCount = s.plr.faultCount
      ∧ (s.failCalibration reason).plr.link = s.plr.link
      ∧ (s.failCalibration reason).plr.nextRow = s.plr.nextRow
      ∧ (s.failCalibration reason).plr.tornCount = s.plr.tornCount
      ∧ (s.failCalibration reason).plr.tagCounter = s.plr.tagCounter
      ∧ (s.failCalibration reason).plr.capture = s.plr.capture
      ∧ (s.failCalibration reason).plr.requester = s.plr.requester
      ∧ (s.failCalibration reason).ltc.lamp = s.ltc.lamp ∧ (s.failCalibration reason).tbu.clock = s.tbu.clock
      ∧ (s.failCalibration reason).tbu.lampMinutes = s.tbu.lampMinutes
      ∧ (s.failCalibration reason).tbu.lampSeconds = s.tbu.lampSeconds
      ∧ (s.failCalibration reason).fsc.state = s.fsc.state ∧ (s.failCalibration reason).fsc.mem = s.fsc.mem
      ∧ (s.failCalibration reason).fsc.refreshOwed = s.fsc.refreshOwed
      ∧ (s.failCalibration reason).fsc.reason = s.fsc.reason ∧ (s.failCalibration reason).fsc.mask = s.fsc.mask
      ∧ (s.failCalibration reason).fsc.retain = s.fsc.retain ∧ (s.failCalibration reason).fsc.held = s.fsc.held := by
  and_intros <;>
    (unfold State.failCalibration; (repeat' split) <;> simp)

@[simp] theorem State.darkComplete_frame (s : State) (op : CalOp) :
    (s.darkComplete op).pending = s.pending ∧ (s.darkComplete op).freeCount = s.freeCount
      ∧ (s.darkComplete op).plates = s.plates ∧ (s.darkComplete op).profiles = s.profiles
      ∧ (s.darkComplete op).geometry = s.geometry ∧ (s.darkComplete op).settings = s.settings
      ∧ (s.darkComplete op).csq = s.csq ∧ (s.darkComplete op).mge = s.mge ∧ (s.darkComplete op).plr = s.plr
      ∧ (s.darkComplete op).ltc = s.ltc ∧ (s.darkComplete op).fsc = s.fsc ∧ (s.darkComplete op).dlt = s.dlt
      ∧ (s.darkComplete op).ports = s.ports ∧ (s.darkComplete op).cal.tally = s.cal.tally
      ∧ (s.darkComplete op).tbu.clock = s.tbu.clock ∧ (s.darkComplete op).tbu.lampMinutes = s.tbu.lampMinutes
      ∧ (s.darkComplete op).tbu.lampSeconds = s.tbu.lampSeconds := by
  and_intros <;>
    simp [State.darkComplete]

@[simp] theorem State.attemptEnded_frame (s : State) (op : CalOp) :
    (s.attemptEnded op).pending = s.pending ∧ (s.attemptEnded op).freeCount = s.freeCount
      ∧ (s.attemptEnded op).plates = s.plates ∧ (s.attemptEnded op).profiles = s.profiles
      ∧ (s.attemptEnded op).geometry = s.geometry ∧ (s.attemptEnded op).settings = s.settings
      ∧ (s.attemptEnded op).csq = s.csq ∧ (s.attemptEnded op).mge = s.mge ∧ (s.attemptEnded op).dlt = s.dlt
      ∧ (s.attemptEnded op).ports = s.ports ∧ (s.attemptEnded op).cal.tally = s.cal.tally
      ∧ (s.attemptEnded op).plr.faultCount = s.plr.faultCount ∧ (s.attemptEnded op).plr.link = s.plr.link
      ∧ (s.attemptEnded op).plr.nextRow = s.plr.nextRow ∧ (s.attemptEnded op).plr.tornCount = s.plr.tornCount
      ∧ (s.attemptEnded op).plr.tagCounter = s.plr.tagCounter ∧ (s.attemptEnded op).plr.capture = s.plr.capture
      ∧ (s.attemptEnded op).plr.requester = s.plr.requester ∧ (s.attemptEnded op).ltc.lamp = s.ltc.lamp
      ∧ (s.attemptEnded op).tbu.clock = s.tbu.clock ∧ (s.attemptEnded op).tbu.lampMinutes = s.tbu.lampMinutes
      ∧ (s.attemptEnded op).tbu.lampSeconds = s.tbu.lampSeconds ∧ (s.attemptEnded op).fsc.state = s.fsc.state
      ∧ (s.attemptEnded op).fsc.mem = s.fsc.mem ∧ (s.attemptEnded op).fsc.refreshOwed = s.fsc.refreshOwed
      ∧ (s.attemptEnded op).fsc.reason = s.fsc.reason ∧ (s.attemptEnded op).fsc.mask = s.fsc.mask
      ∧ (s.attemptEnded op).fsc.retain = s.fsc.retain ∧ (s.attemptEnded op).fsc.held = s.fsc.held := by
  and_intros <;>
    (unfold State.attemptEnded; (repeat' split) <;> simp)

@[simp] theorem State.pollAttempt_frame (s : State) :
    (s.pollAttempt).pending = s.pending ∧ (s.pollAttempt).freeCount = s.freeCount
      ∧ (s.pollAttempt).plates = s.plates ∧ (s.pollAttempt).profiles = s.profiles
      ∧ (s.pollAttempt).geometry = s.geometry ∧ (s.pollAttempt).settings = s.settings
      ∧ (s.pollAttempt).csq = s.csq ∧ (s.pollAttempt).mge = s.mge ∧ (s.pollAttempt).dlt = s.dlt
      ∧ (s.pollAttempt).ports = s.ports ∧ (s.pollAttempt).cal.tally = s.cal.tally
      ∧ (s.pollAttempt).plr.faultCount = s.plr.faultCount ∧ (s.pollAttempt).plr.link = s.plr.link
      ∧ (s.pollAttempt).plr.nextRow = s.plr.nextRow ∧ (s.pollAttempt).plr.tornCount = s.plr.tornCount
      ∧ (s.pollAttempt).plr.tagCounter = s.plr.tagCounter ∧ (s.pollAttempt).plr.capture = s.plr.capture
      ∧ (s.pollAttempt).plr.requester = s.plr.requester ∧ (s.pollAttempt).ltc.lamp = s.ltc.lamp
      ∧ (s.pollAttempt).tbu.clock = s.tbu.clock ∧ (s.pollAttempt).tbu.lampMinutes = s.tbu.lampMinutes
      ∧ (s.pollAttempt).tbu.lampSeconds = s.tbu.lampSeconds ∧ (s.pollAttempt).fsc.state = s.fsc.state
      ∧ (s.pollAttempt).fsc.mem = s.fsc.mem ∧ (s.pollAttempt).fsc.refreshOwed = s.fsc.refreshOwed
      ∧ (s.pollAttempt).fsc.reason = s.fsc.reason ∧ (s.pollAttempt).fsc.mask = s.fsc.mask
      ∧ (s.pollAttempt).fsc.retain = s.fsc.retain ∧ (s.pollAttempt).fsc.held = s.fsc.held := by
  and_intros <;>
    (unfold State.pollAttempt; (repeat' split) <;> simp)

@[simp] theorem State.triggerAttempt_frame (s : State) (op : CalOp) :
    (s.triggerAttempt op).pending = s.pending ∧ (s.triggerAttempt op).raised = s.raised
      ∧ (s.triggerAttempt op).freeCount = s.freeCount ∧ (s.triggerAttempt op).plates = s.plates
      ∧ (s.triggerAttempt op).profiles = s.profiles ∧ (s.triggerAttempt op).geometry = s.geometry
      ∧ (s.triggerAttempt op).settings = s.settings ∧ (s.triggerAttempt op).csq = s.csq
      ∧ (s.triggerAttempt op).mge = s.mge ∧ (s.triggerAttempt op).ltc = s.ltc
      ∧ (s.triggerAttempt op).fsc = s.fsc ∧ (s.triggerAttempt op).dlt = s.dlt
      ∧ (s.triggerAttempt op).ports = s.ports ∧ (s.triggerAttempt op).cal.record = s.cal.record
      ∧ (s.triggerAttempt op).cal.tally = s.cal.tally ∧ (s.triggerAttempt op).plr.faultCount = s.plr.faultCount
      ∧ (s.triggerAttempt op).plr.link = s.plr.link ∧ (s.triggerAttempt op).plr.queue = s.plr.queue
      ∧ (s.triggerAttempt op).plr.reception = s.plr.reception
      ∧ (s.triggerAttempt op).plr.nextRow = s.plr.nextRow ∧ (s.triggerAttempt op).plr.capture = s.plr.capture
      ∧ (s.triggerAttempt op).tbu.clock = s.tbu.clock
      ∧ (s.triggerAttempt op).tbu.lampMinutes = s.tbu.lampMinutes
      ∧ (s.triggerAttempt op).tbu.lampSeconds = s.tbu.lampSeconds := by
  and_intros <;>
    (unfold State.triggerAttempt; (repeat' split) <;> rfl)

@[simp] theorem State.pollAttemptTrigger_frame (s : State) :
    (s.pollAttemptTrigger).pending = s.pending ∧ (s.pollAttemptTrigger).raised = s.raised
      ∧ (s.pollAttemptTrigger).freeCount = s.freeCount ∧ (s.pollAttemptTrigger).plates = s.plates
      ∧ (s.pollAttemptTrigger).profiles = s.profiles ∧ (s.pollAttemptTrigger).geometry = s.geometry
      ∧ (s.pollAttemptTrigger).settings = s.settings ∧ (s.pollAttemptTrigger).csq = s.csq
      ∧ (s.pollAttemptTrigger).mge = s.mge ∧ (s.pollAttemptTrigger).ltc = s.ltc
      ∧ (s.pollAttemptTrigger).fsc = s.fsc ∧ (s.pollAttemptTrigger).dlt = s.dlt
      ∧ (s.pollAttemptTrigger).ports = s.ports ∧ (s.pollAttemptTrigger).cal.record = s.cal.record
      ∧ (s.pollAttemptTrigger).cal.tally = s.cal.tally
      ∧ (s.pollAttemptTrigger).plr.faultCount = s.plr.faultCount ∧ (s.pollAttemptTrigger).plr.link = s.plr.link
      ∧ (s.pollAttemptTrigger).plr.queue = s.plr.queue ∧ (s.pollAttemptTrigger).plr.reception = s.plr.reception
      ∧ (s.pollAttemptTrigger).plr.nextRow = s.plr.nextRow ∧ (s.pollAttemptTrigger).plr.capture = s.plr.capture
      ∧ (s.pollAttemptTrigger).tbu.clock = s.tbu.clock
      ∧ (s.pollAttemptTrigger).tbu.lampMinutes = s.tbu.lampMinutes
      ∧ (s.pollAttemptTrigger).tbu.lampSeconds = s.tbu.lampSeconds := by
  and_intros <;>
    (unfold State.pollAttemptTrigger; (repeat' split) <;> simp)

@[simp] theorem State.pollCal_frame (s : State) :
    (s.pollCal).pending = s.pending ∧ (s.pollCal).freeCount = s.freeCount ∧ (s.pollCal).plates = s.plates
      ∧ (s.pollCal).profiles = s.profiles ∧ (s.pollCal).geometry = s.geometry
      ∧ (s.pollCal).settings = s.settings ∧ (s.pollCal).csq = s.csq ∧ (s.pollCal).mge = s.mge
      ∧ (s.pollCal).dlt = s.dlt ∧ (s.pollCal).ports = s.ports ∧ (s.pollCal).cal.tally = s.cal.tally
      ∧ (s.pollCal).plr.faultCount = s.plr.faultCount ∧ (s.pollCal).plr.link = s.plr.link
      ∧ (s.pollCal).plr.nextRow = s.plr.nextRow ∧ (s.pollCal).plr.capture = s.plr.capture
      ∧ (s.pollCal).ltc.lamp = s.ltc.lamp ∧ (s.pollCal).tbu.clock = s.tbu.clock
      ∧ (s.pollCal).tbu.lampMinutes = s.tbu.lampMinutes ∧ (s.pollCal).tbu.lampSeconds = s.tbu.lampSeconds
      ∧ (s.pollCal).fsc.state = s.fsc.state ∧ (s.pollCal).fsc.mem = s.fsc.mem
      ∧ (s.pollCal).fsc.refreshOwed = s.fsc.refreshOwed ∧ (s.pollCal).fsc.reason = s.fsc.reason
      ∧ (s.pollCal).fsc.mask = s.fsc.mask ∧ (s.pollCal).fsc.retain = s.fsc.retain
      ∧ (s.pollCal).fsc.held = s.fsc.held := by
  and_intros <;>
    simp [State.pollCal]

@[simp] theorem State.addCalibRow_frame (s : State) (kind : CalKind) (frame y : Nat) (codes : List CameraCode) :
    (s.addCalibRow kind frame y codes).pending = s.pending
      ∧ (s.addCalibRow kind frame y codes).raised = s.raised
      ∧ (s.addCalibRow kind frame y codes).freeCount = s.freeCount
      ∧ (s.addCalibRow kind frame y codes).plates = s.plates
      ∧ (s.addCalibRow kind frame y codes).profiles = s.profiles
      ∧ (s.addCalibRow kind frame y codes).geometry = s.geometry
      ∧ (s.addCalibRow kind frame y codes).settings = s.settings
      ∧ (s.addCalibRow kind frame y codes).csq = s.csq ∧ (s.addCalibRow kind frame y codes).mge = s.mge
      ∧ (s.addCalibRow kind frame y codes).plr = s.plr ∧ (s.addCalibRow kind frame y codes).ltc = s.ltc
      ∧ (s.addCalibRow kind frame y codes).tbu = s.tbu ∧ (s.addCalibRow kind frame y codes).dlt = s.dlt
      ∧ (s.addCalibRow kind frame y codes).ports = s.ports
      ∧ (s.addCalibRow kind frame y codes).cal.record = s.cal.record
      ∧ (s.addCalibRow kind frame y codes).cal.op = s.cal.op
      ∧ (s.addCalibRow kind frame y codes).fsc.state = s.fsc.state
      ∧ (s.addCalibRow kind frame y codes).fsc.refreshOwed = s.fsc.refreshOwed
      ∧ (s.addCalibRow kind frame y codes).fsc.reason = s.fsc.reason
      ∧ (s.addCalibRow kind frame y codes).fsc.mask = s.fsc.mask
      ∧ (s.addCalibRow kind frame y codes).fsc.retain = s.fsc.retain
      ∧ (s.addCalibRow kind frame y codes).fsc.access = s.fsc.access
      ∧ (s.addCalibRow kind frame y codes).fsc.held = s.fsc.held := by
  and_intros <;>
    rfl

@[simp] theorem State.openPassEnded_frame (s : State) (op : CalOp) :
    (s.openPassEnded op).pending = s.pending ∧ (s.openPassEnded op).freeCount = s.freeCount
      ∧ (s.openPassEnded op).plates = s.plates ∧ (s.openPassEnded op).profiles = s.profiles
      ∧ (s.openPassEnded op).geometry = s.geometry ∧ (s.openPassEnded op).settings = s.settings
      ∧ (s.openPassEnded op).csq = s.csq ∧ (s.openPassEnded op).mge = s.mge ∧ (s.openPassEnded op).dlt = s.dlt
      ∧ (s.openPassEnded op).ports = s.ports ∧ (s.openPassEnded op).cal.record = s.cal.record
      ∧ (s.openPassEnded op).cal.tally = s.cal.tally ∧ (s.openPassEnded op).plr.faultCount = s.plr.faultCount
      ∧ (s.openPassEnded op).plr.link = s.plr.link ∧ (s.openPassEnded op).plr.nextRow = s.plr.nextRow
      ∧ (s.openPassEnded op).plr.tornCount = s.plr.tornCount
      ∧ (s.openPassEnded op).plr.tagCounter = s.plr.tagCounter
      ∧ (s.openPassEnded op).plr.capture = s.plr.capture ∧ (s.openPassEnded op).plr.requester = s.plr.requester
      ∧ (s.openPassEnded op).ltc.lamp = s.ltc.lamp ∧ (s.openPassEnded op).tbu.clock = s.tbu.clock
      ∧ (s.openPassEnded op).tbu.lampMinutes = s.tbu.lampMinutes
      ∧ (s.openPassEnded op).tbu.lampSeconds = s.tbu.lampSeconds ∧ (s.openPassEnded op).fsc.state = s.fsc.state
      ∧ (s.openPassEnded op).fsc.mem = s.fsc.mem ∧ (s.openPassEnded op).fsc.refreshOwed = s.fsc.refreshOwed
      ∧ (s.openPassEnded op).fsc.reason = s.fsc.reason ∧ (s.openPassEnded op).fsc.mask = s.fsc.mask
      ∧ (s.openPassEnded op).fsc.retain = s.fsc.retain ∧ (s.openPassEnded op).fsc.held = s.fsc.held := by
  and_intros <;>
    (unfold State.openPassEnded; (repeat' split) <;> simp)

@[simp] theorem State.openRowDone_frame (s : State) (y : Nat) :
    (s.openRowDone y).pending = s.pending ∧ (s.openRowDone y).freeCount = s.freeCount
      ∧ (s.openRowDone y).plates = s.plates ∧ (s.openRowDone y).profiles = s.profiles
      ∧ (s.openRowDone y).geometry = s.geometry ∧ (s.openRowDone y).settings = s.settings
      ∧ (s.openRowDone y).csq = s.csq ∧ (s.openRowDone y).mge = s.mge ∧ (s.openRowDone y).dlt = s.dlt
      ∧ (s.openRowDone y).ports = s.ports ∧ (s.openRowDone y).cal.record = s.cal.record
      ∧ (s.openRowDone y).cal.tally = s.cal.tally ∧ (s.openRowDone y).plr.faultCount = s.plr.faultCount
      ∧ (s.openRowDone y).plr.link = s.plr.link ∧ (s.openRowDone y).plr.nextRow = s.plr.nextRow
      ∧ (s.openRowDone y).plr.tornCount = s.plr.tornCount ∧ (s.openRowDone y).plr.tagCounter = s.plr.tagCounter
      ∧ (s.openRowDone y).plr.capture = s.plr.capture ∧ (s.openRowDone y).plr.requester = s.plr.requester
      ∧ (s.openRowDone y).ltc.lamp = s.ltc.lamp ∧ (s.openRowDone y).tbu.clock = s.tbu.clock
      ∧ (s.openRowDone y).tbu.lampMinutes = s.tbu.lampMinutes
      ∧ (s.openRowDone y).tbu.lampSeconds = s.tbu.lampSeconds ∧ (s.openRowDone y).fsc.state = s.fsc.state
      ∧ (s.openRowDone y).fsc.mem = s.fsc.mem ∧ (s.openRowDone y).fsc.refreshOwed = s.fsc.refreshOwed
      ∧ (s.openRowDone y).fsc.reason = s.fsc.reason ∧ (s.openRowDone y).fsc.mask = s.fsc.mask
      ∧ (s.openRowDone y).fsc.retain = s.fsc.retain ∧ (s.openRowDone y).fsc.held = s.fsc.held := by
  and_intros <;>
    (unfold State.openRowDone; dsimp only; (repeat' split) <;> (try simp))

@[simp] theorem State.flatComplete_frame (s : State) (op : CalOp) :
    (s.flatComplete op).pending = s.pending ∧ (s.flatComplete op).freeCount = s.freeCount
      ∧ (s.flatComplete op).plates = s.plates ∧ (s.flatComplete op).profiles = s.profiles
      ∧ (s.flatComplete op).geometry = s.geometry ∧ (s.flatComplete op).settings = s.settings
      ∧ (s.flatComplete op).csq = s.csq ∧ (s.flatComplete op).mge = s.mge ∧ (s.flatComplete op).plr = s.plr
      ∧ (s.flatComplete op).ltc = s.ltc ∧ (s.flatComplete op).fsc = s.fsc ∧ (s.flatComplete op).dlt = s.dlt
      ∧ (s.flatComplete op).ports = s.ports ∧ (s.flatComplete op).cal.tally = s.cal.tally
      ∧ (s.flatComplete op).tbu.clock = s.tbu.clock ∧ (s.flatComplete op).tbu.lampMinutes = s.tbu.lampMinutes
      ∧ (s.flatComplete op).tbu.lampSeconds = s.tbu.lampSeconds := by
  and_intros <;>
    simp [State.flatComplete]

@[simp] theorem State.gainRowDone_frame (s : State) (op : CalOp) (y : Nat) :
    (s.gainRowDone op y).pending = s.pending ∧ (s.gainRowDone op y).freeCount = s.freeCount
      ∧ (s.gainRowDone op y).plates = s.plates ∧ (s.gainRowDone op y).profiles = s.profiles
      ∧ (s.gainRowDone op y).geometry = s.geometry ∧ (s.gainRowDone op y).settings = s.settings
      ∧ (s.gainRowDone op y).csq = s.csq ∧ (s.gainRowDone op y).mge = s.mge ∧ (s.gainRowDone op y).plr = s.plr
      ∧ (s.gainRowDone op y).ltc = s.ltc ∧ (s.gainRowDone op y).dlt = s.dlt
      ∧ (s.gainRowDone op y).ports = s.ports ∧ (s.gainRowDone op y).cal.tally = s.cal.tally
      ∧ (s.gainRowDone op y).tbu.clock = s.tbu.clock ∧ (s.gainRowDone op y).tbu.lampMinutes = s.tbu.lampMinutes
      ∧ (s.gainRowDone op y).tbu.lampSeconds = s.tbu.lampSeconds ∧ (s.gainRowDone op y).fsc.state = s.fsc.state
      ∧ (s.gainRowDone op y).fsc.refreshOwed = s.fsc.refreshOwed
      ∧ (s.gainRowDone op y).fsc.reason = s.fsc.reason ∧ (s.gainRowDone op y).fsc.mask = s.fsc.mask
      ∧ (s.gainRowDone op y).fsc.retain = s.fsc.retain ∧ (s.gainRowDone op y).fsc.access = s.fsc.access
      ∧ (s.gainRowDone op y).fsc.held = s.fsc.held := by
  and_intros <;>
    (unfold State.gainRowDone; dsimp only; (repeat' split) <;> (try simp))

@[simp] theorem State.ageCalibration_frame (s : State) :
    (s.ageCalibration).pending = s.pending ∧ (s.ageCalibration).freeCount = s.freeCount
      ∧ (s.ageCalibration).plates = s.plates ∧ (s.ageCalibration).profiles = s.profiles
      ∧ (s.ageCalibration).geometry = s.geometry ∧ (s.ageCalibration).settings = s.settings
      ∧ (s.ageCalibration).csq = s.csq ∧ (s.ageCalibration).mge = s.mge ∧ (s.ageCalibration).plr = s.plr
      ∧ (s.ageCalibration).ltc = s.ltc ∧ (s.ageCalibration).tbu = s.tbu ∧ (s.ageCalibration).fsc = s.fsc
      ∧ (s.ageCalibration).dlt = s.dlt ∧ (s.ageCalibration).ports = s.ports
      ∧ (s.ageCalibration).cal.op = s.cal.op ∧ (s.ageCalibration).cal.tally = s.cal.tally := by
  and_intros <;>
    (unfold State.ageCalibration; dsimp only; (repeat' split) <;> (try simp))

@[simp] theorem State.setLife_frame (s : State) (life : Nat) :
    (s.setLife life).pending = s.pending ∧ (s.setLife life).freeCount = s.freeCount
      ∧ (s.setLife life).plates = s.plates ∧ (s.setLife life).profiles = s.profiles
      ∧ (s.setLife life).geometry = s.geometry ∧ (s.setLife life).settings = s.settings
      ∧ (s.setLife life).csq = s.csq ∧ (s.setLife life).mge = s.mge ∧ (s.setLife life).plr = s.plr
      ∧ (s.setLife life).ltc = s.ltc ∧ (s.setLife life).tbu = s.tbu ∧ (s.setLife life).fsc = s.fsc
      ∧ (s.setLife life).dlt = s.dlt ∧ (s.setLife life).ports = s.ports ∧ (s.setLife life).cal.op = s.cal.op
      ∧ (s.setLife life).cal.tally = s.cal.tally := by
  and_intros <;>
    (unfold State.setLife; (repeat' split) <;> rfl)

@[simp] theorem State.setCsq_frame (s : State) (x : CsqState) :
    (s.setCsq x).pending = s.pending ∧ (s.setCsq x).raised = s.raised ∧ (s.setCsq x).freeCount = s.freeCount
      ∧ (s.setCsq x).plates = s.plates ∧ (s.setCsq x).profiles = s.profiles
      ∧ (s.setCsq x).geometry = s.geometry ∧ (s.setCsq x).settings = s.settings ∧ (s.setCsq x).mge = s.mge
      ∧ (s.setCsq x).cal = s.cal ∧ (s.setCsq x).plr = s.plr ∧ (s.setCsq x).ltc = s.ltc
      ∧ (s.setCsq x).tbu = s.tbu ∧ (s.setCsq x).fsc = s.fsc ∧ (s.setCsq x).dlt = s.dlt
      ∧ (s.setCsq x).ports = s.ports ∧ (s.setCsq x).csq.ctx = s.csq.ctx
      ∧ (s.setCsq x).csq.moveCounter = s.csq.moveCounter ∧ (s.setCsq x).csq.move = s.csq.move := by
  and_intros <;>
    rfl

@[simp] theorem State.onCtx_frame (s : State) (f : TryContext → TryContext) :
    (s.onCtx f).pending = s.pending ∧ (s.onCtx f).raised = s.raised ∧ (s.onCtx f).freeCount = s.freeCount
      ∧ (s.onCtx f).plates = s.plates ∧ (s.onCtx f).profiles = s.profiles ∧ (s.onCtx f).geometry = s.geometry
      ∧ (s.onCtx f).settings = s.settings ∧ (s.onCtx f).mge = s.mge ∧ (s.onCtx f).cal = s.cal
      ∧ (s.onCtx f).plr = s.plr ∧ (s.onCtx f).ltc = s.ltc ∧ (s.onCtx f).tbu = s.tbu ∧ (s.onCtx f).fsc = s.fsc
      ∧ (s.onCtx f).dlt = s.dlt ∧ (s.onCtx f).ports = s.ports ∧ (s.onCtx f).csq.state = s.csq.state
      ∧ (s.onCtx f).csq.moveCounter = s.csq.moveCounter ∧ (s.onCtx f).csq.move = s.csq.move := by
  and_intros <;>
    rfl

@[simp] theorem State.clearCsq_frame (s : State) :
    (s.clearCsq).pending = s.pending ∧ (s.clearCsq).raised = s.raised ∧ (s.clearCsq).freeCount = s.freeCount
      ∧ (s.clearCsq).plates = s.plates ∧ (s.clearCsq).profiles = s.profiles
      ∧ (s.clearCsq).geometry = s.geometry ∧ (s.clearCsq).settings = s.settings ∧ (s.clearCsq).mge = s.mge
      ∧ (s.clearCsq).cal = s.cal ∧ (s.clearCsq).plr = s.plr ∧ (s.clearCsq).ltc = s.ltc
      ∧ (s.clearCsq).tbu = s.tbu ∧ (s.clearCsq).fsc = s.fsc ∧ (s.clearCsq).dlt = s.dlt
      ∧ (s.clearCsq).ports = s.ports ∧ (s.clearCsq).csq.moveCounter = s.csq.moveCounter
      ∧ (s.clearCsq).csq.move = s.csq.move := by
  and_intros <;>
    rfl

@[simp] theorem State.beginTry_frame (s : State) (r : PlateRecord) (c : CellRef) (k : SlotNo) :
    (s.beginTry r c k).pending = s.pending ∧ (s.beginTry r c k).raised = s.raised
      ∧ (s.beginTry r c k).freeCount = s.freeCount ∧ (s.beginTry r c k).plates = s.plates
      ∧ (s.beginTry r c k).profiles = s.profiles ∧ (s.beginTry r c k).geometry = s.geometry
      ∧ (s.beginTry r c k).settings = s.settings ∧ (s.beginTry r c k).cal = s.cal
      ∧ (s.beginTry r c k).plr = s.plr ∧ (s.beginTry r c k).ltc = s.ltc ∧ (s.beginTry r c k).tbu = s.tbu
      ∧ (s.beginTry r c k).fsc = s.fsc ∧ (s.beginTry r c k).dlt = s.dlt ∧ (s.beginTry r c k).ports = s.ports
      ∧ (s.beginTry r c k).csq.state = s.csq.state ∧ (s.beginTry r c k).csq.moveCounter = s.csq.moveCounter
      ∧ (s.beginTry r c k).csq.move = s.csq.move ∧ (s.beginTry r c k).mge.queue = s.mge.queue := by
  and_intros <;>
    rfl

@[simp] theorem State.sendMove_frame (s : State) (c : CellRef) (handling : Handling) :
    (s.sendMove c handling).pending = s.pending ∧ (s.sendMove c handling).freeCount = s.freeCount
      ∧ (s.sendMove c handling).plates = s.plates ∧ (s.sendMove c handling).profiles = s.profiles
      ∧ (s.sendMove c handling).geometry = s.geometry ∧ (s.sendMove c handling).settings = s.settings
      ∧ (s.sendMove c handling).mge = s.mge ∧ (s.sendMove c handling).cal = s.cal
      ∧ (s.sendMove c handling).plr = s.plr ∧ (s.sendMove c handling).ltc = s.ltc
      ∧ (s.sendMove c handling).fsc = s.fsc ∧ (s.sendMove c handling).dlt = s.dlt
      ∧ (s.sendMove c handling).ports = s.ports ∧ (s.sendMove c handling).tbu.clock = s.tbu.clock
      ∧ (s.sendMove c handling).tbu.lampMinutes = s.tbu.lampMinutes
      ∧ (s.sendMove c handling).tbu.lampSeconds = s.tbu.lampSeconds
      ∧ (s.sendMove c handling).csq.ctx = s.csq.ctx := by
  and_intros <;>
    rfl

@[simp] theorem State.claim_frame (s : State) (r : PlateRecord) (c : CellRef) (k : SlotNo) :
    (s.claim r c k).pending = s.pending ∧ (s.claim r c k).freeCount = s.freeCount
      ∧ (s.claim r c k).profiles = s.profiles ∧ (s.claim r c k).geometry = s.geometry
      ∧ (s.claim r c k).settings = s.settings ∧ (s.claim r c k).cal = s.cal ∧ (s.claim r c k).plr = s.plr
      ∧ (s.claim r c k).ltc = s.ltc ∧ (s.claim r c k).dlt = s.dlt ∧ (s.claim r c k).ports = s.ports
      ∧ (s.claim r c k).tbu.clock = s.tbu.clock ∧ (s.claim r c k).tbu.lampMinutes = s.tbu.lampMinutes
      ∧ (s.claim r c k).tbu.lampSeconds = s.tbu.lampSeconds ∧ (s.claim r c k).fsc.state = s.fsc.state
      ∧ (s.claim r c k).fsc.mem = s.fsc.mem ∧ (s.claim r c k).fsc.refreshOwed = s.fsc.refreshOwed
      ∧ (s.claim r c k).fsc.reason = s.fsc.reason ∧ (s.claim r c k).fsc.mask = s.fsc.mask
      ∧ (s.claim r c k).fsc.retain = s.fsc.retain ∧ (s.claim r c k).fsc.access = s.fsc.access
      ∧ (s.claim r c k).mge.queue = s.mge.queue := by
  and_intros <;>
    rfl

@[simp] theorem State.enterSettling_frame (s : State) (handling : Handling) :
    (s.enterSettling handling).pending = s.pending ∧ (s.enterSettling handling).raised = s.raised
      ∧ (s.enterSettling handling).freeCount = s.freeCount ∧ (s.enterSettling handling).plates = s.plates
      ∧ (s.enterSettling handling).profiles = s.profiles ∧ (s.enterSettling handling).geometry = s.geometry
      ∧ (s.enterSettling handling).settings = s.settings ∧ (s.enterSettling handling).mge = s.mge
      ∧ (s.enterSettling handling).cal = s.cal ∧ (s.enterSettling handling).plr = s.plr
      ∧ (s.enterSettling handling).ltc = s.ltc ∧ (s.enterSettling handling).fsc = s.fsc
      ∧ (s.enterSettling handling).dlt = s.dlt ∧ (s.enterSettling handling).ports = s.ports
      ∧ (s.enterSettling handling).tbu.clock = s.tbu.clock
      ∧ (s.enterSettling handling).tbu.lampMinutes = s.tbu.lampMinutes
      ∧ (s.enterSettling handling).tbu.lampSeconds = s.tbu.lampSeconds
      ∧ (s.enterSettling handling).csq.ctx = s.csq.ctx
      ∧ (s.enterSettling handling).csq.moveCounter = s.csq.moveCounter
      ∧ (s.enterSettling handling).csq.move = s.csq.move := by
  and_intros <;>
    (unfold State.enterSettling; dsimp only; (repeat' split) <;> (try simp))

@[simp] theorem State.triggerTry_frame (s : State) (c : TryContext) :
    (s.triggerTry c).pending = s.pending ∧ (s.triggerTry c).raised = s.raised
      ∧ (s.triggerTry c).freeCount = s.freeCount ∧ (s.triggerTry c).plates = s.plates
      ∧ (s.triggerTry c).profiles = s.profiles ∧ (s.triggerTry c).geometry = s.geometry
      ∧ (s.triggerTry c).settings = s.settings ∧ (s.triggerTry c).cal = s.cal ∧ (s.triggerTry c).ltc = s.ltc
      ∧ (s.triggerTry c).fsc = s.fsc ∧ (s.triggerTry c).dlt = s.dlt ∧ (s.triggerTry c).ports = s.ports
      ∧ (s.triggerTry c).plr.faultCount = s.plr.faultCount ∧ (s.triggerTry c).plr.link = s.plr.link
      ∧ (s.triggerTry c).plr.queue = s.plr.queue ∧ (s.triggerTry c).plr.reception = s.plr.reception
      ∧ (s.triggerTry c).plr.nextRow = s.plr.nextRow ∧ (s.triggerTry c).plr.capture = s.plr.capture
      ∧ (s.triggerTry c).tbu.clock = s.tbu.clock ∧ (s.triggerTry c).tbu.lampMinutes = s.tbu.lampMinutes
      ∧ (s.triggerTry c).tbu.lampSeconds = s.tbu.lampSeconds ∧ (s.triggerTry c).csq.ctx = s.csq.ctx
      ∧ (s.triggerTry c).csq.moveCounter = s.csq.moveCounter ∧ (s.triggerTry c).csq.move = s.csq.move
      ∧ (s.triggerTry c).mge.queue = s.mge.queue := by
  and_intros <;>
    simp [State.triggerTry]

@[simp] theorem State.onLatest_frame (s : State) (k : SlotNo) (f : Exposure → Exposure) :
    (s.onLatest k f).pending = s.pending ∧ (s.onLatest k f).raised = s.raised
      ∧ (s.onLatest k f).freeCount = s.freeCount ∧ (s.onLatest k f).plates = s.plates
      ∧ (s.onLatest k f).profiles = s.profiles ∧ (s.onLatest k f).geometry = s.geometry
      ∧ (s.onLatest k f).settings = s.settings ∧ (s.onLatest k f).csq = s.csq ∧ (s.onLatest k f).cal = s.cal
      ∧ (s.onLatest k f).plr = s.plr ∧ (s.onLatest k f).ltc = s.ltc ∧ (s.onLatest k f).tbu = s.tbu
      ∧ (s.onLatest k f).fsc = s.fsc ∧ (s.onLatest k f).dlt = s.dlt ∧ (s.onLatest k f).ports = s.ports
      ∧ (s.onLatest k f).mge.queue = s.mge.queue := by
  and_intros <;>
    rfl

@[simp] theorem State.abandonTry_frame (s : State) :
    (s.abandonTry).pending = s.pending ∧ (s.abandonTry).freeCount = s.freeCount
      ∧ (s.abandonTry).profiles = s.profiles ∧ (s.abandonTry).geometry = s.geometry
      ∧ (s.abandonTry).settings = s.settings ∧ (s.abandonTry).cal = s.cal ∧ (s.abandonTry).dlt = s.dlt
      ∧ (s.abandonTry).ports = s.ports ∧ (s.abandonTry).plr.faultCount = s.plr.faultCount
      ∧ (s.abandonTry).plr.link = s.plr.link ∧ (s.abandonTry).plr.nextRow = s.plr.nextRow
      ∧ (s.abandonTry).plr.tornCount = s.plr.tornCount ∧ (s.abandonTry).plr.tagCounter = s.plr.tagCounter
      ∧ (s.abandonTry).plr.capture = s.plr.capture ∧ (s.abandonTry).plr.requester = s.plr.requester
      ∧ (s.abandonTry).tbu.clock = s.tbu.clock ∧ (s.abandonTry).tbu.lampMinutes = s.tbu.lampMinutes
      ∧ (s.abandonTry).tbu.lampSeconds = s.tbu.lampSeconds ∧ (s.abandonTry).fsc.state = s.fsc.state
      ∧ (s.abandonTry).fsc.mem = s.fsc.mem ∧ (s.abandonTry).fsc.refreshOwed = s.fsc.refreshOwed
      ∧ (s.abandonTry).fsc.reason = s.fsc.reason ∧ (s.abandonTry).fsc.mask = s.fsc.mask
      ∧ (s.abandonTry).fsc.retain = s.fsc.retain ∧ (s.abandonTry).csq.moveCounter = s.csq.moveCounter := by
  and_intros <;>
    (unfold State.abandonTry; (repeat' split) <;> simp)

@[simp] theorem State.leaveCapture_frame (s : State) :
    (s.leaveCapture).pending = s.pending ∧ (s.leaveCapture).freeCount = s.freeCount
      ∧ (s.leaveCapture).profiles = s.profiles ∧ (s.leaveCapture).geometry = s.geometry
      ∧ (s.leaveCapture).settings = s.settings ∧ (s.leaveCapture).cal = s.cal ∧ (s.leaveCapture).dlt = s.dlt
      ∧ (s.leaveCapture).ports = s.ports ∧ (s.leaveCapture).plr.faultCount = s.plr.faultCount
      ∧ (s.leaveCapture).plr.link = s.plr.link ∧ (s.leaveCapture).plr.nextRow = s.plr.nextRow
      ∧ (s.leaveCapture).plr.tornCount = s.plr.tornCount ∧ (s.leaveCapture).plr.tagCounter = s.plr.tagCounter
      ∧ (s.leaveCapture).plr.capture = s.plr.capture ∧ (s.leaveCapture).plr.requester = s.plr.requester
      ∧ (s.leaveCapture).tbu.clock = s.tbu.clock ∧ (s.leaveCapture).tbu.lampMinutes = s.tbu.lampMinutes
      ∧ (s.leaveCapture).tbu.lampSeconds = s.tbu.lampSeconds ∧ (s.leaveCapture).fsc.state = s.fsc.state
      ∧ (s.leaveCapture).fsc.mem = s.fsc.mem ∧ (s.leaveCapture).fsc.refreshOwed = s.fsc.refreshOwed
      ∧ (s.leaveCapture).fsc.reason = s.fsc.reason ∧ (s.leaveCapture).fsc.mask = s.fsc.mask
      ∧ (s.leaveCapture).fsc.retain = s.fsc.retain ∧ (s.leaveCapture).csq.moveCounter = s.csq.moveCounter := by
  and_intros <;>
    (unfold State.leaveCapture; (repeat' split) <;> simp)

@[simp] theorem State.leaveCaptureOf_frame (s : State) (key : PlateKey) :
    (s.leaveCaptureOf key).pending = s.pending ∧ (s.leaveCaptureOf key).freeCount = s.freeCount
      ∧ (s.leaveCaptureOf key).profiles = s.profiles ∧ (s.leaveCaptureOf key).geometry = s.geometry
      ∧ (s.leaveCaptureOf key).settings = s.settings ∧ (s.leaveCaptureOf key).cal = s.cal
      ∧ (s.leaveCaptureOf key).dlt = s.dlt ∧ (s.leaveCaptureOf key).ports = s.ports
      ∧ (s.leaveCaptureOf key).plr.faultCount = s.plr.faultCount ∧ (s.leaveCaptureOf key).plr.link = s.plr.link
      ∧ (s.leaveCaptureOf key).plr.nextRow = s.plr.nextRow
      ∧ (s.leaveCaptureOf key).plr.tornCount = s.plr.tornCount
      ∧ (s.leaveCaptureOf key).plr.tagCounter = s.plr.tagCounter
      ∧ (s.leaveCaptureOf key).plr.capture = s.plr.capture
      ∧ (s.leaveCaptureOf key).plr.requester = s.plr.requester ∧ (s.leaveCaptureOf key).tbu.clock = s.tbu.clock
      ∧ (s.leaveCaptureOf key).tbu.lampMinutes = s.tbu.lampMinutes
      ∧ (s.leaveCaptureOf key).tbu.lampSeconds = s.tbu.lampSeconds
      ∧ (s.leaveCaptureOf key).fsc.state = s.fsc.state ∧ (s.leaveCaptureOf key).fsc.mem = s.fsc.mem
      ∧ (s.leaveCaptureOf key).fsc.refreshOwed = s.fsc.refreshOwed
      ∧ (s.leaveCaptureOf key).fsc.reason = s.fsc.reason ∧ (s.leaveCaptureOf key).fsc.mask = s.fsc.mask
      ∧ (s.leaveCaptureOf key).fsc.retain = s.fsc.retain
      ∧ (s.leaveCaptureOf key).csq.moveCounter = s.csq.moveCounter := by
  and_intros <;>
    (unfold State.leaveCaptureOf; (repeat' split) <;> simp)

@[simp] theorem State.endTry_frame (s : State) (c : TryContext) (outcome : LastOutcome) :
    (s.endTry c outcome).pending = s.pending ∧ (s.endTry c outcome).freeCount = s.freeCount
      ∧ (s.endTry c outcome).profiles = s.profiles ∧ (s.endTry c outcome).geometry = s.geometry
      ∧ (s.endTry c outcome).settings = s.settings ∧ (s.endTry c outcome).cal = s.cal
      ∧ (s.endTry c outcome).dlt = s.dlt ∧ (s.endTry c outcome).ports = s.ports
      ∧ (s.endTry c outcome).plr.faultCount = s.plr.faultCount ∧ (s.endTry c outcome).plr.link = s.plr.link
      ∧ (s.endTry c outcome).plr.awaitedTag = s.plr.awaitedTag
      ∧ (s.endTry c outcome).plr.reception = s.plr.reception ∧ (s.endTry c outcome).plr.nextRow = s.plr.nextRow
      ∧ (s.endTry c outcome).plr.tornCount = s.plr.tornCount
      ∧ (s.endTry c outcome).plr.tagCounter = s.plr.tagCounter
      ∧ (s.endTry c outcome).plr.capture = s.plr.capture ∧ (s.endTry c outcome).plr.requester = s.plr.requester
      ∧ (s.endTry c outcome).ltc.windowOpen = s.ltc.windowOpen ∧ (s.endTry c outcome).tbu.clock = s.tbu.clock
      ∧ (s.endTry c outcome).tbu.lampMinutes = s.tbu.lampMinutes
      ∧ (s.endTry c outcome).tbu.lampSeconds = s.tbu.lampSeconds ∧ (s.endTry c outcome).fsc.state = s.fsc.state
      ∧ (s.endTry c outcome).fsc.mem = s.fsc.mem ∧ (s.endTry c outcome).fsc.refreshOwed = s.fsc.refreshOwed
      ∧ (s.endTry c outcome).fsc.reason = s.fsc.reason ∧ (s.endTry c outcome).fsc.mask = s.fsc.mask
      ∧ (s.endTry c outcome).fsc.retain = s.fsc.retain
      ∧ (s.endTry c outcome).csq.moveCounter = s.csq.moveCounter ∧ (s.endTry c outcome).csq.move = s.csq.move := by
  and_intros <;>
    (unfold State.endTry; (repeat' split) <;> simp)

@[simp] theorem State.handOver_frame (s : State) (c : TryContext) :
    (s.handOver c).pending = s.pending ∧ (s.handOver c).freeCount = s.freeCount
      ∧ (s.handOver c).profiles = s.profiles ∧ (s.handOver c).geometry = s.geometry
      ∧ (s.handOver c).settings = s.settings ∧ (s.handOver c).cal = s.cal ∧ (s.handOver c).plr = s.plr
      ∧ (s.handOver c).fsc = s.fsc ∧ (s.handOver c).dlt = s.dlt ∧ (s.handOver c).ports = s.ports
      ∧ (s.handOver c).ltc.windowOpen = s.ltc.windowOpen ∧ (s.handOver c).tbu.clock = s.tbu.clock
      ∧ (s.handOver c).tbu.lampMinutes = s.tbu.lampMinutes ∧ (s.handOver c).tbu.lampSeconds = s.tbu.lampSeconds
      ∧ (s.handOver c).csq.moveCounter = s.csq.moveCounter ∧ (s.handOver c).csq.move = s.csq.move := by
  and_intros <;>
    simp [State.handOver]

@[simp] theorem State.nextTrigger_frame (s : State) (c : TryContext) :
    (s.nextTrigger c).pending = s.pending ∧ (s.nextTrigger c).freeCount = s.freeCount
      ∧ (s.nextTrigger c).profiles = s.profiles ∧ (s.nextTrigger c).geometry = s.geometry
      ∧ (s.nextTrigger c).settings = s.settings ∧ (s.nextTrigger c).cal = s.cal ∧ (s.nextTrigger c).dlt = s.dlt
      ∧ (s.nextTrigger c).ports = s.ports ∧ (s.nextTrigger c).plr.faultCount = s.plr.faultCount
      ∧ (s.nextTrigger c).plr.link = s.plr.link ∧ (s.nextTrigger c).plr.awaitedTag = s.plr.awaitedTag
      ∧ (s.nextTrigger c).plr.reception = s.plr.reception ∧ (s.nextTrigger c).plr.nextRow = s.plr.nextRow
      ∧ (s.nextTrigger c).plr.tornCount = s.plr.tornCount ∧ (s.nextTrigger c).plr.tagCounter = s.plr.tagCounter
      ∧ (s.nextTrigger c).plr.capture = s.plr.capture ∧ (s.nextTrigger c).plr.requester = s.plr.requester
      ∧ (s.nextTrigger c).ltc.windowOpen = s.ltc.windowOpen ∧ (s.nextTrigger c).tbu.clock = s.tbu.clock
      ∧ (s.nextTrigger c).tbu.lampMinutes = s.tbu.lampMinutes
      ∧ (s.nextTrigger c).tbu.lampSeconds = s.tbu.lampSeconds ∧ (s.nextTrigger c).fsc.state = s.fsc.state
      ∧ (s.nextTrigger c).fsc.mem = s.fsc.mem ∧ (s.nextTrigger c).fsc.refreshOwed = s.fsc.refreshOwed
      ∧ (s.nextTrigger c).fsc.reason = s.fsc.reason ∧ (s.nextTrigger c).fsc.mask = s.fsc.mask
      ∧ (s.nextTrigger c).fsc.retain = s.fsc.retain ∧ (s.nextTrigger c).csq.moveCounter = s.csq.moveCounter
      ∧ (s.nextTrigger c).csq.move = s.csq.move := by
  and_intros <;>
    (unfold State.nextTrigger; (repeat' split) <;> simp)

@[simp] theorem State.decideExtension_frame (s : State) (c : TryContext) :
    (s.decideExtension c).pending = s.pending ∧ (s.decideExtension c).freeCount = s.freeCount
      ∧ (s.decideExtension c).profiles = s.profiles ∧ (s.decideExtension c).geometry = s.geometry
      ∧ (s.decideExtension c).settings = s.settings ∧ (s.decideExtension c).cal = s.cal
      ∧ (s.decideExtension c).dlt = s.dlt ∧ (s.decideExtension c).ports = s.ports
      ∧ (s.decideExtension c).plr.faultCount = s.plr.faultCount ∧ (s.decideExtension c).plr.link = s.plr.link
      ∧ (s.decideExtension c).plr.awaitedTag = s.plr.awaitedTag
      ∧ (s.decideExtension c).plr.reception = s.plr.reception
      ∧ (s.decideExtension c).plr.nextRow = s.plr.nextRow
      ∧ (s.decideExtension c).plr.tornCount = s.plr.tornCount
      ∧ (s.decideExtension c).plr.tagCounter = s.plr.tagCounter
      ∧ (s.decideExtension c).plr.capture = s.plr.capture
      ∧ (s.decideExtension c).plr.requester = s.plr.requester
      ∧ (s.decideExtension c).ltc.windowOpen = s.ltc.windowOpen ∧ (s.decideExtension c).tbu.clock = s.tbu.clock
      ∧ (s.decideExtension c).tbu.lampMinutes = s.tbu.lampMinutes
      ∧ (s.decideExtension c).tbu.lampSeconds = s.tbu.lampSeconds
      ∧ (s.decideExtension c).fsc.state = s.fsc.state ∧ (s.decideExtension c).fsc.mem = s.fsc.mem
      ∧ (s.decideExtension c).fsc.refreshOwed = s.fsc.refreshOwed
      ∧ (s.decideExtension c).fsc.reason = s.fsc.reason ∧ (s.decideExtension c).fsc.mask = s.fsc.mask
      ∧ (s.decideExtension c).fsc.retain = s.fsc.retain
      ∧ (s.decideExtension c).csq.moveCounter = s.csq.moveCounter ∧ (s.decideExtension c).csq.move = s.csq.move := by
  and_intros <;>
    (unfold State.decideExtension; dsimp only; (repeat' split) <;> (try simp))

@[simp] theorem State.acceptExposure_frame (s : State) (c : TryContext) :
    (s.acceptExposure c).pending = s.pending ∧ (s.acceptExposure c).freeCount = s.freeCount
      ∧ (s.acceptExposure c).profiles = s.profiles ∧ (s.acceptExposure c).geometry = s.geometry
      ∧ (s.acceptExposure c).settings = s.settings ∧ (s.acceptExposure c).cal = s.cal
      ∧ (s.acceptExposure c).dlt = s.dlt ∧ (s.acceptExposure c).ports = s.ports
      ∧ (s.acceptExposure c).plr.faultCount = s.plr.faultCount ∧ (s.acceptExposure c).plr.link = s.plr.link
      ∧ (s.acceptExposure c).plr.awaitedTag = s.plr.awaitedTag
      ∧ (s.acceptExposure c).plr.reception = s.plr.reception ∧ (s.acceptExposure c).plr.nextRow = s.plr.nextRow
      ∧ (s.acceptExposure c).plr.tornCount = s.plr.tornCount
      ∧ (s.acceptExposure c).plr.tagCounter = s.plr.tagCounter
      ∧ (s.acceptExposure c).plr.capture = s.plr.capture ∧ (s.acceptExposure c).plr.requester = s.plr.requester
      ∧ (s.acceptExposure c).ltc.windowOpen = s.ltc.windowOpen ∧ (s.acceptExposure c).tbu.clock = s.tbu.clock
      ∧ (s.acceptExposure c).tbu.lampMinutes = s.tbu.lampMinutes
      ∧ (s.acceptExposure c).tbu.lampSeconds = s.tbu.lampSeconds ∧ (s.acceptExposure c).fsc.state = s.fsc.state
      ∧ (s.acceptExposure c).fsc.mem = s.fsc.mem ∧ (s.acceptExposure c).fsc.refreshOwed = s.fsc.refreshOwed
      ∧ (s.acceptExposure c).fsc.reason = s.fsc.reason ∧ (s.acceptExposure c).fsc.mask = s.fsc.mask
      ∧ (s.acceptExposure c).fsc.retain = s.fsc.retain
      ∧ (s.acceptExposure c).csq.moveCounter = s.csq.moveCounter ∧ (s.acceptExposure c).csq.move = s.csq.move := by
  and_intros <;>
    (unfold State.acceptExposure; (repeat' split) <;> simp)

@[simp] theorem State.repeatRung_frame (s : State) (c : TryContext) :
    (s.repeatRung c).pending = s.pending ∧ (s.repeatRung c).freeCount = s.freeCount
      ∧ (s.repeatRung c).profiles = s.profiles ∧ (s.repeatRung c).geometry = s.geometry
      ∧ (s.repeatRung c).settings = s.settings ∧ (s.repeatRung c).cal = s.cal ∧ (s.repeatRung c).dlt = s.dlt
      ∧ (s.repeatRung c).ports = s.ports ∧ (s.repeatRung c).plr.faultCount = s.plr.faultCount
      ∧ (s.repeatRung c).plr.link = s.plr.link ∧ (s.repeatRung c).plr.awaitedTag = s.plr.awaitedTag
      ∧ (s.repeatRung c).plr.reception = s.plr.reception ∧ (s.repeatRung c).plr.nextRow = s.plr.nextRow
      ∧ (s.repeatRung c).plr.tornCount = s.plr.tornCount ∧ (s.repeatRung c).plr.tagCounter = s.plr.tagCounter
      ∧ (s.repeatRung c).plr.capture = s.plr.capture ∧ (s.repeatRung c).plr.requester = s.plr.requester
      ∧ (s.repeatRung c).ltc.windowOpen = s.ltc.windowOpen ∧ (s.repeatRung c).tbu.clock = s.tbu.clock
      ∧ (s.repeatRung c).tbu.lampMinutes = s.tbu.lampMinutes
      ∧ (s.repeatRung c).tbu.lampSeconds = s.tbu.lampSeconds ∧ (s.repeatRung c).fsc.state = s.fsc.state
      ∧ (s.repeatRung c).fsc.mem = s.fsc.mem ∧ (s.repeatRung c).fsc.refreshOwed = s.fsc.refreshOwed
      ∧ (s.repeatRung c).fsc.reason = s.fsc.reason ∧ (s.repeatRung c).fsc.mask = s.fsc.mask
      ∧ (s.repeatRung c).fsc.retain = s.fsc.retain ∧ (s.repeatRung c).csq.moveCounter = s.csq.moveCounter
      ∧ (s.repeatRung c).csq.move = s.csq.move := by
  and_intros <;>
    (unfold State.repeatRung; (repeat' split) <;> simp)

@[simp] theorem State.review_frame (s : State) (c : TryContext) :
    (s.review c).pending = s.pending ∧ (s.review c).freeCount = s.freeCount
      ∧ (s.review c).profiles = s.profiles ∧ (s.review c).geometry = s.geometry
      ∧ (s.review c).settings = s.settings ∧ (s.review c).cal = s.cal ∧ (s.review c).dlt = s.dlt
      ∧ (s.review c).ports = s.ports ∧ (s.review c).plr.faultCount = s.plr.faultCount
      ∧ (s.review c).plr.link = s.plr.link ∧ (s.review c).plr.awaitedTag = s.plr.awaitedTag
      ∧ (s.review c).plr.reception = s.plr.reception ∧ (s.review c).plr.nextRow = s.plr.nextRow
      ∧ (s.review c).plr.tornCount = s.plr.tornCount ∧ (s.review c).plr.tagCounter = s.plr.tagCounter
      ∧ (s.review c).plr.capture = s.plr.capture ∧ (s.review c).plr.requester = s.plr.requester
      ∧ (s.review c).ltc.windowOpen = s.ltc.windowOpen ∧ (s.review c).tbu.clock = s.tbu.clock
      ∧ (s.review c).tbu.lampMinutes = s.tbu.lampMinutes ∧ (s.review c).tbu.lampSeconds = s.tbu.lampSeconds
      ∧ (s.review c).fsc.state = s.fsc.state ∧ (s.review c).fsc.mem = s.fsc.mem
      ∧ (s.review c).fsc.refreshOwed = s.fsc.refreshOwed ∧ (s.review c).fsc.reason = s.fsc.reason
      ∧ (s.review c).fsc.mask = s.fsc.mask ∧ (s.review c).fsc.retain = s.fsc.retain
      ∧ (s.review c).csq.moveCounter = s.csq.moveCounter ∧ (s.review c).csq.move = s.csq.move := by
  and_intros <;>
    (unfold State.review; (repeat' split) <;> simp)

@[simp] theorem State.pollMerged_frame (s : State) :
    (s.pollMerged).pending = s.pending ∧ (s.pollMerged).freeCount = s.freeCount
      ∧ (s.pollMerged).profiles = s.profiles ∧ (s.pollMerged).geometry = s.geometry
      ∧ (s.pollMerged).settings = s.settings ∧ (s.pollMerged).cal = s.cal ∧ (s.pollMerged).dlt = s.dlt
      ∧ (s.pollMerged).ports = s.ports ∧ (s.pollMerged).plr.faultCount = s.plr.faultCount
      ∧ (s.pollMerged).plr.link = s.plr.link ∧ (s.pollMerged).plr.awaitedTag = s.plr.awaitedTag
      ∧ (s.pollMerged).plr.reception = s.plr.reception ∧ (s.pollMerged).plr.nextRow = s.plr.nextRow
      ∧ (s.pollMerged).plr.tornCount = s.plr.tornCount ∧ (s.pollMerged).plr.tagCounter = s.plr.tagCounter
      ∧ (s.pollMerged).plr.capture = s.plr.capture ∧ (s.pollMerged).plr.requester = s.plr.requester
      ∧ (s.pollMerged).ltc.windowOpen = s.ltc.windowOpen ∧ (s.pollMerged).tbu.clock = s.tbu.clock
      ∧ (s.pollMerged).tbu.lampMinutes = s.tbu.lampMinutes ∧ (s.pollMerged).tbu.lampSeconds = s.tbu.lampSeconds
      ∧ (s.pollMerged).fsc.state = s.fsc.state ∧ (s.pollMerged).fsc.mem = s.fsc.mem
      ∧ (s.pollMerged).fsc.refreshOwed = s.fsc.refreshOwed ∧ (s.pollMerged).fsc.reason = s.fsc.reason
      ∧ (s.pollMerged).fsc.mask = s.fsc.mask ∧ (s.pollMerged).fsc.retain = s.fsc.retain
      ∧ (s.pollMerged).csq.moveCounter = s.csq.moveCounter ∧ (s.pollMerged).csq.move = s.csq.move := by
  and_intros <;>
    (unfold State.pollMerged; (repeat' split) <;> simp)

@[simp] theorem State.pollPaused_frame (s : State) :
    (s.pollPaused).pending = s.pending ∧ (s.pollPaused).freeCount = s.freeCount
      ∧ (s.pollPaused).profiles = s.profiles ∧ (s.pollPaused).geometry = s.geometry
      ∧ (s.pollPaused).settings = s.settings ∧ (s.pollPaused).cal = s.cal ∧ (s.pollPaused).plr = s.plr
      ∧ (s.pollPaused).ltc = s.ltc ∧ (s.pollPaused).dlt = s.dlt ∧ (s.pollPaused).ports = s.ports
      ∧ (s.pollPaused).tbu.clock = s.tbu.clock ∧ (s.pollPaused).tbu.lampMinutes = s.tbu.lampMinutes
      ∧ (s.pollPaused).tbu.lampSeconds = s.tbu.lampSeconds ∧ (s.pollPaused).fsc.state = s.fsc.state
      ∧ (s.pollPaused).fsc.mem = s.fsc.mem ∧ (s.pollPaused).fsc.refreshOwed = s.fsc.refreshOwed
      ∧ (s.pollPaused).fsc.reason = s.fsc.reason ∧ (s.pollPaused).fsc.mask = s.fsc.mask
      ∧ (s.pollPaused).fsc.retain = s.fsc.retain ∧ (s.pollPaused).fsc.access = s.fsc.access
      ∧ (s.pollPaused).fsc.held = s.fsc.held ∧ (s.pollPaused).csq.ctx = s.csq.ctx
      ∧ (s.pollPaused).mge.work = s.mge.work ∧ (s.pollPaused).mge.queue = s.mge.queue := by
  and_intros <;>
    (unfold State.pollPaused; (repeat' split) <;> rfl)

@[simp] theorem State.pollIdle_frame (s : State) :
    (s.pollIdle).pending = s.pending ∧ (s.pollIdle).freeCount = s.freeCount
      ∧ (s.pollIdle).profiles = s.profiles ∧ (s.pollIdle).geometry = s.geometry
      ∧ (s.pollIdle).settings = s.settings ∧ (s.pollIdle).cal = s.cal ∧ (s.pollIdle).plr = s.plr
      ∧ (s.pollIdle).ltc = s.ltc ∧ (s.pollIdle).dlt = s.dlt ∧ (s.pollIdle).ports = s.ports
      ∧ (s.pollIdle).tbu.clock = s.tbu.clock ∧ (s.pollIdle).tbu.lampMinutes = s.tbu.lampMinutes
      ∧ (s.pollIdle).tbu.lampSeconds = s.tbu.lampSeconds ∧ (s.pollIdle).tbu.timers = s.tbu.timers
      ∧ (s.pollIdle).fsc.state = s.fsc.state ∧ (s.pollIdle).fsc.mem = s.fsc.mem
      ∧ (s.pollIdle).fsc.refreshOwed = s.fsc.refreshOwed ∧ (s.pollIdle).fsc.reason = s.fsc.reason
      ∧ (s.pollIdle).fsc.mask = s.fsc.mask ∧ (s.pollIdle).fsc.retain = s.fsc.retain
      ∧ (s.pollIdle).fsc.access = s.fsc.access ∧ (s.pollIdle).fsc.held = s.fsc.held
      ∧ (s.pollIdle).csq.ctx = s.csq.ctx ∧ (s.pollIdle).csq.moveCounter = s.csq.moveCounter
      ∧ (s.pollIdle).csq.move = s.csq.move ∧ (s.pollIdle).mge.work = s.mge.work
      ∧ (s.pollIdle).mge.queue = s.mge.queue := by
  and_intros <;>
    (unfold State.pollIdle; (repeat' split) <;> rfl)

@[simp] theorem State.pollSlot_frame (s : State) :
    (s.pollSlot).pending = s.pending ∧ (s.pollSlot).freeCount = s.freeCount
      ∧ (s.pollSlot).profiles = s.profiles ∧ (s.pollSlot).geometry = s.geometry
      ∧ (s.pollSlot).settings = s.settings ∧ (s.pollSlot).cal = s.cal ∧ (s.pollSlot).plr = s.plr
      ∧ (s.pollSlot).ltc = s.ltc ∧ (s.pollSlot).dlt = s.dlt ∧ (s.pollSlot).ports = s.ports
      ∧ (s.pollSlot).tbu.clock = s.tbu.clock ∧ (s.pollSlot).tbu.lampMinutes = s.tbu.lampMinutes
      ∧ (s.pollSlot).tbu.lampSeconds = s.tbu.lampSeconds ∧ (s.pollSlot).fsc.state = s.fsc.state
      ∧ (s.pollSlot).fsc.mem = s.fsc.mem ∧ (s.pollSlot).fsc.refreshOwed = s.fsc.refreshOwed
      ∧ (s.pollSlot).fsc.reason = s.fsc.reason ∧ (s.pollSlot).fsc.mask = s.fsc.mask
      ∧ (s.pollSlot).fsc.retain = s.fsc.retain ∧ (s.pollSlot).fsc.access = s.fsc.access
      ∧ (s.pollSlot).mge.queue = s.mge.queue := by
  and_intros <;>
    (unfold State.pollSlot; (repeat' split) <;> rfl)

@[simp] theorem State.pollLamp_frame (s : State) :
    (s.pollLamp).pending = s.pending ∧ (s.pollLamp).freeCount = s.freeCount ∧ (s.pollLamp).plates = s.plates
      ∧ (s.pollLamp).profiles = s.profiles ∧ (s.pollLamp).geometry = s.geometry
      ∧ (s.pollLamp).settings = s.settings ∧ (s.pollLamp).cal = s.cal ∧ (s.pollLamp).fsc = s.fsc
      ∧ (s.pollLamp).dlt = s.dlt ∧ (s.pollLamp).ports = s.ports
      ∧ (s.pollLamp).plr.faultCount = s.plr.faultCount ∧ (s.pollLamp).plr.link = s.plr.link
      ∧ (s.pollLamp).plr.queue = s.plr.queue ∧ (s.pollLamp).plr.reception = s.plr.reception
      ∧ (s.pollLamp).plr.nextRow = s.plr.nextRow ∧ (s.pollLamp).plr.capture = s.plr.capture
      ∧ (s.pollLamp).ltc.windowOpen = s.ltc.windowOpen ∧ (s.pollLamp).tbu.clock = s.tbu.clock
      ∧ (s.pollLamp).tbu.lampMinutes = s.tbu.lampMinutes ∧ (s.pollLamp).tbu.lampSeconds = s.tbu.lampSeconds
      ∧ (s.pollLamp).csq.ctx = s.csq.ctx ∧ (s.pollLamp).csq.moveCounter = s.csq.moveCounter
      ∧ (s.pollLamp).csq.move = s.csq.move ∧ (s.pollLamp).mge.queue = s.mge.queue := by
  and_intros <;>
    (unfold State.pollLamp; (repeat' split) <;> simp)

@[simp] theorem State.pollHold_frame (s : State) :
    (s.pollHold).pending = s.pending ∧ (s.pollHold).freeCount = s.freeCount
      ∧ (s.pollHold).profiles = s.profiles ∧ (s.pollHold).geometry = s.geometry
      ∧ (s.pollHold).settings = s.settings ∧ (s.pollHold).cal = s.cal ∧ (s.pollHold).plr = s.plr
      ∧ (s.pollHold).ltc = s.ltc ∧ (s.pollHold).dlt = s.dlt ∧ (s.pollHold).ports = s.ports
      ∧ (s.pollHold).tbu.clock = s.tbu.clock ∧ (s.pollHold).tbu.lampMinutes = s.tbu.lampMinutes
      ∧ (s.pollHold).tbu.lampSeconds = s.tbu.lampSeconds ∧ (s.pollHold).tbu.timers = s.tbu.timers
      ∧ (s.pollHold).fsc.state = s.fsc.state ∧ (s.pollHold).fsc.mem = s.fsc.mem
      ∧ (s.pollHold).fsc.refreshOwed = s.fsc.refreshOwed ∧ (s.pollHold).fsc.reason = s.fsc.reason
      ∧ (s.pollHold).fsc.mask = s.fsc.mask ∧ (s.pollHold).fsc.retain = s.fsc.retain
      ∧ (s.pollHold).fsc.access = s.fsc.access ∧ (s.pollHold).fsc.held = s.fsc.held
      ∧ (s.pollHold).csq.ctx = s.csq.ctx ∧ (s.pollHold).csq.moveCounter = s.csq.moveCounter
      ∧ (s.pollHold).csq.move = s.csq.move ∧ (s.pollHold).mge.work = s.mge.work
      ∧ (s.pollHold).mge.queue = s.mge.queue := by
  and_intros <;>
    (unfold State.pollHold; (repeat' split) <;> rfl)

@[simp] theorem State.pollCsq_frame (s : State) :
    (s.pollCsq).pending = s.pending ∧ (s.pollCsq).freeCount = s.freeCount ∧ (s.pollCsq).profiles = s.profiles
      ∧ (s.pollCsq).geometry = s.geometry ∧ (s.pollCsq).settings = s.settings ∧ (s.pollCsq).cal = s.cal
      ∧ (s.pollCsq).dlt = s.dlt ∧ (s.pollCsq).ports = s.ports ∧ (s.pollCsq).plr.faultCount = s.plr.faultCount
      ∧ (s.pollCsq).plr.link = s.plr.link ∧ (s.pollCsq).plr.reception = s.plr.reception
      ∧ (s.pollCsq).plr.nextRow = s.plr.nextRow ∧ (s.pollCsq).plr.capture = s.plr.capture
      ∧ (s.pollCsq).ltc.windowOpen = s.ltc.windowOpen ∧ (s.pollCsq).tbu.clock = s.tbu.clock
      ∧ (s.pollCsq).tbu.lampMinutes = s.tbu.lampMinutes ∧ (s.pollCsq).tbu.lampSeconds = s.tbu.lampSeconds
      ∧ (s.pollCsq).fsc.state = s.fsc.state ∧ (s.pollCsq).fsc.mem = s.fsc.mem
      ∧ (s.pollCsq).fsc.refreshOwed = s.fsc.refreshOwed ∧ (s.pollCsq).fsc.reason = s.fsc.reason
      ∧ (s.pollCsq).fsc.mask = s.fsc.mask ∧ (s.pollCsq).fsc.retain = s.fsc.retain := by
  and_intros <;>
    simp [State.pollCsq]

@[simp] theorem State.addSeatedHold_frame (s : State) (f : Holds → Holds) :
    (s.addSeatedHold f).pending = s.pending ∧ (s.addSeatedHold f).raised = s.raised
      ∧ (s.addSeatedHold f).freeCount = s.freeCount ∧ (s.addSeatedHold f).profiles = s.profiles
      ∧ (s.addSeatedHold f).geometry = s.geometry ∧ (s.addSeatedHold f).settings = s.settings
      ∧ (s.addSeatedHold f).csq = s.csq ∧ (s.addSeatedHold f).mge = s.mge ∧ (s.addSeatedHold f).cal = s.cal
      ∧ (s.addSeatedHold f).plr = s.plr ∧ (s.addSeatedHold f).ltc = s.ltc ∧ (s.addSeatedHold f).tbu = s.tbu
      ∧ (s.addSeatedHold f).fsc = s.fsc ∧ (s.addSeatedHold f).dlt = s.dlt ∧ (s.addSeatedHold f).ports = s.ports := by
  and_intros <;>
    rfl

@[simp] theorem State.failMove_frame (s : State) (status : MoveStatus) :
    (s.failMove status).pending = s.pending ∧ (s.failMove status).raised = s.raised
      ∧ (s.failMove status).freeCount = s.freeCount ∧ (s.failMove status).profiles = s.profiles
      ∧ (s.failMove status).geometry = s.geometry ∧ (s.failMove status).settings = s.settings
      ∧ (s.failMove status).mge = s.mge ∧ (s.failMove status).cal = s.cal ∧ (s.failMove status).plr = s.plr
      ∧ (s.failMove status).ltc = s.ltc ∧ (s.failMove status).fsc = s.fsc ∧ (s.failMove status).dlt = s.dlt
      ∧ (s.failMove status).ports = s.ports ∧ (s.failMove status).tbu.clock = s.tbu.clock
      ∧ (s.failMove status).tbu.lampMinutes = s.tbu.lampMinutes
      ∧ (s.failMove status).tbu.lampSeconds = s.tbu.lampSeconds ∧ (s.failMove status).csq.ctx = s.csq.ctx
      ∧ (s.failMove status).csq.moveCounter = s.csq.moveCounter := by
  and_intros <;>
    rfl

@[simp] theorem State.dropLink_frame (s : State) :
    (s.dropLink).pending = s.pending ∧ (s.dropLink).freeCount = s.freeCount
      ∧ (s.dropLink).profiles = s.profiles ∧ (s.dropLink).geometry = s.geometry
      ∧ (s.dropLink).settings = s.settings ∧ (s.dropLink).dlt = s.dlt ∧ (s.dropLink).ports = s.ports
      ∧ (s.dropLink).cal.record = s.cal.record ∧ (s.dropLink).cal.tally = s.cal.tally
      ∧ (s.dropLink).plr.faultCount = s.plr.faultCount ∧ (s.dropLink).plr.link = s.plr.link
      ∧ (s.dropLink).plr.nextRow = s.plr.nextRow ∧ (s.dropLink).plr.tornCount = s.plr.tornCount
      ∧ (s.dropLink).plr.tagCounter = s.plr.tagCounter ∧ (s.dropLink).plr.capture = s.plr.capture
      ∧ (s.dropLink).plr.requester = s.plr.requester ∧ (s.dropLink).tbu.clock = s.tbu.clock
      ∧ (s.dropLink).tbu.lampMinutes = s.tbu.lampMinutes ∧ (s.dropLink).tbu.lampSeconds = s.tbu.lampSeconds
      ∧ (s.dropLink).fsc.state = s.fsc.state ∧ (s.dropLink).fsc.mem = s.fsc.mem
      ∧ (s.dropLink).fsc.refreshOwed = s.fsc.refreshOwed ∧ (s.dropLink).fsc.reason = s.fsc.reason
      ∧ (s.dropLink).fsc.mask = s.fsc.mask ∧ (s.dropLink).fsc.retain = s.fsc.retain
      ∧ (s.dropLink).csq.moveCounter = s.csq.moveCounter := by
  and_intros <;>
    simp [State.dropLink]

@[simp] theorem State.setFaultCount_frame (s : State) (count : Nat) (cause : LinkCause) :
    (s.setFaultCount count cause).pending = s.pending ∧ (s.setFaultCount count cause).freeCount = s.freeCount
      ∧ (s.setFaultCount count cause).profiles = s.profiles
      ∧ (s.setFaultCount count cause).geometry = s.geometry
      ∧ (s.setFaultCount count cause).settings = s.settings ∧ (s.setFaultCount count cause).dlt = s.dlt
      ∧ (s.setFaultCount count cause).ports = s.ports ∧ (s.setFaultCount count cause).cal.record = s.cal.record
      ∧ (s.setFaultCount count cause).cal.tally = s.cal.tally
      ∧ (s.setFaultCount count cause).plr.nextRow = s.plr.nextRow
      ∧ (s.setFaultCount count cause).plr.tornCount = s.plr.tornCount
      ∧ (s.setFaultCount count cause).plr.tagCounter = s.plr.tagCounter
      ∧ (s.setFaultCount count cause).plr.capture = s.plr.capture
      ∧ (s.setFaultCount count cause).plr.requester = s.plr.requester
      ∧ (s.setFaultCount count cause).tbu.clock = s.tbu.clock
      ∧ (s.setFaultCount count cause).tbu.lampMinutes = s.tbu.lampMinutes
      ∧ (s.setFaultCount count cause).tbu.lampSeconds = s.tbu.lampSeconds
      ∧ (s.setFaultCount count cause).fsc.state = s.fsc.state
      ∧ (s.setFaultCount count cause).fsc.mem = s.fsc.mem
      ∧ (s.setFaultCount count cause).fsc.refreshOwed = s.fsc.refreshOwed
      ∧ (s.setFaultCount count cause).fsc.reason = s.fsc.reason
      ∧ (s.setFaultCount count cause).fsc.mask = s.fsc.mask
      ∧ (s.setFaultCount count cause).fsc.retain = s.fsc.retain
      ∧ (s.setFaultCount count cause).csq.moveCounter = s.csq.moveCounter := by
  and_intros <;>
    (unfold State.setFaultCount; dsimp only; (repeat' split) <;> (try simp))

@[simp] theorem State.chargeFault_frame (s : State) (m : FaultMark) (weight : Nat) :
    (s.chargeFault m weight).pending = s.pending ∧ (s.chargeFault m weight).freeCount = s.freeCount
      ∧ (s.chargeFault m weight).profiles = s.profiles ∧ (s.chargeFault m weight).geometry = s.geometry
      ∧ (s.chargeFault m weight).settings = s.settings ∧ (s.chargeFault m weight).dlt = s.dlt
      ∧ (s.chargeFault m weight).ports = s.ports ∧ (s.chargeFault m weight).cal.record = s.cal.record
      ∧ (s.chargeFault m weight).cal.tally = s.cal.tally ∧ (s.chargeFault m weight).tbu.clock = s.tbu.clock
      ∧ (s.chargeFault m weight).tbu.lampMinutes = s.tbu.lampMinutes
      ∧ (s.chargeFault m weight).tbu.lampSeconds = s.tbu.lampSeconds
      ∧ (s.chargeFault m weight).fsc.state = s.fsc.state ∧ (s.chargeFault m weight).fsc.mem = s.fsc.mem
      ∧ (s.chargeFault m weight).fsc.refreshOwed = s.fsc.refreshOwed
      ∧ (s.chargeFault m weight).fsc.reason = s.fsc.reason ∧ (s.chargeFault m weight).fsc.mask = s.fsc.mask
      ∧ (s.chargeFault m weight).fsc.retain = s.fsc.retain
      ∧ (s.chargeFault m weight).csq.moveCounter = s.csq.moveCounter := by
  and_intros <;>
    (unfold State.chargeFault; (repeat' split) <;> simp)

@[simp] theorem State.chargeRow_frame (s : State) (m : FaultMark) :
    (s.chargeRow m).pending = s.pending ∧ (s.chargeRow m).freeCount = s.freeCount
      ∧ (s.chargeRow m).profiles = s.profiles ∧ (s.chargeRow m).geometry = s.geometry
      ∧ (s.chargeRow m).settings = s.settings ∧ (s.chargeRow m).dlt = s.dlt ∧ (s.chargeRow m).ports = s.ports
      ∧ (s.chargeRow m).cal.record = s.cal.record ∧ (s.chargeRow m).cal.tally = s.cal.tally
      ∧ (s.chargeRow m).tbu.clock = s.tbu.clock ∧ (s.chargeRow m).tbu.lampMinutes = s.tbu.lampMinutes
      ∧ (s.chargeRow m).tbu.lampSeconds = s.tbu.lampSeconds ∧ (s.chargeRow m).fsc.state = s.fsc.state
      ∧ (s.chargeRow m).fsc.mem = s.fsc.mem ∧ (s.chargeRow m).fsc.refreshOwed = s.fsc.refreshOwed
      ∧ (s.chargeRow m).fsc.reason = s.fsc.reason ∧ (s.chargeRow m).fsc.mask = s.fsc.mask
      ∧ (s.chargeRow m).fsc.retain = s.fsc.retain ∧ (s.chargeRow m).csq.moveCounter = s.csq.moveCounter := by
  and_intros <;>
    (unfold State.chargeRow; (repeat' split) <;> simp)

@[simp] theorem State.tearRow_frame (s : State) (kind : FaultKind) (i : Nat) :
    (s.tearRow kind i).pending = s.pending ∧ (s.tearRow kind i).freeCount = s.freeCount
      ∧ (s.tearRow kind i).profiles = s.profiles ∧ (s.tearRow kind i).geometry = s.geometry
      ∧ (s.tearRow kind i).settings = s.settings ∧ (s.tearRow kind i).dlt = s.dlt
      ∧ (s.tearRow kind i).ports = s.ports ∧ (s.tearRow kind i).cal.record = s.cal.record
      ∧ (s.tearRow kind i).cal.tally = s.cal.tally ∧ (s.tearRow kind i).tbu.clock = s.tbu.clock
      ∧ (s.tearRow kind i).tbu.lampMinutes = s.tbu.lampMinutes
      ∧ (s.tearRow kind i).tbu.lampSeconds = s.tbu.lampSeconds ∧ (s.tearRow kind i).fsc.state = s.fsc.state
      ∧ (s.tearRow kind i).fsc.mem = s.fsc.mem ∧ (s.tearRow kind i).fsc.refreshOwed = s.fsc.refreshOwed
      ∧ (s.tearRow kind i).fsc.reason = s.fsc.reason ∧ (s.tearRow kind i).fsc.mask = s.fsc.mask
      ∧ (s.tearRow kind i).fsc.retain = s.fsc.retain ∧ (s.tearRow kind i).csq.moveCounter = s.csq.moveCounter := by
  and_intros <;>
    (unfold State.tearRow; (repeat' split) <;> simp)

@[simp] theorem State.tearRows_frame (s : State) (kind : FaultKind) (first count : Nat) :
    (s.tearRows kind first count).pending = s.pending ∧ (s.tearRows kind first count).freeCount = s.freeCount
      ∧ (s.tearRows kind first count).profiles = s.profiles
      ∧ (s.tearRows kind first count).geometry = s.geometry
      ∧ (s.tearRows kind first count).settings = s.settings ∧ (s.tearRows kind first count).dlt = s.dlt
      ∧ (s.tearRows kind first count).ports = s.ports ∧ (s.tearRows kind first count).cal.record = s.cal.record
      ∧ (s.tearRows kind first count).cal.tally = s.cal.tally
      ∧ (s.tearRows kind first count).tbu.clock = s.tbu.clock
      ∧ (s.tearRows kind first count).tbu.lampMinutes = s.tbu.lampMinutes
      ∧ (s.tearRows kind first count).tbu.lampSeconds = s.tbu.lampSeconds
      ∧ (s.tearRows kind first count).fsc.state = s.fsc.state
      ∧ (s.tearRows kind first count).fsc.mem = s.fsc.mem
      ∧ (s.tearRows kind first count).fsc.refreshOwed = s.fsc.refreshOwed
      ∧ (s.tearRows kind first count).fsc.reason = s.fsc.reason
      ∧ (s.tearRows kind first count).fsc.mask = s.fsc.mask
      ∧ (s.tearRows kind first count).fsc.retain = s.fsc.retain
      ∧ (s.tearRows kind first count).csq.moveCounter = s.csq.moveCounter := by
  and_intros <;>
    (unfold State.tearRows; generalize List.range count = l; induction l generalizing s with
      | nil => rfl
      | cons k ks ih => simp only [List.foldl]; rw [ih]; simp)

@[simp] theorem State.strayFrame_frame (s : State) :
    (s.strayFrame).pending = s.pending ∧ (s.strayFrame).freeCount = s.freeCount
      ∧ (s.strayFrame).profiles = s.profiles ∧ (s.strayFrame).geometry = s.geometry
      ∧ (s.strayFrame).settings = s.settings ∧ (s.strayFrame).dlt = s.dlt ∧ (s.strayFrame).ports = s.ports
      ∧ (s.strayFrame).cal.record = s.cal.record ∧ (s.strayFrame).cal.tally = s.cal.tally
      ∧ (s.strayFrame).tbu.clock = s.tbu.clock ∧ (s.strayFrame).tbu.lampMinutes = s.tbu.lampMinutes
      ∧ (s.strayFrame).tbu.lampSeconds = s.tbu.lampSeconds ∧ (s.strayFrame).fsc.state = s.fsc.state
      ∧ (s.strayFrame).fsc.mem = s.fsc.mem ∧ (s.strayFrame).fsc.refreshOwed = s.fsc.refreshOwed
      ∧ (s.strayFrame).fsc.reason = s.fsc.reason ∧ (s.strayFrame).fsc.mask = s.fsc.mask
      ∧ (s.strayFrame).fsc.retain = s.fsc.retain ∧ (s.strayFrame).csq.moveCounter = s.csq.moveCounter := by
  and_intros <;>
    simp [State.strayFrame]

@[simp] theorem State.reportFrameEnd_frame (s : State) (torn : Nat) :
    (s.reportFrameEnd torn).pending = s.pending ∧ (s.reportFrameEnd torn).raised = s.raised
      ∧ (s.reportFrameEnd torn).freeCount = s.freeCount ∧ (s.reportFrameEnd torn).plates = s.plates
      ∧ (s.reportFrameEnd torn).profiles = s.profiles ∧ (s.reportFrameEnd torn).geometry = s.geometry
      ∧ (s.reportFrameEnd torn).settings = s.settings ∧ (s.reportFrameEnd torn).ltc = s.ltc
      ∧ (s.reportFrameEnd torn).fsc = s.fsc ∧ (s.reportFrameEnd torn).dlt = s.dlt
      ∧ (s.reportFrameEnd torn).ports = s.ports ∧ (s.reportFrameEnd torn).cal.record = s.cal.record
      ∧ (s.reportFrameEnd torn).cal.tally = s.cal.tally
      ∧ (s.reportFrameEnd torn).plr.faultCount = s.plr.faultCount
      ∧ (s.reportFrameEnd torn).plr.link = s.plr.link ∧ (s.reportFrameEnd torn).plr.queue = s.plr.queue
      ∧ (s.reportFrameEnd torn).plr.awaitedTag = s.plr.awaitedTag
      ∧ (s.reportFrameEnd torn).plr.reception = s.plr.reception
      ∧ (s.reportFrameEnd torn).plr.nextRow = s.plr.nextRow
      ∧ (s.reportFrameEnd torn).plr.tornCount = s.plr.tornCount
      ∧ (s.reportFrameEnd torn).plr.tagCounter = s.plr.tagCounter
      ∧ (s.reportFrameEnd torn).plr.capture = s.plr.capture
      ∧ (s.reportFrameEnd torn).plr.requester = s.plr.requester
      ∧ (s.reportFrameEnd torn).tbu.clock = s.tbu.clock
      ∧ (s.reportFrameEnd torn).tbu.lampMinutes = s.tbu.lampMinutes
      ∧ (s.reportFrameEnd torn).tbu.lampSeconds = s.tbu.lampSeconds
      ∧ (s.reportFrameEnd torn).csq.ctx = s.csq.ctx ∧ (s.reportFrameEnd torn).csq.state = s.csq.state
      ∧ (s.reportFrameEnd torn).csq.moveCounter = s.csq.moveCounter
      ∧ (s.reportFrameEnd torn).csq.move = s.csq.move ∧ (s.reportFrameEnd torn).mge.queue = s.mge.queue := by
  and_intros <;>
    (unfold State.reportFrameEnd; (repeat' split) <;> rfl)

@[simp] theorem State.reportTimeout_frame (s : State) (released : Nat) (straySeen : Bool) :
    (s.reportTimeout released straySeen).pending = s.pending
      ∧ (s.reportTimeout released straySeen).raised = s.raised
      ∧ (s.reportTimeout released straySeen).freeCount = s.freeCount
      ∧ (s.reportTimeout released straySeen).plates = s.plates
      ∧ (s.reportTimeout released straySeen).profiles = s.profiles
      ∧ (s.reportTimeout released straySeen).geometry = s.geometry
      ∧ (s.reportTimeout released straySeen).settings = s.settings
      ∧ (s.reportTimeout released straySeen).plr = s.plr ∧ (s.reportTimeout released straySeen).tbu = s.tbu
      ∧ (s.reportTimeout released straySeen).fsc = s.fsc ∧ (s.reportTimeout released straySeen).dlt = s.dlt
      ∧ (s.reportTimeout released straySeen).ports = s.ports
      ∧ (s.reportTimeout released straySeen).cal.record = s.cal.record
      ∧ (s.reportTimeout released straySeen).cal.tally = s.cal.tally
      ∧ (s.reportTimeout released straySeen).ltc.lamp = s.ltc.lamp
      ∧ (s.reportTimeout released straySeen).csq.ctx = s.csq.ctx
      ∧ (s.reportTimeout released straySeen).csq.moveCounter = s.csq.moveCounter
      ∧ (s.reportTimeout released straySeen).csq.move = s.csq.move
      ∧ (s.reportTimeout released straySeen).mge.queue = s.mge.queue := by
  and_intros <;>
    (unfold State.reportTimeout; (repeat' split) <;> rfl)

@[simp] theorem State.cleanDecrement_frame (s : State) :
    (s.cleanDecrement).pending = s.pending ∧ (s.cleanDecrement).freeCount = s.freeCount
      ∧ (s.cleanDecrement).profiles = s.profiles ∧ (s.cleanDecrement).geometry = s.geometry
      ∧ (s.cleanDecrement).settings = s.settings ∧ (s.cleanDecrement).dlt = s.dlt
      ∧ (s.cleanDecrement).ports = s.ports ∧ (s.cleanDecrement).cal.record = s.cal.record
      ∧ (s.cleanDecrement).cal.tally = s.cal.tally ∧ (s.cleanDecrement).plr.nextRow = s.plr.nextRow
      ∧ (s.cleanDecrement).plr.tornCount = s.plr.tornCount
      ∧ (s.cleanDecrement).plr.tagCounter = s.plr.tagCounter ∧ (s.cleanDecrement).plr.capture = s.plr.capture
      ∧ (s.cleanDecrement).plr.requester = s.plr.requester ∧ (s.cleanDecrement).tbu.clock = s.tbu.clock
      ∧ (s.cleanDecrement).tbu.lampMinutes = s.tbu.lampMinutes
      ∧ (s.cleanDecrement).tbu.lampSeconds = s.tbu.lampSeconds ∧ (s.cleanDecrement).fsc.state = s.fsc.state
      ∧ (s.cleanDecrement).fsc.mem = s.fsc.mem ∧ (s.cleanDecrement).fsc.refreshOwed = s.fsc.refreshOwed
      ∧ (s.cleanDecrement).fsc.reason = s.fsc.reason ∧ (s.cleanDecrement).fsc.mask = s.fsc.mask
      ∧ (s.cleanDecrement).fsc.retain = s.fsc.retain ∧ (s.cleanDecrement).csq.moveCounter = s.csq.moveCounter := by
  and_intros <;>
    (unfold State.cleanDecrement; (repeat' split) <;> simp)

@[simp] theorem State.decideWindow_frame (s : State) (release : Bool) :
    (s.decideWindow release).pending = s.pending ∧ (s.decideWindow release).raised = s.raised
      ∧ (s.decideWindow release).freeCount = s.freeCount ∧ (s.decideWindow release).plates = s.plates
      ∧ (s.decideWindow release).profiles = s.profiles ∧ (s.decideWindow release).geometry = s.geometry
      ∧ (s.decideWindow release).settings = s.settings ∧ (s.decideWindow release).ltc = s.ltc
      ∧ (s.decideWindow release).fsc = s.fsc ∧ (s.decideWindow release).dlt = s.dlt
      ∧ (s.decideWindow release).ports = s.ports ∧ (s.decideWindow release).cal.record = s.cal.record
      ∧ (s.decideWindow release).cal.tally = s.cal.tally ∧ (s.decideWindow release).tbu.clock = s.tbu.clock
      ∧ (s.decideWindow release).tbu.lampMinutes = s.tbu.lampMinutes
      ∧ (s.decideWindow release).tbu.lampSeconds = s.tbu.lampSeconds
      ∧ (s.decideWindow release).csq.ctx = s.csq.ctx ∧ (s.decideWindow release).csq.state = s.csq.state
      ∧ (s.decideWindow release).csq.moveCounter = s.csq.moveCounter
      ∧ (s.decideWindow release).csq.move = s.csq.move ∧ (s.decideWindow release).mge.queue = s.mge.queue := by
  and_intros <;>
    (unfold State.decideWindow; (repeat' split) <;> simp)

@[simp] theorem State.queueRow_frame (s : State) (i : Nat) (codes : List CameraCode) :
    (s.queueRow i codes).pending = s.pending ∧ (s.queueRow i codes).freeCount = s.freeCount
      ∧ (s.queueRow i codes).profiles = s.profiles ∧ (s.queueRow i codes).geometry = s.geometry
      ∧ (s.queueRow i codes).settings = s.settings ∧ (s.queueRow i codes).dlt = s.dlt
      ∧ (s.queueRow i codes).ports = s.ports ∧ (s.queueRow i codes).cal.record = s.cal.record
      ∧ (s.queueRow i codes).cal.tally = s.cal.tally ∧ (s.queueRow i codes).tbu.clock = s.tbu.clock
      ∧ (s.queueRow i codes).tbu.lampMinutes = s.tbu.lampMinutes
      ∧ (s.queueRow i codes).tbu.lampSeconds = s.tbu.lampSeconds ∧ (s.queueRow i codes).fsc.state = s.fsc.state
      ∧ (s.queueRow i codes).fsc.mem = s.fsc.mem ∧ (s.queueRow i codes).fsc.refreshOwed = s.fsc.refreshOwed
      ∧ (s.queueRow i codes).fsc.reason = s.fsc.reason ∧ (s.queueRow i codes).fsc.mask = s.fsc.mask
      ∧ (s.queueRow i codes).fsc.retain = s.fsc.retain
      ∧ (s.queueRow i codes).csq.moveCounter = s.csq.moveCounter := by
  and_intros <;>
    (unfold State.queueRow; (repeat' split) <;> simp)

@[simp] theorem State.throwRow_frame (s : State) (index : Nat) :
    (s.throwRow index).pending = s.pending ∧ (s.throwRow index).freeCount = s.freeCount
      ∧ (s.throwRow index).profiles = s.profiles ∧ (s.throwRow index).geometry = s.geometry
      ∧ (s.throwRow index).settings = s.settings ∧ (s.throwRow index).dlt = s.dlt
      ∧ (s.throwRow index).ports = s.ports ∧ (s.throwRow index).cal.record = s.cal.record
      ∧ (s.throwRow index).cal.tally = s.cal.tally ∧ (s.throwRow index).tbu.clock = s.tbu.clock
      ∧ (s.throwRow index).tbu.lampMinutes = s.tbu.lampMinutes
      ∧ (s.throwRow index).tbu.lampSeconds = s.tbu.lampSeconds ∧ (s.throwRow index).fsc.state = s.fsc.state
      ∧ (s.throwRow index).fsc.mem = s.fsc.mem ∧ (s.throwRow index).fsc.refreshOwed = s.fsc.refreshOwed
      ∧ (s.throwRow index).fsc.reason = s.fsc.reason ∧ (s.throwRow index).fsc.mask = s.fsc.mask
      ∧ (s.throwRow index).fsc.retain = s.fsc.retain ∧ (s.throwRow index).csq.moveCounter = s.csq.moveCounter := by
  and_intros <;>
    simp [State.throwRow]

@[simp] theorem State.receiveRow_frame (s : State) (good : Bool) (index : Nat) (codeBytes : List Byte) :
    (s.receiveRow good index codeBytes).pending = s.pending
      ∧ (s.receiveRow good index codeBytes).freeCount = s.freeCount
      ∧ (s.receiveRow good index codeBytes).profiles = s.profiles
      ∧ (s.receiveRow good index codeBytes).geometry = s.geometry
      ∧ (s.receiveRow good index codeBytes).settings = s.settings
      ∧ (s.receiveRow good index codeBytes).dlt = s.dlt ∧ (s.receiveRow good index codeBytes).ports = s.ports
      ∧ (s.receiveRow good index codeBytes).cal.record = s.cal.record
      ∧ (s.receiveRow good index codeBytes).cal.tally = s.cal.tally
      ∧ (s.receiveRow good index codeBytes).tbu.clock = s.tbu.clock
      ∧ (s.receiveRow good index codeBytes).tbu.lampMinutes = s.tbu.lampMinutes
      ∧ (s.receiveRow good index codeBytes).tbu.lampSeconds = s.tbu.lampSeconds
      ∧ (s.receiveRow good index codeBytes).fsc.state = s.fsc.state
      ∧ (s.receiveRow good index codeBytes).fsc.mem = s.fsc.mem
      ∧ (s.receiveRow good index codeBytes).fsc.refreshOwed = s.fsc.refreshOwed
      ∧ (s.receiveRow good index codeBytes).fsc.reason = s.fsc.reason
      ∧ (s.receiveRow good index codeBytes).fsc.mask = s.fsc.mask
      ∧ (s.receiveRow good index codeBytes).fsc.retain = s.fsc.retain
      ∧ (s.receiveRow good index codeBytes).csq.moveCounter = s.csq.moveCounter := by
  and_intros <;>
    (unfold State.receiveRow; dsimp only; (repeat' split) <;> (try simp))

@[simp] theorem State.recoverLink_frame (s : State) :
    (s.recoverLink).pending = s.pending ∧ (s.recoverLink).freeCount = s.freeCount
      ∧ (s.recoverLink).plates = s.plates ∧ (s.recoverLink).profiles = s.profiles
      ∧ (s.recoverLink).geometry = s.geometry ∧ (s.recoverLink).settings = s.settings
      ∧ (s.recoverLink).csq = s.csq ∧ (s.recoverLink).mge = s.mge ∧ (s.recoverLink).cal = s.cal
      ∧ (s.recoverLink).ltc = s.ltc ∧ (s.recoverLink).tbu = s.tbu ∧ (s.recoverLink).fsc = s.fsc
      ∧ (s.recoverLink).dlt = s.dlt ∧ (s.recoverLink).ports = s.ports ∧ (s.recoverLink).plr.queue = s.plr.queue
      ∧ (s.recoverLink).plr.awaitedTag = s.plr.awaitedTag ∧ (s.recoverLink).plr.reception = s.plr.reception
      ∧ (s.recoverLink).plr.nextRow = s.plr.nextRow ∧ (s.recoverLink).plr.tornCount = s.plr.tornCount
      ∧ (s.recoverLink).plr.tagCounter = s.plr.tagCounter ∧ (s.recoverLink).plr.capture = s.plr.capture
      ∧ (s.recoverLink).plr.requester = s.plr.requester := by
  and_intros <;>
    rfl

@[simp] theorem State.idleWhileDropped_frame (s : State) (good : Bool) :
    (s.idleWhileDropped good).pending = s.pending ∧ (s.idleWhileDropped good).freeCount = s.freeCount
      ∧ (s.idleWhileDropped good).plates = s.plates ∧ (s.idleWhileDropped good).profiles = s.profiles
      ∧ (s.idleWhileDropped good).geometry = s.geometry ∧ (s.idleWhileDropped good).settings = s.settings
      ∧ (s.idleWhileDropped good).csq = s.csq ∧ (s.idleWhileDropped good).mge = s.mge
      ∧ (s.idleWhileDropped good).cal = s.cal ∧ (s.idleWhileDropped good).ltc = s.ltc
      ∧ (s.idleWhileDropped good).tbu = s.tbu ∧ (s.idleWhileDropped good).fsc = s.fsc
      ∧ (s.idleWhileDropped good).dlt = s.dlt ∧ (s.idleWhileDropped good).ports = s.ports
      ∧ (s.idleWhileDropped good).plr.queue = s.plr.queue
      ∧ (s.idleWhileDropped good).plr.awaitedTag = s.plr.awaitedTag
      ∧ (s.idleWhileDropped good).plr.reception = s.plr.reception
      ∧ (s.idleWhileDropped good).plr.nextRow = s.plr.nextRow
      ∧ (s.idleWhileDropped good).plr.tornCount = s.plr.tornCount
      ∧ (s.idleWhileDropped good).plr.tagCounter = s.plr.tagCounter
      ∧ (s.idleWhileDropped good).plr.capture = s.plr.capture
      ∧ (s.idleWhileDropped good).plr.requester = s.plr.requester := by
  and_intros <;>
    (unfold State.idleWhileDropped; (repeat' split) <;> rfl)

@[simp] theorem State.breakIdleRun_frame (s : State) :
    (s.breakIdleRun).pending = s.pending ∧ (s.breakIdleRun).raised = s.raised
      ∧ (s.breakIdleRun).freeCount = s.freeCount ∧ (s.breakIdleRun).plates = s.plates
      ∧ (s.breakIdleRun).profiles = s.profiles ∧ (s.breakIdleRun).geometry = s.geometry
      ∧ (s.breakIdleRun).settings = s.settings ∧ (s.breakIdleRun).csq = s.csq ∧ (s.breakIdleRun).mge = s.mge
      ∧ (s.breakIdleRun).cal = s.cal ∧ (s.breakIdleRun).ltc = s.ltc ∧ (s.breakIdleRun).tbu = s.tbu
      ∧ (s.breakIdleRun).fsc = s.fsc ∧ (s.breakIdleRun).dlt = s.dlt ∧ (s.breakIdleRun).ports = s.ports
      ∧ (s.breakIdleRun).plr.faultCount = s.plr.faultCount ∧ (s.breakIdleRun).plr.link = s.plr.link
      ∧ (s.breakIdleRun).plr.queue = s.plr.queue ∧ (s.breakIdleRun).plr.awaitedTag = s.plr.awaitedTag
      ∧ (s.breakIdleRun).plr.reception = s.plr.reception ∧ (s.breakIdleRun).plr.nextRow = s.plr.nextRow
      ∧ (s.breakIdleRun).plr.tornCount = s.plr.tornCount ∧ (s.breakIdleRun).plr.tagCounter = s.plr.tagCounter
      ∧ (s.breakIdleRun).plr.capture = s.plr.capture ∧ (s.breakIdleRun).plr.requester = s.plr.requester := by
  and_intros <;>
    rfl

@[simp] theorem State.sealFaults_frame (s0 s : State) :
    (State.sealFaults s0 s).pending = s.pending ∧ (State.sealFaults s0 s).freeCount = s.freeCount
      ∧ (State.sealFaults s0 s).plates = s.plates ∧ (State.sealFaults s0 s).profiles = s.profiles
      ∧ (State.sealFaults s0 s).geometry = s.geometry ∧ (State.sealFaults s0 s).settings = s.settings
      ∧ (State.sealFaults s0 s).csq = s.csq ∧ (State.sealFaults s0 s).mge = s.mge
      ∧ (State.sealFaults s0 s).cal = s.cal ∧ (State.sealFaults s0 s).ltc = s.ltc
      ∧ (State.sealFaults s0 s).tbu = s.tbu ∧ (State.sealFaults s0 s).fsc = s.fsc
      ∧ (State.sealFaults s0 s).dlt = s.dlt ∧ (State.sealFaults s0 s).ports = s.ports
      ∧ (State.sealFaults s0 s).plr.faultCount = s.plr.faultCount
      ∧ (State.sealFaults s0 s).plr.link = s.plr.link ∧ (State.sealFaults s0 s).plr.queue = s.plr.queue
      ∧ (State.sealFaults s0 s).plr.awaitedTag = s.plr.awaitedTag
      ∧ (State.sealFaults s0 s).plr.reception = s.plr.reception
      ∧ (State.sealFaults s0 s).plr.nextRow = s.plr.nextRow
      ∧ (State.sealFaults s0 s).plr.tornCount = s.plr.tornCount
      ∧ (State.sealFaults s0 s).plr.tagCounter = s.plr.tagCounter
      ∧ (State.sealFaults s0 s).plr.requester = s.plr.requester := by
  and_intros <;>
    (unfold State.sealFaults; (repeat' split) <;> rfl)

@[simp] theorem State.startStream_frame (s : State) (c : CellRef) :
    (s.startStream c).pending = s.pending ∧ (s.startStream c).freeCount = s.freeCount
      ∧ (s.startStream c).profiles = s.profiles ∧ (s.startStream c).geometry = s.geometry
      ∧ (s.startStream c).settings = s.settings ∧ (s.startStream c).csq = s.csq ∧ (s.startStream c).mge = s.mge
      ∧ (s.startStream c).cal = s.cal ∧ (s.startStream c).plr = s.plr ∧ (s.startStream c).fsc = s.fsc
      ∧ (s.startStream c).ports = s.ports ∧ (s.startStream c).ltc.windowOpen = s.ltc.windowOpen
      ∧ (s.startStream c).tbu.clock = s.tbu.clock ∧ (s.startStream c).tbu.lampMinutes = s.tbu.lampMinutes
      ∧ (s.startStream c).tbu.lampSeconds = s.tbu.lampSeconds ∧ (s.startStream c).dlt.mode = s.dlt.mode
      ∧ (s.startStream c).dlt.ready = s.dlt.ready ∧ (s.startStream c).dlt.link = s.dlt.link := by
  and_intros <;>
    (unfold State.startStream; (repeat' split) <;> simp)

@[simp] theorem State.autoStream_frame (s : State) :
    (s.autoStream).pending = s.pending ∧ (s.autoStream).freeCount = s.freeCount
      ∧ (s.autoStream).profiles = s.profiles ∧ (s.autoStream).geometry = s.geometry
      ∧ (s.autoStream).settings = s.settings ∧ (s.autoStream).csq = s.csq ∧ (s.autoStream).mge = s.mge
      ∧ (s.autoStream).cal = s.cal ∧ (s.autoStream).plr = s.plr ∧ (s.autoStream).fsc = s.fsc
      ∧ (s.autoStream).ports = s.ports ∧ (s.autoStream).ltc.windowOpen = s.ltc.windowOpen
      ∧ (s.autoStream).tbu.clock = s.tbu.clock ∧ (s.autoStream).tbu.lampMinutes = s.tbu.lampMinutes
      ∧ (s.autoStream).tbu.lampSeconds = s.tbu.lampSeconds ∧ (s.autoStream).dlt.mode = s.dlt.mode
      ∧ (s.autoStream).dlt.ready = s.dlt.ready ∧ (s.autoStream).dlt.link = s.dlt.link := by
  and_intros <;>
    (unfold State.autoStream; (repeat' split) <;> simp)

@[simp] theorem State.serveLink_frame (s : State) :
    (s.serveLink).pending = s.pending ∧ (s.serveLink).raised = s.raised ∧ (s.serveLink).freeCount = s.freeCount
      ∧ (s.serveLink).plates = s.plates ∧ (s.serveLink).profiles = s.profiles
      ∧ (s.serveLink).geometry = s.geometry ∧ (s.serveLink).settings = s.settings ∧ (s.serveLink).csq = s.csq
      ∧ (s.serveLink).mge = s.mge ∧ (s.serveLink).cal = s.cal ∧ (s.serveLink).plr = s.plr
      ∧ (s.serveLink).ltc = s.ltc ∧ (s.serveLink).tbu = s.tbu ∧ (s.serveLink).fsc = s.fsc
      ∧ (s.serveLink).ports = s.ports := by
  and_intros <;>
    rfl

@[simp] theorem State.pollDelivery_frame (s : State) :
    (s.pollDelivery).pending = s.pending ∧ (s.pollDelivery).freeCount = s.freeCount
      ∧ (s.pollDelivery).profiles = s.profiles ∧ (s.pollDelivery).geometry = s.geometry
      ∧ (s.pollDelivery).settings = s.settings ∧ (s.pollDelivery).csq = s.csq ∧ (s.pollDelivery).mge = s.mge
      ∧ (s.pollDelivery).cal = s.cal ∧ (s.pollDelivery).plr = s.plr ∧ (s.pollDelivery).fsc = s.fsc
      ∧ (s.pollDelivery).ports = s.ports ∧ (s.pollDelivery).ltc.windowOpen = s.ltc.windowOpen
      ∧ (s.pollDelivery).tbu.clock = s.tbu.clock ∧ (s.pollDelivery).tbu.lampMinutes = s.tbu.lampMinutes
      ∧ (s.pollDelivery).tbu.lampSeconds = s.tbu.lampSeconds := by
  and_intros <;>
    simp [State.pollDelivery]

@[simp] theorem State.cutPlateStream_frame (s : State) (key : PlateKey) :
    (s.cutPlateStream key).pending = s.pending ∧ (s.cutPlateStream key).raised = s.raised
      ∧ (s.cutPlateStream key).freeCount = s.freeCount ∧ (s.cutPlateStream key).plates = s.plates
      ∧ (s.cutPlateStream key).profiles = s.profiles ∧ (s.cutPlateStream key).geometry = s.geometry
      ∧ (s.cutPlateStream key).settings = s.settings ∧ (s.cutPlateStream key).csq = s.csq
      ∧ (s.cutPlateStream key).mge = s.mge ∧ (s.cutPlateStream key).cal = s.cal
      ∧ (s.cutPlateStream key).plr = s.plr ∧ (s.cutPlateStream key).ltc = s.ltc
      ∧ (s.cutPlateStream key).tbu = s.tbu ∧ (s.cutPlateStream key).ports = s.ports
      ∧ (s.cutPlateStream key).fsc.state = s.fsc.state ∧ (s.cutPlateStream key).fsc.mem = s.fsc.mem
      ∧ (s.cutPlateStream key).fsc.refreshOwed = s.fsc.refreshOwed
      ∧ (s.cutPlateStream key).fsc.reason = s.fsc.reason ∧ (s.cutPlateStream key).fsc.mask = s.fsc.mask
      ∧ (s.cutPlateStream key).fsc.retain = s.fsc.retain ∧ (s.cutPlateStream key).fsc.held = s.fsc.held := by
  and_intros <;>
    (unfold State.cutPlateStream; (repeat' split) <;> rfl)

@[simp] theorem State.takeDiscards_frame (s : State) :
    (s.takeDiscards).pending = s.pending ∧ (s.takeDiscards).raised = s.raised
      ∧ (s.takeDiscards).freeCount = s.freeCount ∧ (s.takeDiscards).plates = s.plates
      ∧ (s.takeDiscards).profiles = s.profiles ∧ (s.takeDiscards).geometry = s.geometry
      ∧ (s.takeDiscards).settings = s.settings ∧ (s.takeDiscards).csq = s.csq ∧ (s.takeDiscards).mge = s.mge
      ∧ (s.takeDiscards).cal = s.cal ∧ (s.takeDiscards).ltc = s.ltc ∧ (s.takeDiscards).tbu = s.tbu
      ∧ (s.takeDiscards).fsc = s.fsc ∧ (s.takeDiscards).dlt = s.dlt ∧ (s.takeDiscards).ports = s.ports
      ∧ (s.takeDiscards).plr.faultCount = s.plr.faultCount ∧ (s.takeDiscards).plr.link = s.plr.link
      ∧ (s.takeDiscards).plr.awaitedTag = s.plr.awaitedTag ∧ (s.takeDiscards).plr.reception = s.plr.reception
      ∧ (s.takeDiscards).plr.nextRow = s.plr.nextRow ∧ (s.takeDiscards).plr.tornCount = s.plr.tornCount
      ∧ (s.takeDiscards).plr.tagCounter = s.plr.tagCounter ∧ (s.takeDiscards).plr.capture = s.plr.capture
      ∧ (s.takeDiscards).plr.requester = s.plr.requester := by
  and_intros <;>
    (unfold State.takeDiscards; (repeat' split) <;> rfl)

@[simp] theorem State.grant_frame (s : State) :
    (s.grant).pending = s.pending ∧ (s.grant).raised = s.raised ∧ (s.grant).freeCount = s.freeCount
      ∧ (s.grant).plates = s.plates ∧ (s.grant).profiles = s.profiles ∧ (s.grant).geometry = s.geometry
      ∧ (s.grant).settings = s.settings ∧ (s.grant).csq = s.csq ∧ (s.grant).mge = s.mge ∧ (s.grant).cal = s.cal
      ∧ (s.grant).ltc = s.ltc ∧ (s.grant).tbu = s.tbu ∧ (s.grant).dlt = s.dlt ∧ (s.grant).ports = s.ports
      ∧ (s.grant).fsc.state = s.fsc.state ∧ (s.grant).fsc.mem = s.fsc.mem
      ∧ (s.grant).fsc.refreshOwed = s.fsc.refreshOwed ∧ (s.grant).fsc.reason = s.fsc.reason
      ∧ (s.grant).fsc.mask = s.fsc.mask ∧ (s.grant).fsc.retain = s.fsc.retain ∧ (s.grant).fsc.held = s.fsc.held := by
  and_intros <;>
    (unfold State.grant; (repeat' split) <;> rfl)

@[simp] theorem State.arbitrate_frame (s : State) :
    (s.arbitrate).pending = s.pending ∧ (s.arbitrate).raised = s.raised ∧ (s.arbitrate).freeCount = s.freeCount
      ∧ (s.arbitrate).plates = s.plates ∧ (s.arbitrate).profiles = s.profiles
      ∧ (s.arbitrate).geometry = s.geometry ∧ (s.arbitrate).settings = s.settings ∧ (s.arbitrate).csq = s.csq
      ∧ (s.arbitrate).mge = s.mge ∧ (s.arbitrate).cal = s.cal ∧ (s.arbitrate).ltc = s.ltc
      ∧ (s.arbitrate).tbu = s.tbu ∧ (s.arbitrate).dlt = s.dlt ∧ (s.arbitrate).ports = s.ports
      ∧ (s.arbitrate).fsc.state = s.fsc.state ∧ (s.arbitrate).fsc.mem = s.fsc.mem
      ∧ (s.arbitrate).fsc.refreshOwed = s.fsc.refreshOwed ∧ (s.arbitrate).fsc.reason = s.fsc.reason
      ∧ (s.arbitrate).fsc.mask = s.fsc.mask ∧ (s.arbitrate).fsc.retain = s.fsc.retain
      ∧ (s.arbitrate).fsc.held = s.fsc.held := by
  and_intros <;>
    simp [State.arbitrate]

@[simp] theorem State.pollAll_frame (s : State) :
    (s.pollAll).pending = s.pending ∧ (s.pollAll).freeCount = s.freeCount ∧ (s.pollAll).profiles = s.profiles
      ∧ (s.pollAll).geometry = s.geometry ∧ (s.pollAll).settings = s.settings ∧ (s.pollAll).ports = s.ports
      ∧ (s.pollAll).cal.tally = s.cal.tally ∧ (s.pollAll).tbu.clock = s.tbu.clock
      ∧ (s.pollAll).tbu.lampMinutes = s.tbu.lampMinutes ∧ (s.pollAll).tbu.lampSeconds = s.tbu.lampSeconds
      ∧ (s.pollAll).fsc.state = s.fsc.state ∧ (s.pollAll).fsc.mem = s.fsc.mem
      ∧ (s.pollAll).fsc.refreshOwed = s.fsc.refreshOwed ∧ (s.pollAll).fsc.reason = s.fsc.reason
      ∧ (s.pollAll).fsc.mask = s.fsc.mask ∧ (s.pollAll).fsc.retain = s.fsc.retain := by
  and_intros <;>
    simp [State.pollAll]

@[simp] theorem State.warmRestart_frame (s : State) :
    (s.warmRestart).pending = s.pending ∧ (s.warmRestart).freeCount = s.freeCount
      ∧ (s.warmRestart).profiles = s.profiles ∧ (s.warmRestart).geometry = s.geometry
      ∧ (s.warmRestart).settings = s.settings ∧ (s.warmRestart).cal.record = s.cal.record
      ∧ (s.warmRestart).plr.tagCounter = s.plr.tagCounter ∧ (s.warmRestart).tbu.clock = s.tbu.clock
      ∧ (s.warmRestart).tbu.lampMinutes = s.tbu.lampMinutes
      ∧ (s.warmRestart).tbu.lampSeconds = s.tbu.lampSeconds ∧ (s.warmRestart).fsc.mem = s.fsc.mem
      ∧ (s.warmRestart).fsc.refreshOwed = s.fsc.refreshOwed ∧ (s.warmRestart).fsc.reason = s.fsc.reason
      ∧ (s.warmRestart).fsc.mask = s.fsc.mask ∧ (s.warmRestart).fsc.retain = s.fsc.retain
      ∧ (s.warmRestart).dlt.mode = s.dlt.mode ∧ (s.warmRestart).dlt.ready = s.dlt.ready
      ∧ (s.warmRestart).csq.moveCounter = s.csq.moveCounter := by
  and_intros <;>
    rfl

@[simp] theorem State.resume_frame (s : State) :
    (s.resume).pending = s.pending ∧ (s.resume).freeCount = s.freeCount ∧ (s.resume).profiles = s.profiles
      ∧ (s.resume).geometry = s.geometry ∧ (s.resume).settings = s.settings
      ∧ (s.resume).cal.record = s.cal.record ∧ (s.resume).tbu.clock = s.tbu.clock
      ∧ (s.resume).tbu.lampMinutes = s.tbu.lampMinutes ∧ (s.resume).tbu.lampSeconds = s.tbu.lampSeconds
      ∧ (s.resume).fsc.mem = s.fsc.mem ∧ (s.resume).fsc.refreshOwed = s.fsc.refreshOwed
      ∧ (s.resume).fsc.reason = s.fsc.reason ∧ (s.resume).fsc.mask = s.fsc.mask
      ∧ (s.resume).fsc.retain = s.fsc.retain := by
  and_intros <;>
    simp [State.resume]

@[simp] theorem State.storeFault_frame (s : State) (reason : FaultReason) :
    (s.storeFault reason).pending = s.pending ∧ (s.storeFault reason).freeCount = s.freeCount
      ∧ (s.storeFault reason).plates = s.plates ∧ (s.storeFault reason).profiles = s.profiles
      ∧ (s.storeFault reason).geometry = s.geometry ∧ (s.storeFault reason).settings = s.settings
      ∧ (s.storeFault reason).csq = s.csq ∧ (s.storeFault reason).mge = s.mge
      ∧ (s.storeFault reason).cal = s.cal ∧ (s.storeFault reason).plr = s.plr
      ∧ (s.storeFault reason).ltc = s.ltc ∧ (s.storeFault reason).tbu = s.tbu
      ∧ (s.storeFault reason).dlt = s.dlt ∧ (s.storeFault reason).ports = s.ports
      ∧ (s.storeFault reason).fsc.mem = s.fsc.mem ∧ (s.storeFault reason).fsc.refreshOwed = s.fsc.refreshOwed
      ∧ (s.storeFault reason).fsc.mask = s.fsc.mask ∧ (s.storeFault reason).fsc.retain = s.fsc.retain
      ∧ (s.storeFault reason).fsc.access = s.fsc.access ∧ (s.storeFault reason).fsc.held = s.fsc.held := by
  and_intros <;>
    rfl

@[simp] theorem State.storeReady_frame (s : State) (cause : StoreCause) :
    (s.storeReady cause).pending = s.pending ∧ (s.storeReady cause).freeCount = s.freeCount
      ∧ (s.storeReady cause).profiles = s.profiles ∧ (s.storeReady cause).geometry = s.geometry
      ∧ (s.storeReady cause).settings = s.settings ∧ (s.storeReady cause).cal = s.cal
      ∧ (s.storeReady cause).ports = s.ports ∧ (s.storeReady cause).ltc.windowOpen = s.ltc.windowOpen
      ∧ (s.storeReady cause).tbu.clock = s.tbu.clock ∧ (s.storeReady cause).tbu.lampMinutes = s.tbu.lampMinutes
      ∧ (s.storeReady cause).tbu.lampSeconds = s.tbu.lampSeconds ∧ (s.storeReady cause).fsc.mem = s.fsc.mem
      ∧ (s.storeReady cause).fsc.refreshOwed = s.fsc.refreshOwed
      ∧ (s.storeReady cause).fsc.reason = s.fsc.reason ∧ (s.storeReady cause).fsc.mask = s.fsc.mask
      ∧ (s.storeReady cause).fsc.retain = s.fsc.retain ∧ (s.storeReady cause).mge.queue = s.mge.queue := by
  and_intros <;>
    simp [State.storeReady]

@[simp] theorem State.mergeDone_frame (s : State) (k : SlotNo) (ordinal y : Nat) (codes : List CameraCode) :
    (s.mergeDone k ordinal y codes).pending = s.pending ∧ (s.mergeDone k ordinal y codes).raised = s.raised
      ∧ (s.mergeDone k ordinal y codes).freeCount = s.freeCount
      ∧ (s.mergeDone k ordinal y codes).plates = s.plates
      ∧ (s.mergeDone k ordinal y codes).profiles = s.profiles
      ∧ (s.mergeDone k ordinal y codes).geometry = s.geometry
      ∧ (s.mergeDone k ordinal y codes).settings = s.settings ∧ (s.mergeDone k ordinal y codes).csq = s.csq
      ∧ (s.mergeDone k ordinal y codes).cal = s.cal ∧ (s.mergeDone k ordinal y codes).plr = s.plr
      ∧ (s.mergeDone k ordinal y codes).ltc = s.ltc ∧ (s.mergeDone k ordinal y codes).tbu = s.tbu
      ∧ (s.mergeDone k ordinal y codes).dlt = s.dlt ∧ (s.mergeDone k ordinal y codes).ports = s.ports
      ∧ (s.mergeDone k ordinal y codes).fsc.state = s.fsc.state
      ∧ (s.mergeDone k ordinal y codes).fsc.refreshOwed = s.fsc.refreshOwed
      ∧ (s.mergeDone k ordinal y codes).fsc.reason = s.fsc.reason
      ∧ (s.mergeDone k ordinal y codes).fsc.mask = s.fsc.mask
      ∧ (s.mergeDone k ordinal y codes).fsc.retain = s.fsc.retain
      ∧ (s.mergeDone k ordinal y codes).fsc.access = s.fsc.access
      ∧ (s.mergeDone k ordinal y codes).fsc.held = s.fsc.held
      ∧ (s.mergeDone k ordinal y codes).mge.queue = s.mge.queue := by
  and_intros <;>
    rfl

@[simp] theorem State.clearRowDone_frame (s : State) (k : SlotNo) (y : Nat) :
    (s.clearRowDone k y).pending = s.pending ∧ (s.clearRowDone k y).raised = s.raised
      ∧ (s.clearRowDone k y).freeCount = s.freeCount ∧ (s.clearRowDone k y).plates = s.plates
      ∧ (s.clearRowDone k y).profiles = s.profiles ∧ (s.clearRowDone k y).geometry = s.geometry
      ∧ (s.clearRowDone k y).settings = s.settings ∧ (s.clearRowDone k y).cal = s.cal
      ∧ (s.clearRowDone k y).plr = s.plr ∧ (s.clearRowDone k y).ltc = s.ltc ∧ (s.clearRowDone k y).tbu = s.tbu
      ∧ (s.clearRowDone k y).dlt = s.dlt ∧ (s.clearRowDone k y).ports = s.ports
      ∧ (s.clearRowDone k y).fsc.state = s.fsc.state ∧ (s.clearRowDone k y).fsc.refreshOwed = s.fsc.refreshOwed
      ∧ (s.clearRowDone k y).fsc.reason = s.fsc.reason ∧ (s.clearRowDone k y).fsc.mask = s.fsc.mask
      ∧ (s.clearRowDone k y).fsc.retain = s.fsc.retain ∧ (s.clearRowDone k y).fsc.access = s.fsc.access
      ∧ (s.clearRowDone k y).fsc.held = s.fsc.held ∧ (s.clearRowDone k y).csq.state = s.csq.state
      ∧ (s.clearRowDone k y).csq.moveCounter = s.csq.moveCounter ∧ (s.clearRowDone k y).csq.move = s.csq.move
      ∧ (s.clearRowDone k y).mge.queue = s.mge.queue := by
  and_intros <;>
    (unfold State.clearRowDone; (repeat' split) <;> rfl)

@[simp] theorem State.calibWorkDone_frame (s : State) (w : StoreWork) :
    (s.calibWorkDone w).pending = s.pending ∧ (s.calibWorkDone w).freeCount = s.freeCount
      ∧ (s.calibWorkDone w).plates = s.plates ∧ (s.calibWorkDone w).profiles = s.profiles
      ∧ (s.calibWorkDone w).geometry = s.geometry ∧ (s.calibWorkDone w).settings = s.settings
      ∧ (s.calibWorkDone w).csq = s.csq ∧ (s.calibWorkDone w).mge = s.mge ∧ (s.calibWorkDone w).dlt = s.dlt
      ∧ (s.calibWorkDone w).ports = s.ports ∧ (s.calibWorkDone w).plr.faultCount = s.plr.faultCount
      ∧ (s.calibWorkDone w).plr.link = s.plr.link ∧ (s.calibWorkDone w).plr.nextRow = s.plr.nextRow
      ∧ (s.calibWorkDone w).plr.tornCount = s.plr.tornCount
      ∧ (s.calibWorkDone w).plr.tagCounter = s.plr.tagCounter ∧ (s.calibWorkDone w).plr.capture = s.plr.capture
      ∧ (s.calibWorkDone w).plr.requester = s.plr.requester ∧ (s.calibWorkDone w).ltc.lamp = s.ltc.lamp
      ∧ (s.calibWorkDone w).tbu.clock = s.tbu.clock ∧ (s.calibWorkDone w).tbu.lampMinutes = s.tbu.lampMinutes
      ∧ (s.calibWorkDone w).tbu.lampSeconds = s.tbu.lampSeconds ∧ (s.calibWorkDone w).fsc.state = s.fsc.state
      ∧ (s.calibWorkDone w).fsc.refreshOwed = s.fsc.refreshOwed ∧ (s.calibWorkDone w).fsc.reason = s.fsc.reason
      ∧ (s.calibWorkDone w).fsc.mask = s.fsc.mask ∧ (s.calibWorkDone w).fsc.retain = s.fsc.retain
      ∧ (s.calibWorkDone w).fsc.held = s.fsc.held := by
  and_intros <;>
    (unfold State.calibWorkDone; (repeat' split) <;> simp)

@[simp] theorem State.passComplete_frame (s : State) (k : SlotNo) :
    (s.passComplete k).pending = s.pending ∧ (s.passComplete k).freeCount = s.freeCount
      ∧ (s.passComplete k).profiles = s.profiles ∧ (s.passComplete k).geometry = s.geometry
      ∧ (s.passComplete k).settings = s.settings ∧ (s.passComplete k).csq = s.csq
      ∧ (s.passComplete k).cal = s.cal ∧ (s.passComplete k).plr = s.plr ∧ (s.passComplete k).fsc = s.fsc
      ∧ (s.passComplete k).ports = s.ports ∧ (s.passComplete k).ltc.windowOpen = s.ltc.windowOpen
      ∧ (s.passComplete k).tbu.clock = s.tbu.clock ∧ (s.passComplete k).tbu.lampMinutes = s.tbu.lampMinutes
      ∧ (s.passComplete k).tbu.lampSeconds = s.tbu.lampSeconds ∧ (s.passComplete k).dlt.mode = s.dlt.mode
      ∧ (s.passComplete k).dlt.ready = s.dlt.ready ∧ (s.passComplete k).dlt.link = s.dlt.link
      ∧ (s.passComplete k).dlt.stream = s.dlt.stream := by
  and_intros <;>
    (unfold State.passComplete; (repeat' split) <;> simp)

@[simp] theorem State.finalRowDone_frame (s : State) (k : SlotNo) (y : Nat) :
    (s.finalRowDone k y).pending = s.pending ∧ (s.finalRowDone k y).freeCount = s.freeCount
      ∧ (s.finalRowDone k y).profiles = s.profiles ∧ (s.finalRowDone k y).geometry = s.geometry
      ∧ (s.finalRowDone k y).settings = s.settings ∧ (s.finalRowDone k y).csq = s.csq
      ∧ (s.finalRowDone k y).cal = s.cal ∧ (s.finalRowDone k y).plr = s.plr
      ∧ (s.finalRowDone k y).ports = s.ports ∧ (s.finalRowDone k y).ltc.windowOpen = s.ltc.windowOpen
      ∧ (s.finalRowDone k y).tbu.clock = s.tbu.clock ∧ (s.finalRowDone k y).tbu.lampMinutes = s.tbu.lampMinutes
      ∧ (s.finalRowDone k y).tbu.lampSeconds = s.tbu.lampSeconds ∧ (s.finalRowDone k y).fsc.state = s.fsc.state
      ∧ (s.finalRowDone k y).fsc.refreshOwed = s.fsc.refreshOwed
      ∧ (s.finalRowDone k y).fsc.reason = s.fsc.reason ∧ (s.finalRowDone k y).fsc.mask = s.fsc.mask
      ∧ (s.finalRowDone k y).fsc.retain = s.fsc.retain ∧ (s.finalRowDone k y).fsc.access = s.fsc.access
      ∧ (s.finalRowDone k y).fsc.held = s.fsc.held ∧ (s.finalRowDone k y).dlt.mode = s.dlt.mode
      ∧ (s.finalRowDone k y).dlt.ready = s.dlt.ready ∧ (s.finalRowDone k y).dlt.link = s.dlt.link
      ∧ (s.finalRowDone k y).dlt.stream = s.dlt.stream := by
  and_intros <;>
    (unfold State.finalRowDone; (repeat' split) <;> simp)

@[simp] theorem State.fillBuffer_frame (s : State) (k : SlotNo) (y : Nat) :
    (s.fillBuffer k y).pending = s.pending ∧ (s.fillBuffer k y).raised = s.raised
      ∧ (s.fillBuffer k y).freeCount = s.freeCount ∧ (s.fillBuffer k y).plates = s.plates
      ∧ (s.fillBuffer k y).profiles = s.profiles ∧ (s.fillBuffer k y).geometry = s.geometry
      ∧ (s.fillBuffer k y).settings = s.settings ∧ (s.fillBuffer k y).csq = s.csq
      ∧ (s.fillBuffer k y).mge = s.mge ∧ (s.fillBuffer k y).cal = s.cal ∧ (s.fillBuffer k y).plr = s.plr
      ∧ (s.fillBuffer k y).ltc = s.ltc ∧ (s.fillBuffer k y).tbu = s.tbu ∧ (s.fillBuffer k y).fsc = s.fsc
      ∧ (s.fillBuffer k y).ports = s.ports ∧ (s.fillBuffer k y).dlt.mode = s.dlt.mode
      ∧ (s.fillBuffer k y).dlt.ready = s.dlt.ready ∧ (s.fillBuffer k y).dlt.link = s.dlt.link
      ∧ (s.fillBuffer k y).dlt.queue = s.dlt.queue := by
  and_intros <;>
    rfl

@[simp] theorem State.minuteEvent_frame (s : State) :
    (s.minuteEvent).pending = s.pending ∧ (s.minuteEvent).freeCount = s.freeCount
      ∧ (s.minuteEvent).plates = s.plates ∧ (s.minuteEvent).profiles = s.profiles
      ∧ (s.minuteEvent).geometry = s.geometry ∧ (s.minuteEvent).settings = s.settings
      ∧ (s.minuteEvent).csq = s.csq ∧ (s.minuteEvent).mge = s.mge ∧ (s.minuteEvent).plr = s.plr
      ∧ (s.minuteEvent).ltc = s.ltc ∧ (s.minuteEvent).fsc = s.fsc ∧ (s.minuteEvent).dlt = s.dlt
      ∧ (s.minuteEvent).cal.op = s.cal.op ∧ (s.minuteEvent).cal.tally = s.cal.tally
      ∧ (s.minuteEvent).tbu.timers = s.tbu.timers := by
  and_intros <;>
    simp [State.minuteEvent]

@[simp] theorem State.timeoutWait_frame (s : State) :
    (s.timeoutWait).pending = s.pending ∧ (s.timeoutWait).raised = s.raised
      ∧ (s.timeoutWait).freeCount = s.freeCount ∧ (s.timeoutWait).plates = s.plates
      ∧ (s.timeoutWait).profiles = s.profiles ∧ (s.timeoutWait).geometry = s.geometry
      ∧ (s.timeoutWait).settings = s.settings ∧ (s.timeoutWait).fsc = s.fsc ∧ (s.timeoutWait).dlt = s.dlt
      ∧ (s.timeoutWait).ports = s.ports ∧ (s.timeoutWait).cal.record = s.cal.record
      ∧ (s.timeoutWait).cal.tally = s.cal.tally ∧ (s.timeoutWait).ltc.lamp = s.ltc.lamp
      ∧ (s.timeoutWait).tbu.clock = s.tbu.clock ∧ (s.timeoutWait).tbu.lampMinutes = s.tbu.lampMinutes
      ∧ (s.timeoutWait).tbu.lampSeconds = s.tbu.lampSeconds ∧ (s.timeoutWait).csq.ctx = s.csq.ctx
      ∧ (s.timeoutWait).csq.moveCounter = s.csq.moveCounter ∧ (s.timeoutWait).csq.move = s.csq.move
      ∧ (s.timeoutWait).mge.queue = s.mge.queue := by
  and_intros <;>
    (unfold State.timeoutWait; dsimp only; (repeat' split) <;> (try simp))

@[simp] theorem State.takeReading_frame (s : State) (r : Reading) :
    (s.takeReading r).pending = s.pending ∧ (s.takeReading r).raised = s.raised
      ∧ (s.takeReading r).freeCount = s.freeCount ∧ (s.takeReading r).plates = s.plates
      ∧ (s.takeReading r).profiles = s.profiles ∧ (s.takeReading r).geometry = s.geometry
      ∧ (s.takeReading r).settings = s.settings ∧ (s.takeReading r).csq = s.csq ∧ (s.takeReading r).mge = s.mge
      ∧ (s.takeReading r).cal = s.cal ∧ (s.takeReading r).plr = s.plr ∧ (s.takeReading r).tbu = s.tbu
      ∧ (s.takeReading r).fsc = s.fsc ∧ (s.takeReading r).dlt = s.dlt ∧ (s.takeReading r).ports = s.ports
      ∧ (s.takeReading r).ltc.lamp = s.ltc.lamp ∧ (s.takeReading r).ltc.windowOpen = s.ltc.windowOpen := by
  and_intros <;>
    rfl

@[simp] theorem State.lampFailed_frame (s : State) :
    (s.lampFailed).pending = s.pending ∧ (s.lampFailed).freeCount = s.freeCount
      ∧ (s.lampFailed).profiles = s.profiles ∧ (s.lampFailed).geometry = s.geometry
      ∧ (s.lampFailed).settings = s.settings ∧ (s.lampFailed).csq = s.csq ∧ (s.lampFailed).mge = s.mge
      ∧ (s.lampFailed).dlt = s.dlt ∧ (s.lampFailed).ports = s.ports ∧ (s.lampFailed).cal.record = s.cal.record
      ∧ (s.lampFailed).cal.tally = s.cal.tally ∧ (s.lampFailed).plr.faultCount = s.plr.faultCount
      ∧ (s.lampFailed).plr.link = s.plr.link ∧ (s.lampFailed).plr.nextRow = s.plr.nextRow
      ∧ (s.lampFailed).plr.tornCount = s.plr.tornCount ∧ (s.lampFailed).plr.tagCounter = s.plr.tagCounter
      ∧ (s.lampFailed).plr.capture = s.plr.capture ∧ (s.lampFailed).plr.requester = s.plr.requester
      ∧ (s.lampFailed).tbu.clock = s.tbu.clock ∧ (s.lampFailed).tbu.lampMinutes = s.tbu.lampMinutes
      ∧ (s.lampFailed).tbu.lampSeconds = s.tbu.lampSeconds ∧ (s.lampFailed).fsc.state = s.fsc.state
      ∧ (s.lampFailed).fsc.mem = s.fsc.mem ∧ (s.lampFailed).fsc.refreshOwed = s.fsc.refreshOwed
      ∧ (s.lampFailed).fsc.reason = s.fsc.reason ∧ (s.lampFailed).fsc.mask = s.fsc.mask
      ∧ (s.lampFailed).fsc.retain = s.fsc.retain ∧ (s.lampFailed).fsc.held = s.fsc.held := by
  and_intros <;>
    (unfold State.lampFailed; dsimp only; (repeat' split) <;> (try simp))

@[simp] theorem State.tryWindowEnd_frame (s : State) (k : SlotNo) (m : Nat) (steady : Bool) :
    (s.tryWindowEnd k m steady).pending = s.pending ∧ (s.tryWindowEnd k m steady).raised = s.raised
      ∧ (s.tryWindowEnd k m steady).freeCount = s.freeCount ∧ (s.tryWindowEnd k m steady).plates = s.plates
      ∧ (s.tryWindowEnd k m steady).profiles = s.profiles ∧ (s.tryWindowEnd k m steady).geometry = s.geometry
      ∧ (s.tryWindowEnd k m steady).settings = s.settings ∧ (s.tryWindowEnd k m steady).ltc = s.ltc
      ∧ (s.tryWindowEnd k m steady).fsc = s.fsc ∧ (s.tryWindowEnd k m steady).dlt = s.dlt
      ∧ (s.tryWindowEnd k m steady).ports = s.ports ∧ (s.tryWindowEnd k m steady).cal.record = s.cal.record
      ∧ (s.tryWindowEnd k m steady).cal.tally = s.cal.tally
      ∧ (s.tryWindowEnd k m steady).tbu.clock = s.tbu.clock
      ∧ (s.tryWindowEnd k m steady).tbu.lampMinutes = s.tbu.lampMinutes
      ∧ (s.tryWindowEnd k m steady).tbu.lampSeconds = s.tbu.lampSeconds
      ∧ (s.tryWindowEnd k m steady).csq.ctx = s.csq.ctx
      ∧ (s.tryWindowEnd k m steady).csq.moveCounter = s.csq.moveCounter
      ∧ (s.tryWindowEnd k m steady).csq.move = s.csq.move ∧ (s.tryWindowEnd k m steady).mge.queue = s.mge.queue := by
  and_intros <;>
    simp [State.tryWindowEnd]

@[simp] theorem State.attemptWindowEnd_frame (s : State) (op : CalOp) (m : Nat) (steady : Bool) :
    (s.attemptWindowEnd op m steady).pending = s.pending ∧ (s.attemptWindowEnd op m steady).raised = s.raised
      ∧ (s.attemptWindowEnd op m steady).freeCount = s.freeCount
      ∧ (s.attemptWindowEnd op m steady).plates = s.plates
      ∧ (s.attemptWindowEnd op m steady).profiles = s.profiles
      ∧ (s.attemptWindowEnd op m steady).geometry = s.geometry
      ∧ (s.attemptWindowEnd op m steady).settings = s.settings ∧ (s.attemptWindowEnd op m steady).ltc = s.ltc
      ∧ (s.attemptWindowEnd op m steady).fsc = s.fsc ∧ (s.attemptWindowEnd op m steady).dlt = s.dlt
      ∧ (s.attemptWindowEnd op m steady).ports = s.ports
      ∧ (s.attemptWindowEnd op m steady).cal.record = s.cal.record
      ∧ (s.attemptWindowEnd op m steady).cal.tally = s.cal.tally
      ∧ (s.attemptWindowEnd op m steady).tbu.clock = s.tbu.clock
      ∧ (s.attemptWindowEnd op m steady).tbu.lampMinutes = s.tbu.lampMinutes
      ∧ (s.attemptWindowEnd op m steady).tbu.lampSeconds = s.tbu.lampSeconds
      ∧ (s.attemptWindowEnd op m steady).csq.ctx = s.csq.ctx
      ∧ (s.attemptWindowEnd op m steady).csq.state = s.csq.state
      ∧ (s.attemptWindowEnd op m steady).csq.moveCounter = s.csq.moveCounter
      ∧ (s.attemptWindowEnd op m steady).csq.move = s.csq.move
      ∧ (s.attemptWindowEnd op m steady).mge.queue = s.mge.queue := by
  and_intros <;>
    (unfold State.attemptWindowEnd; (repeat' split) <;> simp)

@[simp] theorem State.windowEnded_frame (s : State) (m : Nat) (steady : Bool) :
    (s.windowEnded m steady).pending = s.pending ∧ (s.windowEnded m steady).raised = s.raised
      ∧ (s.windowEnded m steady).freeCount = s.freeCount ∧ (s.windowEnded m steady).plates = s.plates
      ∧ (s.windowEnded m steady).profiles = s.profiles ∧ (s.windowEnded m steady).geometry = s.geometry
      ∧ (s.windowEnded m steady).settings = s.settings ∧ (s.windowEnded m steady).ltc = s.ltc
      ∧ (s.windowEnded m steady).fsc = s.fsc ∧ (s.windowEnded m steady).dlt = s.dlt
      ∧ (s.windowEnded m steady).ports = s.ports ∧ (s.windowEnded m steady).cal.record = s.cal.record
      ∧ (s.windowEnded m steady).cal.tally = s.cal.tally ∧ (s.windowEnded m steady).tbu.clock = s.tbu.clock
      ∧ (s.windowEnded m steady).tbu.lampMinutes = s.tbu.lampMinutes
      ∧ (s.windowEnded m steady).tbu.lampSeconds = s.tbu.lampSeconds
      ∧ (s.windowEnded m steady).csq.ctx = s.csq.ctx
      ∧ (s.windowEnded m steady).csq.moveCounter = s.csq.moveCounter
      ∧ (s.windowEnded m steady).csq.move = s.csq.move ∧ (s.windowEnded m steady).mge.queue = s.mge.queue := by
  and_intros <;>
    (unfold State.windowEnded; (repeat' split) <;> simp)

@[simp] theorem State.judgeStart_frame (s : State) (tag : Byte) (good : Bool) :
    (s.judgeStart tag good).pending = s.pending ∧ (s.judgeStart tag good).freeCount = s.freeCount
      ∧ (s.judgeStart tag good).profiles = s.profiles ∧ (s.judgeStart tag good).geometry = s.geometry
      ∧ (s.judgeStart tag good).settings = s.settings ∧ (s.judgeStart tag good).dlt = s.dlt
      ∧ (s.judgeStart tag good).ports = s.ports ∧ (s.judgeStart tag good).cal.record = s.cal.record
      ∧ (s.judgeStart tag good).cal.tally = s.cal.tally ∧ (s.judgeStart tag good).tbu.clock = s.tbu.clock
      ∧ (s.judgeStart tag good).tbu.lampMinutes = s.tbu.lampMinutes
      ∧ (s.judgeStart tag good).tbu.lampSeconds = s.tbu.lampSeconds
      ∧ (s.judgeStart tag good).fsc.state = s.fsc.state ∧ (s.judgeStart tag good).fsc.mem = s.fsc.mem
      ∧ (s.judgeStart tag good).fsc.refreshOwed = s.fsc.refreshOwed
      ∧ (s.judgeStart tag good).fsc.reason = s.fsc.reason ∧ (s.judgeStart tag good).fsc.mask = s.fsc.mask
      ∧ (s.judgeStart tag good).fsc.retain = s.fsc.retain
      ∧ (s.judgeStart tag good).csq.moveCounter = s.csq.moveCounter := by
  and_intros <;>
    (unfold State.judgeStart; (repeat' split) <;> simp)

@[simp] theorem State.streamEnded_frame (s : State) :
    (s.streamEnded).pending = s.pending ∧ (s.streamEnded).freeCount = s.freeCount
      ∧ (s.streamEnded).profiles = s.profiles ∧ (s.streamEnded).geometry = s.geometry
      ∧ (s.streamEnded).settings = s.settings ∧ (s.streamEnded).csq = s.csq ∧ (s.streamEnded).mge = s.mge
      ∧ (s.streamEnded).cal = s.cal ∧ (s.streamEnded).plr = s.plr ∧ (s.streamEnded).fsc = s.fsc
      ∧ (s.streamEnded).ports = s.ports ∧ (s.streamEnded).ltc.windowOpen = s.ltc.windowOpen
      ∧ (s.streamEnded).tbu.clock = s.tbu.clock ∧ (s.streamEnded).tbu.lampMinutes = s.tbu.lampMinutes
      ∧ (s.streamEnded).tbu.lampSeconds = s.tbu.lampSeconds ∧ (s.streamEnded).dlt.mode = s.dlt.mode
      ∧ (s.streamEnded).dlt.ready = s.dlt.ready ∧ (s.streamEnded).dlt.queue = s.dlt.queue := by
  and_intros <;>
    (unfold State.streamEnded; (repeat' split) <;> simp)

@[simp] theorem State.answer_frame (s : State) (code : AnswerCode) :
    (s.answer code).1.pending = s.pending ∧ (s.answer code).1.raised = s.raised
      ∧ (s.answer code).1.freeCount = s.freeCount ∧ (s.answer code).1.plates = s.plates
      ∧ (s.answer code).1.profiles = s.profiles ∧ (s.answer code).1.geometry = s.geometry
      ∧ (s.answer code).1.settings = s.settings ∧ (s.answer code).1.csq = s.csq ∧ (s.answer code).1.mge = s.mge
      ∧ (s.answer code).1.cal = s.cal ∧ (s.answer code).1.plr = s.plr ∧ (s.answer code).1.ltc = s.ltc
      ∧ (s.answer code).1.tbu = s.tbu ∧ (s.answer code).1.fsc = s.fsc ∧ (s.answer code).1.dlt = s.dlt
      ∧ (s.answer code).1.ports = s.ports := by
  and_intros <;>
    rfl

@[simp] theorem State.handleEnrol_frame (s : State) (record : Option PlateRecord) :
    (s.handleEnrol record).1.pending = s.pending ∧ (s.handleEnrol record).1.raised = s.raised
      ∧ (s.handleEnrol record).1.freeCount = s.freeCount ∧ (s.handleEnrol record).1.profiles = s.profiles
      ∧ (s.handleEnrol record).1.geometry = s.geometry ∧ (s.handleEnrol record).1.settings = s.settings
      ∧ (s.handleEnrol record).1.csq = s.csq ∧ (s.handleEnrol record).1.mge = s.mge
      ∧ (s.handleEnrol record).1.cal = s.cal ∧ (s.handleEnrol record).1.plr = s.plr
      ∧ (s.handleEnrol record).1.ltc = s.ltc ∧ (s.handleEnrol record).1.tbu = s.tbu
      ∧ (s.handleEnrol record).1.fsc = s.fsc ∧ (s.handleEnrol record).1.dlt = s.dlt
      ∧ (s.handleEnrol record).1.ports = s.ports := by
  and_intros <;>
    (unfold State.handleEnrol; (repeat' split) <;> rfl)

@[simp] theorem State.seatPlate_frame (s : State) (r : PlateRecord) :
    (s.seatPlate r).pending = s.pending ∧ (s.seatPlate r).freeCount = s.freeCount
      ∧ (s.seatPlate r).profiles = s.profiles ∧ (s.seatPlate r).geometry = s.geometry
      ∧ (s.seatPlate r).settings = s.settings ∧ (s.seatPlate r).cal = s.cal ∧ (s.seatPlate r).dlt = s.dlt
      ∧ (s.seatPlate r).ports = s.ports ∧ (s.seatPlate r).ltc.windowOpen = s.ltc.windowOpen
      ∧ (s.seatPlate r).tbu.clock = s.tbu.clock ∧ (s.seatPlate r).tbu.lampMinutes = s.tbu.lampMinutes
      ∧ (s.seatPlate r).tbu.lampSeconds = s.tbu.lampSeconds ∧ (s.seatPlate r).fsc.state = s.fsc.state
      ∧ (s.seatPlate r).fsc.mem = s.fsc.mem ∧ (s.seatPlate r).fsc.refreshOwed = s.fsc.refreshOwed
      ∧ (s.seatPlate r).fsc.reason = s.fsc.reason ∧ (s.seatPlate r).fsc.mask = s.fsc.mask
      ∧ (s.seatPlate r).fsc.retain = s.fsc.retain ∧ (s.seatPlate r).mge.queue = s.mge.queue := by
  and_intros <;>
    (unfold State.seatPlate; dsimp only; (repeat' split) <;> (try simp))

@[simp] theorem State.handleSeated_frame (s : State) (r : PlateRecord) :
    (s.handleSeated r).1.pending = s.pending ∧ (s.handleSeated r).1.freeCount = s.freeCount
      ∧ (s.handleSeated r).1.profiles = s.profiles ∧ (s.handleSeated r).1.geometry = s.geometry
      ∧ (s.handleSeated r).1.settings = s.settings ∧ (s.handleSeated r).1.cal = s.cal
      ∧ (s.handleSeated r).1.dlt = s.dlt ∧ (s.handleSeated r).1.ports = s.ports
      ∧ (s.handleSeated r).1.ltc.windowOpen = s.ltc.windowOpen ∧ (s.handleSeated r).1.tbu.clock = s.tbu.clock
      ∧ (s.handleSeated r).1.tbu.lampMinutes = s.tbu.lampMinutes
      ∧ (s.handleSeated r).1.tbu.lampSeconds = s.tbu.lampSeconds ∧ (s.handleSeated r).1.fsc.state = s.fsc.state
      ∧ (s.handleSeated r).1.fsc.mem = s.fsc.mem ∧ (s.handleSeated r).1.fsc.refreshOwed = s.fsc.refreshOwed
      ∧ (s.handleSeated r).1.fsc.reason = s.fsc.reason ∧ (s.handleSeated r).1.fsc.mask = s.fsc.mask
      ∧ (s.handleSeated r).1.fsc.retain = s.fsc.retain ∧ (s.handleSeated r).1.mge.queue = s.mge.queue := by
  and_intros <;>
    (unfold State.handleSeated; (repeat' split) <;> simp)

@[simp] theorem State.handleUnseated_frame (s : State) (r : PlateRecord) :
    (s.handleUnseated r).1.pending = s.pending ∧ (s.handleUnseated r).1.freeCount = s.freeCount
      ∧ (s.handleUnseated r).1.profiles = s.profiles ∧ (s.handleUnseated r).1.geometry = s.geometry
      ∧ (s.handleUnseated r).1.settings = s.settings ∧ (s.handleUnseated r).1.cal = s.cal
      ∧ (s.handleUnseated r).1.dlt = s.dlt ∧ (s.handleUnseated r).1.ports = s.ports
      ∧ (s.handleUnseated r).1.tbu.clock = s.tbu.clock
      ∧ (s.handleUnseated r).1.tbu.lampMinutes = s.tbu.lampMinutes
      ∧ (s.handleUnseated r).1.tbu.lampSeconds = s.tbu.lampSeconds
      ∧ (s.handleUnseated r).1.fsc.state = s.fsc.state ∧ (s.handleUnseated r).1.fsc.mem = s.fsc.mem
      ∧ (s.handleUnseated r).1.fsc.refreshOwed = s.fsc.refreshOwed
      ∧ (s.handleUnseated r).1.fsc.reason = s.fsc.reason ∧ (s.handleUnseated r).1.fsc.mask = s.fsc.mask
      ∧ (s.handleUnseated r).1.fsc.retain = s.fsc.retain
      ∧ (s.handleUnseated r).1.csq.moveCounter = s.csq.moveCounter := by
  and_intros <;>
    (unfold State.handleUnseated; (repeat' split) <;> simp)

@[simp] theorem State.undoPlate_frame (s : State) (key : PlateKey) :
    (s.undoPlate key).pending = s.pending ∧ (s.undoPlate key).raised = s.raised
      ∧ (s.undoPlate key).freeCount = s.freeCount ∧ (s.undoPlate key).plates = s.plates
      ∧ (s.undoPlate key).profiles = s.profiles ∧ (s.undoPlate key).geometry = s.geometry
      ∧ (s.undoPlate key).settings = s.settings ∧ (s.undoPlate key).csq = s.csq ∧ (s.undoPlate key).cal = s.cal
      ∧ (s.undoPlate key).ltc = s.ltc ∧ (s.undoPlate key).tbu = s.tbu ∧ (s.undoPlate key).ports = s.ports
      ∧ (s.undoPlate key).plr.faultCount = s.plr.faultCount ∧ (s.undoPlate key).plr.link = s.plr.link
      ∧ (s.undoPlate key).plr.awaitedTag = s.plr.awaitedTag ∧ (s.undoPlate key).plr.reception = s.plr.reception
      ∧ (s.undoPlate key).plr.nextRow = s.plr.nextRow ∧ (s.undoPlate key).plr.tornCount = s.plr.tornCount
      ∧ (s.undoPlate key).plr.tagCounter = s.plr.tagCounter ∧ (s.undoPlate key).plr.capture = s.plr.capture
      ∧ (s.undoPlate key).plr.requester = s.plr.requester ∧ (s.undoPlate key).fsc.state = s.fsc.state
      ∧ (s.undoPlate key).fsc.mem = s.fsc.mem ∧ (s.undoPlate key).fsc.refreshOwed = s.fsc.refreshOwed
      ∧ (s.undoPlate key).fsc.reason = s.fsc.reason ∧ (s.undoPlate key).fsc.mask = s.fsc.mask
      ∧ (s.undoPlate key).fsc.retain = s.fsc.retain := by
  and_intros <;>
    (unfold State.undoPlate; (repeat' split) <;> simp)

@[simp] theorem State.handleWithdraw_frame (s : State) (r : PlateRecord) :
    (s.handleWithdraw r).1.pending = s.pending ∧ (s.handleWithdraw r).1.freeCount = s.freeCount
      ∧ (s.handleWithdraw r).1.profiles = s.profiles ∧ (s.handleWithdraw r).1.geometry = s.geometry
      ∧ (s.handleWithdraw r).1.settings = s.settings ∧ (s.handleWithdraw r).1.cal = s.cal
      ∧ (s.handleWithdraw r).1.ports = s.ports ∧ (s.handleWithdraw r).1.tbu.clock = s.tbu.clock
      ∧ (s.handleWithdraw r).1.tbu.lampMinutes = s.tbu.lampMinutes
      ∧ (s.handleWithdraw r).1.tbu.lampSeconds = s.tbu.lampSeconds
      ∧ (s.handleWithdraw r).1.fsc.state = s.fsc.state ∧ (s.handleWithdraw r).1.fsc.mem = s.fsc.mem
      ∧ (s.handleWithdraw r).1.fsc.refreshOwed = s.fsc.refreshOwed
      ∧ (s.handleWithdraw r).1.fsc.reason = s.fsc.reason ∧ (s.handleWithdraw r).1.fsc.mask = s.fsc.mask
      ∧ (s.handleWithdraw r).1.fsc.retain = s.fsc.retain := by
  and_intros <;>
    (unfold State.handleWithdraw; (repeat' split) <;> simp)

@[simp] theorem State.handleRetire_frame (s : State) (r : PlateRecord) :
    (s.handleRetire r).1.pending = s.pending ∧ (s.handleRetire r).1.raised = s.raised
      ∧ (s.handleRetire r).1.freeCount = s.freeCount ∧ (s.handleRetire r).1.profiles = s.profiles
      ∧ (s.handleRetire r).1.geometry = s.geometry ∧ (s.handleRetire r).1.settings = s.settings
      ∧ (s.handleRetire r).1.csq = s.csq ∧ (s.handleRetire r).1.mge = s.mge ∧ (s.handleRetire r).1.cal = s.cal
      ∧ (s.handleRetire r).1.plr = s.plr ∧ (s.handleRetire r).1.ltc = s.ltc ∧ (s.handleRetire r).1.tbu = s.tbu
      ∧ (s.handleRetire r).1.fsc = s.fsc ∧ (s.handleRetire r).1.dlt = s.dlt
      ∧ (s.handleRetire r).1.ports = s.ports := by
  and_intros <;>
    (unfold State.handleRetire; (repeat' split) <;> rfl)

@[simp] theorem State.handleHold_frame (s : State) (r : PlateRecord) :
    (s.handleHold r).1.pending = s.pending ∧ (s.handleHold r).1.freeCount = s.freeCount
      ∧ (s.handleHold r).1.profiles = s.profiles ∧ (s.handleHold r).1.geometry = s.geometry
      ∧ (s.handleHold r).1.settings = s.settings ∧ (s.handleHold r).1.cal = s.cal
      ∧ (s.handleHold r).1.plr = s.plr ∧ (s.handleHold r).1.ltc = s.ltc ∧ (s.handleHold r).1.dlt = s.dlt
      ∧ (s.handleHold r).1.ports = s.ports ∧ (s.handleHold r).1.tbu.clock = s.tbu.clock
      ∧ (s.handleHold r).1.tbu.lampMinutes = s.tbu.lampMinutes
      ∧ (s.handleHold r).1.tbu.lampSeconds = s.tbu.lampSeconds ∧ (s.handleHold r).1.tbu.timers = s.tbu.timers
      ∧ (s.handleHold r).1.fsc.state = s.fsc.state ∧ (s.handleHold r).1.fsc.mem = s.fsc.mem
      ∧ (s.handleHold r).1.fsc.refreshOwed = s.fsc.refreshOwed ∧ (s.handleHold r).1.fsc.reason = s.fsc.reason
      ∧ (s.handleHold r).1.fsc.mask = s.fsc.mask ∧ (s.handleHold r).1.fsc.retain = s.fsc.retain
      ∧ (s.handleHold r).1.fsc.access = s.fsc.access ∧ (s.handleHold r).1.fsc.held = s.fsc.held
      ∧ (s.handleHold r).1.csq.ctx = s.csq.ctx ∧ (s.handleHold r).1.csq.moveCounter = s.csq.moveCounter
      ∧ (s.handleHold r).1.csq.move = s.csq.move ∧ (s.handleHold r).1.mge.work = s.mge.work
      ∧ (s.handleHold r).1.mge.queue = s.mge.queue := by
  and_intros <;>
    (unfold State.handleHold; (repeat' split) <;> simp)

@[simp] theorem State.handleFree_frame (s : State) (r : PlateRecord) :
    (s.handleFree r).1.pending = s.pending ∧ (s.handleFree r).1.freeCount = s.freeCount
      ∧ (s.handleFree r).1.profiles = s.profiles ∧ (s.handleFree r).1.geometry = s.geometry
      ∧ (s.handleFree r).1.settings = s.settings ∧ (s.handleFree r).1.cal = s.cal
      ∧ (s.handleFree r).1.dlt = s.dlt ∧ (s.handleFree r).1.ports = s.ports
      ∧ (s.handleFree r).1.ltc.windowOpen = s.ltc.windowOpen ∧ (s.handleFree r).1.tbu.clock = s.tbu.clock
      ∧ (s.handleFree r).1.tbu.lampMinutes = s.tbu.lampMinutes
      ∧ (s.handleFree r).1.tbu.lampSeconds = s.tbu.lampSeconds ∧ (s.handleFree r).1.fsc.state = s.fsc.state
      ∧ (s.handleFree r).1.fsc.mem = s.fsc.mem ∧ (s.handleFree r).1.fsc.refreshOwed = s.fsc.refreshOwed
      ∧ (s.handleFree r).1.fsc.reason = s.fsc.reason ∧ (s.handleFree r).1.fsc.mask = s.fsc.mask
      ∧ (s.handleFree r).1.fsc.retain = s.fsc.retain ∧ (s.handleFree r).1.mge.queue = s.mge.queue := by
  and_intros <;>
    (unfold State.handleFree; (repeat' split) <;> simp)

@[simp] theorem State.handleMark_frame (s : State) (handling : Arg Handling) (emulsion : Arg Emulsion) (r : PlateRecord) :
    (s.handleMark handling emulsion r).1.pending = s.pending
      ∧ (s.handleMark handling emulsion r).1.freeCount = s.freeCount
      ∧ (s.handleMark handling emulsion r).1.profiles = s.profiles
      ∧ (s.handleMark handling emulsion r).1.geometry = s.geometry
      ∧ (s.handleMark handling emulsion r).1.settings = s.settings
      ∧ (s.handleMark handling emulsion r).1.csq = s.csq ∧ (s.handleMark handling emulsion r).1.mge = s.mge
      ∧ (s.handleMark handling emulsion r).1.cal = s.cal ∧ (s.handleMark handling emulsion r).1.plr = s.plr
      ∧ (s.handleMark handling emulsion r).1.ltc = s.ltc ∧ (s.handleMark handling emulsion r).1.tbu = s.tbu
      ∧ (s.handleMark handling emulsion r).1.fsc = s.fsc ∧ (s.handleMark handling emulsion r).1.dlt = s.dlt
      ∧ (s.handleMark handling emulsion r).1.ports = s.ports := by
  and_intros <;>
    (unfold State.handleMark; (repeat' split) <;> rfl)

@[simp] theorem State.handleWriteProfile_frame (s : State) (w : Option (ProfileNo × Profile × Bool)) :
    (s.handleWriteProfile w).1.pending = s.pending ∧ (s.handleWriteProfile w).1.raised = s.raised
      ∧ (s.handleWriteProfile w).1.freeCount = s.freeCount ∧ (s.handleWriteProfile w).1.plates = s.plates
      ∧ (s.handleWriteProfile w).1.geometry = s.geometry ∧ (s.handleWriteProfile w).1.settings = s.settings
      ∧ (s.handleWriteProfile w).1.csq = s.csq ∧ (s.handleWriteProfile w).1.mge = s.mge
      ∧ (s.handleWriteProfile w).1.cal = s.cal ∧ (s.handleWriteProfile w).1.plr = s.plr
      ∧ (s.handleWriteProfile w).1.ltc = s.ltc ∧ (s.handleWriteProfile w).1.tbu = s.tbu
      ∧ (s.handleWriteProfile w).1.fsc = s.fsc ∧ (s.handleWriteProfile w).1.dlt = s.dlt
      ∧ (s.handleWriteProfile w).1.ports = s.ports := by
  and_intros <;>
    (unfold State.handleWriteProfile; (repeat' split) <;> rfl)

/-- All that the loss of the calibration may change: the record, the warm-up reference and the notices raised. -/
@[simp] theorem State.calibrationNone_frame (s : State) :
    (s.calibrationNone).pending = s.pending ∧ (s.calibrationNone).freeCount = s.freeCount
      ∧ (s.calibrationNone).plates = s.plates ∧ (s.calibrationNone).profiles = s.profiles
      ∧ (s.calibrationNone).geometry = s.geometry ∧ (s.calibrationNone).settings = s.settings
      ∧ (s.calibrationNone).csq = s.csq ∧ (s.calibrationNone).mge = s.mge ∧ (s.calibrationNone).plr = s.plr
      ∧ (s.calibrationNone).tbu = s.tbu ∧ (s.calibrationNone).fsc = s.fsc ∧ (s.calibrationNone).dlt = s.dlt
      ∧ (s.calibrationNone).ports = s.ports ∧ (s.calibrationNone).cal.op = s.cal.op
      ∧ (s.calibrationNone).cal.tally = s.cal.tally
      ∧ (s.calibrationNone).ltc.lamp = s.ltc.lamp ∧ (s.calibrationNone).ltc.windowOpen = s.ltc.windowOpen := by
  and_intros <;> (unfold State.calibrationNone; dsimp only; split <;> simp)

@[simp] theorem State.handleSetField_frame (s : State) (width height : Option Nat) :
    (s.handleSetField width height).1.pending = s.pending
      ∧ (s.handleSetField width height).1.freeCount = s.freeCount
      ∧ (s.handleSetField width height).1.plates = s.plates
      ∧ (s.handleSetField width height).1.profiles = s.profiles
      ∧ (s.handleSetField width height).1.settings = s.settings ∧ (s.handleSetField width height).1.csq = s.csq
      ∧ (s.handleSetField width height).1.mge = s.mge ∧ (s.handleSetField width height).1.plr = s.plr
      ∧ (s.handleSetField width height).1.tbu = s.tbu
      ∧ (s.handleSetField width height).1.fsc = s.fsc ∧ (s.handleSetField width height).1.dlt = s.dlt
      ∧ (s.handleSetField width height).1.ports = s.ports ∧ (s.handleSetField width height).1.cal.op = s.cal.op
      ∧ (s.handleSetField width height).1.cal.tally = s.cal.tally
      ∧ (s.handleSetField width height).1.ltc.lamp = s.ltc.lamp
      ∧ (s.handleSetField width height).1.ltc.windowOpen = s.ltc.windowOpen := by
  and_intros <;>
    (unfold State.handleSetField; dsimp only; (repeat' split) <;> (try simp))

@[simp] theorem State.lampLevelChanged_frame (s : State) :
    (s.lampLevelChanged).pending = s.pending ∧ (s.lampLevelChanged).freeCount = s.freeCount
      ∧ (s.lampLevelChanged).plates = s.plates ∧ (s.lampLevelChanged).profiles = s.profiles
      ∧ (s.lampLevelChanged).geometry = s.geometry ∧ (s.lampLevelChanged).settings = s.settings
      ∧ (s.lampLevelChanged).csq = s.csq ∧ (s.lampLevelChanged).mge = s.mge ∧ (s.lampLevelChanged).plr = s.plr
      ∧ (s.lampLevelChanged).fsc = s.fsc ∧ (s.lampLevelChanged).dlt = s.dlt
      ∧ (s.lampLevelChanged).ports = s.ports ∧ (s.lampLevelChanged).cal.op = s.cal.op
      ∧ (s.lampLevelChanged).cal.tally = s.cal.tally ∧ (s.lampLevelChanged).ltc.windowOpen = s.ltc.windowOpen
      ∧ (s.lampLevelChanged).tbu.clock = s.tbu.clock ∧ (s.lampLevelChanged).tbu.lampMinutes = s.tbu.lampMinutes
      ∧ (s.lampLevelChanged).tbu.lampSeconds = s.tbu.lampSeconds := by
  and_intros <;>
    (unfold State.lampLevelChanged; dsimp only; (repeat' split) <;> (try simp))

@[simp] theorem State.relimit_frame (s : State) :
    (s.relimit).pending = s.pending ∧ (s.relimit).freeCount = s.freeCount ∧ (s.relimit).plates = s.plates
      ∧ (s.relimit).profiles = s.profiles ∧ (s.relimit).geometry = s.geometry
      ∧ (s.relimit).settings = s.settings ∧ (s.relimit).csq = s.csq ∧ (s.relimit).mge = s.mge
      ∧ (s.relimit).cal = s.cal ∧ (s.relimit).ltc = s.ltc ∧ (s.relimit).tbu = s.tbu ∧ (s.relimit).fsc = s.fsc
      ∧ (s.relimit).dlt = s.dlt ∧ (s.relimit).ports = s.ports ∧ (s.relimit).plr.faultCount = s.plr.faultCount
      ∧ (s.relimit).plr.queue = s.plr.queue ∧ (s.relimit).plr.awaitedTag = s.plr.awaitedTag
      ∧ (s.relimit).plr.reception = s.plr.reception ∧ (s.relimit).plr.nextRow = s.plr.nextRow
      ∧ (s.relimit).plr.tornCount = s.plr.tornCount ∧ (s.relimit).plr.tagCounter = s.plr.tagCounter
      ∧ (s.relimit).plr.capture = s.plr.capture ∧ (s.relimit).plr.requester = s.plr.requester := by
  and_intros <;>
    (unfold State.relimit; dsimp only; (repeat' split) <;> (try simp))

@[simp] theorem State.applySettings_frame (s : State) (given : List (Setting × Nat)) :
    (s.applySettings given).pending = s.pending ∧ (s.applySettings given).freeCount = s.freeCount
      ∧ (s.applySettings given).plates = s.plates ∧ (s.applySettings given).profiles = s.profiles
      ∧ (s.applySettings given).geometry = s.geometry ∧ (s.applySettings given).csq = s.csq
      ∧ (s.applySettings given).mge = s.mge ∧ (s.applySettings given).fsc = s.fsc
      ∧ (s.applySettings given).dlt = s.dlt ∧ (s.applySettings given).ports = s.ports
      ∧ (s.applySettings given).cal.op = s.cal.op ∧ (s.applySettings given).cal.tally = s.cal.tally
      ∧ (s.applySettings given).plr.faultCount = s.plr.faultCount
      ∧ (s.applySettings given).plr.queue = s.plr.queue
      ∧ (s.applySettings given).plr.awaitedTag = s.plr.awaitedTag
      ∧ (s.applySettings given).plr.reception = s.plr.reception
      ∧ (s.applySettings given).plr.nextRow = s.plr.nextRow
      ∧ (s.applySettings given).plr.tornCount = s.plr.tornCount
      ∧ (s.applySettings given).plr.tagCounter = s.plr.tagCounter
      ∧ (s.applySettings given).plr.capture = s.plr.capture
      ∧ (s.applySettings given).plr.requester = s.plr.requester
      ∧ (s.applySettings given).ltc.windowOpen = s.ltc.windowOpen
      ∧ (s.applySettings given).tbu.clock = s.tbu.clock
      ∧ (s.applySettings given).tbu.lampMinutes = s.tbu.lampMinutes
      ∧ (s.applySettings given).tbu.lampSeconds = s.tbu.lampSeconds := by
  and_intros <;>
    (unfold State.applySettings; dsimp only; (repeat' split) <;> (try simp))

@[simp] theorem State.arrive_frame (s : State) (m : MoveRecord) :
    (s.arrive m).pending = s.pending ∧ (s.arrive m).freeCount = s.freeCount ∧ (s.arrive m).plates = s.plates
      ∧ (s.arrive m).profiles = s.profiles ∧ (s.arrive m).geometry = s.geometry
      ∧ (s.arrive m).settings = s.settings ∧ (s.arrive m).cal = s.cal ∧ (s.arrive m).fsc = s.fsc
      ∧ (s.arrive m).dlt = s.dlt ∧ (s.arrive m).ports = s.ports
      ∧ (s.arrive m).plr.faultCount = s.plr.faultCount ∧ (s.arrive m).plr.link = s.plr.link
      ∧ (s.arrive m).plr.queue = s.plr.queue ∧ (s.arrive m).plr.reception = s.plr.reception
      ∧ (s.arrive m).plr.nextRow = s.plr.nextRow ∧ (s.arrive m).plr.capture = s.plr.capture
      ∧ (s.arrive m).ltc.windowOpen = s.ltc.windowOpen ∧ (s.arrive m).tbu.clock = s.tbu.clock
      ∧ (s.arrive m).tbu.lampMinutes = s.tbu.lampMinutes ∧ (s.arrive m).tbu.lampSeconds = s.tbu.lampSeconds
      ∧ (s.arrive m).csq.ctx = s.csq.ctx ∧ (s.arrive m).csq.moveCounter = s.csq.moveCounter
      ∧ (s.arrive m).mge.queue = s.mge.queue := by
  and_intros <;>
    simp [State.arrive]

@[simp] theorem State.handleAtCell_frame (s : State) (key : Option PlateKey) (column row number : Option Nat) :
    (s.handleAtCell key column row number).1.pending = s.pending
      ∧ (s.handleAtCell key column row number).1.freeCount = s.freeCount
      ∧ (s.handleAtCell key column row number).1.plates = s.plates
      ∧ (s.handleAtCell key column row number).1.profiles = s.profiles
      ∧ (s.handleAtCell key column row number).1.geometry = s.geometry
      ∧ (s.handleAtCell key column row number).1.settings = s.settings
      ∧ (s.handleAtCell key column row number).1.cal = s.cal
      ∧ (s.handleAtCell key column row number).1.fsc = s.fsc
      ∧ (s.handleAtCell key column row number).1.dlt = s.dlt
      ∧ (s.handleAtCell key column row number).1.ports = s.ports
      ∧ (s.handleAtCell key column row number).1.plr.faultCount = s.plr.faultCount
      ∧ (s.handleAtCell key column row number).1.plr.link = s.plr.link
      ∧ (s.handleAtCell key column row number).1.plr.queue = s.plr.queue
      ∧ (s.handleAtCell key column row number).1.plr.reception = s.plr.reception
      ∧ (s.handleAtCell key column row number).1.plr.nextRow = s.plr.nextRow
      ∧ (s.handleAtCell key column row number).1.plr.capture = s.plr.capture
      ∧ (s.handleAtCell key column row number).1.ltc.windowOpen = s.ltc.windowOpen
      ∧ (s.handleAtCell key column row number).1.tbu.clock = s.tbu.clock
      ∧ (s.handleAtCell key column row number).1.tbu.lampMinutes = s.tbu.lampMinutes
      ∧ (s.handleAtCell key column row number).1.tbu.lampSeconds = s.tbu.lampSeconds
      ∧ (s.handleAtCell key column row number).1.csq.ctx = s.csq.ctx
      ∧ (s.handleAtCell key column row number).1.csq.moveCounter = s.csq.moveCounter
      ∧ (s.handleAtCell key column row number).1.mge.queue = s.mge.queue := by
  and_intros <;>
    (unfold State.handleAtCell; (repeat' split) <;> simp)

@[simp] theorem State.handleMoveFault_frame (s : State) (key : Option PlateKey) (number : Option Nat) :
    (s.handleMoveFault key number).1.pending = s.pending ∧ (s.handleMoveFault key number).1.raised = s.raised
      ∧ (s.handleMoveFault key number).1.freeCount = s.freeCount
      ∧ (s.handleMoveFault key number).1.profiles = s.profiles
      ∧ (s.handleMoveFault key number).1.geometry = s.geometry
      ∧ (s.handleMoveFault key number).1.settings = s.settings ∧ (s.handleMoveFault key number).1.mge = s.mge
      ∧ (s.handleMoveFault key number).1.cal = s.cal ∧ (s.handleMoveFault key number).1.plr = s.plr
      ∧ (s.handleMoveFault key number).1.ltc = s.ltc ∧ (s.handleMoveFault key number).1.fsc = s.fsc
      ∧ (s.handleMoveFault key number).1.dlt = s.dlt ∧ (s.handleMoveFault key number).1.ports = s.ports
      ∧ (s.handleMoveFault key number).1.tbu.clock = s.tbu.clock
      ∧ (s.handleMoveFault key number).1.tbu.lampMinutes = s.tbu.lampMinutes
      ∧ (s.handleMoveFault key number).1.tbu.lampSeconds = s.tbu.lampSeconds
      ∧ (s.handleMoveFault key number).1.csq.ctx = s.csq.ctx
      ∧ (s.handleMoveFault key number).1.csq.moveCounter = s.csq.moveCounter := by
  and_intros <;>
    (unfold State.handleMoveFault; (repeat' split) <;> rfl)

@[simp] theorem State.startDark_frame (s : State) (tRef : Nat) :
    (s.startDark tRef).pending = s.pending ∧ (s.startDark tRef).freeCount = s.freeCount
      ∧ (s.startDark tRef).plates = s.plates ∧ (s.startDark tRef).profiles = s.profiles
      ∧ (s.startDark tRef).geometry = s.geometry ∧ (s.startDark tRef).settings = s.settings
      ∧ (s.startDark tRef).csq = s.csq ∧ (s.startDark tRef).mge = s.mge ∧ (s.startDark tRef).fsc = s.fsc
      ∧ (s.startDark tRef).dlt = s.dlt ∧ (s.startDark tRef).ports = s.ports
      ∧ (s.startDark tRef).plr.faultCount = s.plr.faultCount ∧ (s.startDark tRef).plr.link = s.plr.link
      ∧ (s.startDark tRef).plr.queue = s.plr.queue ∧ (s.startDark tRef).plr.reception = s.plr.reception
      ∧ (s.startDark tRef).plr.nextRow = s.plr.nextRow ∧ (s.startDark tRef).plr.capture = s.plr.capture
      ∧ (s.startDark tRef).ltc.windowOpen = s.ltc.windowOpen ∧ (s.startDark tRef).tbu.clock = s.tbu.clock
      ∧ (s.startDark tRef).tbu.lampMinutes = s.tbu.lampMinutes
      ∧ (s.startDark tRef).tbu.lampSeconds = s.tbu.lampSeconds := by
  and_intros <;>
    simp [State.startDark]

@[simp] theorem State.startFlat_frame (s : State) (lampLevel : Nat) :
    (s.startFlat lampLevel).pending = s.pending ∧ (s.startFlat lampLevel).freeCount = s.freeCount
      ∧ (s.startFlat lampLevel).plates = s.plates ∧ (s.startFlat lampLevel).profiles = s.profiles
      ∧ (s.startFlat lampLevel).geometry = s.geometry ∧ (s.startFlat lampLevel).csq = s.csq
      ∧ (s.startFlat lampLevel).mge = s.mge ∧ (s.startFlat lampLevel).plr = s.plr
      ∧ (s.startFlat lampLevel).fsc = s.fsc ∧ (s.startFlat lampLevel).dlt = s.dlt
      ∧ (s.startFlat lampLevel).ports = s.ports ∧ (s.startFlat lampLevel).ltc.windowOpen = s.ltc.windowOpen
      ∧ (s.startFlat lampLevel).tbu.clock = s.tbu.clock
      ∧ (s.startFlat lampLevel).tbu.lampMinutes = s.tbu.lampMinutes
      ∧ (s.startFlat lampLevel).tbu.lampSeconds = s.tbu.lampSeconds := by
  and_intros <;>
    rfl

@[simp] theorem State.handleCalibrateDark_frame (s : State) (kindGiven : Bool) (tRef lampLevel : Option Nat) :
    (s.handleCalibrateDark kindGiven tRef lampLevel).1.pending = s.pending
      ∧ (s.handleCalibrateDark kindGiven tRef lampLevel).1.freeCount = s.freeCount
      ∧ (s.handleCalibrateDark kindGiven tRef lampLevel).1.plates = s.plates
      ∧ (s.handleCalibrateDark kindGiven tRef lampLevel).1.profiles = s.profiles
      ∧ (s.handleCalibrateDark kindGiven tRef lampLevel).1.geometry = s.geometry
      ∧ (s.handleCalibrateDark kindGiven tRef lampLevel).1.settings = s.settings
      ∧ (s.handleCalibrateDark kindGiven tRef lampLevel).1.csq = s.csq
      ∧ (s.handleCalibrateDark kindGiven tRef lampLevel).1.mge = s.mge
      ∧ (s.handleCalibrateDark kindGiven tRef lampLevel).1.fsc = s.fsc
      ∧ (s.handleCalibrateDark kindGiven tRef lampLevel).1.dlt = s.dlt
      ∧ (s.handleCalibrateDark kindGiven tRef lampLevel).1.ports = s.ports
      ∧ (s.handleCalibrateDark kindGiven tRef lampLevel).1.plr.faultCount = s.plr.faultCount
      ∧ (s.handleCalibrateDark kindGiven tRef lampLevel).1.plr.link = s.plr.link
      ∧ (s.handleCalibrateDark kindGiven tRef lampLevel).1.plr.queue = s.plr.queue
      ∧ (s.handleCalibrateDark kindGiven tRef lampLevel).1.plr.reception = s.plr.reception
      ∧ (s.handleCalibrateDark kindGiven tRef lampLevel).1.plr.nextRow = s.plr.nextRow
      ∧ (s.handleCalibrateDark kindGiven tRef lampLevel).1.plr.capture = s.plr.capture
      ∧ (s.handleCalibrateDark kindGiven tRef lampLevel).1.ltc.windowOpen = s.ltc.windowOpen
      ∧ (s.handleCalibrateDark kindGiven tRef lampLevel).1.tbu.clock = s.tbu.clock
      ∧ (s.handleCalibrateDark kindGiven tRef lampLevel).1.tbu.lampMinutes = s.tbu.lampMinutes
      ∧ (s.handleCalibrateDark kindGiven tRef lampLevel).1.tbu.lampSeconds = s.tbu.lampSeconds := by
  and_intros <;>
    (unfold State.handleCalibrateDark; (repeat' split) <;> simp)

@[simp] theorem State.handleCalibrateFlat_frame (s : State) (kindGiven : Bool) (tRef lampLevel : Option Nat) :
    (s.handleCalibrateFlat kindGiven tRef lampLevel).1.pending = s.pending
      ∧ (s.handleCalibrateFlat kindGiven tRef lampLevel).1.freeCount = s.freeCount
      ∧ (s.handleCalibrateFlat kindGiven tRef lampLevel).1.plates = s.plates
      ∧ (s.handleCalibrateFlat kindGiven tRef lampLevel).1.profiles = s.profiles
      ∧ (s.handleCalibrateFlat kindGiven tRef lampLevel).1.geometry = s.geometry
      ∧ (s.handleCalibrateFlat kindGiven tRef lampLevel).1.csq = s.csq
      ∧ (s.handleCalibrateFlat kindGiven tRef lampLevel).1.mge = s.mge
      ∧ (s.handleCalibrateFlat kindGiven tRef lampLevel).1.plr = s.plr
      ∧ (s.handleCalibrateFlat kindGiven tRef lampLevel).1.fsc = s.fsc
      ∧ (s.handleCalibrateFlat kindGiven tRef lampLevel).1.dlt = s.dlt
      ∧ (s.handleCalibrateFlat kindGiven tRef lampLevel).1.ports = s.ports
      ∧ (s.handleCalibrateFlat kindGiven tRef lampLevel).1.ltc.windowOpen = s.ltc.windowOpen
      ∧ (s.handleCalibrateFlat kindGiven tRef lampLevel).1.tbu.clock = s.tbu.clock
      ∧ (s.handleCalibrateFlat kindGiven tRef lampLevel).1.tbu.lampMinutes = s.tbu.lampMinutes
      ∧ (s.handleCalibrateFlat kindGiven tRef lampLevel).1.tbu.lampSeconds = s.tbu.lampSeconds := by
  and_intros <;>
    (unfold State.handleCalibrateFlat; (repeat' split) <;> rfl)

@[simp] theorem State.handleSetClock_frame (s : State) (value : Option Seconds) :
    (s.handleSetClock value).1.pending = s.pending ∧ (s.handleSetClock value).1.raised = s.raised
      ∧ (s.handleSetClock value).1.freeCount = s.freeCount ∧ (s.handleSetClock value).1.plates = s.plates
      ∧ (s.handleSetClock value).1.profiles = s.profiles ∧ (s.handleSetClock value).1.geometry = s.geometry
      ∧ (s.handleSetClock value).1.settings = s.settings ∧ (s.handleSetClock value).1.csq = s.csq
      ∧ (s.handleSetClock value).1.mge = s.mge ∧ (s.handleSetClock value).1.cal = s.cal
      ∧ (s.handleSetClock value).1.plr = s.plr ∧ (s.handleSetClock value).1.ltc = s.ltc
      ∧ (s.handleSetClock value).1.fsc = s.fsc ∧ (s.handleSetClock value).1.dlt = s.dlt
      ∧ (s.handleSetClock value).1.ports = s.ports
      ∧ (s.handleSetClock value).1.tbu.lampMinutes = s.tbu.lampMinutes
      ∧ (s.handleSetClock value).1.tbu.lampSeconds = s.tbu.lampSeconds
      ∧ (s.handleSetClock value).1.tbu.timers = s.tbu.timers := by
  and_intros <;>
    (unfold State.handleSetClock; (repeat' split) <;> rfl)

@[simp] theorem State.loseCell_frame (s : State) (p : CellRef × SlotNo) :
    (s.loseCell p).pending = s.pending ∧ (s.loseCell p).raised = s.raised
      ∧ (s.loseCell p).freeCount = s.freeCount ∧ (s.loseCell p).profiles = s.profiles
      ∧ (s.loseCell p).geometry = s.geometry ∧ (s.loseCell p).settings = s.settings
      ∧ (s.loseCell p).csq = s.csq ∧ (s.loseCell p).cal = s.cal ∧ (s.loseCell p).ltc = s.ltc
      ∧ (s.loseCell p).tbu = s.tbu ∧ (s.loseCell p).ports = s.ports
      ∧ (s.loseCell p).plr.faultCount = s.plr.faultCount ∧ (s.loseCell p).plr.link = s.plr.link
      ∧ (s.loseCell p).plr.awaitedTag = s.plr.awaitedTag ∧ (s.loseCell p).plr.reception = s.plr.reception
      ∧ (s.loseCell p).plr.nextRow = s.plr.nextRow ∧ (s.loseCell p).plr.tornCount = s.plr.tornCount
      ∧ (s.loseCell p).plr.tagCounter = s.plr.tagCounter ∧ (s.loseCell p).plr.capture = s.plr.capture
      ∧ (s.loseCell p).plr.requester = s.plr.requester ∧ (s.loseCell p).fsc.state = s.fsc.state
      ∧ (s.loseCell p).fsc.mem = s.fsc.mem ∧ (s.loseCell p).fsc.refreshOwed = s.fsc.refreshOwed
      ∧ (s.loseCell p).fsc.reason = s.fsc.reason ∧ (s.loseCell p).fsc.mask = s.fsc.mask
      ∧ (s.loseCell p).fsc.retain = s.fsc.retain ∧ (s.loseCell p).dlt.mode = s.dlt.mode
      ∧ (s.loseCell p).dlt.ready = s.dlt.ready ∧ (s.loseCell p).dlt.link = s.dlt.link
      ∧ (s.loseCell p).dlt.stream = s.dlt.stream := by
  and_intros <;>
    simp [State.loseCell]

@[simp] theorem State.standbyCalibration_frame (s : State) (mask : List RegionNo) :
    (s.standbyCalibration mask).pending = s.pending ∧ (s.standbyCalibration mask).freeCount = s.freeCount
      ∧ (s.standbyCalibration mask).plates = s.plates ∧ (s.standbyCalibration mask).profiles = s.profiles
      ∧ (s.standbyCalibration mask).geometry = s.geometry ∧ (s.standbyCalibration mask).settings = s.settings
      ∧ (s.standbyCalibration mask).csq = s.csq ∧ (s.standbyCalibration mask).mge = s.mge
      ∧ (s.standbyCalibration mask).plr = s.plr ∧ (s.standbyCalibration mask).ltc = s.ltc
      ∧ (s.standbyCalibration mask).tbu = s.tbu ∧ (s.standbyCalibration mask).fsc = s.fsc
      ∧ (s.standbyCalibration mask).dlt = s.dlt ∧ (s.standbyCalibration mask).ports = s.ports
      ∧ (s.standbyCalibration mask).cal.op = s.cal.op ∧ (s.standbyCalibration mask).cal.tally = s.cal.tally := by
  and_intros <;>
    (unfold State.standbyCalibration; (repeat' split) <;> rfl)

@[simp] theorem State.enterRetention_frame (s : State) (mask : List RegionNo) :
    (s.enterRetention mask).pending = s.pending ∧ (s.enterRetention mask).freeCount = s.freeCount
      ∧ (s.enterRetention mask).profiles = s.profiles ∧ (s.enterRetention mask).geometry = s.geometry
      ∧ (s.enterRetention mask).settings = s.settings ∧ (s.enterRetention mask).csq = s.csq
      ∧ (s.enterRetention mask).ports = s.ports ∧ (s.enterRetention mask).cal.record = s.cal.record
      ∧ (s.enterRetention mask).cal.op = s.cal.op ∧ (s.enterRetention mask).cal.tally = s.cal.tally
      ∧ (s.enterRetention mask).plr.faultCount = s.plr.faultCount
      ∧ (s.enterRetention mask).plr.link = s.plr.link ∧ (s.enterRetention mask).plr.queue = s.plr.queue
      ∧ (s.enterRetention mask).plr.awaitedTag = s.plr.awaitedTag
      ∧ (s.enterRetention mask).plr.reception = s.plr.reception
      ∧ (s.enterRetention mask).plr.nextRow = s.plr.nextRow
      ∧ (s.enterRetention mask).plr.tornCount = s.plr.tornCount
      ∧ (s.enterRetention mask).plr.tagCounter = s.plr.tagCounter
      ∧ (s.enterRetention mask).plr.capture = s.plr.capture
      ∧ (s.enterRetention mask).plr.requester = s.plr.requester ∧ (s.enterRetention mask).ltc.lamp = s.ltc.lamp
      ∧ (s.enterRetention mask).ltc.windowOpen = s.ltc.windowOpen
      ∧ (s.enterRetention mask).tbu.clock = s.tbu.clock
      ∧ (s.enterRetention mask).tbu.lampMinutes = s.tbu.lampMinutes
      ∧ (s.enterRetention mask).tbu.lampSeconds = s.tbu.lampSeconds
      ∧ (s.enterRetention mask).tbu.timers = s.tbu.timers ∧ (s.enterRetention mask).fsc.reason = s.fsc.reason
      ∧ (s.enterRetention mask).fsc.access = s.fsc.access ∧ (s.enterRetention mask).fsc.held = s.fsc.held
      ∧ (s.enterRetention mask).dlt.mode = s.dlt.mode ∧ (s.enterRetention mask).dlt.ready = s.dlt.ready
      ∧ (s.enterRetention mask).dlt.link = s.dlt.link ∧ (s.enterRetention mask).dlt.stream = s.dlt.stream
      ∧ (s.enterRetention mask).dlt.queue = s.dlt.queue ∧ (s.enterRetention mask).mge.work = s.mge.work
      ∧ (s.enterRetention mask).mge.queue = s.mge.queue := by
  and_intros <;>
    rfl

@[simp] theorem State.handleSetDelivery_frame (s : State) (mode : Arg DeliveryMode) :
    (s.handleSetDelivery mode).1.pending = s.pending ∧ (s.handleSetDelivery mode).1.freeCount = s.freeCount
      ∧ (s.handleSetDelivery mode).1.profiles = s.profiles ∧ (s.handleSetDelivery mode).1.geometry = s.geometry
      ∧ (s.handleSetDelivery mode).1.settings = s.settings ∧ (s.handleSetDelivery mode).1.csq = s.csq
      ∧ (s.handleSetDelivery mode).1.mge = s.mge ∧ (s.handleSetDelivery mode).1.cal = s.cal
      ∧ (s.handleSetDelivery mode).1.ports = s.ports
      ∧ (s.handleSetDelivery mode).1.ltc.windowOpen = s.ltc.windowOpen
      ∧ (s.handleSetDelivery mode).1.tbu.clock = s.tbu.clock
      ∧ (s.handleSetDelivery mode).1.tbu.lampMinutes = s.tbu.lampMinutes
      ∧ (s.handleSetDelivery mode).1.tbu.lampSeconds = s.tbu.lampSeconds
      ∧ (s.handleSetDelivery mode).1.fsc.state = s.fsc.state ∧ (s.handleSetDelivery mode).1.fsc.mem = s.fsc.mem
      ∧ (s.handleSetDelivery mode).1.fsc.refreshOwed = s.fsc.refreshOwed
      ∧ (s.handleSetDelivery mode).1.fsc.reason = s.fsc.reason
      ∧ (s.handleSetDelivery mode).1.fsc.mask = s.fsc.mask
      ∧ (s.handleSetDelivery mode).1.fsc.retain = s.fsc.retain
      ∧ (s.handleSetDelivery mode).1.fsc.held = s.fsc.held := by
  and_intros <;>
    (unfold State.handleSetDelivery; (repeat' split) <;> simp)

@[simp] theorem State.handleFetch_frame (s : State) (key : Option PlateKey) (column row : Option Nat) :
    (s.handleFetch key column row).1.pending = s.pending
      ∧ (s.handleFetch key column row).1.freeCount = s.freeCount
      ∧ (s.handleFetch key column row).1.profiles = s.profiles
      ∧ (s.handleFetch key column row).1.geometry = s.geometry
      ∧ (s.handleFetch key column row).1.settings = s.settings ∧ (s.handleFetch key column row).1.csq = s.csq
      ∧ (s.handleFetch key column row).1.mge = s.mge ∧ (s.handleFetch key column row).1.cal = s.cal
      ∧ (s.handleFetch key column row).1.ports = s.ports
      ∧ (s.handleFetch key column row).1.ltc.windowOpen = s.ltc.windowOpen
      ∧ (s.handleFetch key column row).1.tbu.clock = s.tbu.clock
      ∧ (s.handleFetch key column row).1.tbu.lampMinutes = s.tbu.lampMinutes
      ∧ (s.handleFetch key column row).1.tbu.lampSeconds = s.tbu.lampSeconds
      ∧ (s.handleFetch key column row).1.fsc.state = s.fsc.state
      ∧ (s.handleFetch key column row).1.fsc.mem = s.fsc.mem
      ∧ (s.handleFetch key column row).1.fsc.refreshOwed = s.fsc.refreshOwed
      ∧ (s.handleFetch key column row).1.fsc.reason = s.fsc.reason
      ∧ (s.handleFetch key column row).1.fsc.mask = s.fsc.mask
      ∧ (s.handleFetch key column row).1.fsc.retain = s.fsc.retain
      ∧ (s.handleFetch key column row).1.fsc.held = s.fsc.held := by
  and_intros <;>
    (unfold State.handleFetch; (repeat' split) <;> simp)

@[simp] theorem State.returnCellSlot_frame (s : State) (x : CellRecord) :
    (s.returnCellSlot x).pending = s.pending ∧ (s.returnCellSlot x).raised = s.raised
      ∧ (s.returnCellSlot x).freeCount = s.freeCount ∧ (s.returnCellSlot x).plates = s.plates
      ∧ (s.returnCellSlot x).profiles = s.profiles ∧ (s.returnCellSlot x).geometry = s.geometry
      ∧ (s.returnCellSlot x).settings = s.settings ∧ (s.returnCellSlot x).csq = s.csq
      ∧ (s.returnCellSlot x).cal = s.cal ∧ (s.returnCellSlot x).ltc = s.ltc ∧ (s.returnCellSlot x).tbu = s.tbu
      ∧ (s.returnCellSlot x).dlt = s.dlt ∧ (s.returnCellSlot x).ports = s.ports
      ∧ (s.returnCellSlot x).plr.faultCount = s.plr.faultCount ∧ (s.returnCellSlot x).plr.link = s.plr.link
      ∧ (s.returnCellSlot x).plr.awaitedTag = s.plr.awaitedTag
      ∧ (s.returnCellSlot x).plr.reception = s.plr.reception ∧ (s.returnCellSlot x).plr.nextRow = s.plr.nextRow
      ∧ (s.returnCellSlot x).plr.tornCount = s.plr.tornCount
      ∧ (s.returnCellSlot x).plr.tagCounter = s.plr.tagCounter
      ∧ (s.returnCellSlot x).plr.capture = s.plr.capture ∧ (s.returnCellSlot x).plr.requester = s.plr.requester
      ∧ (s.returnCellSlot x).fsc.state = s.fsc.state ∧ (s.returnCellSlot x).fsc.mem = s.fsc.mem
      ∧ (s.returnCellSlot x).fsc.refreshOwed = s.fsc.refreshOwed
      ∧ (s.returnCellSlot x).fsc.reason = s.fsc.reason ∧ (s.returnCellSlot x).fsc.mask = s.fsc.mask
      ∧ (s.returnCellSlot x).fsc.retain = s.fsc.retain := by
  and_intros <;>
    (unfold State.returnCellSlot; (repeat' split) <;> simp)

@[simp] theorem State.keepCell_frame (s : State) (r : PlateRecord) (x : CellRecord) :
    (s.keepCell r x).pending = s.pending ∧ (s.keepCell r x).freeCount = s.freeCount
      ∧ (s.keepCell r x).profiles = s.profiles ∧ (s.keepCell r x).geometry = s.geometry
      ∧ (s.keepCell r x).settings = s.settings ∧ (s.keepCell r x).cal = s.cal ∧ (s.keepCell r x).dlt = s.dlt
      ∧ (s.keepCell r x).ports = s.ports ∧ (s.keepCell r x).ltc.windowOpen = s.ltc.windowOpen
      ∧ (s.keepCell r x).tbu.clock = s.tbu.clock ∧ (s.keepCell r x).tbu.lampMinutes = s.tbu.lampMinutes
      ∧ (s.keepCell r x).tbu.lampSeconds = s.tbu.lampSeconds ∧ (s.keepCell r x).fsc.state = s.fsc.state
      ∧ (s.keepCell r x).fsc.mem = s.fsc.mem ∧ (s.keepCell r x).fsc.refreshOwed = s.fsc.refreshOwed
      ∧ (s.keepCell r x).fsc.reason = s.fsc.reason ∧ (s.keepCell r x).fsc.mask = s.fsc.mask
      ∧ (s.keepCell r x).fsc.retain = s.fsc.retain := by
  and_intros <;>
    simp [State.keepCell]

@[simp] theorem State.handleKeep_frame (s : State) (r : PlateRecord) (x : CellRecord) :
    (s.handleKeep r x).1.pending = s.pending ∧ (s.handleKeep r x).1.freeCount = s.freeCount
      ∧ (s.handleKeep r x).1.profiles = s.profiles ∧ (s.handleKeep r x).1.geometry = s.geometry
      ∧ (s.handleKeep r x).1.settings = s.settings ∧ (s.handleKeep r x).1.cal = s.cal
      ∧ (s.handleKeep r x).1.dlt = s.dlt ∧ (s.handleKeep r x).1.ports = s.ports
      ∧ (s.handleKeep r x).1.ltc.windowOpen = s.ltc.windowOpen ∧ (s.handleKeep r x).1.tbu.clock = s.tbu.clock
      ∧ (s.handleKeep r x).1.tbu.lampMinutes = s.tbu.lampMinutes
      ∧ (s.handleKeep r x).1.tbu.lampSeconds = s.tbu.lampSeconds ∧ (s.handleKeep r x).1.fsc.state = s.fsc.state
      ∧ (s.handleKeep r x).1.fsc.mem = s.fsc.mem ∧ (s.handleKeep r x).1.fsc.refreshOwed = s.fsc.refreshOwed
      ∧ (s.handleKeep r x).1.fsc.reason = s.fsc.reason ∧ (s.handleKeep r x).1.fsc.mask = s.fsc.mask
      ∧ (s.handleKeep r x).1.fsc.retain = s.fsc.retain := by
  and_intros <;>
    (unfold State.handleKeep; (repeat' split) <;> simp)

@[simp] theorem State.recaptureCell_frame (s : State) (r : PlateRecord) (x : CellRecord) :
    (s.recaptureCell r x).pending = s.pending ∧ (s.recaptureCell r x).freeCount = s.freeCount
      ∧ (s.recaptureCell r x).profiles = s.profiles ∧ (s.recaptureCell r x).geometry = s.geometry
      ∧ (s.recaptureCell r x).settings = s.settings ∧ (s.recaptureCell r x).cal = s.cal
      ∧ (s.recaptureCell r x).ports = s.ports ∧ (s.recaptureCell r x).ltc.windowOpen = s.ltc.windowOpen
      ∧ (s.recaptureCell r x).tbu.clock = s.tbu.clock
      ∧ (s.recaptureCell r x).tbu.lampMinutes = s.tbu.lampMinutes
      ∧ (s.recaptureCell r x).tbu.lampSeconds = s.tbu.lampSeconds
      ∧ (s.recaptureCell r x).fsc.state = s.fsc.state ∧ (s.recaptureCell r x).fsc.mem = s.fsc.mem
      ∧ (s.recaptureCell r x).fsc.refreshOwed = s.fsc.refreshOwed
      ∧ (s.recaptureCell r x).fsc.reason = s.fsc.reason ∧ (s.recaptureCell r x).fsc.mask = s.fsc.mask
      ∧ (s.recaptureCell r x).fsc.retain = s.fsc.retain ∧ (s.recaptureCell r x).dlt.mode = s.dlt.mode
      ∧ (s.recaptureCell r x).dlt.ready = s.dlt.ready ∧ (s.recaptureCell r x).dlt.link = s.dlt.link
      ∧ (s.recaptureCell r x).dlt.stream = s.dlt.stream := by
  and_intros <;>
    (unfold State.recaptureCell; (repeat' split) <;> simp)

@[simp] theorem State.handleRecapture_frame (s : State) (r : PlateRecord) (x : CellRecord) :
    (s.handleRecapture r x).1.pending = s.pending ∧ (s.handleRecapture r x).1.freeCount = s.freeCount
      ∧ (s.handleRecapture r x).1.profiles = s.profiles ∧ (s.handleRecapture r x).1.geometry = s.geometry
      ∧ (s.handleRecapture r x).1.settings = s.settings ∧ (s.handleRecapture r x).1.cal = s.cal
      ∧ (s.handleRecapture r x).1.ports = s.ports ∧ (s.handleRecapture r x).1.ltc.windowOpen = s.ltc.windowOpen
      ∧ (s.handleRecapture r x).1.tbu.clock = s.tbu.clock
      ∧ (s.handleRecapture r x).1.tbu.lampMinutes = s.tbu.lampMinutes
      ∧ (s.handleRecapture r x).1.tbu.lampSeconds = s.tbu.lampSeconds
      ∧ (s.handleRecapture r x).1.fsc.state = s.fsc.state ∧ (s.handleRecapture r x).1.fsc.mem = s.fsc.mem
      ∧ (s.handleRecapture r x).1.fsc.refreshOwed = s.fsc.refreshOwed
      ∧ (s.handleRecapture r x).1.fsc.reason = s.fsc.reason ∧ (s.handleRecapture r x).1.fsc.mask = s.fsc.mask
      ∧ (s.handleRecapture r x).1.fsc.retain = s.fsc.retain ∧ (s.handleRecapture r x).1.dlt.mode = s.dlt.mode
      ∧ (s.handleRecapture r x).1.dlt.ready = s.dlt.ready ∧ (s.handleRecapture r x).1.dlt.link = s.dlt.link
      ∧ (s.handleRecapture r x).1.dlt.stream = s.dlt.stream := by
  and_intros <;>
    (unfold State.handleRecapture; (repeat' split) <;> simp)

@[simp] theorem State.handleReadStatus_frame (s : State) (port : PortNo) (sect : Arg StatusSection) :
    (s.handleReadStatus port sect).1.pending = s.pending ∧ (s.handleReadStatus port sect).1.raised = s.raised
      ∧ (s.handleReadStatus port sect).1.plates = s.plates
      ∧ (s.handleReadStatus port sect).1.profiles = s.profiles
      ∧ (s.handleReadStatus port sect).1.geometry = s.geometry
      ∧ (s.handleReadStatus port sect).1.settings = s.settings ∧ (s.handleReadStatus port sect).1.csq = s.csq
      ∧ (s.handleReadStatus port sect).1.mge = s.mge ∧ (s.handleReadStatus port sect).1.cal = s.cal
      ∧ (s.handleReadStatus port sect).1.plr = s.plr ∧ (s.handleReadStatus port sect).1.ltc = s.ltc
      ∧ (s.handleReadStatus port sect).1.tbu = s.tbu ∧ (s.handleReadStatus port sect).1.fsc = s.fsc
      ∧ (s.handleReadStatus port sect).1.dlt = s.dlt := by
  and_intros <;>
    (unfold State.handleReadStatus; (repeat' split) <;> rfl)

@[simp] theorem State.endFrame_frame (s : State) (count : Option Nat) :
    (s.endFrame count).pending = s.pending ∧ (s.endFrame count).freeCount = s.freeCount
      ∧ (s.endFrame count).profiles = s.profiles ∧ (s.endFrame count).fsc.mem = s.fsc.mem
      ∧ (s.endFrame count).geometry = s.geometry ∧ (s.endFrame count).settings = s.settings
      ∧ (s.endFrame count).ports = s.ports ∧ (s.endFrame count).tbu.clock = s.tbu.clock
      ∧ (s.endFrame count).tbu.lampMinutes = s.tbu.lampMinutes ∧ (s.endFrame count).tbu.lampSeconds = s.tbu.lampSeconds
      ∧ (s.endFrame count).fsc.state = s.fsc.state ∧ (s.endFrame count).dlt = s.dlt := by
  and_intros <;>
    (unfold State.endFrame; dsimp only; (repeat' split) <;> simp)

/-- The loss of cells at standby, one after another, keeps what the loss of one keeps. -/
@[simp] theorem State.loseCells_frame (s : State) (l : List (CellRef × SlotNo)) :
    (l.foldl State.loseCell s).pending = s.pending ∧ (l.foldl State.loseCell s).raised = s.raised
      ∧ (l.foldl State.loseCell s).freeCount = s.freeCount ∧ (l.foldl State.loseCell s).profiles = s.profiles
      ∧ (l.foldl State.loseCell s).geometry = s.geometry ∧ (l.foldl State.loseCell s).settings = s.settings
      ∧ (l.foldl State.loseCell s).csq = s.csq ∧ (l.foldl State.loseCell s).cal = s.cal
      ∧ (l.foldl State.loseCell s).ltc = s.ltc ∧ (l.foldl State.loseCell s).tbu = s.tbu
      ∧ (l.foldl State.loseCell s).ports = s.ports ∧ (l.foldl State.loseCell s).fsc.mem = s.fsc.mem := by
  and_intros <;>
    (induction l generalizing s with
      | nil => rfl
      | cons p l ih => rw [List.foldl_cons, ih]; simp)

end Sys2Proof.Machine
end

