-- ==== Sys2Proof/Laws/Arbiter.lean ====
section
/-! SUPPORT. The arbiter (R141): each of its candidate works in the spec's terms, which classes wait, what a grant
takes, and what `State.arbitrate` leaves. -/

namespace Sys2Proof.Machine

/-- No access of a class is in progress just where the access held, if any, is of another class. -/
theorem State.inProgress_eq_false_iff (s : State) (c : AccessClass) :
    s.inProgress c = false ↔ ∀ a, s.fsc.access = some a → a.work.cls ≠ c := by
  unfold State.inProgress; cases s.fsc.access <;> simp

/-- A clearing row waits just where a slot is CLEARING (R67). -/
theorem State.clearWork?_isSome (s : State) :
    s.clearWork?.isSome = true ↔ ∃ k : SlotNo, (s.work k).state = .clearing := by
  unfold State.clearWork?
  simp [List.find?_isSome]

/-- A clearing row is of the row merge class. -/
theorem State.clearWork?_cls {s : State} {w : StoreWork} (h : s.clearWork? = some w) : w.cls = .rowMerge := by
  unfold State.clearWork? at h
  obtain ⟨k, -, rfl⟩ := Option.map_eq_some_iff.mp h
  rfl

/-- A row the merge takes (R68): its slot accumulates, its entry is the latest of its list, its size is the frame's. -/
theorem State.rowWanted_iff (s : State) (k : SlotNo) (o row : Nat) (codes : List CameraCode) :
    s.rowWanted k o row codes = true ↔ (s.work k).state = .accumulating ∧ row < s.geometry.height
      ∧ codes.length = s.geometry.width
      ∧ ∃ e, (s.work k).list.getLast? = some e ∧ e.ordinal = o ∧ (e.outcome = .merged ∨ e.outcome = .patched) := by
  unfold State.rowWanted
  cases h : (s.work k).list.getLast? <;> simp [h, and_assoc]

/-- A row the calibration takes (section 5.4): of the frame under way, not yet counted for this row. -/
theorem State.calibRowWanted_iff (s : State) (f row : Nat) :
    s.calibRowWanted f row = true ↔ ∃ op, s.cal.op = some op ∧ op.phase = .frames ∧ op.frame = f
      ∧ s.cal.tally.getD row 0 = f := by
  unfold State.calibRowWanted
  cases h : s.cal.op <;> simp [and_assoc]

/-- The work of the row at the head of the row queue. -/
theorem State.headWork?_eq_some (s : State) (w : StoreWork) :
    s.headWork? = some w ↔ ∃ r, s.plr.queue.head? = some r ∧ r.released = true ∧
      ((∃ k o, r.dest = .capture k o ∧ s.rowWanted k o r.row r.codes = true ∧ w = .merge k o r.row r.codes)
        ∨ ∃ f, r.dest = .calib f ∧ s.calibRowWanted f r.row = true ∧ w = .calibAdd f r.row r.codes) := by
  unfold State.headWork?
  cases hq : s.plr.queue with
  | nil => simp
  | cons r rest =>
    cases hr : r.released <;> cases hd : r.dest <;> simp [State.rowDiscarded, hr, hd] <;> grind

/-- The work of the open pass or the gain pass. -/
theorem State.passWork?_eq_some (s : State) (w : StoreWork) :
    s.passWork? = some w ↔ ∃ op, s.cal.op = some op ∧ ((op.phase = .openPass ∧ w = .openRow op.passRow)
      ∨ (op.phase = .gainPass ∧ w = .gainRow op.passRow)) := by
  unfold State.passWork?
  cases s.cal.op with
  | none => simp
  | some op => cases h : op.phase <;> simp [h, eq_comm]

/-- The work of the pass at the head of the finalization queue. -/
theorem State.finalWork?_eq_some (s : State) (w : StoreWork) :
    s.finalWork? = some w ↔ ∃ k, s.mge.queue.head? = some k ∧ (s.work k).state = .running
      ∧ w = .finalize k (s.work k).rowsFinalized := by
  unfold State.finalWork?
  cases s.mge.queue with
  | nil => simp
  | cons k rest => by_cases h : (s.work k).state = .running <;> (simp [h]; try grind)

/-- The row the stream reads. -/
theorem State.deliveryWork?_eq_some (s : State) (w : StoreWork) :
    s.deliveryWork? = some w ↔ ∃ x k, s.dlt.stream = some x ∧ x.buffer = .reading ∧ x.slot = some k
      ∧ w = .deliver k x.nextRow := by
  unfold State.deliveryWork?
  cases s.dlt.stream with
  | none => simp
  | some x => cases hb : x.buffer <;> cases hs : x.slot <;> simp [hb, hs, eq_comm]

/-- The lowest slot that is CLEARING is cleared first. -/
theorem State.clearWork?_eq_some (s : State) (w : StoreWork) :
    s.clearWork? = some w ↔ ∃ k : SlotNo, (s.work k).state = .clearing
      ∧ (∀ j : SlotNo, j < k → (s.work j).state ≠ .clearing)
      ∧ w = .clear k (s.work k).rowsCleared := by
  unfold State.clearWork?
  rw [Option.map_eq_some_iff]
  constructor
  · rintro ⟨k, h, rfl⟩
    rw [List.find?_eq_some_iff_getElem] at h
    obtain ⟨h1, i, hi, h2, h3⟩ := h
    refine ⟨k, by simpa using h1, ?_, rfl⟩
    intro j hj
    have : k.val = i := by rw [← h2]; simp
    have h4 := h3 j.val (this ▸ hj)
    simpa using h4
  · rintro ⟨k, h, h3, rfl⟩
    refine ⟨k, ?_, rfl⟩
    rw [List.find?_eq_some_iff_getElem]
    refine ⟨by simpa using h, k.val, by simp, by simp, ?_⟩
    intro j hj
    have := h3 ⟨j, by omega⟩ hj
    simpa using this

/-- The works that wait, one by one. -/
theorem State.mem_works (s : State) (w : StoreWork) :
    w ∈ s.works ↔ (w = .refresh ∧ (if s.inProgress .refresh then 1 else 0) < s.fsc.refreshOwed)
      ∨ (s.inProgress w.cls = false ∧ (s.clearWork? = some w ∨ s.headWork? = some w ∨ s.passWork? = some w
          ∨ s.finalWork? = some w ∨ s.deliveryWork? = some w)) := by
  unfold State.works
  by_cases h : (if s.inProgress .refresh then 1 else 0) < s.fsc.refreshOwed <;>
    simp [h, List.mem_filter, Option.mem_toList] <;> grind

/-- A candidate work whose class is not in progress is among the works. -/
theorem State.mem_works_of {s : State} {w : StoreWork} (hi : s.inProgress w.cls = false)
    (h : s.clearWork? = some w ∨ s.headWork? = some w ∨ s.passWork? = some w ∨ s.finalWork? = some w
      ∨ s.deliveryWork? = some w) : w ∈ s.works :=
  (State.mem_works ..).mpr (.inr ⟨hi, h⟩)

/-- A refresh is in progress just where the access held is one. -/
theorem State.inProgress_refresh (s : State) :
    s.inProgress .refresh = true ↔ s.fsc.access.map (·.work.cls) = some .refresh := by
  unfold State.inProgress; cases s.fsc.access <;> simp

/-- The classes of the works are the classes that wait (R141). -/
theorem State.mem_works_cls (s : State) (c : AccessClass) : c ∈ s.works.map StoreWork.cls ↔ s.classWaits c := by
  rw [List.mem_map]
  constructor
  · rintro ⟨w, hw, rfl⟩
    rw [State.mem_works] at hw
    obtain ⟨rfl, h⟩ | ⟨hi, hw⟩ := hw
    · simpa [State.classWaits, StoreWork.cls, State.inProgress_refresh] using h
    · rw [State.inProgress_eq_false_iff] at hi
      obtain h | h | h | h | h := hw
      · obtain ⟨k, h1, -, rfl⟩ := (State.clearWork?_eq_some ..).mp h
        exact ⟨hi, .inl ⟨k, h1⟩⟩
      · obtain ⟨r, h1, h2, ⟨k, o, h3, h4, rfl⟩ | ⟨f, h3, h4, rfl⟩⟩ := (State.headWork?_eq_some ..).mp h
        · obtain ⟨a, b, c, e, d1, d2, d3⟩ := (State.rowWanted_iff ..).mp h4
          exact ⟨hi, .inr ⟨r, k, o, e, h1, h2, h3, a, d1, d2, d3, b, c⟩⟩
        · obtain ⟨op, a, b, rfl, d⟩ := (State.calibRowWanted_iff ..).mp h4
          exact ⟨hi, op, a, .inr (.inr ⟨b, r, h1, h2, h3, d⟩)⟩
      · obtain ⟨op, a, ⟨b, rfl⟩ | ⟨b, rfl⟩⟩ := (State.passWork?_eq_some ..).mp h
        · exact ⟨hi, op, a, .inl b⟩
        · exact ⟨hi, op, a, .inr (.inl b)⟩
      · obtain ⟨k, a, b, rfl⟩ := (State.finalWork?_eq_some ..).mp h
        exact ⟨hi, k, a, b⟩
      · obtain ⟨x, k, a, b, d, rfl⟩ := (State.deliveryWork?_eq_some ..).mp h
        exact ⟨hi, x, a, b, by simp [d]⟩
  · intro h
    cases c with
    | refresh =>
      refine ⟨.refresh, ?_, rfl⟩
      rw [State.mem_works]
      left
      simpa [State.classWaits, State.inProgress_refresh] using h
    | rowMerge =>
      obtain ⟨hi, h⟩ := h
      rw [← State.inProgress_eq_false_iff] at hi
      obtain ⟨k, h⟩ | ⟨r, k, o, e, h1, h2, h3, a, d1, d2, d3, b, c⟩ := h
      · obtain ⟨w, hw⟩ := Option.isSome_iff_exists.mp ((State.clearWork?_isSome s).mpr ⟨k, h⟩)
        have hc := State.clearWork?_cls hw
        exact ⟨w, State.mem_works_of (by rw [hc]; exact hi) (.inl hw), hc⟩
      · refine ⟨.merge k o r.row r.codes, State.mem_works_of hi (.inr (.inl ?_)), rfl⟩
        exact (State.headWork?_eq_some ..).mpr
          ⟨r, h1, h2, .inl ⟨k, o, h3, (State.rowWanted_iff ..).mpr ⟨a, b, c, e, d1, d2, d3⟩, rfl⟩⟩
    | calibration =>
      obtain ⟨hi, op, a, h⟩ := h
      rw [← State.inProgress_eq_false_iff] at hi
      obtain h | h | ⟨b, r, h1, h2, h3, d⟩ := h
      · exact ⟨.openRow op.passRow, State.mem_works_of hi (.inr (.inr (.inl
          ((State.passWork?_eq_some ..).mpr ⟨op, a, .inl ⟨h, rfl⟩⟩)))), rfl⟩
      · exact ⟨.gainRow op.passRow, State.mem_works_of hi (.inr (.inr (.inl
          ((State.passWork?_eq_some ..).mpr ⟨op, a, .inr ⟨h, rfl⟩⟩)))), rfl⟩
      · refine ⟨.calibAdd op.frame r.row r.codes, State.mem_works_of hi (.inr (.inl ?_)), rfl⟩
        exact (State.headWork?_eq_some ..).mpr
          ⟨r, h1, h2, .inr ⟨op.frame, h3, (State.calibRowWanted_iff ..).mpr ⟨op, a, b, rfl, d⟩, rfl⟩⟩
    | finalization =>
      obtain ⟨hi, k, a, b⟩ := h
      rw [← State.inProgress_eq_false_iff] at hi
      exact ⟨.finalize k (s.work k).rowsFinalized, State.mem_works_of hi (.inr (.inr (.inr (.inl
        ((State.finalWork?_eq_some ..).mpr ⟨k, a, b, rfl⟩))))), rfl⟩
    | delivery =>
      obtain ⟨hi, x, a, b, d⟩ := h
      rw [← State.inProgress_eq_false_iff] at hi
      obtain ⟨k, hk⟩ := Option.ne_none_iff_exists'.mp d
      exact ⟨.deliver k x.nextRow, State.mem_works_of hi (.inr (.inr (.inr (.inr
        ((State.deliveryWork?_eq_some ..).mpr ⟨x, k, a, b, hk, rfl⟩))))), rfl⟩

/-- The works stand in the order of their urgency. -/
theorem State.works_sorted (s : State) : s.works.Pairwise fun a b => a.cls.priority ≤ b.cls.priority := by
  have hc : ∀ w ∈ s.clearWork?.toList, w.cls.priority = 2 := by
    intro w h; rw [State.clearWork?_cls (Option.mem_toList.mp h)]; rfl
  have hh : ∀ w ∈ s.headWork?.toList, w.cls.priority = 2 ∨ w.cls.priority = 3 := by
    intro w h
    obtain ⟨r, -, -, ⟨k, o, -, -, rfl⟩ | ⟨f, -, -, rfl⟩⟩ := (State.headWork?_eq_some ..).mp (Option.mem_toList.mp h)
    · exact .inl rfl
    · exact .inr rfl
  have hp : ∀ w ∈ s.passWork?.toList, w.cls.priority = 3 := by
    intro w h
    obtain ⟨op, -, ⟨-, rfl⟩ | ⟨-, rfl⟩⟩ := (State.passWork?_eq_some ..).mp (Option.mem_toList.mp h) <;> rfl
  have hf : ∀ w ∈ s.finalWork?.toList, w.cls.priority = 4 := by
    intro w h
    obtain ⟨k, -, -, rfl⟩ := (State.finalWork?_eq_some ..).mp (Option.mem_toList.mp h); rfl
  have hd : ∀ w ∈ s.deliveryWork?.toList, w.cls.priority = 5 := by
    intro w h
    obtain ⟨x, k, -, -, -, rfl⟩ := (State.deliveryWork?_eq_some ..).mp (Option.mem_toList.mp h); rfl
  have h1 : ∀ (o : Option StoreWork), o.toList.Pairwise fun a b : StoreWork => a.cls.priority ≤ b.cls.priority := by
    intro o; cases o <;> simp
  unfold State.works
  rw [List.pairwise_append]
  refine ⟨by split_ifs <;> simp, List.Pairwise.filter _ ?_, ?_⟩
  · refine List.pairwise_append.mpr ⟨List.pairwise_append.mpr ⟨List.pairwise_append.mpr ⟨List.pairwise_append.mpr
      ⟨h1 _, h1 _, ?_⟩, h1 _, ?_⟩, h1 _, ?_⟩, h1 _, ?_⟩ <;>
      (intro a ha b hb; (try simp only [List.mem_append] at ha); grind)
  · intro a ha b hb
    have : a = .refresh := by split_ifs at ha <;> simp_all
    subst this
    have : 1 ≤ b.cls.priority := by cases b.cls <;> decide
    exact this

/-- Nothing of the arbiter's own report counts in what waits. -/
theorem State.classWaits_waiting (s : State) (l : List AccessClass) (c : AccessClass) :
    ({ s with fsc := { s.fsc with waiting := l } } : State).classWaits c = s.classWaits c := by
  cases c <;> rfl

/-- A list in the arbiter's order, each class once, is in it strictly. -/
theorem dedup_sorted {l : List AccessClass} (h : l.Pairwise fun a b => a.priority ≤ b.priority) :
    l.dedup.Pairwise fun a b => a.priority < b.priority := by
  have h1 := (h.sublist (List.dedup_sublist l)).and l.nodup_dedup
  refine h1.imp ?_
  rintro a b ⟨h, hn⟩
  cases a <;> cases b <;> simp_all [AccessClass.priority]

/-- The grant, once: the access in progress stays; the store stays free where nothing waits or it is not READY; else
the most urgent work takes it. -/
theorem State.grant_cases (s : State) :
    (s.grant = s ∧ (s.fsc.access ≠ none ∨ s.works = [] ∨ s.fsc.state ≠ .ready))
      ∨ ∃ w rest, s.fsc.access = none ∧ s.fsc.state = .ready ∧ s.works = w :: rest
          ∧ s.grant = { s with fsc := { s.fsc with access := some { work := w, result := .used } }
                               plr := s.plr.takeFor w } := by
  unfold State.grant
  cases ha : s.fsc.access with
  | some a => simp
  | none =>
    cases hw : s.works with
    | nil => simp
    | cons w rest =>
      by_cases hr : s.fsc.state = .ready
      · right; exact ⟨w, rest, rfl, hr, rfl, by simp only [if_pos hr]; rfl⟩
      · left; simp [hr]

/-- What the arbiter leaves (R141). -/
theorem State.arbitrated_arbitrate (s : State) : s.arbitrate.arbitrated := by
  have hw : s.arbitrate.fsc.waiting = s.grant.waitingClasses := rfl
  have hs : s.arbitrate.fsc.state = s.grant.fsc.state := rfl
  have ha : s.arbitrate.fsc.access = s.grant.fsc.access := rfl
  have hc : ∀ c, s.arbitrate.classWaits c = s.grant.classWaits c := fun c => State.classWaits_waiting _ _ c
  refine ⟨fun c => ?_, ?_, ?_⟩
  · rw [hw, hs, hc, ← State.mem_works_cls]
    unfold State.waitingClasses
    split_ifs with h
    · rw [List.mem_dedup]; exact ⟨fun x => ⟨h, x⟩, fun x => x.2⟩
    · exact ⟨fun x => absurd x List.not_mem_nil, fun x => absurd x.1 h⟩
  · rw [hw]
    unfold State.waitingClasses
    split_ifs
    · exact dedup_sorted (List.pairwise_map.mpr (State.works_sorted _))
    · simp
  · rw [ha, hw]
    intro h
    unfold State.waitingClasses
    obtain ⟨e, h1 | h1 | h1⟩ | ⟨w, rest, -, -, -, e⟩ := State.grant_cases s
    · rw [e] at h; exact absurd h h1
    · rw [e, h1]; simp
    · rw [e]; simp [h1]
    · rw [e] at h; simp at h

/-- What the arbiter grants a free store (R141). -/
theorem State.grants_arbitrate {s : State} (h : s.fsc.access = none) (a : Access)
    (ha : s.arbitrate.fsc.access = some a) : (s.arbitrate.beforeGrant a).grants a := by
  obtain ⟨e, -⟩ | ⟨w, rest, -, hr, hw, e⟩ := State.grant_cases s
  · have : s.arbitrate.fsc.access = none := by show s.grant.fsc.access = none; rw [e]; exact h
    rw [this] at ha; cases ha
  · have h1 : s.arbitrate.fsc.access = some { work := w, result := .used } := by
      show s.grant.fsc.access = _; rw [e]
    rw [h1] at ha
    obtain rfl := Option.some.inj ha
    have hin : w ∈ s.works := by rw [hw]; exact List.mem_cons_self
    have hmin : ∀ c, s.classWaits c → w.cls.priority ≤ c.priority := by
      intro c hc
      rw [← State.mem_works_cls, hw] at hc
      obtain ⟨v, hv, rfl⟩ := List.mem_map.mp hc
      obtain rfl | hv := List.mem_cons.mp hv
      · exact Nat.le_refl _
      · have := State.works_sorted s
        rw [hw] at this
        exact (List.pairwise_cons.mp this).1 v hv
    have hcls : s.classWaits w.cls := (State.mem_works_cls s _).mp (List.mem_map_of_mem hin)
    have hplr : s.arbitrate.plr = s.plr.takeFor w := by show s.grant.plr = _; rw [e]
    have hq : (s.arbitrate.beforeGrant { work := w, result := .used }).plr = s.plr := by
      show ({ s.arbitrate.plr with queue := _ } : Plr) = _
      rw [hplr]
      rw [State.mem_works] at hin
      obtain ⟨rfl, -⟩ | ⟨-, hin⟩ := hin
      · rfl
      · obtain hin | hin | hin | hin | hin := hin
        · obtain ⟨k, -, -, rfl⟩ := (State.clearWork?_eq_some ..).mp hin; rfl
        · obtain ⟨r, hq, hrl, ⟨k, o, hd, -, rfl⟩ | ⟨f, hd, -, rfl⟩⟩ := (State.headWork?_eq_some ..).mp hin <;>
          · obtain ⟨rest2, hq2⟩ : ∃ l, s.plr.queue = r :: l := by
              cases hqq : s.plr.queue with
              | nil => rw [hqq] at hq; cases hq
              | cons x l => rw [hqq] at hq; cases hq; exact ⟨l, rfl⟩
            obtain ⟨dest, row, codes, rel⟩ := r
            simp only at hd hrl
            subst hd hrl
            simp only [Plr.takeFor, hq2, List.tail_cons]
            rw [← hq2]
        · obtain ⟨op, -, ⟨-, rfl⟩ | ⟨-, rfl⟩⟩ := (State.passWork?_eq_some ..).mp hin <;> rfl
        · obtain ⟨k, -, -, rfl⟩ := (State.finalWork?_eq_some ..).mp hin; rfl
        · obtain ⟨x, k, -, -, -, rfl⟩ := (State.deliveryWork?_eq_some ..).mp hin; rfl
    have hu : s.arbitrate.beforeGrant { work := w, result := .used }
        = { s with fsc := { s.fsc with waiting := s.arbitrate.fsc.waiting } } := by
      have hb : s.arbitrate.beforeGrant { work := w, result := .used }
          = { s.arbitrate with
              fsc := { s.arbitrate.fsc with access := none }
              plr := (s.arbitrate.beforeGrant { work := w, result := .used }).plr } := rfl
      rw [hb, hq]
      show ({ s.grant with fsc := { s.grant.fsc with waiting := _, access := none }, plr := s.plr } : State) = _
      rw [e]
      simp [← h]
    rw [hu]
    refine ⟨rfl, by rw [State.classWaits_waiting]; exact hcls,
      fun c hc => hmin c (by rwa [State.classWaits_waiting] at hc), ?_⟩
    have hwk : ∀ k, ({ s with fsc := { s.fsc with waiting := s.arbitrate.fsc.waiting } } : State).work k = s.work k :=
      fun _ => rfl
    rw [State.mem_works] at hin
    obtain ⟨rfl, -⟩ | ⟨-, hin⟩ := hin
    · trivial
    · obtain hin | hin | hin | hin | hin := hin
      · obtain ⟨k, hk, h2, rfl⟩ := (State.clearWork?_eq_some ..).mp hin
        exact ⟨hk, rfl, h2⟩
      · obtain ⟨r, hq, hrl, ⟨k, o, hd, -, rfl⟩ | ⟨f, hd, hcw, rfl⟩⟩ := (State.headWork?_eq_some ..).mp hin
        · intro j hj
          obtain ⟨v, hv⟩ := Option.isSome_iff_exists.mp ((State.clearWork?_isSome s).mpr ⟨j, hj⟩)
          obtain ⟨i, -, -, rfl⟩ := (State.clearWork?_eq_some ..).mp hv
          unfold State.works at hw
          split_ifs at hw <;> simp [hv, State.inProgress, h] at hw
        · obtain ⟨op, a, b, rfl, d⟩ := (State.calibRowWanted_iff ..).mp hcw
          exact ⟨op, a, b, rfl⟩
      · obtain ⟨op, ho, ⟨h2, rfl⟩ | ⟨h2, rfl⟩⟩ := (State.passWork?_eq_some ..).mp hin
        · exact ⟨op, ho, h2, rfl⟩
        · exact ⟨op, ho, h2, rfl⟩
      · obtain ⟨k, hk, -, rfl⟩ := (State.finalWork?_eq_some ..).mp hin
        exact ⟨hk, rfl⟩
      · obtain ⟨x, k, hx, -, h2, rfl⟩ := (State.deliveryWork?_eq_some ..).mp hin
        exact ⟨x, hx, h2, rfl⟩
end Sys2Proof.Machine
end

