-- ==== Sys2Proof/Laws/Bytes.lean ====
section
/-! SUPPORT. What the byte layouts of the store do: what is written reads back, and how long a row is. -/

namespace Sys2Proof.Machine

@[simp] theorem leBytes_length (n v : Nat) : (leBytes n v).length = n := by simp [leBytes]

@[simp] theorem wordBytes_length (row : List Nat) : (wordBytes row).length = 2 * row.length := by
  induction row with
  | nil => rfl
  | cons v row ih => simp [wordBytes] at ih ⊢; omega

@[simp] theorem accumBytes_length (row : List Accum) : (accumBytes row).length = 8 * row.length := by
  induction row with
  | nil => rfl
  | cons v row ih => simp [accumBytes] at ih ⊢; omega

/-- The bytes of a number spell it, up to what the bytes hold. -/
theorem ofLe_leBytes (n v : Nat) : ofLe (leBytes n v) = v % 256 ^ n := by
  induction n generalizing v with
  | zero => simp [leBytes, ofLe, Nat.mod_one]
  | succ n ih =>
    have h : leBytes (n + 1) v = BitVec.ofNat 8 v :: leBytes n (v / 256) := by
      simp only [leBytes, List.range_succ_eq_map, List.map_cons, List.map_map]
      congr 1
      · simp
      · apply List.map_congr_left
        intro i _
        simp [Nat.pow_succ', Nat.div_div_eq_div_mul]
    have hm : v % (256 * 256 ^ n) = v % 256 + 256 * (v / 256 % 256 ^ n) := Nat.mod_mul
    rw [h, ofLe, ih, BitVec.toNat_ofNat, Nat.pow_succ (m := n), Nat.mul_comm _ 256, hm]

/-- A row of 2-byte values reads back. -/
theorem words16_wordBytes (row : List Nat) (h : ∀ v ∈ row, v < 65536) : words16 (wordBytes row) = row := by
  induction row with
  | nil => rfl
  | cons v row ih =>
    have hv := h v (by simp)
    have h2 := ofLe_leBytes 2 v
    have hl : leBytes 2 v = [BitVec.ofNat 8 (v / 256 ^ 0), BitVec.ofNat 8 (v / 256 ^ 1)] := rfl
    rw [hl] at h2
    have hc : wordBytes (v :: row)
        = BitVec.ofNat 8 (v / 256 ^ 0) :: BitVec.ofNat 8 (v / 256 ^ 1) :: wordBytes row := rfl
    rw [hc, words16, h2, ih fun w hw => h w (by simp [hw]), Nat.mod_eq_of_lt (by omega)]

/-- An accumulation that fits its fields reads back. -/
theorem Accum.ofNat_toNat (a : Accum) (hb : a.best < 2 ^ 28) (ho : a.ordinal < 16) : Accum.ofNat a.toNat = a := by
  obtain ⟨b, o, p, q, r, d⟩ := a
  simp only at hb ho
  have h28 : b % 2 ^ 28 = b := Nat.mod_eq_of_lt hb
  have h16 : o % 16 = o := Nat.mod_eq_of_lt ho
  simp only [Accum.ofNat, Accum.toNat, h28, h16, Nat.testBit, Nat.shiftRight_eq_div_pow, Nat.one_and_eq_mod_two]
  cases p <;> cases q <;> cases r <;> cases d <;>
    simp only [Bool.toNat_true, Bool.toNat_false, Accum.mk.injEq] <;>
    refine ⟨by omega, by omega, ?_, ?_, ?_, ?_⟩ <;> simp <;> omega

/-- An accumulation's number fits 8 bytes. -/
theorem Accum.toNat_lt (a : Accum) : a.toNat < 256 ^ 8 := by
  obtain ⟨b, o, p, q, r, d⟩ := a
  have := Nat.mod_lt b (show 0 < 2 ^ 28 by decide)
  have := Nat.mod_lt o (show 0 < 16 by decide)
  have := Bool.toNat_le p
  have := Bool.toNat_le q
  have := Bool.toNat_le r
  have := Bool.toNat_le d
  simp only [Accum.toNat]
  omega

/-- A row of accumulations that fit their fields reads back. -/
theorem accums_accumBytes (row : List Accum) (h : ∀ a ∈ row, a.best < 2 ^ 28 ∧ a.ordinal < 16) :
    accums (accumBytes row) = row := by
  induction row with
  | nil => rfl
  | cons a row ih =>
    have ha := h a (by simp)
    have h8 := ofLe_leBytes 8 a.toNat
    rw [Nat.mod_eq_of_lt a.toNat_lt] at h8
    obtain ⟨b0, b1, b2, b3, b4, b5, b6, b7, hl⟩ : ∃ b0 b1 b2 b3 b4 b5 b6 b7,
        leBytes 8 a.toNat = [b0, b1, b2, b3, b4, b5, b6, b7] := ⟨_, _, _, _, _, _, _, _, rfl⟩
    have hc : accumBytes (a :: row) = leBytes 8 a.toNat ++ accumBytes row := rfl
    rw [hl] at h8
    rw [hc, hl]
    simp only [List.cons_append, List.nil_append, accums]
    rw [h8, Accum.ofNat_toNat a ha.1 ha.2, ih fun x hx => h x (by simp [hx])]

end Sys2Proof.Machine
end

