-- ==== Sys2Proof/Laws/Framer.lean ====
section
/-! SUPPORT. What a framer does with the characters it receives (R166): one after another, a whole run of them, and
the frame that a line sends. -/

namespace Sys2Proof.Machine

@[simp] theorem Framer.receive_nil (f : Framer) : f.receive [] = (f, []) := rfl

theorem Framer.receive_cons (f : Framer) (c : Character) (rest : List Character) :
    f.receive (c :: rest) = (((f.take c).1.receive rest).1, (f.take c).2.toList ++ ((f.take c).1.receive rest).2) := rfl

/-- Characters received in two runs are the same characters received in one. -/
theorem Framer.receive_append (f : Framer) (xs ys : List Character) :
    f.receive (xs ++ ys) = (((f.receive xs).1.receive ys).1, (f.receive xs).2 ++ ((f.receive xs).1.receive ys).2) := by
  induction xs generalizing f with
  | nil => rfl
  | cons c xs ih => rw [List.cons_append, Framer.receive_cons, ih, Framer.receive_cons]; simp

/-- A frame that ends, good or bad, leaves the framer in HUNT. -/
theorem Framer.take_ends_in_hunt (f : Framer) (c : Character) (h : (f.take c).2 ≠ none) : (f.take c).1 = .hunt := by
  cases f <;> simp only [Framer.take] at h ⊢ <;> split at h <;> simp_all [Framer.takeByte]
  · split <;> simp_all
  · rename_i n k body first _
    cases first <;> simp_all

/-- HUNT discards every character but SYNC with its stop bit. -/
theorem Framer.hunt_discards (c : Character) (h : ¬ (c.stopBit = true ∧ c.value = syncByte)) :
    Framer.hunt.take c = (.hunt, none) := by
  simp only [Framer.take]; rw [if_neg (by simpa using h)]

/-- A run of characters that HUNT discards leaves it where it is. -/
theorem Framer.hunt_discards_run (xs : List Character) (h : ∀ c ∈ xs, ¬ (c.stopBit = true ∧ c.value = syncByte)) :
    Framer.hunt.receive xs = (.hunt, []) := by
  induction xs with
  | nil => rfl
  | cons c xs ih =>
    rw [Framer.receive_cons, Framer.hunt_discards c (h c (by simp)), ih fun x hx => h x (by simp [hx])]
    rfl

/-- A character without its stop bit ends the frame it stands in, bad. -/
theorem Framer.take_without_stop (f : Framer) (c : Character) (hf : f ≠ .hunt) (h : c.stopBit = false) :
    f.take c = (.hunt, some .bad) := by
  cases f <;> simp_all [Framer.take]

/-! ## Kind bytes -/

/-- A request's kind byte lies in 0x10..0x3F (R165). -/
theorem RequestKind.byte_range (k : RequestKind) : 0x10 ≤ k.byte.toNat ∧ k.byte.toNat ≤ 0x3F := by
  have := (Config.requestKindOrder k.index).isLt
  simp only [RequestKind.byte, BitVec.toNat_ofNat]
  omega

/-- Each request has a kind byte of its own (R165). -/
theorem RequestKind.byte_injective {a b : RequestKind} (h : a.byte = b.byte) : a = b := by
  have h1 := (Config.requestKindOrder a.index).isLt
  have h2 := (Config.requestKindOrder b.index).isLt
  have h3 := congrArg BitVec.toNat h
  simp only [RequestKind.byte, BitVec.toNat_ofNat] at h3
  have h4 : a.index = b.index := Config.requestKindOrder.injective (Fin.ext (by omega))
  cases a <;> cases b <;> first | rfl | cases h4

/-- A body fits a frame (R165). -/
theorem Answer.body_length (a : Answer) : a.body.length ≤ Config.maxBody := by
  simp [Answer.body, Config.maxBody]; omega

theorem noticeBody_length (number : Byte) (n : Notice) : (noticeBody number n).length ≤ Config.maxBody := by
  simp [noticeBody, Config.maxBody]

end Sys2Proof.Machine
end

