-- ==== Sys2Proof/Laws/Memory.lean ====
section
/-! SUPPORT. What the store's operations do, once: what a byte reads as after a write or a loss of contents, and
that both keep the canonical form. -/

namespace Sys2Proof.Machine

/-- A byte that no entry lists reads as the unlisted byte. -/
theorem readByte_of_forall_ne {m : List Host.Cell} {x : Nat} (h : ∀ c ∈ m, c.1 ≠ x) :
    readByte m x = unlistedByte := by
  have : m.find? (fun c => c.1 == x) = none := by
    simp only [List.find?_eq_none, beq_iff_eq]; exact h
  simp [readByte, this]

/-- In a list of two parts, a byte that the first part does not list reads as in the second. -/
theorem readByte_append_right {l m : List Host.Cell} {x : Nat} (h : ∀ c ∈ l, c.1 ≠ x) :
    readByte (l ++ m) x = readByte m x := by
  have : l.find? (fun c => c.1 == x) = none := by
    simp only [List.find?_eq_none, beq_iff_eq]; exact h
  simp [readByte, List.find?_append, this]

/-- In a list of two parts, a byte that the second part does not list reads as in the first. -/
theorem readByte_append_left {l m : List Host.Cell} {x : Nat} (h : ∀ c ∈ m, c.1 ≠ x) :
    readByte (l ++ m) x = readByte l x := by
  have : m.find? (fun c => c.1 == x) = none := by
    simp only [List.find?_eq_none, beq_iff_eq]; exact h
  simp [readByte, List.find?_append, this]

/-- A filter that keeps every entry of an address does not change what it reads as. -/
theorem readByte_filter {m : List Host.Cell} {x : Nat} {p : Host.Cell → Bool} (h : ∀ c, c.1 = x → p c = true) :
    readByte (m.filter p) x = readByte m x := by
  induction m with
  | nil => rfl
  | cons c m ih =>
    by_cases hc : c.1 = x
    · simp [readByte, h c hc, hc]
    · by_cases hp : p c = true
      · simpa [readByte, List.filter_cons, hp, List.find?_cons, hc] using ih
      · simpa [readByte, List.filter_cons, hp, List.find?_cons, hc] using ih

/-- The entries of a write stand at the addresses written. -/
theorem mem_entries {a : Nat} {bytes : List Byte} {c : Host.Cell} (h : c ∈ entries a bytes) :
    a ≤ c.1 ∧ c.1 < a + bytes.length ∧ c.2 ≠ unlistedByte := by
  simp only [entries, List.mem_filterMap] at h
  obtain ⟨p, hp, he⟩ := h
  split at he
  · simp at he
  · rename_i hne
    have := List.mem_zipIdx hp
    cases he
    exact ⟨by omega, by omega, hne⟩

theorem entries_cons (a : Nat) (b : Byte) (bytes : List Byte) :
    entries a (b :: bytes) = (if b = unlistedByte then [] else [(a, b)]) ++ entries (a + 1) bytes := by
  by_cases h : b = unlistedByte <;> simp [entries, List.zipIdx_cons, h]

/-- The entries of a write read as the bytes written. -/
theorem readByte_entries (a : Nat) (bytes : List Byte) (i : Nat) (h : i < bytes.length) :
    readByte (entries a bytes) (a + i) = bytes[i] := by
  induction bytes generalizing a i with
  | nil => simp at h
  | cons b bytes ih =>
    rw [entries_cons]
    cases i with
    | zero =>
      rw [readByte_append_left (by intro c hc; have := mem_entries hc; omega)]
      by_cases hb : b = unlistedByte <;> simp [readByte, hb]
    | succ i =>
      rw [readByte_append_right (by intro c hc; split at hc <;> simp_all)]
      have := ih (a + 1) i (by simpa using h)
      rw [show a + (i + 1) = a + 1 + i by omega, this]; simp

/-- The entries of a write stand in rising order. -/
theorem entries_pairwise (a : Nat) (bytes : List Byte) : (entries a bytes).Pairwise fun x y => x.1 < y.1 := by
  induction bytes generalizing a with
  | nil => simp [entries]
  | cons b bytes ih =>
    rw [entries_cons, List.pairwise_append]
    refine ⟨by split <;> simp, ih _, ?_⟩
    intro x hx y hy
    have := mem_entries hy
    split at hx <;> simp_all

/-- A byte outside the bytes written reads as before. -/
theorem readByte_writeBytes_of_not_mem {m : List Host.Cell} {a x : Nat} {bytes : List Byte}
    (h : x < a ∨ a + bytes.length ≤ x) : readByte (writeBytes m a bytes) x = readByte m x := by
  have he : ∀ c ∈ entries a bytes, c.1 ≠ x := fun c hc => by have := mem_entries hc; omega
  rcases h with h | h
  · rw [writeBytes, readByte_append_left (by intro c hc; simp at hc; omega), readByte_append_left he,
      readByte_filter (by intro c hc; simp; omega)]
  · rw [writeBytes, List.append_assoc, readByte_append_right (by intro c hc; simp at hc; omega),
      readByte_append_right he, readByte_filter (by intro c hc; simp; omega)]

/-- A byte written reads as what was written. -/
theorem readByte_writeBytes (m : List Host.Cell) (a : Nat) (bytes : List Byte) (i : Nat) (h : i < bytes.length) :
    readByte (writeBytes m a bytes) (a + i) = bytes[i] := by
  rw [writeBytes, readByte_append_left (by intro c hc; simp at hc; omega),
    readByte_append_right (by intro c hc; simp at hc; omega), readByte_entries a bytes i h]

/-- The bytes written read back. -/
theorem readBytes_writeBytes (m : List Host.Cell) (a : Nat) (bytes : List Byte) :
    readBytes (writeBytes m a bytes) a bytes.length = bytes := by
  apply List.ext_getElem
  · simp [readBytes]
  · intro i h1 h2
    simp only [readBytes, List.getElem_map, List.getElem_range]
    exact readByte_writeBytes m a bytes i h2

/-- Bytes none of which a write touches read as before. -/
theorem readBytes_congr {m m' : List Host.Cell} {a n : Nat} (h : ∀ i < n, readByte m' (a + i) = readByte m (a + i)) :
    readBytes m' a n = readBytes m a n := by
  apply List.map_congr_left
  intro i hi
  exact h i (by simpa using hi)

@[simp] theorem readBytes_length (m : List Host.Cell) (a n : Nat) : (readBytes m a n).length = n := by
  simp [readBytes]

/-- A write keeps the canonical form. -/
theorem memoryWf_writeBytes {m : List Host.Cell} (h : memoryWf m) (a : Nat) (bytes : List Byte) :
    memoryWf (writeBytes m a bytes) := by
  obtain ⟨h1, h2⟩ := h
  refine ⟨?_, ?_⟩
  · rw [writeBytes, List.pairwise_append, List.pairwise_append]
    refine ⟨⟨h1.filter _, entries_pairwise a bytes, ?_⟩, h1.filter _, ?_⟩
    · intro x hx y hy
      have := mem_entries hy
      simp at hx; omega
    · intro x hx y hy
      simp only [List.mem_filter, decide_eq_true_eq] at hy
      rcases List.mem_append.mp hx with hx | hx
      · simp at hx; omega
      · have := mem_entries hx; omega
  · intro c hc
    rcases List.mem_append.mp hc with hc | hc
    · rcases List.mem_append.mp hc with hc | hc
      · exact h2 c (List.mem_filter.mp hc).1
      · exact (mem_entries hc).2.2
    · exact h2 c (List.mem_filter.mp hc).1

/-- A loss of contents keeps the canonical form. -/
theorem memoryWf_retainOnly {m : List Host.Cell} (h : memoryWf m) (mask : List RegionNo) :
    memoryWf (retainOnly m mask) :=
  ⟨h.1.filter _, fun c hc => h.2 c (List.mem_filter.mp hc).1⟩

/-- A byte of a retained region reads as before. -/
theorem readByte_retainOnly_kept {m : List Host.Cell} {mask : List RegionNo} {a : Nat}
    (h : ∃ r ∈ mask, r.val = regionOf a) : readByte (retainOnly m mask) a = readByte m a := by
  obtain ⟨r, hr, hv⟩ := h
  exact readByte_filter fun c hc => by
    simp only [List.any_eq_true, beq_iff_eq]
    exact ⟨r, hr, by rw [hc, hv]⟩

/-- A byte of a region that is not retained reads as the unlisted byte. -/
theorem readByte_retainOnly_lost {m : List Host.Cell} {mask : List RegionNo} {a : Nat}
    (h : ∀ r ∈ mask, r.val ≠ regionOf a) : readByte (retainOnly m mask) a = unlistedByte := by
  apply readByte_of_forall_ne
  intro c hc he
  simp only [retainOnly, List.mem_filter, List.any_eq_true, beq_iff_eq] at hc
  obtain ⟨-, r, hr, hv⟩ := hc
  exact h r hr (by rw [hv, he])

/-- The store after reset stands in canonical form. -/
theorem memoryWf_reset : memoryWf State.reset.fsc.mem :=
  ⟨List.Pairwise.nil, fun _ h => nomatch h⟩

end Sys2Proof.Machine
end

