-- ==== Sys2Proof/Laws/Ports.lean ====
section
/-! SUPPORT. What the work of a station port can do, once: an offer and a pump keep a port's setup and its
outstanding request, a queue stays within 16 notices, what one event offers a port is queued there, an answer
stays on its way, a request that is taken is answered, and one whose block changes nothing is answered and does
nothing else. -/

namespace Sys2Proof.Machine

/-! ## One port -/

/-- An offer touches the notice queue, the notice number and the overrun flag alone (R171, R172). -/
theorem Port.offer_eq (p : Port) (n : Notice) : ∃ number notices overrun,
    p.offer n = { p with noticeNumber := number, notices := notices, overrun := overrun } := by
  unfold Port.offer
  split
  · split
    · exact ⟨_, _, _, rfl⟩
    · split <;> exact ⟨_, _, _, rfl⟩
  · exact ⟨_, _, _, rfl⟩

/-- A whole event's offers touch the notice queue, the notice number and the overrun flag alone. -/
theorem Port.offers_eq (p : Port) (ns : List Notice) : ∃ number notices overrun,
    ns.foldl Port.offer p = { p with noticeNumber := number, notices := notices, overrun := overrun } := by
  induction ns generalizing p with
  | nil => exact ⟨_, _, _, rfl⟩
  | cons n ns ih =>
    obtain ⟨a, b, c, h⟩ := p.offer_eq n
    obtain ⟨a', b', c', h'⟩ := ih (p.offer n)
    exact ⟨a', b', c', by rw [List.foldl_cons, h', h]⟩

/-- A pump touches the line, the answers and the notices alone (R168, R172). -/
theorem Port.pump_eq (p : Port) : ∃ line answers notices,
    p.pump = { p with line := line, answers := answers, notices := notices } := by
  unfold Port.pump
  split
  · split
    · exact ⟨_, _, _, rfl⟩
    · split
      · exact ⟨_, _, _, rfl⟩
      · split <;> exact ⟨_, _, _, rfl⟩
  · exact ⟨_, _, _, rfl⟩

/-- A pump keeps every answer on its way. -/
theorem Port.pump_holdsAnswer {p : Port} {a : Answer} (h : p.holdsAnswer a) : p.pump.holdsAnswer a := by
  rcases h with h | h
  · simp [Port.pump, h, Port.holdsAnswer]
  · unfold Port.pump
    split
    · split
      · rename_i b rest hb
        rw [hb] at h
        rcases List.mem_cons.mp h with rfl | h
        · exact .inl rfl
        · exact .inr h
      · rename_i hb; rw [hb] at h; cases h
    · exact .inr h

/-- An offer adds at most one notice, and none to a full queue (R172). -/
theorem Port.offer_notices_length {p : Port} (n : Notice) (h : p.notices.length ≤ Config.maxNotices) :
    (p.offer n).notices.length ≤ Config.maxNotices := by
  unfold Port.offer
  split
  · split
    · exact h
    · split
      · rename_i hl; simp; omega
      · exact h
  · exact h

theorem Port.offers_notices_length {p : Port} (ns : List Notice) (h : p.notices.length ≤ Config.maxNotices) :
    (ns.foldl Port.offer p).notices.length ≤ Config.maxNotices := by
  induction ns generalizing p with
  | nil => exact h
  | cons n ns ih => exact ih (p.offer_notices_length n h)

/-- A pump adds no notice. -/
theorem Port.pump_notices_length (p : Port) : p.pump.notices.length ≤ p.notices.length := by
  unfold Port.pump
  split
  · split
    · exact Nat.le_refl _
    · split
      · exact Nat.le_refl _
      · split
        · rename_i hn; rw [hn]; simp
        · exact Nat.le_refl _
  · exact Nat.le_refl _

/-- A notice that the filter passes and a gate OPEN is queued under the next number while fewer than 16 wait (R171,
R172). -/
theorem Port.offer_queued {p : Port} {n : Notice} (hf : p.filter.passes n = true) (hg : p.gate = .opened)
    (hl : p.notices.length < Config.maxNotices) :
    p.offer n = { p with noticeNumber := p.noticeNumber + 1, notices := p.notices ++ [(p.noticeNumber + 1, n)] } := by
  simp [Port.offer, hf, hg, hl]

/-- A notice offered to a queue of 16 takes its number, is dropped, and leaves overrun (R172). -/
theorem Port.offer_dropped {p : Port} {n : Notice} (hf : p.filter.passes n = true) (hg : p.gate = .opened)
    (hl : Config.maxNotices ≤ p.notices.length) :
    p.offer n = { p with noticeNumber := p.noticeNumber + 1, overrun := true } := by
  simp [Port.offer, hf, hg, Nat.not_lt.mpr hl]

/-- A notice that the filter holds back, or that meets a gate SHUT, leaves no trace (R171, R172). -/
theorem Port.offer_discarded {p : Port} {n : Notice} (h : p.filter.passes n = false ∨ p.gate = .shut) :
    p.offer n = p := by
  rcases h with h | h
  · simp [Port.offer, h]
  · simp only [Port.offer, h]; split <;> rfl

/-- A pump sends the oldest notice or none: those queued and not sent to their end stay the same (R172). -/
@[simp] theorem Port.pump_unsent (p : Port) : p.pump.unsent = p.unsent := by
  unfold Port.pump
  split
  · rename_i hl
    split
    · simp [Port.unsent, hl]
    · split
      · rfl
      · split
        · rename_i hn; simp [Port.unsent, hl, hn]
        · rfl
  · rfl

@[simp] theorem Port.pump_noticeNumber (p : Port) : p.pump.noticeNumber = p.noticeNumber := by
  obtain ⟨a, b, c, h⟩ := p.pump_eq; rw [h]

@[simp] theorem Port.pump_overrun (p : Port) : p.pump.overrun = p.overrun := by
  obtain ⟨a, b, c, h⟩ := p.pump_eq; rw [h]

/-- A refusal, or any answer beside the outstanding request's, touches the answers or the bad-frame flag alone
(R167 rows 1 to 4). -/
theorem Port.answerAside_eq (p : Port) (tag : Byte) (kind : EchoKind) (r : Reply) :
    (3 ≤ p.answers.length ∧ p.answerAside tag kind r = { p with badFrame := true })
      ∨ (p.answers.length < 3 ∧ p.answerAside tag kind r = { p with answers := p.answers ++
          [{ tag := tag, kind := kind, code := r.code, clamped := r.clamped, data := r.data,
             forOutstanding := false }] }) := by
  unfold Port.answerAside
  split
  · exact .inl ⟨by assumption, rfl⟩
  · rename_i h; exact .inr ⟨Nat.not_le.mp h, rfl⟩

@[simp] theorem Port.answerAside_outstanding (p : Port) (tag : Byte) (kind : EchoKind) (r : Reply) :
    (p.answerAside tag kind r).outstanding = p.outstanding := by unfold Port.answerAside; split <;> rfl

@[simp] theorem Port.answerAside_line (p : Port) (tag : Byte) (kind : EchoKind) (r : Reply) :
    (p.answerAside tag kind r).line = p.line := by unfold Port.answerAside; split <;> rfl

/-- A request stays outstanding across a break or a restart exactly while its answer is being sent (R167). -/
theorem Port.stillOutstanding_eq (p : Port) :
    p.stillOutstanding = p.outstanding ∨ p.stillOutstanding = none := by
  unfold Port.stillOutstanding
  split
  · split
    · exact .inl rfl
    · exact .inr rfl
  · exact .inr rfl

/-- Characters received touch the framer and the bad-frame flag alone (R166). -/
theorem Port.receive_eq (p : Port) (cs : List Character) : ∃ framer badFrame,
    p.receive cs = { p with framer := framer, badFrame := badFrame } := ⟨_, _, rfl⟩

/-! ## The end of an event -/

theorem State.finish_eq (s : State) (ns : List Notice) :
    s.finish ns = { s with raised := [], ports := (s.finish ns).ports } := rfl

theorem State.finish_port (s : State) (ns : List Notice) (k : PortNo) : (s.finish ns).ports.get k
    = ((ns ++ otherNotices s.raised).foldl Port.offer (s.ports.get k)).pump := by
  simp [State.finish, Vector.get]
  rfl

/-- The end of an event keeps every port's setup and outstanding request. -/
theorem State.portsNoticed_finish (s : State) (ns : List Notice) : s.portsNoticed (s.finish ns) := by
  intro k
  rw [State.finish_port]
  obtain ⟨a, b, c, h⟩ := (s.ports.get k).offers_eq (ns ++ otherNotices s.raised)
  obtain ⟨d, e, f, h'⟩ := Port.pump_eq (List.foldl Port.offer (s.ports.get k) (ns ++ otherNotices s.raised))
  rw [h', h]
  exact ⟨⟨rfl, rfl, rfl, rfl, rfl, rfl, rfl⟩, rfl⟩

/-- The end of an event keeps every answer on its way. -/
theorem State.finish_holdsAnswer {s : State} {ns : List Notice} {k : PortNo} {a : Answer}
    (h : (s.ports.get k).holdsAnswer a) : ((s.finish ns).ports.get k).holdsAnswer a := by
  rw [State.finish_port]
  apply Port.pump_holdsAnswer
  obtain ⟨x, y, z, h'⟩ := (s.ports.get k).offers_eq (ns ++ otherNotices s.raised)
  rw [h']
  exact h

/-- The end of an event keeps every queue within 16 notices. -/
theorem State.noticeLaw_finish {s : State} (h : s.noticeLaw) (ns : List Notice) : (s.finish ns).noticeLaw := by
  intro k
  rw [State.finish_port]
  exact Nat.le_trans (Port.pump_notices_length _) (Port.offers_notices_length _ (h k))

/-- The end of an event offers every port the register's notices and then the others raised, and no more (R171). -/
theorem State.offered_finish (s : State) (ns : List Notice) :
    s.offered (s.finish ns) (ns ++ otherNotices s.raised) := by
  intro k
  rw [State.finish_port]
  exact ⟨Port.pump_unsent _, Port.pump_noticeNumber _, Port.pump_overrun _⟩

/-- Where nothing was raised there are no other notices. -/
@[simp] theorem otherNotices_nil : otherNotices [] = [] := by simp [otherNotices]

/-- Among records of distinct keys the one found under a record's key is that record. -/
theorem baseOf_self {ps : List PlateRecord} (h : (ps.map (·.key)).Nodup) {r : PlateRecord} (hr : r ∈ ps) :
    baseOf ps r.key = some r := by
  induction ps with
  | nil => cases hr
  | cons p ps ih =>
    obtain ⟨hp, h⟩ := List.nodup_cons.mp h
    rcases List.mem_cons.mp hr with rfl | hr
    · simp [baseOf]
    · have hne : p.key ≠ r.key := fun e => hp (List.mem_map.mpr ⟨r, hr, e.symm⟩)
      simpa [baseOf, hne] using ih h hr

/-- A register that an event leaves as it was gives no notice (R4). -/
theorem registerNotices_self {ps : List PlateRecord} (h : (ps.map (·.key)).Nodup) : registerNotices ps ps = [] := by
  have hc : ∀ r ∈ ps, cellNotices ps r = [] := by
    intro r hr
    simp only [cellNotices, baseOf_self h hr]
    split
    · rfl
    · apply List.filterMap_eq_nil_iff.mpr
      intro p _
      cases r.cell? p.1 p.2 <;> simp [CellRecord.changed]
  have hp : ∀ r ∈ ps, plateNotices ps r = [] := by
    intro r hr
    simp [plateNotices, baseOf_self h hr]
  have hr : removalNotices ps ps = [] := by
    simp [removalNotices]
    exact fun r hr => ⟨r, hr, rfl⟩
  simp only [registerNotices, hr, List.append_nil, List.append_eq_nil_iff]
  exact ⟨List.flatMap_eq_nil_iff.mpr hc, List.flatMap_eq_nil_iff.mpr hp⟩

/-! ## Requests -/

/-- A good frame leaves its port's framer in HUNT and every other port alone (R166). -/
theorem State.frameTaken_port (s : State) (p k : PortNo) :
    (s.frameTaken p).ports.get k = if k = p then (s.ports.get p).frameTaken else s.ports.get k := by
  by_cases hk : k = p
  · subst hk; simp [State.frameTaken]
  · simp [State.frameTaken, setAt_get_ne _ _ (Ne.symm hk), hk]

/-- A good frame touches no port's outstanding request. -/
@[simp] theorem State.frameTaken_outstanding (s : State) (p k : PortNo) :
    ((s.frameTaken p).ports.get k).outstanding = (s.ports.get k).outstanding := by
  rw [State.frameTaken_port]; split <;> simp_all [Port.frameTaken]

/-- A good frame touches no port's role. -/
@[simp] theorem State.frameTaken_role (s : State) (p k : PortNo) :
    ((s.frameTaken p).ports.get k).role = (s.ports.get k).role := by
  rw [State.frameTaken_port]; split <;> simp_all [Port.frameTaken]

/-- A request that is taken is handed to its block (R167 row 5). -/
theorem State.request_of_takes {s : State} {q : Src} {kind : RequestKind} (h : s.takes q kind)
    (handle : State → State × Reply) : s.request q kind handle = (s.frameTaken q.port).hand q kind handle := by
  obtain ⟨h1, h2, h3, h4⟩ := h
  have hf : (s.frameTaken q.port).fsc = s.fsc := rfl
  unfold State.request State.judgeRequest
  rw [hf]
  cases hc : s.fsc.state <;> simp_all

/-- A handed request whose block leaves the ports alone: the block's state and its reply, and the port's answer
and outstanding request. -/
theorem State.hand_eq {s : State} {q : Src} {kind : RequestKind} {handle : State → State × Reply} {t : State}
    {r : Reply} (h : handle (s.onPort q.port fun p => p.take q.tag kind) = (t, r)) :
    s.hand q kind handle = t.onPort q.port fun p => p.reply q.tag kind r := by
  simp [State.hand, h]

/-- A request that is taken, by a block that leaves the ports alone, is answered; the rest of the state is the
block's. -/
theorem State.served_of_takes {s t : State} {q : Src} {kind : RequestKind} {handle : State → State × Reply}
    {r : Reply} (ns : List Notice) (hs : s.takes q kind)
    (h : handle ((s.frameTaken q.port).onPort q.port fun p => p.take q.tag kind) = (t, r))
    (hp : t.ports = ((s.frameTaken q.port).onPort q.port fun p => p.take q.tag kind).ports) :
    s.served ((s.request q kind handle).finish ns) q kind r
      ∧ (s.request q kind handle).finish ns
          = { t with raised := [], ports := ((s.request q kind handle).finish ns).ports } := by
  rw [State.request_of_takes hs, State.hand_eq h]
  have hk : ∀ k : PortNo, ((t.onPort q.port fun p => p.reply q.tag kind r).ports.get k)
      = if k = q.port then (((s.frameTaken q.port).ports.get k).take q.tag kind).reply q.tag kind r
        else (s.frameTaken q.port).ports.get k := by
    intro k
    simp only [State.onPort, hp]
    by_cases hk : k = q.port
    · subst hk; simp
    · rw [setAt_get_ne _ _ (Ne.symm hk), setAt_get_ne _ _ (Ne.symm hk)]; simp [hk]
  have hn := State.portsNoticed_finish (t.onPort q.port fun p => p.reply q.tag kind r) ns
  refine ⟨⟨⟨?_, ?_⟩, ?_, ?_⟩, rfl⟩
  · rw [(hn q.port).2, hk]; simp [Port.reply, Port.take]
  · apply State.finish_holdsAnswer
    rw [hk]
    exact .inr (by simp [Port.reply])
  · intro k
    have := (hn k).1
    rw [hk] at this
    by_cases h' : k = q.port
    · subst h'
      rw [if_pos rfl] at this
      exact this
    · simpa [h'] using this
  · intro k h'
    rw [(hn k).2, hk]; simp [h']

/-! ## Requests that change nothing -/

/-- A port with a request taken and its answer queued (R166, R167 row 5). -/
def Port.withReply (p : Port) (tag : Byte) (kind : RequestKind) (r : Reply) : Port :=
  (p.frameTaken.take tag kind).reply tag kind r

/-- The state in which a taken request is handed to its block (R167 row 5). -/
abbrev State.taken (s : State) (q : Src) (kind : RequestKind) : State :=
  (s.frameTaken q.port).onPort q.port fun p => p.take q.tag kind

/-- Notices are offered as if no request had been answered. -/
theorem Port.offers_withReply (p : Port) (tag : Byte) (kind : RequestKind) (r : Reply) (ns : List Notice) :
    ns.foldl Port.offer (p.withReply tag kind r) = (ns.foldl Port.offer p).withReply tag kind r := by
  have one (p : Port) (n : Notice) : (p.withReply tag kind r).offer n = (p.offer n).withReply tag kind r := by
    by_cases hd : p.filter.passes n = false ∨ p.gate = .shut
    · rw [Port.offer_discarded hd, Port.offer_discarded (p := p.withReply tag kind r) hd]
    · obtain ⟨hf, hg⟩ := not_or.mp hd
      have hf : p.filter.passes n = true := by simpa using hf
      have hg : p.gate = .opened := by cases h : p.gate <;> simp_all
      by_cases hl : p.notices.length < Config.maxNotices
      · rw [Port.offer_queued hf hg hl, Port.offer_queued (p := p.withReply tag kind r) hf hg hl]; rfl
      · have hl := Nat.not_lt.mp hl
        rw [Port.offer_dropped hf hg hl, Port.offer_dropped (p := p.withReply tag kind r) hf hg hl]; rfl
  induction ns generalizing p with
  | nil => rfl
  | cons n ns ih => rw [List.foldl_cons, one, ih, List.foldl_cons]

/-- The ports after a request that is taken by a block that leaves them alone. -/
theorem State.request_port {s t : State} {q : Src} {kind : RequestKind} {handle : State → State × Reply} {r : Reply}
    (hs : s.takes q kind) (h : handle (s.taken q kind) = (t, r)) (hp : t.ports = (s.taken q kind).ports) (k : PortNo) :
    (s.request q kind handle).ports.get k
      = if k = q.port then (s.ports.get k).withReply q.tag kind r else s.ports.get k := by
  rw [State.request_of_takes hs, State.hand_eq h]
  simp only [State.onPort, hp, State.frameTaken]
  by_cases hk : k = q.port
  · subst hk; simp [Port.withReply]
  · simp [setAt_get_ne _ _ (Ne.symm hk), hk]

/-- After a request that is taken by a block that leaves the ports alone, the end of the event offers the register's
notices and those that the block has raised, and no more. -/
theorem State.offered_of_takes {s t : State} {q : Src} {kind : RequestKind} {handle : State → State × Reply}
    {r : Reply} (ns : List Notice) (hs : s.takes q kind) (h : handle (s.taken q kind) = (t, r))
    (hp : t.ports = (s.taken q kind).ports) :
    s.offered ((s.request q kind handle).finish ns) (ns ++ otherNotices t.raised) := by
  have hr : (s.request q kind handle).raised = t.raised := by rw [State.request_of_takes hs, State.hand_eq h]; rfl
  intro k
  have ho := (s.request q kind handle).offered_finish ns k
  rw [hr, State.request_port hs h hp] at ho
  by_cases hk : k = q.port
  · rw [if_pos hk, Port.offers_withReply] at ho
    exact ho
  · rwa [if_neg hk] at ho

/-- A request that is taken by a block that changes nothing is answered, and nothing else happens: the form in which
the plate register's requests end. -/
theorem State.answeredOnly_of_serve {s : State} {i : Instr} {q : Src} {kind : RequestKind}
    {handle : State → State × Reply} {r : Reply} (hs : s.takes q kind) (he : exec i s = s.serve q kind handle)
    (h : handle (s.taken q kind) = (s.taken q kind, r)) : s.answeredOnly i q kind r := by
  have hp : (s.request q kind handle).plates = s.plates := by rw [State.request_of_takes hs, State.hand_eq h]; rfl
  obtain ⟨h1, h2⟩ := State.served_of_takes (registerNotices s.plates (s.request q kind handle).plates) hs h rfl
  refine ⟨_, he, h1, h2, fun hq hl => ?_⟩
  have ho := State.offered_of_takes [] hs h rfl
  have hr : (s.taken q kind).raised = [] := hq
  rw [hr, otherNotices_nil] at ho
  rwa [State.announce, hp, registerNotices_self hl.2.1]

/-- The same, of the requests that cannot change the register. -/
theorem State.answeredOnly_of_serveQuiet {s : State} {i : Instr} {q : Src} {kind : RequestKind}
    {handle : State → State × Reply} {r : Reply} (hs : s.takes q kind) (he : exec i s = s.serveQuiet q kind handle)
    (h : handle (s.taken q kind) = (s.taken q kind, r)) : s.answeredOnly i q kind r := by
  obtain ⟨h1, h2⟩ := State.served_of_takes [] hs h rfl
  refine ⟨_, he, h1, h2, fun hq _ => ?_⟩
  have ho := State.offered_of_takes [] hs h rfl
  have hr : (s.taken q kind).raised = [] := hq
  rwa [hr, otherNotices_nil] at ho

end Sys2Proof.Machine
end

