-- ==== Sys2Proof/Laws/Store.lean ====
section
/-! SUPPORT. What the completion of a store access can do, once: the row it writes, and the end of a used and of a
stopped access. -/

namespace Sys2Proof.Machine

@[simp] theorem State.writeRow_none (s : State) : s.writeRow none = s := rfl

@[simp] theorem State.writeRow_some (s : State) (r : StoreRow) : s.writeRow (some r) = s.write r.addr r.bytes := rfl

@[simp] theorem State.accessEnd_used (s : State) (effect : State → State) :
    s.accessEnd .used effect = effect s.accessDone := rfl

@[simp] theorem State.accessEnd_unused (s : State) (row : Option StoreRow) (effect : State → State) :
    s.accessEnd (.unused row) effect = s.accessDone.writeRow row := rfl

@[simp] theorem Access.stop_work (a : Access) (row : Option StoreRow) : (a.stop row).work = a.work := by
  unfold Access.stop; split <;> rfl

/-- A stopped access is not used, whatever it was (R140). -/
theorem Access.stop_result (a : Access) (row : Option StoreRow) : (a.stop row).result ≠ .used := by
  unfold Access.stop; split <;> simp_all

/-- A written row stands in the store, and no byte outside it has changed. -/
theorem State.rowWritten_writeRow (s : State) (r : StoreRow) : s.rowWritten (s.writeRow (some r)) r :=
  ⟨readBytes_writeBytes _ _ _, fun _ h => readByte_writeBytes_of_not_mem h⟩

/-- A row written stays written across what leaves the store's bytes alone. -/
theorem State.rowWritten_congr {s t u : State} {r : StoreRow} (h : s.rowWritten t r) (hm : u.fsc.mem = t.fsc.mem) :
    s.rowWritten u r := by
  obtain ⟨a, b⟩ := h
  exact ⟨by rw [hm]; exact a, fun x hx => by rw [hm]; exact b x hx⟩

@[simp] theorem State.storedRow?_clear (s : State) (k : SlotNo) (y : Nat) :
    s.storedRow? (.clear k y) = some (s.clearedStoreRow k y) := rfl

@[simp] theorem State.storedRow?_merge (s : State) (k : SlotNo) (o y : Nat) (codes : List CameraCode) :
    s.storedRow? (.merge k o y codes) = some (s.mergedStoreRow k o y codes) := rfl

@[simp] theorem State.storedRow?_finalize (s : State) (k : SlotNo) (y : Nat) :
    s.storedRow? (.finalize k y) = some (s.densityStoreRow k y) := rfl

@[simp] theorem State.storedRow?_deliver (s : State) (k : SlotNo) (y : Nat) : s.storedRow? (.deliver k y) = none := rfl

@[simp] theorem State.storedRow?_openRow (s : State) (y : Nat) : s.storedRow? (.openRow y) = none := rfl

@[simp] theorem State.storedRow?_refresh (s : State) : s.storedRow? .refresh = none := rfl

/-- A cleared row has 8 bytes for each pixel (R66, R67). -/
@[simp] theorem State.clearedStoreRow_length (s : State) (k : SlotNo) (y : Nat) :
    (s.clearedStoreRow k y).bytes.length = 8 * s.geometry.width := by simp [State.clearedStoreRow]

end Sys2Proof.Machine
end

