-- ==== Sys2Proof/Tests/Slice0.lean ====
section
/-! SUPPORT. Tests: a smoke test of every well-formedness check, the manual's worked examples, and for every
statement that has hypotheses a state and operands that meet them, clause by clause, at the edge of each
clause's range. -/

open Sys2Proof Sys2Proof.Machine

namespace Sys2Proof.Tests

set_option Elab.async false

/-! ## Well-formedness: each check refuses an ill-formed command -/

/-- Characters with their stop bits. -/
def chars (bytes : List Byte) : List Character := bytes.map fun b => { value := b, stopBit := true }

theorem test_wellFormed_refuses_a_length_that_is_none :
    (Instr.badFrame 0 (chars [0xC5, 200])).wellFormed = false ∧ (Instr.badFrame 0 (chars [0xC5, 201])).wellFormed = true
      ∧ (Instr.badFrame 0 (chars [1, 2])).wellFormed = false ∧ (Instr.badFrame 0 []).wellFormed = false := by decide

theorem test_wellFormed_refuses_a_good_frame_as_bad :
    (Instr.badFrame 0 (chars (stationFrame 0x10 [5]))).wellFormed = false
      ∧ (Instr.badFrame 0 (chars (0xC5#8 :: [1, 0x10, 5] ++ leBytes 2 (crc16 [1, 0x10, 5] + 1).toNat))).wellFormed = true := by
  decide +kernel

theorem test_wellFormed_refuses_more_than_one_bad_frame :
    (Instr.badFrame 0 (chars [0xC5, 201, 0xC5, 201])).wellFormed = false
      ∧ (Instr.badFrame 0 (chars [7, 0xC5, 3] ++ [{ value := 0x10, stopBit := false }])).wellFormed = true
      ∧ (Instr.badFrame 0 [{ value := 0xC5, stopBit := false }]).wellFormed = false := by decide

theorem test_wellFormed_refuses_request_as_non_request :
    (Instr.nonRequestFrame 0 0x10 [5]).wellFormed = false ∧ (Instr.nonRequestFrame 0 0x3F [5]).wellFormed = false
      ∧ (Instr.nonRequestFrame 0 0x0F [5]).wellFormed = true ∧ (Instr.nonRequestFrame 0 0x40 [5]).wellFormed = true
      ∧ (Instr.nonRequestFrame 0 0x10 []).wellFormed = true := by decide

theorem test_wellFormed_refuses_marker_as_unknown_unit :
    (Instr.unknownUnit [0xA0, 1, 2]).wellFormed = false ∧ (Instr.unknownUnit [0xA1, 1, 2, 3]).wellFormed = false
      ∧ (Instr.unknownUnit [0xA2, 1, 2, 3, 4]).wellFormed = false
      ∧ (Instr.unknownUnit [0xA3, 1, 2, 3, 4]).wellFormed = false ∧ (Instr.unknownUnit [0xA4]).wellFormed = true
      ∧ (Instr.unknownUnit [0xA1, 1, 2]).wellFormed = true := by decide

theorem test_wellFormed_refuses_lists_longer_than_a_frame :
    (Instr.writeProfile ⟨1, 0⟩ none (some (List.replicate 201 0)) none none none .missing none).wellFormed = false
      ∧ (Instr.setCapture ⟨1, 0⟩ (List.replicate 201 (none, 0))).wellFormed = false
      ∧ (Instr.standby ⟨1, 0⟩ (some (List.replicate 201 0))).wellFormed = false
      ∧ (Instr.setFilter ⟨1, 0⟩ (some (List.replicate 201 none)) none none).wellFormed = false
      ∧ (Instr.standby ⟨1, 0⟩ (some (List.replicate 200 0))).wellFormed = true := by decide +kernel

/-! ## The manual's worked examples -/

/-- The catalogue's check values of the two polynomials over the digits 1 to 9 (R156, R165 name the
parameters; the values stand outside the manual). -/
theorem test_crc_check_values :
    crc16 [0x31, 0x32, 0x33, 0x34, 0x35, 0x36, 0x37, 0x38, 0x39] = 0x29B1
      ∧ crc32Sent (crc32Add crc32Start [0x31, 0x32, 0x33, 0x34, 0x35, 0x36, 0x37, 0x38, 0x39]) = 0xFC891918 := by
  decide +kernel

/-- R27's table. -/
theorem test_clamped_ladders :
    ([20, 900, 12000, 9500000].map clampTime = [50, 900, 12000, 8000000])
      ∧ strictlyIncreasing ([30, 40, 100].map clampTime) = false
      ∧ [7000000, 9000000].map clampTime = [7000000, 8000000]
      ∧ strictlyIncreasing ([9000000, 10000000].map clampTime) = false
      ∧ strictlyIncreasing ([1000, 800, 64000].map clampTime) = false := by decide

/-- R31's table. -/
theorem test_field_sizes :
    (fieldSize 64 4096, fieldSize 16 3072) = (4096, 3072) ∧ (fieldSize 64 4000, fieldSize 16 3000) = (3968, 2992)
      ∧ (fieldSize 64 100, fieldSize 16 5000) = (256, 4096) ∧ (fieldSize 64 2048, fieldSize 16 1024) = (2048, 1024) := by
  decide

/-- The ladder of section 2.5. -/
def ladder25 : List Nat := [500, 4000, 30000, 250000, 2000000, 6000000]

/-- Section 2.5. -/
theorem test_effective_ladders :
    (effectiveLadder ladder25 .normal 300).map (·.time) = ladder25
      ∧ (effectiveLadder ladder25 .fragile 2000000).map (·.time) = [500, 4000, 30000, 250000, 2000000]
      ∧ (effectiveLadder ladder25 .fragile 200000).map (fun r => (r.index, r.time))
          = [(0, 500), (1, 4000), (2, 30000), (3, 200000)]
      ∧ (effectiveLadder ladder25 .fragile 300).map (fun r => (r.index, r.time)) = [(0, 300)] := by decide

/-- R17: even rows left to right, odd rows right to left. -/
theorem test_serpentine : serpentine 3 2 = [(0, 0), (1, 0), (2, 0), (2, 1), (1, 1), (0, 1)] := by decide

/-- The exposure list of section 4.8. -/
def list48 : List Exposure :=
  [{ ordinal := 0, rung := .step 0, time := 5000, monitor := 50400, outcome := .merged, torn := none },
   { ordinal := 1, rung := .step 1, time := 40000, monitor := 51200, outcome := .merged, torn := none },
   { ordinal := 2, rung := .step 2, time := 320000, monitor := 49800, outcome := .merged, torn := none }]

/-- The row of section 4.8 after one exposure. -/
def merge48 (ordinal : Nat) (codes : List CameraCode) (row : List Accum) : List Accum :=
  mergeRow list48 3968 24 ordinal codes [64, 50, 64, 58, 60] [17067, 16384, 16000, 0, 16384] row

/-- The row of section 4.8 after ordinals 0, 1 and 2. -/
def row48 (n : Nat) : List Accum :=
  let r0 := merge48 0 [330, 4095, 70, 812, 61] (List.replicate 5 Accum.cleared)
  let r1 := merge48 1 [2100, 4095, 75, 3900, 68] r0
  if n = 0 then r0 else if n = 1 then r1 else merge48 2 [4095, 4095, 80, 4095, 150] r1

/-- Section 4.8: best values and ordinals. -/
theorem test_row_merge_keeps_longest :
    (row48 0).map (fun a => (a.hasBest, a.best)) = [(true, 4539822), (false, 0), (false, 0), (false, 0), (false, 0)]
      ∧ (row48 2).map (fun a => (a.hasBest, a.best, a.ordinal, a.dead))
          = [(true, 34748412, 1, false), (false, 0, 0, false), (false, 0, 0, false), (false, 0, 0, true),
             (true, 1474560, 2, false)]
      ∧ (row48 2).map (·.seenSaturated) = [true, true, false, false, false] := by decide +kernel

/-- Section 4.8: valid, saturated-only, starved-only, dead, unseen after the clear and each ordinal. -/
theorem test_class_counters :
    let counts (row : List Accum) : List Nat :=
      [PixelClass.valid, .satOnly, .starvedOnly, .dead, .unseen].map fun k => classCount k row
    counts (List.replicate 5 Accum.cleared) = [0, 0, 0, 0, 5] ∧ counts (row48 0) = [1, 1, 2, 1, 0]
      ∧ counts (row48 1) = [1, 1, 2, 1, 0] ∧ counts (row48 2) = [2, 1, 1, 1, 0] := by decide +kernel

/-- Section 4.8: the codes of the five pixels, and the code P1 would have at rung 0. -/
theorem test_density_codes :
    List.zipWith (pixelCode { openLevel := 3000, tRef := 2000, mRef := 50000 } list48 40960)
        [17067, 16384, 16000, 0, 16384] (row48 2) = [11976, 0, 40960, 65535, 30517]
      ∧ densityCode (densityNum 3000 5000 50400) (densityDen 4539822 2000 50000) 40960 = 11763 := by decide +kernel

/-- Section 4.8: the bins. -/
theorem test_histogram_bins : [11976, 30517, 0, 40960].map histogramBin = [11, 29, 0, 40] := by decide

/-- R92 and section 5.10: dark levels and flat gains under O = 3000. -/
theorem test_dark_levels_and_gains :
    meanOfFour 255 = 64
      ∧ [(2944, 64), (3050, 50), (3136, 64), (700, 58), (790, 40), (4050, 60)].map (fun p => flatGain 3000 p.1 p.2)
          = [17067, 16384, 16000, 0, 65535, 0] := by decide +kernel

/-- R49 and R126: a reading in and out of tolerance 16 of 50,000, at the edge 3125 and past it. -/
theorem test_tolerance :
    inTolerance 16 50000 46200 = false ∧ inTolerance 16 50000 47100 = true ∧ inTolerance 16 50000 53125 = true
      ∧ inTolerance 16 50000 53126 = false := by decide

/-- R115 and section 6.8: the state at each fault count under a limit of 64. -/
theorem test_link_states :
    [40, 48, 64, 60, 124, 148, 188, 196, 212, 383, 384].map (linkOf 64)
      = [.clean, .clean, .warned, .clean, .warned, .warned, .warned, .guarded, .guarded, .guarded, .dropped] := by
  decide

/-- R169: the lowest-numbered port strapped TRANSPORT takes the role. -/
theorem test_strap_roles :
    strapRole ⟨false, true, false, false⟩ = .transport ∧ resolveRole .transport [.transport] = .off
      ∧ resolveRole .console [.console] = .console := by decide

/-! ## Small states -/

/-- A source on the TRANSPORT, ARCHIVE and CONSOLE port. -/
def src (p : PortNo) : Src := { port := p, tag := 9 }

/-- A field of 2 by 2 pixels, a READY store. -/
def ready : State :=
  { State.reset with
    geometry := { width := 2, height := 2 }
    cal := { State.reset.cal with tally := [0, 0] }
    fsc := { State.reset.fsc with state := .ready } }

/-- The cell of the tests. -/
def cellA : CellRef := { key := 5, column := 0, row := 0 }

/-- A cell record at column 0, row 0. -/
def cellRecord (state : CellState) (slot : Option SlotNo) (tries : Nat) : CellRecord :=
  { column := 0, row := 0, state := state, triesUsed := tries, slot := slot, summary := none, lastOutcome := .untried }

/-- A plate of one cell with key 5. -/
def plate (state : PlateState) (seated : Bool) (cell : CellRecord) : PlateRecord :=
  { key := 5, state := state, seated := seated, holds := { console := false, move := false, lamp := false },
    profile := 0, handling := .normal, emulsion := .up, columns := 1, rows := 1, cells := [cell], enrolTime := 0,
    firstSeat := none, completion := none, kept := 0, failed := 0 }

/-- The ready state with plates. -/
def withPlates (ps : List PlateRecord) : State := { ready with plates := ps }

/-- A context of a try of the cell, in slot 0. -/
def ctxA : TryContext :=
  { cell := cellA, slot := 0, ladder := [{ index := 0, time := 1000 }, { index := 1, time := 8000 }],
    satThreshold := 3968, noiseFloor := 24, extThreshold := 0, singleTry := false, extCap := 8000000, rung := .step 0,
    repeats := [0, 0], extRepeats := 0, extTaken := false, extTime := 0, clearComplete := true }

/-- The latest entry of the try. -/
def entryA : Exposure :=
  { ordinal := 0, rung := .step 0, time := 1000, monitor := 0, outcome := .merged, torn := none }

/-- The work record of the try. -/
def workA : WorkRecord :=
  { WorkRecord.freed with
    state := .accumulating
    owner := some cellA
    satThreshold := 3968
    noiseFloor := 24
    list := [entryA] }

/-- A VALID calibration record. -/
def validRecord : CalRecord := { CalRecord.cold with state := .valid, mRef := some 50000, openLevel := some 3000 }

/-- A try of the cell in flight, with the sequencer in a state, under a VALID calibration and a STEADY lamp. -/
def trying (x : CsqState) : State :=
  { withPlates [plate .active true (cellRecord .exposing (some 0) 0)] with
    csq := { state := x, ctx := some ctxA, frameReported := false, moveCounter := 1,
             move := some { number := 1, cell := cellA, status := if x = .moving then .moving else .arrived } }
    mge := { work := setAt ready.mge.work 0 workA, queue := [] }
    cal := { ready.cal with record := validRecord }
    ltc := { Ltc.cleared with lamp := .steady, drive := 512 }
    fsc := { ready.fsc with held := setAt ready.fsc.held 0 true, holders := setAt ready.fsc.holders 0 (some cellA) } }

/-- The latest entry of the try PENDING, its window not ended. -/
def pendingTry (s : State) : State := s.onLatest 0 fun e => { e with outcome := .pending }

/-- An awaited frame being received in the middle of a try, with rows already seen. -/
def receivingIn (x : CsqState) (nextRow : Nat) : State :=
  let s := trying x
  { s with plr := { s.plr with awaitedTag := some 3, tagCounter := 3, reception := .receiving, nextRow := nextRow,
                               requester := some (.capture 0 0), shutterSeen := true } }

/-- An awaited frame being received before its window has ended. -/
def receiving (nextRow : Nat) : State := receivingIn .exposing nextRow

/-- The receiving state with what a decision has made of the rows so far. -/
def decided (x : CsqState) (nextRow : Nat) (d : Decision) (queue : List QueuedRow) : State :=
  let s := receivingIn x nextRow
  { s with plr := { s.plr with decision := d, queue := queue } }

/-- Rows of the try that wait, held or released. -/
def rowsOf (n : Nat) (released : Bool) : List QueuedRow :=
  (List.range n).map fun i => { dest := .capture 0 0, row := i, codes := [1, 2], released := released }

/-- The link dropped. -/
def dropped (run : Nat) : State :=
  { ready with plr := { ready.plr with faultCount := 384, link := .dropped, idleRun := run } }

/-- The store with an access in progress whose result is used. -/
def accessing (s : State) (w : StoreWork) : State :=
  { s with fsc := { s.fsc with access := some { work := w, result := .used } } }

/-- The store with a stopped access in progress. -/
def stopped (s : State) (w : StoreWork) (row : Option StoreRow) : State :=
  { s with fsc := { s.fsc with access := some { work := w, result := .unused row } } }

/-- An operation of a calibration. -/
def opOf (kind : CalKind) (phase : CalPhase) : CalOp :=
  { kind := kind, phase := phase, frame := 0, repeats := 0, inFlight := false, reported := false,
    failedTest := false, levelHeld := none, means := [], mFirst := none, mRef := some 50000, netSum := 0, netCount := 0,
    satCount := 0, openLevel := some 3000, deadCount := 0, passRow := 0 }

/-- An operation of a calibration running. -/
def running (op : CalOp) : State := { ready with cal := { ready.cal with op := some op } }

/-- A calibration running. -/
def calibrating (kind : CalKind) (phase : CalPhase) : State := running (opOf kind phase)

/-- A header record. -/
def headerA : HeaderRecord :=
  { key := 5, column := 0, row := 0, tryNumber := 1, profile := 0, handling := .normal, emulsion := .up, width := 2,
    height := 2, exposuresMerged := 1, extensionUsed := false, firstTrigger := 0, finalizeTime := 0, clipLight := 0,
    clipDark := 0, dead := 0, tornRows := 0, qceil := 40960, histogram := [] }

/-- A stream of the cell, with a unit being sent. -/
def streaming (phase : StreamPhase) (row : Nat) (buffer : RowBuffer) (u : Option DeliveryUnit) : State :=
  let s := withPlates [plate .captured false (cellRecord .delivering (some 0) 1)]
  { s with dlt :=
    { s.dlt with
      ready := true
      link := u.map fun x => { content := x, live := true }
      stream := some
        { cell := some cellA, slot := some 0, mirrored := false, phase := phase, nextRow := row, buffer := buffer,
          cut := false, crc := 0xFFFFFFFF, header := headerA } } }

/-- An answer. -/
def answerA (kind : RequestKind) (own : Bool) : Answer :=
  { tag := 9, kind := .request kind, code := .done, clamped := false, data := .none, forOutstanding := own }

/-- The ready state with port 1 changed. -/
def onPort1 (f : Port → Port) : State := ready.onPort 1 f

/-! ## One step each -/

/-- A field of a next state. -/
def nextOf {α : Type} (r : Result) (f : State → α) : Option α :=
  match r with
  | .next t => some (f t)
  | _ => none

/-- Section 6.8 step 1: a ROW with a bad check at a count of 40 under a limit of 64. -/
theorem test_bad_row_is_charged :
    (let s : State := { receiving 1 with plr := { (receiving 1).plr with faultCount := 40 } }
     nextOf (exec (.uplinkRow 1 [1, 2, 3] 0) s) (fun t =>
       (t.plr.faultCount, t.plr.link, t.plr.exposureCharge, t.plr.nextRow, t.plr.capture))
       = some (48, .clean, 8, 2,
           some { kind := .check, exposure := some (.capture 0 0), row := some 1, count := 48 })) := by decide +kernel

/-- Section 3.10: an expired move holds the plate with MOVE, and the sequencer pauses. -/
theorem test_expired_move_holds :
    (let s : State := { trying .moving with tbu := { ready.tbu with timers := { Timers.stopped with move := some 1 } } }
     nextOf (exec .moveTimerExpiry s) (fun t =>
       (t.csq.state, t.csq.move.map (·.status), t.plates.map (·.holds.move)))
       = some (.paused .move, some .expired, [true])) := by decide +kernel

/-- R158: a row of a stream of an emulsion DOWN plate is sent last pixel first. -/
theorem test_mirrored_row :
    (let s : State := streaming .rows 0 (.full [1, 2]) none
     let s : State := { s with dlt := { s.dlt with stream := s.dlt.stream.map fun x => { x with mirrored := true } } }
     nextOf (exec .readyRise s) (fun t => t.dlt.link)
       = some (some { content := .row 0 [2, 1], live := true })) := by decide +kernel

/-- R150, R171: a failed bring-up reaches the CONSOLE as notice 1, and not the TRANSPORT, whose filter admits no
STORE. -/
theorem test_store_notice_reaches_console :
    (let s : State := { ready with fsc := { ready.fsc with state := .training } }
     nextOf (exec .bringUpFail s) (fun t => ((t.ports.get 0).unsent, (t.ports.get 2).unsent))
       = some ([], [(1, .store .fault .training (.fault .training) none none)])) := by decide +kernel

/-- R42, R43, R4: the claim's notices reach the TRANSPORT in order: PLATE, then MOVE_TO; its filter admits no CELL. -/
theorem test_claim_notices_reach_transport :
    (let s : State := { withPlates [plate .enrolled false (cellRecord .pending none 0)] with
       cal := { ready.cal with record := validRecord } }
     nextOf (exec (.seated (src 0) (some 5)) s) (fun t => (t.ports.get 0).unsent.map fun n => (n.1, n.2.kind))
       = some [(1, .plate), (2, .moveTo)]) := by decide +kernel

/-! ## Witnesses: resets and the store's states -/

theorem test_witness_StoreComesUp :
    State.reset.fsc.state = .cold ∧ { ready with fsc := { ready.fsc with state := .training } }.fsc.state = .training
      ∧ { ready with fsc := { ready.fsc with state := .waking } }.fsc.state = .waking
      ∧ 1073741824 ≤ 1073741824 ∧ 1073741823 < 1073741824 ∧ ready.quiet := by decide +kernel

/-- A try in EXPOSING, a cell in FINALIZING and one in DELIVERING, under a calibration record that is not VALID and
delivery mode FETCH. -/
def working : State :=
  let s := trying .exposing
  { s with
    plates := s.plates ++ [{ plate .enrolled false (cellRecord .finalizing (some 1) 0) with key := 6 },
                           { plate .captured false (cellRecord .delivering (some 2) 1) with key := 7 }]
    cal := { s.cal with record := { s.cal.record with state := .stale } }
    mge := { work := setAt (setAt s.mge.work 1 { workA with state := .running }) 2 { workA with state := .coded }
             queue := [1] }
    dlt := { s.dlt with mode := .fetch } }

theorem test_witness_WarmRestartAbandonsWork :
    (working.fsc.state = .ready ∧ working.cal.record.state ≠ .valid ∧ working.dlt.mode = .fetch
        ∧ working.cells.map (fun p => (p.2.state, p.2.slot))
            = [(.exposing, some 0), (.finalizing, some 1), (.delivering, some 2)]
        ∧ (working.work 2).state = .coded ∧ (working.work 1).state ≠ .coded)
      ∧ { trying .moving with fsc := { ready.fsc with state := .training } }.fsc.state ≠ .ready := by decide +kernel

theorem test_witness_WarmRestartKeepsTables :
    ((onPort1 fun p => { p with line := .answer (answerA .retire true) }).ports.get 1).line = .answer (answerA .retire true)
      ∧ (answerA .retire true).forOutstanding = true
      ∧ ((onPort1 fun p => { p with line := .answer (answerA .retire false) }).ports.get 1).line
          = .answer (answerA .retire false)
      ∧ working.cal.record.state ≠ .valid ∧ working.dlt.mode = .fetch ∧ working.registerLaw
      ∧ (StoreWork.merge 0 0 1 [1, 2]).cls ≠ .refresh
      ∧ (accessing working (.merge 0 0 1 [1, 2])).fsc.access
          = some { work := .merge 0 0 1 [1, 2], result := .used } := by decide +kernel

/-- R149: a warm restart takes a RETAINING store to WAKING and leaves every other state of its table. -/
theorem test_warm_restart_keeps_store_state :
    [StoreState.training, .ready, .retaining, .waking, .fault].map (fun x =>
        nextOf (exec .resetWarm { ready with fsc := { ready.fsc with state := x } }) (·.fsc.state))
      = [StoreState.training, .ready, .waking, .waking, .fault].map some := by decide +kernel

/-! ## Witnesses: store accesses -/

theorem test_witness_RefreshesAndReadsComplete :
    ready.fsc.state = .ready ∧ ready.fsc.access = none
      ∧ (let s := accessing ready .refresh
         s.fsc.state = .ready ∧ s.fsc.access = some { work := .refresh, result := .used })
      ∧ 2 ≤ ({ ready with fsc := { ready.fsc with access := some { work := .refresh, result := .used },
                                                  refreshOwed := 2 } } : State).fsc.refreshOwed
      ∧ (let s := accessing (streaming .header 0 .reading none) (.deliver 0 0)
         s.fsc.access = some { work := .deliver 0 0, result := .used } ∧ s.dlt.stream.isSome = true) := by decide +kernel

theorem test_witness_RowMergeWritesItsRow :
    [trying .exposing, trying .readout].all (fun s =>
      decide ((accessing s (.merge 0 0 1 [1, 2])).fsc.access = some { work := .merge 0 0 1 [1, 2], result := .used })
        && decide (accessing s (.merge 0 0 1 [1, 2])).midTry) = true := by decide +kernel

theorem test_witness_ClearRowWritesItsRow :
    (let s := accessing (trying .moving) (.clear 0 1)
     s.fsc.access = some { work := .clear 0 1, result := .used } ∧ s.midTry
       ∧ s.csq.ctx = some ctxA ∧ ctxA.slot = 0 ∧ s.geometry.height ≤ 1 + 1)
      ∧ (let s := accessing (trying .moving) (.clear 0 0)
         s.fsc.access = some { work := .clear 0 0, result := .used } ∧ s.midTry ∧ ¬ s.geometry.height ≤ 0 + 1) := by
  decide +kernel

theorem test_witness_CalibrationRowWritesItsPlane :
    (let s := accessing (calibrating .dark .frames) (.calibAdd 3 1 [1, 2])
     s.cal.op.isSome = true ∧ s.fsc.access = some { work := .calibAdd 3 1 [1, 2], result := .used })
      ∧ (let s := accessing (calibrating .flat .gainPass) (.gainRow 1)
         s.cal.op.isSome = true ∧ s.fsc.access = some { work := .gainRow 1, result := .used })
      ∧ (let s := accessing (calibrating .flat .openPass) (.openRow 0)
         s.cal.op.isSome = true ∧ s.fsc.access = some { work := .openRow 0, result := .used }) := by decide +kernel

/-- A calibration frame whose last handed row is being written, with the tallies of the rows. -/
def frameEnding (kind : CalKind) (frame repeats : Nat) (tally : List Nat) : State :=
  let s := running { opOf kind .frames with frame := frame, repeats := repeats, inFlight := true, reported := true,
                                            means := [50000, 50000, 50000, 50001] }
  accessing { s with cal := { s.cal with tally := tally }, ltc := { s.ltc with lamp := .steady } }
    (.calibAdd frame 1 [1, 2])

theorem test_witness_CalibrationFramesEnd :
    [(CalKind.dark, 0, 0), (.flat, 2, 2), (.dark, 3, 0), (.flat, 3, 1)].all (fun p =>
        let s := frameEnding p.1 p.2.1 p.2.2 [p.2.1 + 1, 0]
        s.cal.op.any (fun op => op.phase == .frames && op.inFlight && op.reported && op.frame == p.2.1)
          && decide (s.fsc.access = some { work := .calibAdd p.2.1 1 [1, 2], result := .used })
          && s.plr.queue.all (fun z => !z.isCalib)
          && decide (∀ z < s.geometry.height, (s.cal.tally.set 1 (p.2.1 + 1)).getD z 0 = p.2.1 + 1)) = true
      ∧ (frameEnding .dark 0 0 [1, 0]).canTrigger = true
      ∧ [1, 2].all (fun n =>
          let s := frameEnding .flat 3 n [3, 0]
          s.cal.op.any (fun op => op.repeats == n)
            && decide (¬ ∀ z < s.geometry.height, (s.cal.tally.set 1 4).getD z 0 = 4)) = true := by decide +kernel

/-- A pass of a flat with a row in progress. -/
def passing (phase : CalPhase) (row net count sat : Nat) : State :=
  accessing (running { opOf .flat phase with passRow := row, netSum := net, netCount := count, satCount := sat })
    (if phase = .openPass then .openRow row else .gainRow row)

theorem test_witness_CalibrationPassesEnd :
    [passing .openPass 0 0 0 0, passing .openPass 1 1000 1 0, passing .gainPass 0 0 0 0, passing .gainPass 1 0 0 0].all
        (fun s => s.cal.op.isSome && s.fsc.access.isSome && decide (0 < s.geometry.height)
          && decide (s.geometry = { width := 2, height := 2 })) = true
      ∧ (let s := passing .openPass 1 1000 1 0
         ((s.flatRow 1).map fun p => p.1 - p.2).sum = 0 ∧ ((s.flatRow 1).countP fun p => decide (p.2 < p.1)) = 0
           ∧ ((s.flatRow 1).countP fun p => decide (4032 ≤ p.1)) = 0)
      ∧ ¬ (2 * 2 < 0 * 100) ∧ ¬ ((1000 : Nat) / 1 < 256) ∧ 2 * 2 < 1 * 100 ∧ (255 : Nat) / 1 < 256
      ∧ (opOf .flat .gainPass).openLevel = some 3000 ∧ (opOf .flat .gainPass).mRef = some 50000 := by decide +kernel

theorem test_witness_FinalizationRowWritesItsCodes :
    let s := accessing (trying .moving) (.finalize 1 0)
    s.fsc.access = some { work := .finalize 1 0, result := .used } ∧ s.midTry ∧ 0 + 1 < s.geometry.height := by
  decide +kernel

/-- The last row of the pass of plate 6's cell in slot 1, with the pass of slot 2 queued behind it, while the try of
plate 5 goes on. -/
def finishing : State :=
  let s := trying .moving
  accessing
    { s with
      plates := s.plates ++ [{ plate .enrolled false (cellRecord .finalizing (some 1) 0) with key := 6 }]
      mge := { work := setAt (setAt s.mge.work 1
                 { workA with state := .running, owner := some { cellA with key := 6 }, qceil := some 40960,
                              histogram := List.replicate 64 0, rowsFinalized := 1 }) 2
                 { workA with state := .queued, owner := none }
               queue := [1, 2] }
      dlt := { s.dlt with mode := .fetch } }
    (.finalize 1 1)

theorem test_witness_FinalizationEnds :
    finishing.fsc.access = some { work := .finalize 1 1, result := .used } ∧ finishing.geometry.height ≤ 1 + 1
      ∧ (finishing.work 1).owner = some { cellA with key := 6 } ∧ finishing.registerLaw
      ∧ (finishing.plate? 6).map (·.state) = some .enrolled
      ∧ (finishing.plate? 6).map (·.cells) = some [cellRecord .finalizing (some 1) 0]
      ∧ finishing.midTry ∧ finishing.dlt.mode = .fetch ∧ (finishing.work 1).histogram.length = 64
      ∧ finishing.mge.queue = [1, 2] ∧ (finishing.work 2).state = .queued := by decide +kernel

theorem test_witness_AccessesComplete :
    [StoreWork.merge 0 0 2 [], .clear 0 2, .calibAdd 0 2 [], .openRow 2, .gainRow 2, .finalize 0 2, .deliver 0 2].all
        (fun w => decide ((accessing ready w).fsc.access = some { work := w, result := .used })
          && decide (w ≠ .refresh)) = true
      ∧ (accessing (trying .moving) (.clear 0 1)).storedRow? (.clear 0 1) ≠ none
      ∧ (accessing (trying .moving) (.deliver 0 1)).storedRow? (.deliver 0 1) = none
      ∧ (stopped (trying .moving) (.clear 3 1) (some { addr := regionBase 3, bytes := [1] })).midTry
      ∧ (stopped ready (.deliver 3 1) none).fsc.access = some { work := .deliver 3 1, result := .unused none } := by
  decide +kernel

/-- A delivery read that completes while a refresh is owed, a slot is cleared and a pass runs. -/
def contested : State :=
  let s := finishing
  accessing
    { s with
      mge := { s.mge with work := setAt s.mge.work 3 { WorkRecord.freed with state := .clearing } }
      fsc := { s.fsc with refreshOwed := 1 } }
    (.deliver 2 0)

/-- R141: the refresh is granted first, and the row merge class and the finalization wait. -/
theorem test_grant_in_order_of_priority :
    nextOf (exec .deliveryReadComplete contested) (fun t => (t.fsc.access, t.fsc.waiting))
      = some (some { work := .refresh, result := .used }, [.rowMerge, .finalization]) := by decide +kernel

theorem test_witness_AccessesComplete_grants :
    contested.fsc.access = some { work := .deliver 2 0, result := .used }
      ∧ ∃ t, exec .deliveryReadComplete contested = .next t ∧ t.fsc.access ≠ none ∧ t.fsc.waiting ≠ [] :=
  ⟨by decide +kernel, _, rfl, by decide +kernel, by decide +kernel⟩

/-! ## Witnesses: time base and lamp -/

theorem test_witness_SecondsAndMinutesCount :
    ready.ltc.lamp = .off
      ∧ (let s : State := { trying .moving with tbu := { ready.tbu with lampSeconds := 58 } }
         s.ltc.lamp = .steady ∧ s.tbu.lampSeconds < 59)
      ∧ (let s : State := { trying .moving with tbu := { ready.tbu with lampSeconds := 59 } }
         s.ltc.lamp = .steady ∧ s.tbu.lampSeconds = 59) := by decide +kernel

/-- The settle timer runs. -/
def settling (lamp : LampState) (held : Bool) : State :=
  let s := trying .settling
  { s with
    plates := s.plates.map fun r => { r with holds := { r.holds with console := held } }
    ltc := { s.ltc with lamp := lamp }
    tbu := { s.tbu with timers := { s.tbu.timers with settle := some 400000 } } }

theorem test_witness_SettleExpiryEntersAwaitLamp :
    [settling .steady true, settling .off false, settling .drifting false, settling .steady false].all (fun s =>
        decide (s.tbu.timers.settle = some 400000) && decide (s.csq.state = .settling)
          && decide (s.csq.ctx = some ctxA) && (s.plate? ctxA.cell.key).isSome) = true
      ∧ ((settling .steady true).plate? 5).map (·.holds.any) = some true
      ∧ ((settling .off false).plate? 5).map (·.holds.any) = some false
      ∧ (settling .steady false).canTrigger = true ∧ ((settling .steady false).work 0).list.length < 16 := by
  decide +kernel

theorem test_witness_FrameTimeoutCharges :
    [receiving 0, { receiving 0 with plr := { (receiving 0).plr with awaitedTag := none, endPending := true } }].all
      (fun s =>
        let s : State := { s with tbu := { s.tbu with timers := { Timers.stopped with frame := some 1 } } }
        decide (s.tbu.timers.frame = some 1) && decide (s.plr.link ≠ .dropped) && decide (s.plr.capture = none)) = true := by
  decide +kernel

/-- A state whose frame timer runs and whose fault count a timeout brings to 384. -/
def dropping (s : State) : State :=
  { s with plr := { s.plr with faultCount := 368, link := .guarded }
           tbu := { s.tbu with timers := { s.tbu.timers with frame := some 1 } } }

theorem test_witness_FrameTimeoutCharges_drop :
    [dropping (receiving 1), dropping (calibrating .dark .frames),
     dropping { ready with csq := { ready.csq with state := .awaitSlot } }].all (fun s =>
        decide (s.tbu.timers.frame = some 1) && decide (s.plr.link ≠ .dropped) && decide (384 ≤ s.plr.faultCount + 16)
          && decide s.quiet) = true
      ∧ (let s := dropping (receiving 1)
         s.registerLaw ∧ s.csq.ctx = some ctxA ∧ (s.plate? 5).map (fun r => (r.state, r.seated)) = some (.active, true)
           ∧ (s.cell? cellA).isSome = true ∧ ctxA.cell = cellA ∧ cellA ∉ s.dlt.queue)
      ∧ (dropping (calibrating .dark .frames)).cal.op.isSome = true
      ∧ (let s := dropping { ready with csq := { ready.csq with state := .awaitSlot } }
         s.csq.ctx = none ∧ s.csq.state = .awaitSlot) := by decide +kernel

/-- A row of the open frame is being merged. -/
def reading : State := accessing (decided .readout 1 .release []) (.merge 0 0 0 [1, 2])

/-- The frame timer runs. -/
def timedOut (s : State) : State :=
  { s with tbu := { s.tbu with timers := { s.tbu.timers with frame := some 1 } } }

/-- A timed-out frame of the try: rows of it still being merged, a window that has not ended, and a MERGED entry of which
no row has come. -/
theorem test_witness_FrameTimeoutCharges_settles :
    [timedOut reading, timedOut (receiving 0), timedOut (decided .readout 0 .release []),
     timedOut (decided .exposing 1 .waiting (rowsOf 1 false))].all (fun s =>
        decide (s.tbu.timers.frame = some 1) && decide (s.plr.link ≠ .dropped)
          && decide (s.plr.faultCount + 16 < 384) && decide (s.plr.requester = some (.capture 0 0))
          && decide (s.cal.op = none) && decide ((s.work 0).list.getLast? = some entryA)) = true
      ∧ (let s := timedOut reading
         s.csq.state = .readout ∧ s.csq.frameReported = false ∧ s.busyWith StoreWork.isMerge = true)
      ∧ (let s := timedOut (decided .readout 0 .release [])
         s.csq.state = .readout ∧ entryA.outcome = .merged ∧ s.csq.ctx = some ctxA ∧ ctxA.slot = 0
           ∧ ctxA.repeatCount < 2 ∧ (s.work 0).list.length < 16 ∧ 0 < s.geometry.height ∧ s.plr.rowsReleased = 0
           ∧ s.busyWith StoreWork.isMerge = false ∧ s.plr.queue = [])
      ∧ (let s := pendingTry (timedOut (decided .exposing 1 .waiting (rowsOf 1 false)))
         s.csq.state = .exposing ∧ ((s.work 0).list.getLast?.map (·.outcome)) = some .pending
           ∧ s.csq.ctx = some ctxA ∧ s.plr.rowsReleased = 0 ∧ s.busyWith StoreWork.isMerge = false
           ∧ s.plr.decision = .waiting ∧ s.plr.queue.map (·.released) = [false]) := by decide +kernel

/-- R50: a timeout with one of two rows handed leaves the entry PATCHED with one torn row. -/
theorem test_timeout_patches :
    (let s := timedOut reading
     nextOf (exec .frameTimerExpiry { s with plr := { s.plr with rowsReleased := 1, faultCount := 0 } }) (fun t =>
       ((t.work 0).list.map (fun e => (e.outcome, e.torn)), t.csq.frameReported, t.plr.faultCount))
       = some ([(.patched, some 1)], true, 16)) := by decide +kernel

theorem test_witness_LampTimersAndWindow :
    (let s : State := { ready with tbu := { ready.tbu with timers := { Timers.stopped with warmUp := some 1 } } }
     s.tbu.timers.warmUp = some 1)
      ∧ (let s : State := { trying .exposing with plr := { ready.plr with awaitedTag := some 3 } }
         s.plr.awaitedTag ≠ none ∧ s.plr.shutterSeen = false)
      ∧ ({ ready with ltc := { ready.ltc with windowOpen := true } } : State).ltc.windowOpen = true
      ∧ (let s : State :=
           { trying .moving with tbu := { ready.tbu with timers := { Timers.stopped with idle := some 1 } } }
         s.tbu.timers.idle = some 1 ∧ s.ltc.lamp = .steady ∧ s.csq.state ≠ .awaitLamp) := by decide +kernel

/-- A SET_CAPTURE that gives a new lamp level with new warm-up and idle times, at both ends of their ranges, under each lit
lamp. -/
theorem test_witness_LampTimersAndWindow_of_restart :
    [LampState.warming, .steady, .drifting].all (fun lamp =>
      let s : State := { ready with ltc := { ready.ltc with lamp := lamp } }
      [[(Setting.lampLevel, 1024), (.warmUpTime, 0), (.idleTime, 0)],
        [(.idleTime, 121), (.warmUpTime, 601), (.lampLevel, 0)]].all fun l =>
        decide (s.takes (src 1) .setCapture) && decide (l.map (·.1)).Nodup && decide (s.plates = [])
          && decide (s.cal.op = none)
          && l.any fun p => p.1 == .lampLevel && decide (min 1023 p.2 ≠ s.settings.lampLevel)) = true := by
  decide +kernel

theorem test_witness_LampCheckJudges :
    let s : State := { trying .moving with tbu := { ready.tbu with timers := { Timers.stopped with check := some 1 } } }
    s.tbu.timers.check = some 1 ∧ s.ltc.lamp = .steady ∧ (1023 : Reading).toNat < 1024
      ∧ 1024 ≤ (1024 : Reading).toNat ∧ inTolerance s.settings.lampTolerance 50000 (53125 : Reading).toNat = true
      ∧ inTolerance s.settings.lampTolerance 50000 (53126 : Reading).toNat = false := by decide +kernel

/-- A check below the floor while a flat, and a dark, runs. -/
theorem test_witness_LampCheckJudges_calibrating :
    [CalKind.flat, .dark].all (fun kind =>
      let s : State := { calibrating kind .frames with
        ltc := { ready.ltc with lamp := .steady }
        tbu := { ready.tbu with timers := { Timers.stopped with check := some 1 } } }
      decide (s.tbu.timers.check = some 1) && decide (s.ltc.lamp = .steady) && decide s.quiet
        && decide (s.cal.op = some (opOf kind .frames)) && decide ((opOf kind .frames).kind = kind)) = true := by
  decide +kernel

/-- A window of two samples at its end, with a mean in tolerance of 50,000, and out of it. -/
def windowEnding (sum n : Nat) (free : Bool) : State :=
  let s := decided .exposing n .waiting (rowsOf n false)
  let s : State := { s with ltc := { s.ltc with windowOpen := true, windowSum := sum, windowSamples := 2,
                                                steadyThroughout := true } }
  if free then s else accessing s .refresh

theorem test_witness_WindowEndJudgesExposure :
    [windowEnding 100000 2 true, windowEnding 100000 2 false, windowEnding 90000 0 true].all (fun s =>
        decide (s.ltc.windowOpen = true) && decide (0 < s.ltc.windowSamples)
          && decide (s.plr.requester = some (.capture 0 0)) && decide (s.plr.decision = .waiting)
          && decide (s.plr.shutterSeen = true) && decide (s.plr.awaitedTag ≠ none) && decide (s.plr.endPending = false)
          && decide (s.csq.state = .exposing) && decide (s.csq.frameReported = false) && decide (s.cal.op = none)
          && decide (s.cal.record.mRef = some 50000) && s.plr.queue.all (fun x => x.released == false)) = true
      ∧ inTolerance (windowEnding 0 0 true).settings.lampTolerance 50000 ((100000 + 1) / 2) = true
      ∧ inTolerance (windowEnding 0 0 true).settings.lampTolerance 50000 ((90000 + 1) / 2) = false
      ∧ (let s := windowEnding 100000 2 false
         s.fsc.access ≠ none ∧ (s.work 0).state = .accumulating ∧ (s.work 0).list.getLast?.map (·.ordinal) = some 0
           ∧ s.plr.queue.length = 2
           ∧ ∀ x ∈ s.plr.queue, x.dest = .capture 0 0 ∧ x.row < s.geometry.height
               ∧ x.codes.length = s.geometry.width) := by decide +kernel

/-- The window of an attempt of a flat at its end, with two rows held. -/
def attemptEnding (sum : Nat) (first : Option Nat) : State :=
  let op : CalOp := { opOf .flat .frames with inFlight := true, mFirst := first }
  let row (y : Nat) : QueuedRow := { dest := .calib 0, row := y, codes := [1, 2], released := false }
  { running op with
    plr := { ready.plr with awaitedTag := some 3, requester := some (.calib 0), shutterSeen := true,
                            queue := [row 0, row 1] }
    ltc := { ready.ltc with lamp := .steady, windowOpen := true, windowSum := sum, windowSamples := 2,
                            steadyThroughout := true } }

theorem test_witness_WindowEndJudgesExposure_of_a_flat :
    [attemptEnding 100000 none, attemptEnding 90000 (some 50000)].all (fun s =>
        decide (s.ltc.windowOpen = true) && decide (0 < s.ltc.windowSamples)
          && decide (s.plr.requester = some (.calib 0)) && decide (s.plr.decision = .waiting)
          && decide (s.plr.shutterSeen = true) && decide (s.plr.awaitedTag ≠ none) && decide (s.plr.endPending = false)
          && s.cal.op.any (fun op => op.kind == .flat && op.inFlight && !op.reported)
          && s.plr.queue.all (fun x => x.released == false) && decide (s.ltc.steadyThroughout = true)) = true
      ∧ inTolerance ready.settings.lampTolerance 50000 ((90000 + 1) / 2) = false := by decide +kernel

/-- R94: the first attempt to pass sets m_first and the mean of frame 0, and its rows are released. -/
theorem test_first_attempt_sets_reference :
    nextOf (exec .shutterFall (attemptEnding 100000 none)) (fun t =>
        (t.cal.op.map (fun op => (op.mFirst, op.means)), t.plr.decision))
      = some (some (some 50000, [50000]), .release) := by decide +kernel

/-- A window that ends after the frame of its try, with a mean in tolerance of 50,000, and out of it. -/
def endingLate (sum : Nat) : State :=
  let s := pendingTry (windowEnding sum 2 true)
  { s with plr := { s.plr with endPending := true, awaitedTag := none, reception := .between, tornCount := 1,
                               queue := rowsOf 1 false } }

theorem test_witness_WindowEndJudgesExposure_of_an_ended_frame :
    [endingLate 100000, endingLate 90000].all (fun s =>
        decide (s.ltc.windowOpen = true) && decide (0 < s.ltc.windowSamples)
          && decide (s.plr.requester = some (.capture 0 0)) && decide (s.plr.decision = .waiting)
          && decide (s.plr.shutterSeen = true) && decide (s.plr.endPending = true) && decide (s.csq.state = .exposing)
          && decide (s.csq.ctx = some ctxA) && decide (ctxA.slot = 0) && decide (s.cal.op = none)
          && decide (s.cal.record.mRef = some 50000)
          && decide ((s.work 0).list.getLast? = some { entryA with outcome := .pending })
          && decide (s.plr.tornCount < s.geometry.height) && decide (s.plr.queue = rowsOf 1 false)
          && decide (s.busyWith StoreWork.isMerge = false) && decide (s.ltc.steadyThroughout = true)
          && decide ((s.work 0).state = .accumulating) && decide (entryA.ordinal = 0)) = true
      ∧ (∀ x ∈ rowsOf 1 false, x.dest = .capture 0 0 ∧ x.released = false ∧ x.row < 2 ∧ x.codes.length = 2)
      ∧ ctxA.singleTry = false ∧ ctxA.repeatCount < 2 := by decide +kernel

/-- R111, R50: the frame that ended before its window is reported at the window's end, PATCHED for its torn row. -/
theorem test_ended_frame_is_reported_at_window_end :
    nextOf (exec .shutterFall (endingLate 100000)) (fun t =>
        ((t.work 0).list.map (fun e => (e.monitor, e.outcome, e.torn)), t.csq.state, t.csq.frameReported))
      = some ([(50000, .patched, some 1)], .readout, true) := by decide +kernel

/-! ## Witnesses: pixel uplink -/

/-- Between frames in the middle of a try. -/
def between (awaited cancelled : Option Byte) (count : Nat) : State :=
  let s := trying .exposing
  { s with plr := { s.plr with awaitedTag := awaited, cancelledTag := cancelled, faultCount := count } }

theorem test_witness_FrameStartIsJudged :
    (let s := between (some 3) none 0
     s.midTry ∧ s.plr.link ≠ .dropped ∧ s.plr.reception ≠ .receiving ∧ s.plr.awaitedTag = some 3)
      ∧ (let s := between (some 4) (some 3) 0
         s.midTry ∧ s.plr.link ≠ .dropped ∧ s.plr.reception ≠ .receiving ∧ s.plr.awaitedTag ≠ some 3
           ∧ s.plr.cancelledTag = some 3)
      ∧ (let s := between (some 4) none 375
         s.midTry ∧ s.plr.link ≠ .dropped ∧ s.plr.reception ≠ .receiving ∧ s.plr.awaitedTag ≠ some 3
           ∧ s.plr.cancelledTag ≠ some 3 ∧ s.plr.faultCount + 8 < 384)
      ∧ crc16 [0xA1#8, 3] ≠ crc16 [0xA1#8, 3] + 1 := by decide +kernel

/-- A marker meets an open frame, with a row of the try being merged. -/
def interrupted (x : CsqState) (nextRow : Nat) (d : Decision) : State :=
  let s := decided x nextRow d []
  accessing { s with plr := { s.plr with cancelledTag := some 7, faultCount := 367, exposureCharge := 56 } }
    (.merge 0 0 0 [1, 2])

theorem test_witness_FrameStartIsJudged_interrupts :
    [interrupted .readout 2 .release, interrupted .readout 1 .drain, interrupted .exposing 1 .waiting].all (fun s =>
        decide s.midTry && decide (s.plr.link ≠ .dropped) && decide (s.plr.reception = .receiving)
          && decide (s.plr.awaitedTag ≠ none) && decide (s.plr.requester = some (.capture 0 0))
          && decide (s.busyWith StoreWork.isMerge = true)
          && decide (s.plr.exposureCharge + 8 * (s.geometry.height - s.plr.nextRow) ≤ 64)
          && decide (s.plr.faultCount + 8 * (s.geometry.height - s.plr.nextRow) + 8 < 384)
          && decide (s.plr.capture = none)) = true
      ∧ (interrupted .readout 2 .release).plr.cancelledTag = some 7
      ∧ (interrupted .readout 2 .release).plr.cancelledTag ≠ some 3 := by decide +kernel

theorem test_witness_FrameStartIsJudged_strays :
    (let s := between none none 375
     s.plr.link ≠ .dropped ∧ s.plr.reception = .between ∧ s.midTry ∧ s.plr.faultCount + 8 < 384
       ∧ s.plr.capture = none)
      ∧ (let s : State := { ready with plr := { ready.plr with reception := .discarding } }
         s.plr.link ≠ .dropped ∧ s.plr.reception = .discarding) := by decide +kernel

/-- The bytes of a row of two codes, and the check of that row under an index. -/
def rowBytes : List Byte := [0x11, 0x22, 0x33]

/-- The check of a row. -/
def rowCheck (index : Nat) (bytes : List Byte) : BitVec 16 := crc16 (0xA2#8 :: (leBytes 2 index ++ bytes))

/-- What every clause about a row of the open frame asks of the state. -/
def takesRow (s : State) : Bool :=
  decide s.midTry && decide (s.plr.link ≠ .dropped) && decide (s.plr.reception = .receiving)
    && decide (s.plr.requester = some (.capture 0 0)) && decide (s.plr.awaitedTag ≠ none)

theorem test_witness_UplinkRowIsQueuedOrTorn_good :
    [decided .exposing 1 .waiting (rowsOf 7 false), accessing (decided .readout 1 .release []) (.merge 0 0 0 [1, 2]),
     decided .readout 1 .release [], decided .readout 1 .drain []].all (fun s =>
        takesRow s && decide ((1 : BitVec 16).toNat = s.plr.nextRow) && decide (s.plr.nextRow < s.geometry.height)
          && decide (rowBytes.length = 3 * s.geometry.width / 2)) = true
      ∧ (decided .exposing 1 .waiting (rowsOf 7 false)).plr.queue.length < 8
      ∧ (∀ x ∈ (decided .exposing 1 .waiting (rowsOf 7 false)).plr.queue, x.released = false)
      ∧ (accessing (decided .readout 1 .release []) (.merge 0 0 0 [1, 2])).inProgress .rowMerge = true
      ∧ (let s := decided .readout 1 .release []
         s.plr.queue = [] ∧ s.fsc.access = none ∧ s.fsc.state = .ready ∧ s.fsc.refreshOwed = 0
           ∧ (∀ j : SlotNo, (s.work j).state ≠ .clearing) ∧ (s.work 0).state = .accumulating
           ∧ (s.work 0).list.getLast? = some entryA ∧ entryA.ordinal = 0 ∧ entryA.outcome = .merged
           ∧ (unpackCodes rowBytes).length = s.geometry.width)
      ∧ rowCheck 1 rowBytes = crc16 (0xA2#8 :: (leBytes 2 (1 : BitVec 16).toNat ++ rowBytes)) := by decide +kernel

theorem test_witness_UplinkRowIsQueuedOrTorn_faults :
    [decided .exposing 1 .waiting (rowsOf 8 false), decided .exposing 0 .waiting (rowsOf 0 false),
     decided .readout 2 .release []].all (fun s =>
        let s : State := { s with plr := { s.plr with faultCount := 375, exposureCharge := 56 } }
        takesRow s && decide (s.plr.faultCount + 8 < 384)) = true
      ∧ 8 ≤ (rowsOf 8 false).length ∧ rowCheck 1 rowBytes + 1 ≠ rowCheck 1 rowBytes
      ∧ (0x44#8 :: rowBytes).length ≠ 3 * 2 / 2 ∧ (2 : BitVec 16).toNat = ready.geometry.height
      ∧ (0 : Nat) < (1 : BitVec 16).toNat ∧ (1 : BitVec 16).toNat < ready.geometry.height
      ∧ 56 + 8 * ((1 : BitVec 16).toNat - 0) ≤ 64 ∧ 375 + 8 * ((1 : BitVec 16).toNat - 0) < 384 := by decide +kernel

theorem test_witness_FrameEndEndsFrame :
    [decided .exposing 2 .waiting [], decided .readout 2 .release [], decided .readout 2 .drain [],
     decided .readout 1 .release [], decided .exposing 1 .waiting []].all (fun s =>
        let s := accessing { s with plr := { s.plr with faultCount := 375, exposureCharge := 56 } } (.merge 0 0 0 [1, 2])
        takesRow s && decide (s.plr.faultCount ≤ 383) && decide (s.busyWith StoreWork.isMerge = true)
          && decide (s.plr.capture = none)
          && (decide (s.geometry.height - s.plr.nextRow = 0)
            || (decide (s.plr.exposureCharge + 8 * (s.geometry.height - s.plr.nextRow) ≤ 64)
              && decide (s.plr.faultCount + 8 * (s.geometry.height - s.plr.nextRow) < 384)))) = true
      ∧ (3 : BitVec 16).toNat ≠ ready.geometry.height ∧ (2 : BitVec 16).toNat = ready.geometry.height := by decide +kernel

theorem test_witness_DroppedLinkCountsIdles :
    (dropped 46).plr.link = .dropped ∧ (dropped 46).plr.idleRun + 1 < 48 ∧ (dropped 47).plr.link = .dropped
      ∧ 48 ≤ (dropped 47).plr.idleRun + 1 ∧ crc16 [0xA0#8] ≠ crc16 [0xA0#8] + 1 := by decide +kernel

/-! ## Witnesses: delivery link -/

theorem test_witness_StreamUnitsAdvance :
    (let s := streaming .start 0 .empty none
     s.dlt.stream.isSome = true ∧ s.dlt.link = none ∧ (s.dlt.stream.bind Stream.nextUnit?) = some .start)
      ∧ (streaming .start 0 .empty (some .start)).dlt.link = some { content := .start, live := true }
      ∧ (streaming .header 0 .reading (some (.header headerA))).dlt.link
          = some { content := .header headerA, live := true }
      ∧ (streaming .rows 1 (.full [1, 2]) (some (.row 1 [1, 2]))).dlt.link
          = some { content := .row 1 [1, 2], live := true }
      ∧ (streaming .rows 1 (.full [1, 2]) (some (.row 1 [1, 2]))).dlt.stream.map (·.cut) = some false
      ∧ [streaming .header 0 .empty none, streaming .rows 0 (.full [1, 2]) none, streaming .rows 0 .reading none,
          streaming .finish 2 .empty none].all (fun s => s.dlt.stream.isSome && decide (s.dlt.link = none)) = true
      ∧ { headerA with histogram := List.replicate 64 0 }.histogram.length = 64
      ∧ (let s := streaming .finish 2 .empty (some (.finish false 2 0))
         s.dlt.stream.map (·.cell) = some (some cellA)
           ∧ s.dlt.link = some { content := .finish false 2 0, live := true } ∧ s.dlt.queue = [])
      ∧ (let s : State :=
           { ready with
             dlt := { (streaming .finish 1 .empty (some (.finish true 1 0))).dlt with
               mode := .fetch
               stream := (streaming .finish 1 .empty none).dlt.stream.map fun x =>
                 { x with cell := none, slot := none, cut := true } } }
         s.dlt.stream.map (·.cell) = some none ∧ s.dlt.link = some { content := .finish true 1 0, live := true }
           ∧ s.dlt.mode = .fetch) := by decide +kernel

theorem test_witness_StreamUnitsAdvance_notice :
    let s := streaming .finish 2 .empty (some (.finish false 2 0))
    s.registerLaw ∧ s.gridLaw ∧ (s.cell? cellA).map (·.state) = some .delivering ∧ s.quiet := by decide +kernel

/-! ## Witnesses: station lines -/

theorem test_witness_BadFramesAndBreaks :
    ready.fsc.state ≠ .cold ∧ (ready.ports.get 1).framer = .hunt ∧ badFrameCharacters (chars [0xC5, 201]) = true
      ∧ ((onPort1 fun p => { p with answers := List.replicate 2 (answerA .retire false) }).ports.get 1).answers.length < 3
      ∧ 3 ≤ ((onPort1 fun p =>
          { p with answers := List.replicate 3 (answerA .retire false) }).ports.get 1).answers.length
      ∧ ((onPort1 fun p => { p with line := .answer (answerA .retire true) }).ports.get 1).line
          = .answer (answerA .retire true) := by decide +kernel

/-- What port 1 holds after a change. -/
def port1 (f : Port → Port) : Port := (onPort1 f).ports.get 1

theorem test_witness_LinesSendAnswersThenNotices_pace :
    (let p := port1 fun p => { p with pace := true, notices := [(1, .unload 5)] }
     p.line = .idle ∧ p.answers = [] ∧ p.gate = .opened ∧ p.notices = [(1, .unload 5)])
      ∧ (let p := port1 fun p => { p with pace := true, line := .notice 1 (.unload 5), notices := [(2, .unload 6)] }
         p.line = .notice 1 (.unload 5) ∧ p.answers = [] ∧ p.pace = true ∧ p.notices ≠ [])
      ∧ (let p := port1 fun p =>
           { p with pace := true, line := .answer (answerA .retire true), notices := [(2, .unload 6)] }
         p.line = .answer (answerA .retire true) ∧ (answerA .retire true).kind ≠ .request .warmRestart ∧ p.answers = []
           ∧ p.pace = true ∧ p.notices ≠ [])
      ∧ (let p := port1 fun p => { p with pace := true, gate := .shut, notices := [(2, .unload 6)] }
         p.answers = [] ∧ p.gate = .shut ∧ p.notices ≠ []) := by decide +kernel

theorem test_witness_LinesSendAnswersThenNotices_offer :
    [0, 15, 16].all (fun n =>
        let p := port1 fun p => { p with notices := List.replicate n (1, .unload 5) }
        decide (NoticeKind.unload ∈ p.filter.kinds) && decide ((5 ^^^ p.filter.keyCode) &&& p.filter.keyMask = 0)
          && decide (p.gate = .opened) && decide (p.notices.length = n)) = true
      ∧ (Notice.unload 5).kind = .unload ∧ (Notice.unload 5).plateKey? = some 5
      ∧ (let p := port1 fun p => { p with filter := { p.filter with keyCode := 6, keyMask := 0xFFFF } }
         (5 ^^^ p.filter.keyCode) &&& p.filter.keyMask ≠ 0)
      ∧ (port1 fun p => { p with gate := .shut }).gate = .shut := by decide +kernel

theorem test_witness_LinesSendAnswersThenNotices :
    (let p := port1 fun p => { p with line := .notice 1 (.unload 5), answers := [answerA .retire true] }
     p.line = .notice 1 (.unload 5) ∧ p.answers = [answerA .retire true])
      ∧ (let p := port1 fun p => { p with line := .notice 1 (.unload 5), notices := [(2, .unload 6)] }
         p.line = .notice 1 (.unload 5) ∧ p.answers = [] ∧ p.pace = false ∧ p.gate = .opened
           ∧ p.notices = [(2, .unload 6)])
      ∧ (let p := port1 fun p => { p with line := .answer (answerA .retire true), notices := [(2, .unload 6)] }
         p.line = .answer (answerA .retire true) ∧ p.answers = [] ∧ p.pace = false ∧ p.gate = .opened
           ∧ p.notices = [(2, .unload 6)])
      ∧ (let p := port1 fun p => { p with line := .answer (answerA .retire true), answers := [answerA .hold false] }
         p.line = .answer (answerA .retire true) ∧ p.answers = [answerA .hold false])
      ∧ (let p := port1 fun p =>
           { p with line := .answer (answerA .warmRestart true), outstanding := some (9, .warmRestart) }
         p.line = .answer (answerA .warmRestart true) ∧ (answerA .warmRestart true).forOutstanding = true
           ∧ p.outstanding ≠ none ∧ (answerA .warmRestart true).kind = .request .warmRestart
           ∧ (answerA .warmRestart true).code = .done) := by decide +kernel

/-! ## Witnesses: plate register -/

/-- Plates with the keys 100 and on. -/
def many (n : Nat) : List PlateRecord :=
  (List.range n).map fun i => { plate .enrolled false (cellRecord .pending none 0) with key := BitVec.ofNat 16 (100 + i) }

theorem test_witness_EnrolAddsRecord :
    (withPlates (many 23)).takes (src 1) .enrol ∧ within 1 6 6 ∧ within 1 6 1
      ∧ (withPlates (many 23)).plate? 5 = none ∧ (withPlates (many 23)).plates.length < 24
      ∧ (withPlates (many 24)).takes (src 1) .enrol ∧ (withPlates (many 24)).plate? 5 = none
      ∧ 24 ≤ (withPlates (many 24)).plates.length ∧ (withPlates (many 1)).plate? 100 ≠ none := by decide +kernel

theorem test_witness_EnrolAddsRecord_notice :
    (withPlates (many 23)).quiet ∧ (withPlates (many 23)).registerLaw := by decide +kernel

/-- One plate in the register. -/
def one (state : PlateState) (seated : Bool) (cell : CellState) : State :=
  withPlates [plate state seated (cellRecord cell none 0)]

theorem test_witness_SeatedSeatsPlate :
    (let s := one .enrolled false .pending
     s.takes (src 0) .seated ∧ s.registerLaw ∧ (s.plate? 5).map (·.state) = some .enrolled
       ∧ s.plates.all (fun x => !x.seated) = true ∧ s.cal.op = none ∧ s.ltc.lamp = .off)
      ∧ (let s := one .withdrawn true .pending
         s.takes (src 0) .seated ∧ s.registerLaw ∧ (s.plate? 5).map (·.state) = some .withdrawn)
      ∧ (let s := one .active true .pending
         s.takes (src 0) .seated ∧ s.registerLaw ∧ (s.plate? 5).map (·.seated) = some true)
      ∧ (let s := withPlates (plate .enrolled false (cellRecord .pending none 0) ::
           (many 1).map fun r => { r with seated := true })
         s.takes (src 0) .seated ∧ s.registerLaw ∧ (s.plate? 5).map (·.seated) = some false
           ∧ s.plates.any (fun x => x.seated) = true) := by decide +kernel

theorem test_witness_SeatedSeatsPlate_notice :
    [one .captured false .merged, one .done false .kept].all (fun s =>
      decide (s.takes (src 0) .seated) && decide s.registerLaw && s.plates.all (fun x => !x.seated)
        && s.plates.all (fun x => !x.hasPending) && decide (s.cal.op = none) && decide (s.csq.state = .idle)
        && decide s.quiet) = true := by decide +kernel

theorem test_witness_UnseatedUnseatsPlate :
    (let s := trying .moving
     s.takes (src 0) .unseated ∧ s.registerLaw ∧ (s.plate? 5).map (fun r => (r.seated, r.state)) = some (true, .active)
       ∧ s.csq.ctx = some ctxA ∧ ctxA.cell.key = 5 ∧ s.cell? ctxA.cell ≠ none)
      ∧ (let s := one .captured true .merged
         s.takes (src 0) .unseated ∧ s.registerLaw
           ∧ (s.plate? 5).map (fun r => (r.seated, r.state)) = some (true, .captured) ∧ s.csq.ctx = none)
      ∧ (let s := one .withdrawn true .pending
         s.takes (src 0) .unseated ∧ s.registerLaw
           ∧ (s.plate? 5).map (fun r => (r.seated, r.state)) = some (true, .withdrawn)) := by decide +kernel

theorem test_witness_UnseatedUnseatsPlate_cancels :
    [trying .settling, receivingIn .exposing 1, receivingIn .readout 1, between (some 3) none 0].all (fun s =>
        decide (s.takes (src 0) .unseated) && decide s.registerLaw
          && decide ((s.plate? 5).map (fun r => (r.seated, r.state)) = some (true, .active))
          && decide (s.csq.ctx = some ctxA) && decide (s.cell? ctxA.cell ≠ none)) = true
      ∧ (trying .settling).csq.state = .settling ∧ (receivingIn .exposing 1).csq.state = .exposing
      ∧ (receivingIn .readout 1).csq.state = .readout ∧ (receivingIn .readout 1).plr.reception = .receiving
      ∧ (between (some 3) none 0).csq.state = .exposing ∧ (between (some 3) none 0).plr.reception ≠ .receiving
      ∧ (between (some 3) none 0).plr.awaitedTag = some 3 := by decide +kernel

/-- An unseated plate to capture under a VALID calibration, with slots held below one. -/
def claiming (k : Nat) : State :=
  let s := one .enrolled false .pending
  { s with
    cal := { s.cal with record := validRecord }
    fsc := { s.fsc with held := Vector.ofFn fun j : SlotNo => decide (j.val < k) } }

theorem test_witness_ClaimTakesLowestSlot :
    [(0 : SlotNo), 6].all (fun k =>
      let s := claiming k.val
      decide (s.takes (src 0) .seated) && decide s.registerLaw && decide ((s.plate? 5).map (·.state) = some .enrolled)
        && s.plates.all (fun y => !y.seated) && decide (s.cal.op = none) && decide (s.csq.state = .idle)
        && decide (s.cal.record.state = .valid) && decide (s.fsc.state = .ready) && decide (s.plr.link ≠ .dropped)
        && decide (s.ltc.lamp ≠ .failed)
        && decide ((s.plate? 5).map (·.holds) = some { console := false, move := false, lamp := false })
        && s.plates.all (fun y => y.cells.all fun c => c.state != .exposing)
        && decide ((s.plate? 5).map (fun r => (serpentine r.columns r.rows).find? fun p =>
            ((r.cell? p.1 p.2).map (·.state)) == some .pending) = some (some (0, 0)))
        && decide (s.fsc.held.get k = false) && decide (∀ j : SlotNo, j < k → s.fsc.held.get j = true)) = true := by
  decide +kernel

theorem test_witness_ClaimTakesLowestSlot_notices :
    (claiming 0).gridLaw ∧ (claiming 0).quiet ∧ (claiming 0).ltc.lamp = .off := by decide +kernel

/-- The review of a try whose last row is being merged: its context, its latest entry, how many entries stand before
it, and the tries its cell has used. -/
def reviewing (c : TryContext) (e : Exposure) (n tries : Nat) : State :=
  let s := trying .readout
  let w : WorkRecord := { workA with list := List.replicate n entryA ++ [e], starvedOnly := 4 }
  accessing
    { s with
      plates := [plate .active true (cellRecord .exposing (some 0) tries)]
      csq := { s.csq with ctx := some c, frameReported := true }
      mge := { s.mge with work := setAt s.mge.work 0 w } }
    (.merge 0 0 1 [100, 2])

/-- What every clause about a review asks of the state. -/
def reviews (s : State) (c : TryContext) (e : Exposure) : Bool :=
  decide (s.fsc.access = some { work := .merge 0 0 1 [100, 2], result := .used }) && decide (s.csq.state = .readout)
    && decide (s.csq.frameReported = true) && decide (s.csq.ctx = some c)
    && s.plr.queue.all (fun z => !z.isCapture) && decide (s.cal.op = none)
    && decide ((s.work 0).list.getLast? = some e) && decide s.registerLaw && decide (c.cell = cellA)
    && decide (c.slot = 0) && decide ((s.plate? 5).map (fun r => (r.holds.any, r.profile)) = some (false, 0))
    && (s.cell? cellA).isSome && decide (cellA ∉ s.dlt.queue) && decide (s.fsc.held.get 0 = true)
    && decide (s.plr.awaitedTag = none) && decide (s.plr.link ≠ .dropped)

/-- A try on the last rung of its ladder. -/
def lastA : TryContext := { ctxA with rung := .step 1 }

/-- An entry patched with a number of torn rows. -/
def patchedA (torn : Nat) : Exposure := { entryA with outcome := .patched, torn := some torn }

/-- An entry that is no exposure. -/
def unsteadyA : Exposure := { entryA with outcome := .unsteady }

theorem test_witness_ReviewDecides_accepted :
    [(ctxA, entryA, 14), (ctxA, patchedA 4, 0), ({ lastA with extThreshold := 100 }, entryA, 14), (lastA, entryA, 0),
     ({ lastA with rung := .ext, extTaken := true, extTime := 9 }, entryA, 0)].all (fun p =>
        reviews (reviewing p.1 p.2.1 p.2.2 2) p.1 p.2.1) = true
      ∧ (reviewing ctxA entryA 14 2).csq.ctx = some ctxA ∧ ctxA.rung = .step 0 ∧ (nextRung ctxA.ladder 0).isSome = true
      ∧ lastA.rung = .step 1 ∧ nextRung lastA.ladder 1 = none ∧ lastA.extTaken = false
      ∧ lastA.nominal < min (4 * lastA.nominal) lastA.extCap
      ∧ (let s := reviewing { lastA with extThreshold := 100 } entryA 14 2
         let count (x : PixelClass) (n : Nat) : Nat := recount x (s.accumRow 0 1) (s.mergedRow 0 0 1 [100, 2]) n
         100 * (s.geometry.width * s.geometry.height - count .dead (s.work 0).dead)
           < count .starvedOnly (s.work 0).starvedOnly * 1000)
      ∧ (reviewing lastA entryA 0 2).mge.queue = [] := by decide +kernel

theorem test_witness_ReviewDecides_repeated :
    [(ctxA, unsteadyA, 14), ({ ctxA with repeats := [1, 0] }, unsteadyA, 0), ({ ctxA with repeats := [2, 0] }, unsteadyA, 0),
     (ctxA, patchedA 5, 15), (ctxA, entryA, 15), ({ ctxA with singleTry := true }, unsteadyA, 0)].all (fun p =>
        reviews (reviewing p.1 p.2.1 p.2.2 1) p.1 p.2.1 && reviews (reviewing p.1 p.2.1 p.2.2 2) p.1 p.2.1) = true
      ∧ ctxA.repeatCount = 0 ∧ { ctxA with repeats := [1, 0] }.repeatCount = 1
      ∧ { ctxA with repeats := [2, 0] }.repeatCount = 2 ∧ 16 ≤ ((reviewing ctxA entryA 15 2).work 0).list.length
      ∧ ((reviewing ctxA unsteadyA 14 2).work 0).list.length < 16
      ∧ (∀ z ∈ (reviewing ctxA unsteadyA 15 2).cells, z.2.state ≠ .pending)
      ∧ (ready.profiles.get 0).singleTry = false := by decide +kernel

theorem test_witness_WithdrawUndoesPlate :
    (let s := one .enrolled false .pending
     s.takes (src 1) .withdraw ∧ s.registerLaw ∧ (s.plate? 5).map (fun r => (r.seated, r.state)) = some (false, .enrolled))
      ∧ (let s := withPlates [plate .captured true (cellRecord .merged (some 3) 1)]
         s.takes (src 1) .withdraw ∧ s.registerLaw
           ∧ (s.plate? 5).map (fun r => (r.seated, r.state)) = some (true, .captured) ∧ s.csq.ctx = none
           ∧ s.csq.state ≠ .awaitSlot ∧ s.cell? cellA = some (cellRecord .merged (some 3) 1))
      ∧ (let s := trying .moving
         s.takes (src 1) .withdraw ∧ s.registerLaw ∧ s.gridLaw
           ∧ (s.plate? 5).map (fun r => (r.seated, r.state)) = some (true, .active) ∧ s.csq.ctx = some ctxA
           ∧ ctxA.cell.key = 5 ∧ (s.cell? ctxA.cell).map (·.state) = some .exposing ∧ s.csq.state ≠ .awaitSlot
           ∧ (s.cell? ctxA.cell).bind (·.slot) = some ctxA.slot) := by decide +kernel

theorem test_witness_RetireAndMark :
    (let s := one .done false .kept
     s.takes (src 1) .retire ∧ (s.plate? 5).map (·.state) = some .done)
      ∧ (let s := one .enrolled false .pending
         s.takes (src 1) .retire ∧ s.takes (src 2) .mark
           ∧ (s.plate? 5).map (fun r => (r.seated, r.state)) = some (false, .enrolled))
      ∧ (let s := one .active true .pending
         s.takes (src 2) .mark ∧ (s.plate? 5).map (·.seated) = some true) := by decide +kernel

theorem test_witness_RetireAndMark_notices :
    (one .done false .kept).quiet ∧ (one .done false .kept).registerLaw ∧ (one .enrolled false .pending).quiet
      ∧ (one .enrolled false .pending).registerLaw := by decide +kernel

theorem test_witness_HoldsAreAddedAndRemoved_hold :
    (let s := trying .awaitLamp
     s.takes (src 2) .hold ∧ s.registerLaw ∧ (s.plate? 5).map (fun r => (r.seated, r.state)) = some (true, .active)
       ∧ s.csq.state = .awaitLamp)
      ∧ (let s : State := { one .active true .pending with csq := { ready.csq with state := .awaitSlot } }
         s.takes (src 2) .hold ∧ s.registerLaw ∧ (s.plate? 5).map (fun r => (r.seated, r.state)) = some (true, .active)
           ∧ s.csq.state = .awaitSlot)
      ∧ (let s := one .withdrawn true .pending
         s.takes (src 1) .hold ∧ s.registerLaw ∧ (s.plate? 5).map (·.state) = some .withdrawn) := by decide +kernel

/-- A paused try under every hold reason, with a failed lamp. -/
def held (rp : ResumePoint) : State :=
  let s := trying (.paused rp)
  { s with
    plates := s.plates.map fun r => { r with holds := { console := true, move := true, lamp := true } }
    ltc := { s.ltc with lamp := .failed } }

theorem test_witness_HoldsAreAddedAndRemoved_free :
    [held .move, held .trigger].all (fun s =>
        decide (s.takes (src 2) .free) && decide s.registerLaw && decide (s.csq.ctx = some ctxA)
          && decide ((s.plate? 5).map (fun r => (r.seated, r.state, r.holds.lamp)) = some (true, .active, true))
          && decide (s.ltc.lamp = .failed)) = true
      ∧ (held .move).csq.state = .paused .move ∧ (held .trigger).csq.state = .paused .trigger
      ∧ ctxA.cell.key = 5 := by decide +kernel

theorem test_witness_HoldsAreAddedAndRemoved_notices :
    (trying .awaitLamp).quiet ∧ ((trying .awaitLamp).plate? 5).map (·.holds.console) = some false
      ∧ (held .move).quiet ∧ ((held .move).plate? 5).map (·.holds.console) = some true
      ∧ (held .move).takes (src 2) .hold := by decide +kernel

/-! ## Witnesses: profiles and settings -/

theorem test_witness_WriteProfileReplaces :
    (let s := one .enrolled false .pending
     s.takes (src 1) .writeProfile ∧ 2 ≤ [20, 9000000].length ∧ [20, 9000000].length ≤ 8
       ∧ strictlyIncreasing ([20, 9000000].map fun t => max 50 (min 8000000 t)) = true
       ∧ (∀ r ∈ s.plates, r.seated = true → r.profile ≠ 0)
       ∧ ∀ r ∈ s.plates, r.profile = 0 → ∀ z ∈ r.cells, z.triesUsed = 0)
      ∧ strictlyIncreasing ([30, 40].map fun t => max 50 (min 8000000 t)) = false
      ∧ (let s := one .active true .pending
         s.takes (src 1) .writeProfile ∧ ∃ r ∈ s.plates, r.seated = true ∧ r.profile = 0)
      ∧ (let s := withPlates [plate .enrolled false (cellRecord .pending none 1)]
         s.takes (src 1) .writeProfile ∧ (∀ r ∈ s.plates, r.seated = true → r.profile ≠ 0)
           ∧ ∃ r ∈ s.plates, r.profile = 0 ∧ ∃ z ∈ r.cells, z.triesUsed ≠ 0)
      ∧ 4 ≤ 4 ∧ [50].length < 2 ∧ 8 < (List.replicate 9 50).length := by decide +kernel

theorem test_witness_SetFieldSetsGeometry :
    (let s := one .enrolled false .pending
     s.takes (src 1) .setField ∧ (∀ r ∈ s.plates, r.seated = false) ∧ (∀ k : SlotNo, s.fsc.held.get k = false)
       ∧ s.cal.op = none ∧ ({ width := 256, height := 256 } : Geometry) ≠ s.geometry)
      ∧ (let s : State := { ready with geometry := { width := 256, height := 256 } }
         s.takes (src 1) .setField ∧ s.plates = [] ∧ ({ width := 256, height := 256 } : Geometry) = s.geometry)
      ∧ (let s := one .active true .pending
         s.takes (src 1) .setField ∧ ¬ ∀ r ∈ s.plates, r.seated = false) := by decide +kernel

/-- R125: where a flat has left a warm-up reference unused under m_ref, a SET_FIELD that removes m_ref from a lit lamp lets
it go. -/
theorem test_setField_lets_the_reference_go :
    (let s : State := { onPort1 (fun p => p) with
       cal := { ready.cal with record := validRecord }
       ltc := { ready.ltc with lamp := .steady, warmRef := some 48000 } }
     s.takes (src 1) .setField ∧ s.cal.record.mRef ≠ none
       ∧ nextOf (exec (.setField (src 1) (some 256) (some 256)) s) (fun t => (t.ltc.warmRef, t.cal.record.mRef))
           = some (none, none)) := by decide +kernel

theorem test_witness_SetCaptureStoresSettings :
    (let s : State := { ready with ltc := { ready.ltc with lamp := .drifting },
                                   cal := { ready.cal with record := { CalRecord.cold with state := .valid } } }
     s.takes (src 1) .setCapture ∧ [(Setting.lampLevel, 1024)] ≠ [] ∧ ([(Setting.lampLevel, 1024)].map (·.1)).Nodup
       ∧ max 0 (min 1023 1024) ≠ s.settings.lampLevel ∧ s.plates = [] ∧ s.cal.op = none
       ∧ s.cal.record.state = .valid ∧ s.ltc.lamp = .drifting)
      ∧ (let s := one .active true .pending
         s.takes (src 1) .setCapture ∧ (∃ r ∈ s.plates, r.seated = true)
           ∧ max 0 (min 1023 1024) ≠ s.settings.lampLevel) := by decide +kernel

/-- A VALID calibration 300 minutes old, and a CLEAN link with 20 faults counted. -/
def aged : State :=
  { ready with cal := { ready.cal with record := { validRecord with age := 300 } }
               plr := { ready.plr with faultCount := 20 } }

theorem test_witness_SetCaptureStoresSettings_of_R35 :
    (let l := [(Setting.calibrationLife, 10), (.linkWarningLimit, 20)]
     aged.takes (src 1) .setCapture ∧ (l.map (·.1)).Nodup ∧ max 30 (min 1440 10) ≤ aged.cal.record.age
       ∧ aged.cal.record.state = .valid ∧ max 8 (min 191 20) ≤ aged.plr.faultCount ∧ aged.plr.link = .clean
       ∧ aged.quiet)
      ∧ (let s : State := { aged with plr := { aged.plr with link := .warned } }
         s.takes (src 1) .setCapture ∧ s.plr.link = .warned ∧ ¬ max 8 (min 191 21) ≤ s.plr.faultCount) := by
  decide +kernel

theorem test_witness_SetCaptureStoresSettings_refused :
    ready.takes (src 1) .setCapture ∧ (none : Option Setting) ∈ [(none : Option Setting)]
      ∧ ¬ [Setting.idleTime, .idleTime].Nodup := by decide +kernel

/-- R35: a life at or below the age turns a VALID calibration STALE, and a limit at the count warns the link. -/
theorem test_setCapture_life_and_limit :
    (match exec (.setCapture (src 1) [(some .calibrationLife, 10), (some .linkWarningLimit, 20)]) aged with
     | .next t => (t.cal.record.state, t.cal.record.life, t.plr.link, t.settings.linkWarningLimit)
     | _ => (.lost, 0, .dropped, 0)) = (.stale, 30, .warned, 20) := by decide +kernel

/-! ## Witnesses: transport, calibration, reads -/

/-- R170: the reads are taken from every role but OFF, which has READ_STATUS alone. -/
theorem test_reads_belong_to_every_role_but_off :
    (∀ role ∈ [Role.transport, .archive, .console], permits role .readPlate ∧ permits role .readCell
        ∧ permits role .readProfile ∧ permits role .readCalib)
      ∧ permits .off .readCalib = false ∧ permits .off .readStatus = true := by decide

theorem test_witness_MovesEnd :
    (let s := trying .moving
     s.takes (src 0) .atCell ∧ s.takes (src 0) .moveFault
       ∧ s.csq.move = some { number := 1, cell := cellA, status := .moving }
       ∧ (s.plate? cellA.key).isSome = true ∧ 0 < s.settings.settleDwell ∧ (0 : Nat) ≠ (1 : Byte).toNat
       ∧ 1 ≠ cellA.column ∧ (6 : PlateKey) ≠ cellA.key)
      ∧ (ready.takes (src 0) .atCell ∧ ready.csq.move = none)
      ∧ [MoveStatus.arrived, .expired, .faulted, .abandoned].all (fun m =>
          let s : State := { ready with csq := { ready.csq with
            move := some { number := 1, cell := cellA, status := m } } }
          decide (s.takes (src 0) .atCell) && decide (s.csq.move.map (·.status) = some m)) = true
      ∧ (let s : State := { trying .moving with
           tbu := { ready.tbu with timers := { Timers.stopped with move := some 1 } } }
         s.tbu.timers.move = some 1) := by decide +kernel

/-- A move under way with a settle dwell of 0 ms, and a lamp. -/
def arriving (lamp : LampState) (hold : Bool) : State :=
  let s := trying .moving
  { s with settings := { s.settings with settleDwell := 0 }
           plates := s.plates.map fun r => { r with holds := { r.holds with console := hold } }
           ltc := { s.ltc with lamp := lamp } }

theorem test_witness_MovesEnd_without_dwell :
    [arriving .steady true, arriving .off false, arriving .drifting false, arriving .steady false].all (fun s =>
        decide (s.takes (src 0) .atCell) && decide (s.csq.move = some { number := 1, cell := cellA, status := .moving })
          && decide (s.csq.ctx = some ctxA) && decide (ctxA.cell = cellA) && (s.plate? cellA.key).isSome
          && decide (s.settings.settleDwell = 0)) = true
      ∧ ((arriving .steady true).plate? 5).map (·.holds.any) = some true
      ∧ ((arriving .steady false).plate? 5).map (·.holds.any) = some false ∧ ctxA.clearComplete = true
      ∧ (arriving .steady false).canTrigger = true ∧ ((arriving .steady false).work 0).list.length < 16 := by
  decide +kernel

theorem test_witness_CalibrationsStart_dark :
    (ready.takes (src 1) .calibrate ∧ ready.fsc.state = .ready ∧ ready.cal.op = none
        ∧ (∀ r ∈ ready.plates, r.seated = false) ∧ ready.plates = [] ∧ ready.plr.link ≠ .dropped
        ∧ ready.plr.awaitedTag = none)
      ∧ (let s : State := { ready with fsc := { ready.fsc with state := .training } }
         s.takes (src 1) .calibrate ∧ s.fsc.state ≠ .ready)
      ∧ ((calibrating .dark .frames).takes (src 1) .calibrate ∧ (calibrating .dark .frames).cal.op ≠ none) := by
  decide +kernel

theorem test_witness_CalibrationsStart_flat :
    (let s : State := { ready with cal := { ready.cal with record := { CalRecord.cold with state := .darkOnly } } }
     s.takes (src 1) .calibrate ∧ s.fsc.state = .ready ∧ s.cal.op = none ∧ s.plates = [] ∧ s.plr.link ≠ .dropped
       ∧ s.cal.record.state ≠ .none ∧ s.cal.record.state ≠ .lost)
      ∧ (ready.takes (src 1) .calibrate ∧ ready.cal.record.state = .none) := by decide +kernel

theorem test_witness_ReadsChangeNothing :
    (let s := withPlates (many 24)
     s.takes (src 2) .readPlate ∧ s.takes (src 2) .readCell ∧ (s.plate? 100).isSome = true ∧ s.plate? 5 = none
       ∧ (s.plates[23]?).isSome = true ∧ ((s.plate? 100).bind fun r => r.cell? 0 0).isSome = true
       ∧ ((s.plate? 100).bind fun r => r.cell? 1 0) = none)
      ∧ (ready.takes (src 0) .readPlate ∧ ready.plates.length ≤ 0)
      ∧ (ready.takes (src 0) .readProfile ∧ ready.takes (src 0) .readCalib ∧ ready.cal.op = none) := by decide +kernel

theorem test_witness_ReadsChangeNothing_while_calibrating :
    [calibrating .dark .frames, calibrating .flat .gainPass].all (fun s =>
      decide (s.takes (src 0) .readCalib) && s.cal.op.isSome && decide s.quiet && decide s.registerLaw) = true := by
  decide +kernel

theorem test_witness_ReadsAndPortRequests_reads :
    ready.takes (src 0) .readFault ∧ ready.takes (src 0) .readStatus ∧ ready.raised = [] := by decide +kernel

theorem test_witness_ReadsAndPortRequests_ports :
    ready.takes (src 1) .setClock ∧ ready.takes (src 2) .setFilter ∧ ready.takes (src 0) .resume
      ∧ ready.takes (src 1) .warmRestart := by decide +kernel

/-- A running pass, a clear, a stream held by READY, and timers. -/
def busyPart : State :=
  let s := streaming .header 0 .empty none
  { s with
    csq := (trying .moving).csq
    mge := { work := setAt (setAt s.mge.work 0 { workA with state := .clearing }) 2 { workA with state := .running }
             queue := [2] }
    tbu := { s.tbu with timers := { Timers.stopped with move := some 5, idle := some 7 } }
    ltc := { s.ltc with lamp := .steady, warmRef := some 9 }
    dlt := { s.dlt with ready := false } }

theorem test_witness_ReadsAndPortRequests_status :
    busyPart.takes (src 0) .readStatus ∧ busyPart.onlyRecord (fun w => w = .running) 2
      ∧ busyPart.onlyRecord (fun w => w = .clearing ∨ w = .accumulating) 0
      ∧ (∀ k : SlotNo, (ready.work k).state ≠ .running)
      ∧ (∀ k : SlotNo, ¬ ((ready.work k).state = .clearing ∨ (ready.work k).state = .accumulating))
      ∧ busyPart.csq.ctx = some ctxA ∧ ready.csq.ctx = none ∧ busyPart.dlt.link = none
      ∧ (busyPart.dlt.stream.bind (·.nextUnit?)).isSome = true
      ∧ (Arg.missing : Arg StatusSection) = .missing := by decide +kernel

/-- R119 and R131: the answers of the sections LINK and LAMP. -/
theorem test_read_status_reports :
    (busyPart.statusReport .link = .link
        { link := .clean, faultCount := 0, tagCounter := 0, awaitedTag := none, reception := .between, queued := 0,
          held := 0, idleRun := none })
      ∧ (match busyPart.statusReport .lamp with
         | .lamp x => (x.lamp, x.reference, x.warmUpLeft, x.idleLeft.isSome)
         | _ => (.off, none, none, false)) = (.steady, some (.warmUp 9), none, true) := by decide +kernel

/-- A MERGED cell in slot 3 and one in slot 4, both in the delivery queue. -/
def keeping : State :=
  { withPlates [plate .captured false (cellRecord .merged (some 3) 1),
                { plate .captured false (cellRecord .merged (some 4) 1) with key := 6 }] with
    cal := { ready.cal with record := { CalRecord.cold with state := .stale } }
    mge := { work := setAt ready.mge.work 4 { workA with state := .coded }, queue := [] }
    dlt := { ready.dlt with queue := [cellA, { cellA with key := 6 }] } }

theorem test_witness_StandbyRetains :
    keeping.takes (src 1) .standby ∧ keeping.fsc.state = .ready ∧ keeping.csq.state.admitsStandby = true
      ∧ keeping.cal.op = none
      ∧ (∀ r ∈ keeping.plates, ∀ c ∈ r.cells, c.state ≠ .exposing ∧ c.state ≠ .finalizing ∧ c.state ≠ .delivering)
      ∧ keeping.cell? cellA = some (cellRecord .merged (some 3) 1)
      ∧ (∀ r ∈ [(2 : RegionNo), 4], r.val ≠ (3 : SlotNo).val)
      ∧ (7 : RegionNo) ∉ [(2 : RegionNo), 4] ∧ (7 : RegionNo) ∈ [(7 : RegionNo)] ∧ keeping.cal.record.state = .stale
      ∧ regionOf (2 * 134217728) = (2 : RegionNo).val ∧ keeping.registerLaw ∧ keeping.gridLaw
      ∧ keeping.cell? { cellA with key := 6 } = some (cellRecord .merged (some 4) 1)
      ∧ (∃ r ∈ [(2 : RegionNo), 4], r.val = (4 : SlotNo).val) ∧ { cellA with key := 6 } ∈ keeping.dlt.queue
      ∧ (keeping.work 4).state = .coded ∧ (keeping.plate? 5).isSome = true ∧ (keeping.plate? 6).isSome = true := by
  decide +kernel

/-- The states that refuse a STANDBY, by the row of R144. -/
theorem test_witness_StandbyRetains_refused :
    ready.takes (src 1) .standby
      ∧ (∃ r ∈ [3, 8], 8 ≤ r) ∧ (∀ r ∈ [0, 7], r < 8)
      ∧ (let s : State := { ready with fsc := { ready.fsc with state := .waking } }
         s.takes (src 1) .standby ∧ s.fsc.state ≠ .ready)
      ∧ ((trying .moving).takes (src 1) .standby ∧ (trying .moving).fsc.state = .ready
          ∧ (trying .moving).csq.state ≠ .idle ∧ (trying .moving).csq.state ≠ .awaitSlot
          ∧ (trying .moving).csq.state ≠ .paused .claim)
      ∧ [CellState.finalizing, .delivering].all (fun x =>
          let s := one .captured false x
          decide (s.takes (src 1) .standby) && decide (s.csq.state = .idle)
            && s.plates.any fun r => r.cells.any fun c => c.state == x) = true
      ∧ ((calibrating .dark .frames).takes (src 1) .standby ∧ (calibrating .dark .frames).cal.op ≠ none) := by
  decide +kernel

/-! ## Witnesses: delivery and release -/

/-- A MERGED cell in the delivery queue. -/
def queued (mode : DeliveryMode) : State :=
  let s := withPlates [plate .captured false (cellRecord .merged (some 3) 1)]
  { s with dlt := { s.dlt with mode := mode, queue := [cellA] } }

theorem test_witness_StreamsStart :
    [queued .fetch, queued .auto].all (fun s =>
        decide (s.fsc.state = .ready) && decide (s.dlt.stream = none) && (s.plate? cellA.key).isSome
          && decide (s.cell? cellA = some (cellRecord .merged (some 3) 1)) && decide (s.takes (src 1) .fetch)
          && decide (s.takes (src 1) .setDelivery) && decide (s.dlt.queue = [cellA])) = true
      ∧ (queued .fetch).dlt.mode = .fetch ∧ (queued .auto).dlt.mode = .auto := by decide +kernel

/-- A MERGED cell of an emulsion DOWN plate in the delivery queue, with its CODED work record. -/
def coded : State :=
  let s := queued .auto
  let m : Summary :=
    { clipLight := 1, clipDark := 2, dead := 3, tornRows := 4, exposuresMerged := 5, extensionUsed := true }
  let w : WorkRecord := { workA with state := .coded, summary := some m, firstTrigger := some 7, finalizeTime := some 8,
                                     qceil := some 40960 }
  { s with
    plates := s.plates.map fun r => { r with emulsion := .down, columns := 4 }
    mge := { s.mge with work := setAt s.mge.work 3 w } }

/-- R153, R158: the header's delivered column, try number and counts are those of the cell's records. -/
theorem test_stream_header :
    (coded.work 3).summary.isSome = true ∧ (coded.work 3).firstTrigger = some 7
      ∧ (coded.work 3).finalizeTime = some 8 ∧ (coded.work 3).qceil = some 40960 ∧ coded.dlt.link = none
      ∧ nextOf (exec (.setDelivery (src 1) (.given .auto)) coded) (fun t => t.dlt.stream.map fun z =>
            (z.header.column, z.header.tryNumber, z.header.tornRows, z.header.finalizeTime))
          = some (some (3, 1, 4, 8)) := by decide +kernel

/-- The states that refuse a FETCH, by the row of R155. -/
theorem test_witness_StreamsStart_refused :
    (let s : State := { ready with fsc := { ready.fsc with state := .waking } }
     s.takes (src 1) .fetch ∧ s.fsc.state ≠ .ready)
      ∧ (ready.takes (src 1) .fetch ∧ ready.plate? 5 = none ∧ ready.takes (src 1) .setDelivery)
      ∧ ((queued .fetch).takes (src 1) .fetch ∧ ((queued .fetch).plate? 5).map (·.cell? 1 0) = some none)
      ∧ (let s := streaming .start 0 .empty none
         let t : State := { s with dlt := { s.dlt with mode := .fetch } }
         t.takes (src 1) .fetch ∧ t.fsc.state = .ready ∧ t.dlt.stream ≠ none ∧ (t.cell? cellA).isSome = true)
      ∧ (let s := one .captured false .delivered
         let t : State := { s with dlt := { s.dlt with mode := .fetch } }
         t.takes (src 1) .fetch ∧ t.fsc.state = .ready ∧ t.dlt.stream = none
           ∧ (t.cell? cellA).map (·.state) = some .delivered) := by decide +kernel

/-- The unseated plate 5 has a cell to release, while a try of another plate is in flight. -/
def releasing (state : CellState) (tries : Nat) : State :=
  { trying .moving with
    plates := plate .captured false (cellRecord state (some 3) tries) ::
      (trying .moving).plates.map fun r => { r with key := 6 } }

theorem test_witness_ReleaseSettlesCell :
    [releasing .delivered 2, releasing .delivered 3, releasing .merged 1, releasing .finalizing 0].all (fun s =>
        decide (s.takes (src 1) .release) && decide s.registerLaw && decide s.midTry
          && decide ((s.cell? cellA).bind (·.slot) = some 3) && decide (cellA ∉ s.dlt.queue)
          && decide ((s.plate? 5).map (fun r => (s.profiles.get r.profile).singleTry) = some false)) = true
      ∧ ((releasing .delivered 2).cell? cellA).map (·.state) = some .delivered
      ∧ ((releasing .delivered 3).cell? cellA).map (·.triesUsed) = some 3
      ∧ ((releasing .finalizing 0).cell? cellA).map (·.state) = some .finalizing := by decide +kernel

/-- Plate 5 with its cell to release in slot 3, all slots HELD but those of a list, and an ACTIVE plate 6 seated with a
PENDING cell, under a VALID calibration; no try is in flight. -/
def releasingIn (x : CsqState) (state : CellState) (tries : Nat) (freeSlots : List SlotNo) : State :=
  { releasing state tries with
    plates := [plate .captured false (cellRecord state (some 3) tries),
               { plate .active true (cellRecord .pending none 0) with key := 6 }]
    csq := { State.reset.csq with state := x }
    fsc := { ready.fsc with held := Vector.ofFn fun k => !freeSlots.contains k } }

/-- The sequencer in PAUSED, in IDLE and in AWAIT_SLOT with nothing to claim for, and with a plate to claim for. -/
theorem test_witness_ReleaseSettlesCell_waiting :
    [CsqState.paused .claim, .idle, .awaitSlot].all (fun x =>
        [(CellState.delivered, 3), (.merged, 2)].all fun p =>
          let s := releasingIn x p.1 p.2 []
          let stale : State := { s with cal := { s.cal with record := { s.cal.record with state := .stale } } }
          decide (s.takes (src 1) .release) && decide s.registerLaw && decide s.gridLaw && decide (s.csq.state = x)
            && decide ((s.cell? cellA).map (fun y => (y.state, y.slot)) = some (p.1, some 3))
            && decide (cellA ∉ s.dlt.queue) && decide (s.cal.record.state = .valid) && decide (s.fsc.state = .ready)
            && decide (s.plr.link ≠ .dropped) && s.plates.any (fun r => r.key == 6 && r.seated && !r.holds.any
                && r.state == .active && r.hasPending)
            && decide (stale.takes (src 1) .release) && decide (stale.cal.record.state ≠ .valid)) = true := by
  decide +kernel

/-- R162: a sequencer in AWAIT_SLOT claims the slot that a KEEP frees; R139: or a lower one that is FREE. -/
theorem test_keep_lets_awaitSlot_claim :
    [([], 3), ([5], 3), ([1, 5], 1)].all (fun p =>
      nextOf (exec (.releaseKeep (src 1) (some 5) (some 0) (some 0) true) (releasingIn .awaitSlot .delivered 2 p.1))
          (fun t => (t.csq.state, t.csq.ctx.map fun c => (c.cell.key, c.slot.val)))
        == some (.moving, some (6, p.2))) = true := by decide +kernel

theorem test_witness_ReleaseSettlesCell_without_slot :
    [CellState.pending, .kept, .failed].all (fun x =>
      let s := one .enrolled false x
      decide (s.takes (src 1) .release) && decide s.registerLaw
        && decide (s.cell? cellA = some (cellRecord x none 0))) = true := by decide +kernel

/-- The unseated plate 5 with its cell at column 0 to release and another cell, in a plate state. -/
def verdict (p : PlateState) (state : CellState) (tries : Nat) (other : CellState) : State :=
  let s := releasing state tries
  { s with plates := s.plates.map fun r => if r.key = 5 then
      { r with state := p, columns := 2, cells := r.cells ++
          [{ cellRecord other (if other.holdsSlot then some 4 else none) 1 with column := 1 }] } else r }

theorem test_witness_VerdictCompletesPlate :
    [verdict .captured .delivered 2 .failed, verdict .captured .merged 3 .kept, verdict .active .merged 3 .failed,
     verdict .enrolled .delivered 3 .delivered, verdict .captured .merged 2 .delivered].all (fun s =>
        decide (s.takes (src 1) .release) && decide s.registerLaw && decide s.gridLaw && decide s.midTry
          && decide ((s.cell? cellA).bind (·.slot) = some 3)
          && decide ((s.plate? 5).map (fun r => (s.profiles.get r.profile).singleTry) = some false)) = true
      ∧ ((verdict .enrolled .delivered 3 .delivered).plate? 5).map (fun r => r.cells.map (·.state))
          = some [.delivered, .delivered]
      ∧ ((verdict .captured .merged 3 .kept).plate? 5).map (fun r => (r.cells.map (·.state), r.cells.map (·.triesUsed)))
          = some ([.merged, .kept], [3, 1]) := by decide +kernel

/-! ## Witnesses: rules of the whole machine -/

theorem test_witness_RequestsAreAnswered :
    requestOf? (.readCalib (src 0)) = some (src 0, .readCalib) ∧ ready.takes (src 0) .readCalib
      ∧ (let s := onPort1 fun p => { p with outstanding := some (3, .retire), answers := [answerA .retire true] }
         requestOf? (.readCalib (src 1)) = some (src 1, .readCalib) ∧ s.fsc.state ≠ .cold ∧ s.fsc.state ≠ .retaining
           ∧ (s.ports.get 1).answers.length < 3 ∧ s.quiet ∧ (s.ports.get 1).outstanding ≠ none)
      ∧ (requestOf? (.retire (src 0) (some 5)) = some (src 0, .retire) ∧ (ready.ports.get 0).outstanding = none
          ∧ permits (ready.ports.get 0).role .retire = false ∧ ready.quiet)
      ∧ [2, 3].all (fun n =>
          let s : State := { onPort1 fun p => { p with answers := List.replicate n (answerA .retire false) } with
            fsc := { ready.fsc with state := .retaining } }
          decide (requestOf? (.retire (src 1) (some 5)) = some (src 1, .retire))
            && decide (requestOf? (.readStatus (src 1) .missing) = some (src 1, .readStatus))
            && decide (s.fsc.state = .retaining) && decide ((s.ports.get 1).outstanding = none)
            && decide ((s.ports.get 1).answers.length = n)) = true
      ∧ RequestKind.retire ≠ .readStatus := by decide +kernel

theorem test_witness_OnlyTheseCommandsChange_clock :
    ∃ t, exec .secondTick ready = .next t ∧ t.tbu.clock ≠ ready.tbu.clock := ⟨_, rfl, by decide +kernel⟩

theorem test_witness_OnlyTheseCommandsChange_geometry :
    ∃ t, exec (.setField (src 1) (some 256) (some 256)) ready = .next t ∧ t.geometry ≠ ready.geometry :=
  ⟨_, rfl, by decide +kernel⟩

theorem test_witness_OnlyTheseCommandsChange_settings :
    ∃ t, exec (.setCapture (src 1) [(some .idleTime, 16)]) ready = .next t ∧ t.settings ≠ ready.settings :=
  ⟨_, rfl, by decide +kernel⟩

theorem test_witness_OnlyTheseCommandsChange_profiles :
    ∃ t, exec (.writeProfile (src 1) (some 0) (some [50, 60]) (some 256) (some 1) (some 0) (.given false) (some 8192))
        ready = .next t ∧ t.profiles ≠ ready.profiles := ⟨_, rfl, by decide +kernel⟩

theorem test_witness_OnlyTheseCommandsChange_bytes :
    let s := accessing (trying .exposing) (.merge 0 0 1 [100, 2])
    ∃ t, exec .rowMergeComplete s = .next t ∧ t.fsc.mem ≠ s.fsc.mem :=
  ⟨_, rfl, by decide +kernel⟩

theorem test_witness_OnlyTheseCommandsChange_minute :
    let s : State := { trying .moving with tbu := { ready.tbu with lampSeconds := 59 } }
    ∃ t, exec .lampOnMinute s = .next t ∧ t.tbu.clock ≠ s.tbu.clock := ⟨_, rfl, by decide +kernel⟩

/-- Every law holds at reset, and a step goes on from there. -/
theorem test_witness_StepKeepsRegister_Ranges_Store_Queues :
    let s : State := { State.reset with pending := [.coldResetEnd] }
    (s.registerLaw ∧ s.gridLaw ∧ s.exposingLaw ∧ s.tablesLaw ∧ s.linkLaw ∧ s.storeLaw ∧ s.noticeLaw ∧ s.queueLaw
      ∧ s.answerLaw ∧ s.quiet) ∧ ∃ t, step s = .next t :=
  ⟨by and_intros <;> decide +kernel, _, rfl⟩

/-- The laws that speak of plates and of a try hold in the middle of one, and a step goes on from there. -/
theorem test_witness_StepKeepsRegister_Queues_in_a_try :
    let s : State := { trying .exposing with pending := [.secondTick] }
    (s.registerLaw ∧ s.gridLaw ∧ s.exposingLaw ∧ s.linkLaw ∧ s.storeLaw ∧ s.noticeLaw ∧ s.queueLaw ∧ s.quiet)
      ∧ ∃ t, step s = .next t :=
  ⟨by and_intros <;> decide +kernel, _, rfl⟩

/-- A row of the try in flight is being merged. -/
def merging : State := { accessing (trying .readout) (.merge 0 0 1 [100, 2]) with pending := [.rowMergeComplete] }

/-- The laws on the work of cells hold in the middle of a try, and a step goes on from there. -/
theorem test_witness_StepKeepsCellWork :
    (merging.registerLaw ∧ merging.gridLaw ∧ merging.cellLaw) ∧ ∃ t, step merging = .next t :=
  ⟨by and_intros <;> decide +kernel, _, rfl⟩

/-- The laws hold while a stream's row is read for the link beneath its HEADER. -/
theorem test_witness_StepKeepsCellWork_streaming :
    (let s := accessing (streaming .header 0 .reading (some (.header headerA))) (.deliver 0 0)
     let t : State := { s with
       pending := [.headerSent]
       mge := { work := setAt s.mge.work 0 { workA with state := .coded }, queue := [] }
       fsc := { s.fsc with held := setAt s.fsc.held 0 true, holders := setAt s.fsc.holders 0 (some cellA) } }
     t.registerLaw ∧ t.gridLaw ∧ t.cellLaw) := by and_intros <;> decide +kernel

theorem test_witness_StepKeepsTries :
    merging.triesLaw ∧ ∀ q mask, merging.pending.head? ≠ some (.standby q mask) :=
  ⟨by decide +kernel, fun _ _ h => by cases h⟩

theorem test_witness_StepKeepsClassCounts : merging.fieldFits ∧ merging.counterLaw ∧ merging.rowLaw := by
  have h : merging.fsc.access = some { work := .merge 0 0 1 [100, 2], result := .used } := rfl
  refine ⟨by decide +kernel, by decide +kernel, ?_, ?_, ?_, ?_⟩
  · intro k y e; rw [h] at e; cases e
  · intro k o y codes e; rw [h] at e; cases e; decide
  · intro k y e; rw [h] at e; cases e
  · intro w r e; rw [h] at e; cases e

/-- The row of the try's frame that is being merged has been handed. -/
def handing : State :=
  { merging with plr := { merging.plr with requester := some (.capture 0 0), decision := .release, rowsReleased := 1 } }

/-- R73's law and the laws it rests on hold while a row is merged, and a step goes on from there with the record still
ACCUMULATING. -/
theorem test_witness_StepKeepsClassCounts_best :
    (handing.registerLaw ∧ handing.gridLaw ∧ handing.cellLaw ∧ handing.fieldFits ∧ handing.counterLaw
        ∧ handing.queueLaw ∧ handing.calibrationLaw ∧ handing.bestLaw)
      ∧ handing.rowLaw ∧ handing.frameLaw
      ∧ ∃ t, step handing = .next t ∧ (handing.work 0).state = .accumulating ∧ (t.work 0).state = .accumulating := by
  have h : handing.fsc.access = some { work := .merge 0 0 1 [100, 2], result := .used } := rfl
  refine ⟨by and_intros <;> decide +kernel, ⟨?_, ?_, ?_, ?_⟩, ⟨?_, ?_, ?_, ?_, ?_, ?_, ?_, ?_, ?_, ?_, ?_, ?_⟩, _, rfl, ?_,
    ?_⟩
  · intro k y e; rw [h] at e; cases e
  · intro k o y codes e; rw [h] at e; cases e; decide
  · intro k y e; rw [h] at e; cases e
  · intro w r e; rw [h] at e; cases e
  · decide +kernel
  · intro _ c hc
    obtain rfl : c = ctxA := List.mem_singleton.mp hc
    exact ⟨entryA, by decide +kernel⟩
  · decide +kernel
  · decide +kernel
  · rintro (hw | hw | hw | hw) _ <;> exact absurd hw (by decide +kernel)
  · rintro _ ⟨f, hf⟩; cases hf
  · decide +kernel
  · decide +kernel
  · intro k o y codes e; rw [h] at e; cases e; decide +kernel
  · decide +kernel
  · decide +kernel
  · decide +kernel
  · decide +kernel
  · decide +kernel

theorem test_witness_TriggersUnderSteadyLamp :
    let s : State := { settling .steady false with pending := [.settleTimerExpiry] }
    ∃ t, step s = .next t ∧ t.plr.downlink ≠ s.plr.downlink ∧ t.plr.downlink ≠ none :=
  ⟨_, rfl, by decide +kernel, by decide +kernel⟩

theorem test_witness_DensityCodeIsRoundedLogarithm :
    ((0 : Nat) < 1 ∧ (65534 : Nat) ≤ 65534 ∧ (16384 : Nat) ≠ 0)
      ∧ (let best : Accum := { Accum.cleared with hasBest := true, best := 5000 }
         best.hasBest = true ∧ (best.ordinal == entryA.ordinal) = true ∧ entryA.monitor = 0
           ∧ { entryA with monitor := 50000 }.monitor ≠ 0)
      ∧ Accum.cleared.hasBest = false ∧ Accum.cleared.seenSaturated = false
      ∧ { Accum.cleared with seenSaturated := true }.seenSaturated = true := by decide

theorem test_witness_CodesAndFramesRoundTrip :
    [(0xFFF : CameraCode), 0x000].length % 2 = 0
      ∧ packCodes [0xABC, 0x123] = [(0xBC : Byte), 0x3A, 0x12]
      ∧ (List.replicate 200 (0xC5 : Byte)).length ≤ 200 ∧ (∀ b ∈ [(0xC4 : Byte)], b ≠ 0xC5)
      ∧ (0 : BitVec 16) ≠ crc16 [BitVec.ofNat 8 0, 0x10] ∧ 200 < (201 : Byte).toNat
      ∧ stationFrame 0x10 [5] = [0xC5, 1, 0x10, 5] ++ leBytes 2 (crc16 [1, 0x10, 5]).toNat := by decide +kernel

theorem test_witness_BestIsLongestValid :
    (∃ p ∈ [(0, 100)], p.2 < 3968 ∧ 64 + 24 ≤ p.2) ∧ (16384 : Nat) ≠ 0 := by decide

end Sys2Proof.Tests
end

section
/-! PROOFS. WRITE_PROFILE (R26, R27): what the profile table decides of the operands and of the register, and what a
profile that is taken does to the state. -/

namespace Sys2Proof.Machine

/-! ## Requests that change no plate record -/

/-- A request that cannot change the register, taken by a block that leaves the ports alone: it is answered, the rest of
the state is the block's, and the notices that the block has raised are offered. -/
theorem State.exec_of_serveQuiet {s t : State} {i : Instr} {q : Src} {kind : RequestKind}
    {handle : State → State × Reply} {r : Reply} (hs : s.takes q kind) (he : exec i s = s.serveQuiet q kind handle)
    (h : handle (s.taken q kind) = (t, r)) (hp : t.ports = (s.taken q kind).ports) :
    ∃ u, exec i s = .next u ∧ s.served u q kind r ∧ u = { t with raised := [], ports := u.ports }
      ∧ s.offered u (otherNotices t.raised) := by
  obtain ⟨hserved, heq⟩ := State.served_of_takes [] hs h hp
  exact ⟨_, he, hserved, heq, State.offered_of_takes [] hs h hp⟩

/-- Without notices no port's notice number moves (R172). -/
theorem State.noticeNumber_of_offered_nil {s t : State} (h : s.offered t []) (k : PortNo) :
    (t.ports.get k).noticeNumber = (s.ports.get k).noticeNumber := (h k).2.1

/-! ## WRITE_PROFILE -/

/-- The upper bound alone clamps a value into a range that begins at 0. -/
theorem clamp_zero (hi v : Nat) : clamp 0 hi v = min hi v := Nat.zero_max _

theorem profileNo?_val (p : ProfileNo) : profileNo? p.val = some p := by simp [profileNo?]

theorem profileNo?_eq_none {n : Nat} (h : 4 ≤ n) : profileNo? n = none := by
  simp [profileNo?, Nat.not_lt.mpr h]

/-- The operands of a WRITE_PROFILE that are whole and of the right form give the clamped profile (R26, R27). -/
theorem writtenProfile?_eq_some (p : ProfileNo) {l : List Nat} (a f x c : Nat) (y : Bool) (h2 : 2 ≤ l.length)
    (h8 : l.length ≤ 8) :
    writtenProfile? (some p.val) (some l) (some a) (some f) (some x) (.given y) (some c)
      = some (p, clampedProfile l a f x y c,
          (clampedProfile l a f x y c).ladder != l || (clampedProfile l a f x y c).satThreshold != a
            || (clampedProfile l a f x y c).noiseFloor != f || (clampedProfile l a f x y c).extThreshold != x
            || (clampedProfile l a f x y c).qceil != c) := by
  simp [writtenProfile?, profileNo?_val, h2, h8]

/-- A missing field, an index or a single-try that does not exist, and a ladder of a wrong length give no profile
(R26 row 1). -/
theorem writtenProfile?_eq_none {index : Option Nat} {ladder : Option (List Nat)} {a f x c : Option Nat} {y : Arg Bool}
    (h : index = none ∨ (∃ n, index = some n ∧ 4 ≤ n) ∨ ladder = none
      ∨ (∃ l, ladder = some l ∧ (l.length < 2 ∨ 8 < l.length)) ∨ a = none ∨ f = none ∨ x = none ∨ c = none
      ∨ y = .missing ∨ y = .outside) :
    writtenProfile? index ladder a f x y c = none := by
  unfold writtenProfile?
  split
  next i l a f x y c hi =>
    split
    next hl =>
      rcases h with rfl | ⟨n, rfl, hn⟩ | h | ⟨_, h, hlen⟩ | h | h | h | h | h | h
      · cases hi
      · rw [Option.bind_some, profileNo?_eq_none hn] at hi; cases hi
      · cases h
      · cases h; omega
      all_goals cases h
    next => rfl
  next => rfl

theorem State.profileSeated_eq_true (s : State) (p : ProfileNo) :
    s.profileSeated p = true ↔ ∃ r ∈ s.plates, r.seated = true ∧ r.profile = p := by
  simp [State.profileSeated]

theorem State.profileTried_eq_true (s : State) (p : ProfileNo) :
    s.profileTried p = true ↔ ∃ r ∈ s.plates, r.profile = p ∧ ∃ z ∈ r.cells, z.triesUsed ≠ 0 := by
  simp [State.profileTried]

section
variable {s : State} {i : ProfileNo} {p : Profile} {b : Bool}

/-- A ladder that is not strictly increasing is answered FIELD (R26 row 2). -/
theorem State.handleWriteProfile_of_ladder (h : strictlyIncreasing p.ladder = false) :
    s.handleWriteProfile (some (i, p, b)) = (s, Reply.plain .field) := by
  simp [State.handleWriteProfile, State.answer, h]

/-- A profile of a seated record is answered STATE (R26 row 3). -/
theorem State.handleWriteProfile_of_seated (h : strictlyIncreasing p.ladder = true) (hs : s.profileSeated i = true) :
    s.handleWriteProfile (some (i, p, b)) = (s, Reply.plain .state) := by
  simp [State.handleWriteProfile, State.answer, h, hs]

/-- Single-try yes for a profile of a record with a tried cell is answered STATE (R26 row 4). -/
theorem State.handleWriteProfile_of_tried (h : strictlyIncreasing p.ladder = true) (hs : s.profileSeated i = false)
    (hy : p.singleTry = true) (ht : s.profileTried i = true) :
    s.handleWriteProfile (some (i, p, b)) = (s, Reply.plain .state) := by
  simp [State.handleWriteProfile, State.answer, h, hs, hy, ht]

/-- A write that meets no row before is taken (R26 row 5). -/
theorem State.handleWriteProfile_taken (h : strictlyIncreasing p.ladder = true) (hs : s.profileSeated i = false)
    (ht : p.singleTry = true → s.profileTried i = false) :
    s.handleWriteProfile (some (i, p, b)) = ({ s with profiles := setAt s.profiles i p }, Reply.done b) := by
  have hst : (p.singleTry && s.profileTried i) = false := by
    cases hp : p.singleTry
    · rfl
    · rw [ht hp]; rfl
  simp [State.handleWriteProfile, h, hs, hst]
end

/-- Settles O37: the operands decide whether there is a profile to write, and then the rows of R26 are met in
order. -/
theorem writeProfileReplaces : Obligations.WriteProfileReplaces := by
  unfold Obligations.WriteProfileReplaces
  refine ⟨?_, ?_⟩
  · intro s q p ladder a f x c y hs h2 h8 i new
    have hnew : new = clampedProfile ladder a f x y c := by
      simp only [new, clampedProfile, clamp_zero]; rfl
    have hw := writtenProfile?_eq_some p a f x c y h2 h8
    rw [← hnew] at hw
    have hy : new.singleTry = y := rfl
    have refused {code : AnswerCode}
        (h : ∀ b, (s.taken q .writeProfile).handleWriteProfile (some (p, new, b))
          = (s.taken q .writeProfile, Reply.plain code)) : s.answeredOnly i q .writeProfile (Reply.plain code) :=
      State.answeredOnly_of_serveQuiet hs rfl ((congrArg _ hw).trans (h _))
    have seated : (s.taken q .writeProfile).profileSeated p = true ↔ ∃ r ∈ s.plates, r.seated = true ∧ r.profile = p :=
      State.profileSeated_eq_true _ p
    have tried : (s.taken q .writeProfile).profileTried p = true
        ↔ ∃ r ∈ s.plates, r.profile = p ∧ ∃ z ∈ r.cells, z.triesUsed ≠ 0 := State.profileTried_eq_true _ p
    have unseated (h : ∀ r ∈ s.plates, r.seated = true → r.profile ≠ p) :
        (s.taken q .writeProfile).profileSeated p = false :=
      Bool.eq_false_iff.mpr fun hp => by
        obtain ⟨r, hr, hrs, hrp⟩ := seated.mp hp
        exact h r hr hrs hrp
    clear_value new
    refine ⟨fun hinc hseat htry => ?_, fun hinc => ?_, fun hinc hseat => ?_, fun hinc hseat hyes ht => ?_⟩
    · have untried : new.singleTry = true → (s.taken q .writeProfile).profileTried p = false := fun hyes =>
        Bool.eq_false_iff.mpr fun hp => by
          obtain ⟨r, hr, hrp, z, hz, hne⟩ := tried.mp hp
          exact hne (htry (hy.symm.trans hyes) r hr hrp z hz)
      obtain ⟨t, hexec, hserved, ht, hoff⟩ := State.exec_of_serveQuiet (i := i) hs rfl
        ((congrArg _ hw).trans (State.handleWriteProfile_taken hinc (unseated hseat) untried)) rfl
      have hprofiles : t.profiles = setAt s.profiles p new := congrArg State.profiles ht
      refine ⟨t, _, hexec, hserved, ?_, ?_, fun j hj => ?_, fun hq k => ?_, ?_⟩
      · simp only [Bool.or_eq_true, bne_iff_ne, ne_eq, not_and_or, or_assoc]
      · rw [hprofiles, setAt_get_self]
      · rw [hprofiles, setAt_get_ne _ _ (Ne.symm hj)]
      · have hraised : (s.taken q .writeProfile).raised = [] := hq
        simp only [hraised, otherNotices_nil] at hoff
        exact State.noticeNumber_of_offered_nil hoff k
      · rw [hprofiles]; exact ht
    · exact refused fun _ => State.handleWriteProfile_of_ladder hinc
    · exact refused fun _ => State.handleWriteProfile_of_seated hinc (seated.mpr hseat)
    · exact refused fun _ => State.handleWriteProfile_of_tried hinc (unseated hseat) (hy.trans hyes) (tried.mpr ht)
  · intro s q index ladder a f x c y hs h
    exact State.answeredOnly_of_serveQuiet hs rfl (congrArg _ (writtenProfile?_eq_none h))

end Sys2Proof.Machine
end

section
/-! PROOFS. SET_CAPTURE (R33 to R35): which operands it takes, what each of its three effects on other blocks does to
the state and which notice it raises, and what they do together. -/

namespace Sys2Proof.Machine

/-! ## The notices of other blocks -/

/-- Every notice raised is among those offered at the end of the event. -/
theorem mem_otherNotices {n : Notice} {ns : List Notice} : n ∈ otherNotices ns ↔ n ∈ ns := by
  cases n <;> simp [otherNotices, Notice.kind]

/-! ## The operands -/

/-- A SET_CAPTURE that gives known settings, each once, is taken with them (R33). -/
theorem captureSettings_eq_some {l : List (Setting × Nat)} (hne : l ≠ []) (hnd : (l.map (·.1)).Nodup) :
    captureSettings (l.map fun p => (some p.1, p.2)) = some l := by
  have hknown : ((l.map fun p => (some p.1, p.2)).filterMap fun p => p.1.map fun x => (x, p.2)) = l := by
    simp [List.filterMap_map]
  simp only [captureSettings, hknown]
  simp [hne, hnd]

/-- The settings of a SET_CAPTURE that gives no unknown one, as it gives them. -/
theorem map_known_eq {given : List (Option Setting × Nat)} (h : none ∉ given.map (·.1)) :
    ((given.filterMap fun p => p.1.map fun x => (x, p.2)).map (·.1)).map some = given.map (·.1) := by
  induction given with
  | nil => rfl
  | cons p given ih =>
    rw [List.map_cons, List.mem_cons, not_or] at h
    obtain ⟨hp, hrest⟩ := h
    obtain ⟨x, hx⟩ := Option.ne_none_iff_exists'.mp (Ne.symm hp)
    simp only [List.filterMap_cons, hx, Option.map_some, List.map_cons, ih hrest]

/-- An unknown setting is not among the known ones. -/
theorem length_known_lt {given : List (Option Setting × Nat)} (h : none ∈ given.map (·.1)) :
    (given.filterMap fun p => p.1.map fun x => (x, p.2)).length < given.length := by
  obtain ⟨p, hp, hnone⟩ := List.mem_map.mp h
  exact List.length_filterMap_lt_length_iff_exists.mpr ⟨p, hp, by simp [hnone]⟩

/-- Without a setting, with one that does not exist, or with one twice, nothing is taken (R33). -/
theorem captureSettings_eq_none {given : List (Option Setting × Nat)}
    (h : given = [] ∨ none ∈ given.map (·.1) ∨ ¬ (given.map (·.1)).Nodup) : captureSettings given = none := by
  by_cases hunknown : none ∈ given.map (·.1)
  · simp [captureSettings, (length_known_lt hunknown).ne]
  · rcases h with rfl | h | h
    · rfl
    · exact absurd h hunknown
    · rw [← map_known_eq hunknown] at h
      have hknown := mt (List.Nodup.map (Option.some_injective _)) h
      simp [captureSettings, hknown]

/-- The value of a setting after a SET_CAPTURE, in R33's words: the given one in its range, or the present one. -/
theorem settingOr_eq (l : List (Setting × Nat)) (x : Setting) (old : Nat) :
    settingOr l x old = ((l.find? fun p => p.1 == x).map fun p =>
      max (settingRange p.1).1 (min (settingRange p.1).2 p.2)).getD old := by
  unfold settingOr
  split
  next p hp =>
    have hx : p.1 = x := by simpa using List.find?_some hp
    rw [hp, ← hx]; rfl
  next hp => rw [hp]; rfl

/-- A SET_CAPTURE gives a setting. -/
def givesSetting (l : List (Setting × Nat)) (x : Setting) : Bool := (l.map (·.1)).contains x

theorem any_eq_givesSetting (l : List (Setting × Nat)) (x : Setting) : l.any (·.1 == x) = givesSetting l x := by
  rw [givesSetting, List.contains_eq_any_beq, List.any_map]
  exact congrArg _ (funext fun p => Bool.beq_comm)

/-- A lamp level change is refused where R34 says so. -/
theorem State.lampLevelHeld_eq_true (s : State) :
    s.lampLevelHeld = true ↔ (∃ r ∈ s.plates, r.seated = true)
      ∨ (∃ r ∈ s.plates, ∃ c ∈ r.cells, c.state = .exposing ∨ c.state = .finalizing) ∨ s.cal.op ≠ none := by
  simp [State.lampLevelHeld, State.anySeated, State.anyCell, State.calibrating, Option.isSome_iff_ne_none, or_assoc]

/-- Where a lamp level change is not refused no calibration runs (R34). -/
theorem State.op_of_not_held {s : State} (h : s.lampLevelHeld = false) : s.cal.op = none := by
  by_contra hop
  exact Bool.eq_false_iff.mp h (s.lampLevelHeld_eq_true.mpr (.inr (.inr hop)))

theorem LampState.lit_eq_true (l : LampState) : l.lit = true ↔ l = .warming ∨ l = .steady ∨ l = .drifting := by
  cases l <;> decide

/-! ## The three effects on other blocks -/

/-- The notice of a calibration record that changes state outside an operation (R103). -/
def calibChange (old new : CalState) : List Notice := if new = old then [] else [.calib new none .none none none]

/-- The notice of a link that changes state under a new limit (R119). -/
def linkChange (old new : LinkState) (count : Nat) : List Notice := if new = old then [] else [.link new old count .limit]

/-- The record that a new lamp level leaves: without its flat, if it had one (R34). -/
def CalRecord.relevelled (r : CalRecord) : CalRecord :=
  if r.state = .valid ∨ r.state = .stale then r.withoutFlat .darkOnly else r

/-- The record under a new life (R35). -/
def CalRecord.withLife (r : CalRecord) (life : Nat) : CalRecord :=
  { r with life := life, state := if r.state = .valid ∧ life ≤ r.age then .stale else r.state }

/-- A restart drives the lamp at the level setting in phase TIMED (R123). -/
theorem State.lampRestart_ltc (s : State) :
    s.lampRestart.ltc = { s.ltc with
      lamp := .warming, phase := some .timed, drive := s.settings.lampLevel, warmRef := none, run := 0, last := none,
      steadyThroughout := false } := rfl

/-- Without a calibration a restart starts the warm-up and the idle timer and stops the check timer (R123, R128). -/
theorem State.lampRestart_tbu {s : State} (h : s.cal.op = none) :
    s.lampRestart.tbu = { s.tbu with timers := { s.tbu.timers with
      warmUp := some (warmUpPreset s), check := none, idle := some (idlePreset s) } } := by
  simp [State.lampRestart, State.lampWarm, State.lampNotice, State.flatRunning, h]

theorem State.lampRestart_raised (s : State) :
    s.lampRestart.raised = s.raised ++ [.lamp .warming s.ltc.lamp s.settings.lampLevel none .restart] := rfl

/-- A new lamp level first lets the flat go, and tells of it (R34, R103). -/
def State.relevelCal (s : State) : State :=
  if s.cal.record.state = .valid ∨ s.cal.record.state = .stale then s.setCalRecord fun r => r.withoutFlat .darkOnly
  else s

theorem State.lampLevelChanged_eq (s : State) : s.lampLevelChanged =
    if s.ltc.lamp.lit then s.relevelCal.lampRestart else s.relevelCal := by
  have hltc : s.relevelCal.ltc = s.ltc := by unfold State.relevelCal; split <;> rfl
  rw [← hltc]; rfl

theorem State.relevelCal_eq (s : State) : s.relevelCal =
    { s with
      cal := { s.cal with record := s.cal.record.relevelled }
      raised := s.raised ++ calibChange s.cal.record.state s.cal.record.relevelled.state } := by
  unfold State.relevelCal CalRecord.relevelled
  split
  next h =>
    have hne : CalState.darkOnly ≠ s.cal.record.state := by rcases h with h | h <;> rw [h] <;> decide
    simp [State.setCalRecord, State.calibNotice, State.onCal, State.raise, CalRecord.withoutFlat, calibChange, hne]
  next => simp [calibChange]

/-- A new life is stored, and a VALID record at or above it turns STALE, with its notice (R35, R103). -/
theorem State.setLife_eq (s : State) (life : Nat) : s.setLife life =
    { s with
      cal := { s.cal with record := s.cal.record.withLife life }
      raised := s.raised ++ calibChange s.cal.record.state (s.cal.record.withLife life).state } := by
  unfold State.setLife CalRecord.withLife
  split
  next h => simp [State.setCalRecord, State.calibNotice, State.onCal, State.raise, calibChange, h]
  next => simp [State.onCal, calibChange]

/-- The link state under the warning limit in force is stored, with a LINK notice where it is another one (R35,
R119). -/
theorem State.relimit_eq (s : State) : s.relimit =
    { s with
      plr := { s.plr with link := relimited s.settings.linkWarningLimit s.plr.faultCount s.plr.link }
      raised := s.raised ++
        linkChange s.plr.link (relimited s.settings.linkWarningLimit s.plr.faultCount s.plr.link) s.plr.faultCount } := by
  unfold State.relimit
  dsimp only
  split
  next h => simp [linkChange, h]
  next h => simp [State.onPlr, State.raise, linkChange, h]

/-! ## The settings applied -/

/-- The settings replaced, and a changed lamp level acted on (R33, R34). -/
def State.levelStage (s : State) (l : List (Setting × Nat)) : State :=
  if (s.settings.updated l).lampLevel = s.settings.lampLevel then { s with settings := s.settings.updated l }
  else { s with settings := s.settings.updated l }.lampLevelChanged

/-- A given life acted on (R35). -/
def State.lifeStage (s : State) (l : List (Setting × Nat)) : State :=
  if givesSetting l .calibrationLife then s.setLife (settingOr l .calibrationLife s.cal.record.life) else s

/-- A given warning limit acted on (R35). -/
def State.limitStage (s : State) (l : List (Setting × Nat)) : State :=
  if givesSetting l .linkWarningLimit then s.relimit else s

theorem State.applySettings_eq (s : State) (l : List (Setting × Nat)) :
    s.applySettings l = ((s.levelStage l).lifeStage l).limitStage l := by
  have hlife (x : State) : (match l.find? (·.1 == .calibrationLife) with
      | some p => x.setLife (clampSetting .calibrationLife p.2)
      | none => x) = x.lifeStage l := by
    have hgives : givesSetting l .calibrationLife = (l.find? (·.1 == .calibrationLife)).isSome := by
      rw [← any_eq_givesSetting, Bool.eq_iff_iff, List.any_eq_true, List.find?_isSome]
    rw [State.lifeStage, hgives, settingOr]
    cases l.find? (·.1 == .calibrationLife) <;> rfl
  rw [State.limitStage, ← any_eq_givesSetting, ← hlife]
  rfl

/-- The calibration record that a SET_CAPTURE leaves of one whose lamp level has been seen to (R35). -/
def CalRecord.givenLife (r : CalRecord) (l : List (Setting × Nat)) : CalRecord :=
  if givesSetting l .calibrationLife then r.withLife (settingOr l .calibrationLife r.life) else r

/-- The calibration record after the lamp level of a SET_CAPTURE (R34). -/
def State.levelledRecord (s : State) (l : List (Setting × Nat)) : CalRecord :=
  if (s.settings.updated l).lampLevel = s.settings.lampLevel then s.cal.record else s.cal.record.relevelled

/-- The link state after a SET_CAPTURE (R35). -/
def State.limitedLink (s : State) (l : List (Setting × Nat)) : LinkState :=
  if givesSetting l .linkWarningLimit then
    relimited (s.settings.updated l).linkWarningLimit s.plr.faultCount s.plr.link
  else s.plr.link

/-- A SET_CAPTURE restarts the lamp (R34). -/
abbrev State.relights (s : State) (l : List (Setting × Nat)) : Prop :=
  (s.settings.updated l).lampLevel ≠ s.settings.lampLevel ∧ s.ltc.lamp.lit = true

/-- The notice of a restarted lamp (R131). -/
def State.relightNotice (s : State) (l : List (Setting × Nat)) : List Notice :=
  if s.relights l then [.lamp .warming s.ltc.lamp (s.settings.updated l).lampLevel none .restart] else []

/-- The notices that a SET_CAPTURE raises (R34, R35, R103, R119, R131). -/
def State.captureNotices (s : State) (l : List (Setting × Nat)) : List Notice :=
  calibChange s.cal.record.state (s.levelledRecord l).state ++ s.relightNotice l
    ++ calibChange (s.levelledRecord l).state ((s.levelledRecord l).givenLife l).state
    ++ linkChange s.plr.link (s.limitedLink l) s.plr.faultCount

section
variable (s : State) (l : List (Setting × Nat))

@[simp] theorem State.levelStage_frame :
    (s.levelStage l).settings = s.settings.updated l ∧ (s.levelStage l).plr = s.plr := by
  unfold State.levelStage; split <;> simp

theorem State.levelStage_cal : (s.levelStage l).cal = { s.cal with record := s.levelledRecord l } := by
  unfold State.levelStage State.levelledRecord
  split
  · rfl
  · rw [State.lampLevelChanged_eq, State.relevelCal_eq]; split <;> rfl

theorem State.levelStage_raised : (s.levelStage l).raised
    = s.raised ++ calibChange s.cal.record.state (s.levelledRecord l).state ++ s.relightNotice l := by
  unfold State.levelStage State.levelledRecord State.relightNotice
  split
  next h => simp [calibChange, h]
  next h =>
    rw [State.lampLevelChanged_eq, State.relevelCal_eq]
    split
    next hl => simp [State.lampRestart_raised, h, hl]
    next hl => simp [h, hl]

theorem State.levelStage_unlit (h : ¬ s.relights l) : (s.levelStage l).ltc = s.ltc ∧ (s.levelStage l).tbu = s.tbu := by
  unfold State.levelStage
  split
  · exact ⟨rfl, rfl⟩
  next hne =>
    rw [State.lampLevelChanged_eq, State.relevelCal_eq, if_neg fun hl => h ⟨hne, hl⟩]
    exact ⟨rfl, rfl⟩

theorem State.levelStage_relit (h : s.relights l) : (s.levelStage l).ltc = { s.ltc with
    lamp := .warming, phase := some .timed, drive := (s.settings.updated l).lampLevel, warmRef := none, run := 0,
    last := none, steadyThroughout := false } := by
  rw [State.levelStage, if_neg h.1, State.lampLevelChanged_eq, State.relevelCal_eq, if_pos h.2]
  rfl

theorem State.levelStage_timers (h : s.relights l) (hop : s.cal.op = none) :
    (s.levelStage l).tbu = { s.tbu with timers := { s.tbu.timers with
      warmUp := some ((s.settings.updated l).warmUpTime * 1000000), check := none,
      idle := some ((s.settings.updated l).idleTime * 60000000) } } := by
  rw [State.levelStage, if_neg h.1, State.lampLevelChanged_eq, State.relevelCal_eq, if_pos h.2,
    State.lampRestart_tbu (by exact hop)]
  rfl

@[simp] theorem State.lifeStage_frame :
    (s.lifeStage l).settings = s.settings ∧ (s.lifeStage l).plr = s.plr ∧ (s.lifeStage l).ltc = s.ltc
      ∧ (s.lifeStage l).tbu = s.tbu := by
  unfold State.lifeStage; split <;> simp

theorem State.lifeStage_cal :
    (s.lifeStage l).cal = { s.cal with record := s.cal.record.givenLife l } := by
  unfold State.lifeStage CalRecord.givenLife
  split
  · rw [State.setLife_eq]
  · rfl

theorem State.lifeStage_raised : (s.lifeStage l).raised
    = s.raised ++ calibChange s.cal.record.state (s.cal.record.givenLife l).state := by
  unfold State.lifeStage CalRecord.givenLife
  split
  · rw [State.setLife_eq]
  · simp [calibChange]

@[simp] theorem State.limitStage_frame :
    (s.limitStage l).settings = s.settings ∧ (s.limitStage l).cal = s.cal ∧ (s.limitStage l).ltc = s.ltc
      ∧ (s.limitStage l).tbu = s.tbu := by
  unfold State.limitStage; split <;> simp

theorem State.applySettings_settings : (s.applySettings l).settings = s.settings.updated l := by
  simp [State.applySettings_eq]

theorem State.applySettings_cal :
    (s.applySettings l).cal = { s.cal with record := (s.levelledRecord l).givenLife l } := by
  simp [State.applySettings_eq, State.lifeStage_cal, State.levelStage_cal]

theorem State.applySettings_plr : (s.applySettings l).plr = { s.plr with link := s.limitedLink l } := by
  rw [State.applySettings_eq, State.limitStage, State.limitedLink]
  split
  · rw [State.relimit_eq]; simp
  · simp

theorem State.applySettings_raised : (s.applySettings l).raised = s.raised ++ s.captureNotices l := by
  have hcal : (s.levelStage l).cal.record = s.levelledRecord l := by rw [State.levelStage_cal]
  rw [State.applySettings_eq, State.limitStage, State.captureNotices, State.limitedLink]
  split
  · rw [State.relimit_eq]; simp [State.lifeStage_raised, State.levelStage_raised, hcal]
  · simp [State.lifeStage_raised, State.levelStage_raised, hcal, linkChange]

/-- Without a restart lamp and time base stay as they are. -/
theorem State.applySettings_unlit (h : ¬ s.relights l) :
    (s.applySettings l).ltc = s.ltc ∧ (s.applySettings l).tbu = s.tbu := by
  simpa [State.applySettings_eq] using s.levelStage_unlit l h

/-- A restarted lamp is driven at the new level, in phase TIMED (R34, R123). -/
theorem State.applySettings_relit (h : s.relights l) : (s.applySettings l).ltc = { s.ltc with
    lamp := .warming, phase := some .timed, drive := (s.settings.updated l).lampLevel, warmRef := none, run := 0,
    last := none, steadyThroughout := false } := by
  simpa [State.applySettings_eq] using s.levelStage_relit l h

/-- A restart outside a calibration starts the warm-up and the idle timer from the new times, and stops the check timer
(R123, R128). -/
theorem State.applySettings_timers (h : s.relights l) (hop : s.cal.op = none) :
    (s.applySettings l).tbu = { s.tbu with timers := { s.tbu.timers with
      warmUp := some ((s.settings.updated l).warmUpTime * 1000000), check := none,
      idle := some ((s.settings.updated l).idleTime * 60000000) } } := by
  simpa [State.applySettings_eq] using s.levelStage_timers l h hop

/-- What settings applied leave alone. -/
theorem State.applySettings_rest : s.applySettings l = { s with
    raised := (s.applySettings l).raised, settings := (s.applySettings l).settings, cal := (s.applySettings l).cal,
    plr := (s.applySettings l).plr, ltc := (s.applySettings l).ltc, tbu := (s.applySettings l).tbu } := by
  have hframe := s.applySettings_frame l
  cases h : s.applySettings l
  simp_all

end

/-! ## What a SET_CAPTURE does to the calibration record, the link and the notices -/

theorem settingOr_of_not_given {l : List (Setting × Nat)} {x : Setting} (h : givesSetting l x = false) (old : Nat) :
    settingOr l x old = old := by
  rw [← any_eq_givesSetting, List.any_eq_false] at h
  rw [settingOr, List.find?_eq_none.mpr h]

/-- A VALID calibration as old as a given life turns STALE, and no other changes state (R35). -/
theorem CalRecord.givenLife_eq (r : CalRecord) (l : List (Setting × Nat)) : r.givenLife l = { r with
    life := settingOr l .calibrationLife r.life
    state := if givesSetting l .calibrationLife = true ∧ r.state = .valid
        ∧ settingOr l .calibrationLife r.life ≤ r.age then .stale else r.state } := by
  unfold CalRecord.givenLife
  split
  next h => simp [CalRecord.withLife, h]
  next h => simp [h, settingOr_of_not_given (Bool.eq_false_iff.mpr h)]

/-- A life makes nothing of a record that is not VALID (R35). -/
theorem CalRecord.givenLife_of_not_valid {r : CalRecord} (h : r.state ≠ .valid) (l : List (Setting × Nat)) :
    r.givenLife l = { r with life := settingOr l .calibrationLife r.life } := by
  simp [CalRecord.givenLife_eq, h]

theorem CalRecord.relevelled_of_flat {r : CalRecord} (h : r.state = .valid ∨ r.state = .stale) :
    r.relevelled = r.withoutFlat .darkOnly := if_pos h

theorem CalRecord.relevelled_of_no_flat {r : CalRecord} (h : ¬ (r.state = .valid ∨ r.state = .stale)) :
    r.relevelled = r := if_neg h

/-- In CLEAN and WARNED the limit decides (R35). -/
theorem relimited_of_low {link : LinkState} (h : link = .clean ∨ link = .warned) (limit count : Nat) :
    relimited limit count link = if limit ≤ count then .warned else .clean := by
  rcases h with rfl | rfl <;> rfl

/-- In GUARDED and DROPPED a limit changes nothing (R35). -/
theorem relimited_of_high {link : LinkState} (h : ¬ (link = .clean ∨ link = .warned)) (limit count : Nat) :
    relimited limit count link = link := by
  cases link with
  | clean => exact absurd (.inl rfl) h
  | warned => exact absurd (.inr rfl) h
  | guarded => rfl
  | dropped => rfl

section
variable {s : State} {l : List (Setting × Nat)}

/-- Without a new lamp level only the life acts on the calibration (R35). -/
theorem State.record_of_level_kept (h : (s.settings.updated l).lampLevel = s.settings.lampLevel) :
    (s.levelledRecord l).givenLife l = { s.cal.record with
      life := settingOr l .calibrationLife s.cal.record.life
      state := if givesSetting l .calibrationLife = true ∧ s.cal.record.state = .valid
          ∧ settingOr l .calibrationLife s.cal.record.life ≤ s.cal.record.age then .stale else s.cal.record.state } := by
  rw [State.levelledRecord, if_pos h, CalRecord.givenLife_eq]

/-- A new lamp level lets a flat go, and a life does no more to the record (R34). -/
theorem State.record_of_flat (h : (s.settings.updated l).lampLevel ≠ s.settings.lampLevel)
    (hflat : s.cal.record.state = .valid ∨ s.cal.record.state = .stale) :
    (s.levelledRecord l).givenLife l = { s.cal.record.withoutFlat .darkOnly with
      life := settingOr l .calibrationLife s.cal.record.life } := by
  rw [State.levelledRecord, if_neg h, CalRecord.relevelled_of_flat hflat,
    CalRecord.givenLife_of_not_valid (by simp [CalRecord.withoutFlat])]
  rfl

/-- Without a flat a new lamp level leaves the calibration as it is (R34). -/
theorem State.record_of_no_flat (h : (s.settings.updated l).lampLevel ≠ s.settings.lampLevel)
    (hflat : ¬ (s.cal.record.state = .valid ∨ s.cal.record.state = .stale)) :
    (s.levelledRecord l).givenLife l = { s.cal.record with
      life := settingOr l .calibrationLife s.cal.record.life } := by
  rw [State.levelledRecord, if_neg h, CalRecord.relevelled_of_no_flat hflat,
    CalRecord.givenLife_of_not_valid fun hv => hflat (.inl hv)]

theorem State.limitedLink_of_relimits (h : givesSetting l .linkWarningLimit = true)
    (hl : s.plr.link = .clean ∨ s.plr.link = .warned) :
    s.limitedLink l = if (s.settings.updated l).linkWarningLimit ≤ s.plr.faultCount then .warned else .clean := by
  rw [State.limitedLink, if_pos h, relimited_of_low hl]

theorem State.limitedLink_kept
    (h : ¬ (givesSetting l .linkWarningLimit = true ∧ (s.plr.link = .clean ∨ s.plr.link = .warned))) :
    s.limitedLink l = s.plr.link := by
  unfold State.limitedLink
  split
  next hg => exact relimited_of_high (fun hl => h ⟨hg, hl⟩) _ _
  next => rfl

/-- A link that changes state is told (R119). -/
theorem State.link_mem_captureNotices (h : s.limitedLink l ≠ s.plr.link) :
    .link (s.limitedLink l) s.plr.link s.plr.faultCount .limit ∈ s.captureNotices l := by
  simp [State.captureNotices, linkChange, h]

/-- A calibration that changes state is told: by the lamp level's notice, or else by the life's (R103). -/
theorem State.calib_mem_captureNotices (h : ((s.levelledRecord l).givenLife l).state ≠ s.cal.record.state) :
    .calib ((s.levelledRecord l).givenLife l).state none .none none none ∈ s.captureNotices l := by
  by_cases hlife : ((s.levelledRecord l).givenLife l).state = (s.levelledRecord l).state
  · rw [hlife] at h ⊢
    simp [State.captureNotices, calibChange, h]
  · simp [State.captureNotices, calibChange, hlife]

/-- A restarted lamp is told (R131). -/
theorem State.lamp_mem_captureNotices (h : s.relights l) :
    .lamp .warming s.ltc.lamp (s.settings.updated l).lampLevel none .restart ∈ s.captureNotices l := by
  have hnotice : s.relightNotice l = [.lamp .warming s.ltc.lamp (s.settings.updated l).lampLevel none .restart] :=
    if_pos h
  simp [State.captureNotices, hnotice]

/-- A calibration that ends in the state it began with was in it all along: a flat that a new level lets go does not
come back. -/
theorem State.levelledRecord_state (h : ((s.levelledRecord l).givenLife l).state = s.cal.record.state) :
    (s.levelledRecord l).state = s.cal.record.state := by
  unfold State.levelledRecord at h ⊢
  split at h
  next => simp_all
  next hlevel =>
    rw [if_neg hlevel]
    by_cases hflat : s.cal.record.state = .valid ∨ s.cal.record.state = .stale
    · rw [CalRecord.relevelled_of_flat hflat, CalRecord.givenLife_of_not_valid (by simp [CalRecord.withoutFlat])] at h
      rw [CalRecord.relevelled_of_flat hflat]
      exact h
    · rw [CalRecord.relevelled_of_no_flat hflat]

/-- Without a change nothing is told. -/
theorem State.captureNotices_eq_nil (hlink : s.limitedLink l = s.plr.link)
    (hcal : ((s.levelledRecord l).givenLife l).state = s.cal.record.state) (hlamp : ¬ s.relights l) :
    s.captureNotices l = [] := by
  have hlevel := State.levelledRecord_state hcal
  simp [State.captureNotices, calibChange, linkChange, State.relightNotice, hlink, hcal, hlevel, hlamp]

end

/-! ## The request -/

theorem State.handleSetCapture_held {s : State} {l : List (Setting × Nat)}
    (h : (s.settings.updated l).lampLevel ≠ s.settings.lampLevel) (hh : s.lampLevelHeld = true) :
    s.handleSetCapture (some l) = (s, Reply.plain .busy) := if_pos ⟨h, hh⟩

theorem State.handleSetCapture_taken {s : State} {l : List (Setting × Nat)}
    (h : (s.settings.updated l).lampLevel = s.settings.lampLevel ∨ s.lampLevelHeld = false) :
    s.handleSetCapture (some l) = (s.applySettings l, Reply.done (settingsClamped l)) :=
  if_neg fun ⟨hlevel, hheld⟩ => h.elim hlevel fun hfree => by simp [hfree] at hheld

/-- A SET_CAPTURE that is not refused, block by block. -/
theorem exec_setCapture_taken {s : State} {q : Src} {l : List (Setting × Nat)} (hs : s.takes q .setCapture)
    (hne : l ≠ []) (hnd : (l.map (·.1)).Nodup)
    (h : (s.settings.updated l).lampLevel = s.settings.lampLevel ∨ s.lampLevelHeld = false) :
    ∃ t, exec (.setCapture q (l.map fun p => (some p.1, p.2))) s = .next t
      ∧ s.served t q .setCapture (Reply.done (settingsClamped l))
      ∧ t.settings = s.settings.updated l
      ∧ t.cal = { s.cal with record := (s.levelledRecord l).givenLife l }
      ∧ t.plr = { s.plr with link := s.limitedLink l }
      ∧ (¬ s.relights l → t.ltc = s.ltc ∧ t.tbu = s.tbu)
      ∧ (s.relights l → t.ltc = { s.ltc with
          lamp := .warming, phase := some .timed, drive := (s.settings.updated l).lampLevel, warmRef := none, run := 0,
          last := none, steadyThroughout := false })
      ∧ (s.relights l → s.cal.op = none → t.tbu = { s.tbu with timers := { s.tbu.timers with
          warmUp := some ((s.settings.updated l).warmUpTime * 1000000), check := none,
          idle := some ((s.settings.updated l).idleTime * 60000000) } })
      ∧ (s.quiet → s.offered t (otherNotices (s.captureNotices l)))
      ∧ t = { s with raised := [], ports := t.ports, settings := t.settings, cal := t.cal, plr := t.plr,
                     ltc := t.ltc, tbu := t.tbu } := by
  have hx := State.handleSetCapture_taken (s := s.taken q .setCapture) h
  rw [← captureSettings_eq_some hne hnd] at hx
  obtain ⟨t, hexec, hserved, ht, hoff⟩ := State.exec_of_serveQuiet (i := .setCapture q _) hs rfl hx (by simp)
  refine ⟨t, hexec, hserved, ?_, ?_, ?_, fun hlamp => ⟨?_, ?_⟩, fun hlamp => ?_, fun hlamp hop => ?_, fun hq => ?_, ?_⟩
  · exact (congrArg State.settings ht).trans (State.applySettings_settings _ l)
  · exact (congrArg State.cal ht).trans (State.applySettings_cal _ l)
  · exact (congrArg State.plr ht).trans (State.applySettings_plr _ l)
  · exact (congrArg State.ltc ht).trans (State.applySettings_unlit (s.taken q .setCapture) l hlamp).1
  · exact (congrArg State.tbu ht).trans (State.applySettings_unlit (s.taken q .setCapture) l hlamp).2
  · exact (congrArg State.ltc ht).trans (State.applySettings_relit (s.taken q .setCapture) l hlamp)
  · exact (congrArg State.tbu ht).trans (State.applySettings_timers (s.taken q .setCapture) l hlamp hop)
  · have hraised : (s.taken q .setCapture).raised = [] := hq
    rw [State.applySettings_raised, hraised, List.nil_append] at hoff
    exact hoff
  · rw [State.applySettings_rest] at ht
    rw [ht]
    rfl

/-- Settles O39: the two refusals are decided by the operands and by the lamp level; a SET_CAPTURE that is taken does
what its three stages do. -/
theorem setCaptureStoresSettings : Obligations.SetCaptureStoresSettings := by
  unfold Obligations.SetCaptureStoresSettings
  refine ⟨fun role => ?_, fun s q l hs h => ?_, ?_⟩
  · simp [permits]
  · exact State.answeredOnly_of_serveQuiet hs rfl (congrArg _ (captureSettings_eq_none h))
  · intro s q l hs hne hnd given inRange value gives clamped level limit r life flat relimits lit held
    have hvalue : value = settingOr l := funext fun x => funext fun old => (settingOr_eq l x old).symm
    have hheld : s.lampLevelHeld = true ↔ held := s.lampLevelHeld_eq_true
    have hlit : s.ltc.lamp.lit = true ↔ lit := LampState.lit_eq_true _
    clear_value value held lit
    subst hvalue
    refine ⟨fun hfree => ?_, fun hlevel hh => ?_⟩
    · have hopen : level = s.settings.lampLevel ∨ s.lampLevelHeld = false :=
        hfree.imp_right fun h => Bool.eq_false_iff.mpr fun hb => h (hheld.mp hb)
      obtain ⟨t, hexec, hserved, hset, hcal, hplr, hunlit, hrelit, htimers, hoff, ht⟩ :=
        exec_setCapture_taken hs hne hnd hopen
      have hlink : t.plr.link = s.limitedLink l := by rw [hplr]
      have hstate : t.cal.record.state = ((s.levelledRecord l).givenLife l).state := by rw [hcal]
      have hrelights : s.relights l ↔ level ≠ s.settings.lampLevel ∧ lit := and_congr_right' hlit
      have hkept : (level = s.settings.lampLevel ∨ ¬ lit) → ¬ s.relights l := fun h hr =>
        h.elim (hrelights.mp hr).1 (fun h => h (hrelights.mp hr).2)
      have recorded {x : CalRecord} (h : (s.levelledRecord l).givenLife l = x) : t.cal = { s.cal with record := x } :=
        h ▸ hcal
      have announced {n : Notice} (hq : s.quiet) (hn : n ∈ s.captureNotices l) : s.announced t n :=
        ⟨_, mem_otherNotices.mpr hn, hoff hq⟩
      refine ⟨t, hexec, hserved, hset, fun hlevel => ?_, fun hlevel hflat => ?_, fun hlevel hflat => ?_, ?_, fun hr => ?_,
        fun hr => ?_, fun hlevel hl => ?_, fun h => hunlit (hkept h), fun hq => ⟨fun h => ?_, fun h => ?_,
        fun hlevel hl => ?_, fun hlk hst hl => ?_⟩, ?_⟩
      · exact recorded (State.record_of_level_kept hlevel)
      · exact recorded (State.record_of_flat hlevel hflat)
      · exact recorded (State.record_of_no_flat hlevel hflat)
      · rw [hlink]; exact hplr
      · exact hlink.trans (State.limitedLink_kept hr)
      · exact hlink.trans (State.limitedLink_of_relimits hr.1 hr.2)
      · have hr := hrelights.mpr ⟨hlevel, hl⟩
        have hop : s.cal.op = none := State.op_of_not_held (hopen.resolve_left hlevel)
        rw [hrelit hr, htimers hr hop]
        exact ⟨rfl, rfl, rfl, _, _, .inr (congrArg Settings.warmUpTime hset).symm,
          .inr (congrArg Settings.idleTime hset).symm, rfl⟩
      · rw [hlink] at h ⊢
        exact announced hq (State.link_mem_captureNotices h)
      · rw [hstate] at h ⊢
        exact announced hq (State.calib_mem_captureNotices h)
      · exact announced hq (State.lamp_mem_captureNotices (hrelights.mpr ⟨hlevel, hl⟩))
      · have hnone := State.captureNotices_eq_nil (hlink.symm.trans hlk) (hstate.symm.trans hst) (hkept hl)
        simpa only [hnone, otherNotices_nil] using hoff hq
      · have htbu : t.tbu = { s.tbu with timers := t.tbu.timers } := by
          by_cases hr : s.relights l
          · rw [htimers hr (State.op_of_not_held (hopen.resolve_left hr.1))]
          · rw [(hunlit hr).2]
        rw [← htbu]
        exact ht
    · exact State.answeredOnly_of_serveQuiet hs rfl ((congrArg _ (captureSettings_eq_some hne hnd)).trans
        (State.handleSetCapture_held hlevel (hheld.mpr hh)))

end Sys2Proof.Machine
end

section
/-! PROOFS. The machine's step, its reset values, and the cold reset. -/

namespace Sys2Proof.Machine

-- One proof at a time: under the memory limit of the check there is no room for the stacks of many threads.
set_option Elab.async false

/-- Settles O1: a step is `exec` of the front command by definition. -/
theorem stepRunsFrontCommand : Obligations.StepRunsFrontCommand := by
  intro c rest s
  rfl

/-! ## The state after reset -/

theorem work_reset (k : SlotNo) : State.reset.work k = WorkRecord.freed :=
  Vector.get_replicate 7 WorkRecord.freed k

theorem held_reset (k : SlotNo) : State.reset.fsc.held.get k = false :=
  Vector.get_replicate 7 false k

theorem holders_reset (k : SlotNo) : State.reset.fsc.holders.get k = none :=
  Vector.get_replicate 7 none k

theorem retain_reset (r : RegionNo) : State.reset.fsc.retain.get r = false :=
  Vector.get_replicate 8 false r

theorem profiles_reset (i : ProfileNo) : State.reset.profiles.get i = Profile.default :=
  Vector.get_replicate 4 Profile.default i

/-- A port after reset is a fresh one with the default filter of its role. -/
theorem ports_reset (k : PortNo) : ∃ role rate pace,
    State.reset.ports.get k = Port.fresh role rate (defaultKinds role) pace := by
  match k with
  | 0 => exact ⟨.transport, _, _, rfl⟩
  | 1 => exact ⟨.archive, _, _, rfl⟩
  | 2 => exact ⟨.console, _, _, rfl⟩

/-- With no plate record there is no cell record, and a statement about each of them holds. -/
theorem forall_cells_reset {P : CellRef × CellRecord → Prop} : ∀ p ∈ State.reset.cells, P p :=
  List.forall_mem_nil P

theorem slotLaw_reset : State.reset.slotLaw := by
  refine ⟨forall_cells_reset, fun k => ?_, forall_cells_reset, fun k c hc => ?_⟩
  · rw [held_reset, holders_reset]; rfl
  · rw [holders_reset] at hc; cases hc

theorem tryLaw_reset : State.reset.tryLaw := by
  refine ⟨rfl, nofun, ⟨nofun, nofun⟩, ?_, nofun, forall_cells_reset⟩
  rintro (h | h | h) <;> cases h

theorem recordLaw_reset : State.reset.recordLaw := by
  refine ⟨fun k => ?_, forall_cells_reset, List.nodup_nil, fun k => ?_, fun k => ?_, nofun⟩ <;> rw [work_reset]
  · rw [holders_reset]; exact ⟨rfl, fun _ => rfl, fun _ => rfl⟩
  · exact ⟨nofun, fun h => by rcases h with h | h <;> cases h⟩
  · exact ⟨nofun, nofun⟩

theorem deliveryLaw_reset : State.reset.deliveryLaw :=
  ⟨List.nodup_nil, List.forall_mem_nil _, forall_cells_reset, forall_cells_reset, List.forall_mem_nil _, List.forall_mem_nil _⟩

theorem cellLaw_reset : State.reset.cellLaw :=
  ⟨List.forall_mem_nil _, slotLaw_reset, tryLaw_reset, recordLaw_reset, deliveryLaw_reset, List.forall_mem_nil _⟩

theorem counterLaw_reset : State.reset.counterLaw := by
  intro k
  rw [work_reset]
  exact ⟨nofun, nofun, nofun⟩

theorem tablesLaw_reset : State.reset.tablesLaw := by
  refine ⟨fun i => ?_, by decide, by decide, by decide⟩
  rw [profiles_reset]
  decide

theorem answerLaw_reset : State.reset.answerLaw := by
  intro k
  obtain ⟨role, rate, pace, hp⟩ := ports_reset k
  rw [hp]
  exact ⟨Nat.zero_le _, Nat.zero_le _, rfl⟩

theorem noticeLaw_reset : State.reset.noticeLaw := by
  intro k
  obtain ⟨role, rate, pace, hp⟩ := ports_reset k
  rw [hp]
  exact Nat.zero_le _

theorem safe_reset : State.reset.safe := by
  refine ⟨⟨by decide, List.nodup_nil, by decide⟩, List.forall_mem_nil _, by decide, cellLaw_reset, List.forall_mem_nil _, counterLaw_reset,
    ⟨nofun, nofun, nofun, nofun⟩, tablesLaw_reset, by decide, ⟨memoryWf_reset, by decide⟩, noticeLaw_reset,
    answerLaw_reset, ⟨by decide, fun k => ?_⟩, rfl⟩
  rw [work_reset]
  exact Nat.zero_le _

/-- Settles O2: the reset state keeps every law, and its fields are those that the manual states. -/
theorem resetValues : Obligations.ResetValues := by
  refine ⟨safe_reset, rfl, profiles_reset, rfl, rfl, rfl, rfl, rfl, rfl, rfl, fun k => ?_, rfl, rfl, rfl, rfl, rfl, rfl,
    rfl, rfl, rfl, rfl, rfl, rfl, rfl, rfl, rfl, rfl, rfl, rfl, rfl, rfl, rfl, rfl, rfl, rfl, rfl, rfl, rfl, rfl, rfl,
    rfl, fun k => ⟨held_reset k, holders_reset k⟩, retain_reset, rfl, rfl, rfl, rfl, rfl, rfl, fun k => ?_⟩
  · rw [work_reset]; rfl
  · obtain ⟨role, rate, pace, hp⟩ := ports_reset k
    rw [hp]
    exact ⟨rfl, rfl, rfl, rfl, rfl, rfl, rfl, rfl, rfl⟩

/-! ## Cold reset -/

/-- A role that the lower-numbered ports leave free is taken; one that a lower-numbered port asks for too is taken
by none but the lowest, of TRANSPORT and ARCHIVE (R169). -/
theorem resolveRole_pair (x y z : Role) :
    resolveRole x [] = x
      ∧ resolveRole y [x] = (if y = x ∧ (y = .transport ∨ y = .archive) then .off else y)
      ∧ resolveRole z [x, resolveRole y [x]] =
          (if (z = x ∨ z = y) ∧ (z = .transport ∨ z = .archive) then .off else z) := by
  cases x <;> cases y <;> cases z <;> decide

/-- Settles O3: the ports' roles follow from how a role is resolved beside the lower-numbered ports. -/
theorem coldResetReadsStraps : Obligations.ColdResetReadsStraps := by
  intro a b c s
  obtain ⟨hfirst, hsecond, hthird⟩ := resolveRole_pair (strapRole a) (strapRole b) (strapRole c)
  refine ⟨_, rfl, rfl, hfirst, ?_, ?_, rfl, rfl, rfl, fun k => ?_⟩
  · show resolveRole (strapRole b) [resolveRole (strapRole a) []] = _
    rw [hfirst, hsecond]
  · show resolveRole (strapRole c) [resolveRole (strapRole a) [], resolveRole (strapRole b) [resolveRole _ []]] = _
    rw [hfirst, hthird]
  · match k with
    | 0 => rfl
    | 1 => rfl
    | 2 => rfl

end Sys2Proof.Machine
end

section
/-! PROOFS. What the service of a request keeps, and which commands change the tables, the clock and the store's
bytes. -/

namespace Sys2Proof.Machine

-- One proof at a time: under the memory limit of the check there is no room for the stacks of many threads.
set_option Elab.async false

/-! ## What a request keeps -/

/-- A property that neither the ports nor the notices raised nor a wake touch. -/
structure Unported (P : State → Prop) : Prop where
  ports : ∀ x ports, P x → P { x with ports := ports }
  raised : ∀ x raised, P x → P { x with raised := raised }
  wake : ∀ x : State, P x → P (x.onFsc fun f => { f with state := .waking })

variable {P : State → Prop}

theorem Unported.onPort (h : Unported P) {x : State} (hx : P x) (p : PortNo) (f : Port → Port) : P (x.onPort p f) :=
  h.ports x _ hx

theorem Unported.finish (h : Unported P) {x : State} (hx : P x) (ns : List Notice) : P (x.finish ns) :=
  h.ports { x with raised := [] } _ (h.raised x [] hx)

theorem Unported.woken (h : Unported P) {x : State} (hx : P x) (p : PortNo) : P (x.wake p) :=
  h.raised (x.onFsc fun f => { f with state := .waking }) _ (h.wake x hx)

/-- A property that the ports do not touch is kept by a request whose handler keeps it. -/
theorem Unported.request (h : Unported P) {s : State} (hs : P s) {q : Src} {kind : RequestKind}
    {handle : State → State × Reply} (hh : ∀ x, P x → P (handle x).1) : P (s.request q kind handle) := by
  have hand (x : State) (hx : P x) : P (x.hand q kind handle) := by
    unfold State.hand
    exact h.onPort (hh _ (h.onPort hx _ _)) _ _
  have aside (x : State) (hx : P x) : P (x.handAside q kind handle) := by
    unfold State.handAside
    exact h.onPort (hh _ hx) _ _
  have refuse (x : State) (hx : P x) (code : AnswerCode) : P (x.refuse q kind code) := h.onPort hx _ _
  have hf : P (s.frameTaken q.port) := h.onPort hs _ _
  have hw := h.woken hf q.port
  unfold State.request State.judgeRequest
  dsimp only
  split
  · exact hs
  · split
    · split_ifs
      · exact refuse _ hw _
      · exact aside _ hw
      · exact refuse _ hw _
    · split_ifs
      · exact refuse _ hf _
      · exact hand _ hf
      · exact refuse _ hf _

theorem Unported.serve (h : Unported P) {s t : State} (hs : P s) {q : Src} {kind : RequestKind}
    {handle : State → State × Reply} (hh : ∀ x, P x → P (handle x).1) (ht : s.serve q kind handle = .next t) : P t := by
  cases ht
  exact h.finish (h.request hs hh) _

theorem Unported.serveQuiet (h : Unported P) {s t : State} (hs : P s) {q : Src} {kind : RequestKind}
    {handle : State → State × Reply} (hh : ∀ x, P x → P (handle x).1) (ht : s.serveQuiet q kind handle = .next t) :
    P t := by
  cases ht
  exact h.finish (h.request hs hh) _

theorem State.key_of_plate? {x : State} {k : PlateKey} {r : PlateRecord} (h : x.plate? k = some r) : r.key = k := by
  simpa using List.find?_some h

theorem PlateRecord.place_of_cell? {r : PlateRecord} {column row : Nat} {c : CellRecord}
    (h : r.cell? column row = some c) : c.column = column ∧ c.row = row := by
  simpa using List.find?_some h

/-- A request that names a record keeps what its handler keeps, for the record of that key. -/
theorem withPlate_keeps {x : State} (hx : P x) {key : Option PlateKey} {f : PlateRecord → State × Reply}
    (hf : ∀ r, x.plate? r.key = some r → P (f r).1) : P (x.withPlate key f).1 := by
  unfold State.withPlate
  split
  · exact hx
  · split
    · exact hx
    · rename_i r hr
      exact hf r (State.key_of_plate? hr ▸ hr)

/-- A verdict keeps what its handler keeps, for the record and the cell it names. -/
theorem withCell_keeps {x : State} (hx : P x) {key : Option PlateKey} {column row : Option Nat} {given : Bool}
    {f : PlateRecord → CellRecord → State × Reply}
    (hf : ∀ r c, x.plate? r.key = some r → r.cell? c.column c.row = some c → P (f r c).1) :
    P (x.withCell key column row given f).1 := by
  unfold State.withCell
  split
  · split
    · exact hx
    · rename_i r hr
      split
      · exact hx
      · rename_i c hc
        obtain ⟨hcolumn, hrow⟩ := PlateRecord.place_of_cell? hc
        exact hf r c (State.key_of_plate? hr ▸ hr) (hcolumn ▸ hrow ▸ hc)
  · exact hx

/-! ## The handler of a request -/

/-- What the owning block of a request does and answers: the handler that its command hands to the port, `now` being
the time at the event. -/
def handlerOf (now : Seconds) : Instr → State → State × Reply
  | .enrol _ key profile handling emulsion columns rows =>
    fun x => x.handleEnrol (enrolRecord? key profile handling emulsion columns rows now)
  | .seated _ key => fun x => x.withPlate key x.handleSeated
  | .unseated _ key => fun x => x.withPlate key x.handleUnseated
  | .withdraw _ key => fun x => x.withPlate key x.handleWithdraw
  | .retire _ key => fun x => x.withPlate key x.handleRetire
  | .hold _ key => fun x => x.withPlate key x.handleHold
  | .free _ key => fun x => x.withPlate key x.handleFree
  | .mark _ key handling emulsion => fun x => x.withPlate key (x.handleMark handling emulsion)
  | .readPlate _ sel => fun x => (x, x.readPlate sel)
  | .readCell _ key column row => fun x => (x, x.readCell key column row)
  | .writeProfile _ index ladder satS floorF extT singleTry qceil =>
    fun x => x.handleWriteProfile (writtenProfile? index ladder satS floorF extT singleTry qceil)
  | .readProfile _ sel => fun x => (x, x.readProfile sel)
  | .setField _ width height => fun x => x.handleSetField width height
  | .setCapture _ settings => fun x => x.handleSetCapture (captureSettings settings)
  | .atCell _ key column row number => fun x => x.handleAtCell key column row number
  | .moveFault _ key number => fun x => x.handleMoveFault key number
  | .calibrateDark _ kindGiven tRef lampLevel => fun x => x.handleCalibrateDark kindGiven tRef lampLevel
  | .calibrateFlat _ kindGiven tRef lampLevel => fun x => x.handleCalibrateFlat kindGiven tRef lampLevel
  | .readCalib _ => fun x => (x, Reply.withData (.calib x.cal.record (x.cal.op.map x.calOpReport)))
  | .readFault _ =>
    fun x => (x.onPlr fun p => { p with capture := none }, Reply.withData (.fault x.plr.capture x.plr.faultCount x.plr.link))
  | .setClock _ value => fun x => x.handleSetClock value
  | .standby _ mask => fun x => x.handleStandby (regionMask mask)
  | .warmRestart _ => fun x => (x, Reply.done false)
  | .setDelivery _ mode => fun x => x.handleSetDelivery mode
  | .fetch _ key column row => fun x => x.handleFetch key column row
  | .releaseKeep _ key column row verdictGiven => fun x => x.withCell key column row verdictGiven x.handleKeep
  | .releaseRecapture _ key column row verdictGiven =>
    fun x => x.withCell key column row verdictGiven x.handleRecapture
  | .setFilter q kinds keyCode keyMask => fun x => x.handleSetFilter q.port kinds keyCode keyMask
  | .resume q => fun x => (x.onPort q.port fun p => { p with gate := .opened }, Reply.done false)
  | .readStatus q sect => fun x => x.handleReadStatus q.port sect
  | _ => fun x => (x, Reply.plain .field)

/-- A request that changes no plate record: its event raises none of the register's notices. -/
def quietRequest : Instr → Bool
  | .readPlate .. | .readCell .. | .writeProfile .. | .readProfile .. | .setField .. | .setCapture ..
  | .calibrateDark .. | .calibrateFlat .. | .readCalib .. | .readFault .. | .setClock .. | .warmRestart ..
  | .setFilter .. | .resume .. | .readStatus .. => true
  | _ => false

/-- A command that is a request is served by its handler, with the register's notices unless it is a quiet one. -/
theorem exec_request {i : Instr} {q : Src} {kind : RequestKind} (h : requestOf? i = some (q, kind)) (s : State) :
    exec i s = if quietRequest i then s.serveQuiet q kind (handlerOf s.tbu.clock i)
      else s.serve q kind (handlerOf s.tbu.clock i) := by
  cases i <;> cases h <;> rfl

/-- A request keeps a property that the ports do not touch, if its handler keeps it. -/
theorem Unported.exec_request (h : Unported P) {i : Instr} {q : Src} {kind : RequestKind}
    (hi : requestOf? i = some (q, kind)) {s t : State} (hs : P s)
    (hh : ∀ x, P x → P (handlerOf s.tbu.clock i x).1) (ht : exec i s = .next t) : P t := by
  rw [Machine.exec_request hi] at ht
  split at ht
  · exact h.serveQuiet hs hh ht
  · exact h.serve hs hh ht

end Sys2Proof.Machine
end

section
/-! PROOFS. Which commands change the tables, the clock and the store's bytes, and the laws on the store's bytes. -/

namespace Sys2Proof.Machine

-- One proof at a time: under the memory limit of the check there is no room for the stacks of many threads.
set_option Elab.async false

/-- The tables, the clock, the store's bytes and the refreshes owed are as they were. -/
structure State.SameTables (s t : State) : Prop where
  profiles : t.profiles = s.profiles
  geometry : t.geometry = s.geometry
  settings : t.settings = s.settings
  clock : t.tbu.clock = s.tbu.clock
  mem : t.fsc.mem = s.fsc.mem
  owed : t.fsc.refreshOwed = s.fsc.refreshOwed

theorem State.SameTables.refl (s : State) : s.SameTables s := ⟨rfl, rfl, rfl, rfl, rfl, rfl⟩

theorem State.SameTables.trans {s t u : State} (h : s.SameTables t) (g : t.SameTables u) : s.SameTables u :=
  ⟨g.profiles.trans h.profiles, g.geometry.trans h.geometry, g.settings.trans h.settings, g.clock.trans h.clock,
    g.mem.trans h.mem, g.owed.trans h.owed⟩

theorem State.sameTables_unported (s : State) : Unported s.SameTables where
  ports _ _ h := ⟨h.profiles, h.geometry, h.settings, h.clock, h.mem, h.owed⟩
  raised _ _ h := ⟨h.profiles, h.geometry, h.settings, h.clock, h.mem, h.owed⟩
  wake _ h := ⟨h.profiles, h.geometry, h.settings, h.clock, h.mem, h.owed⟩

/-- What the frame of `State.endFrame` does not say. -/
@[simp] theorem State.endFrame_rest (s : State) (count : Option Nat) :
    (s.endFrame count).fsc.refreshOwed = s.fsc.refreshOwed ∧ (s.endFrame count).fsc.reason = s.fsc.reason
      ∧ (s.endFrame count).fsc.mask = s.fsc.mask ∧ (s.endFrame count).fsc.retain = s.fsc.retain
      ∧ (s.endFrame count).cal.record = s.cal.record ∧ (s.endFrame count).cal.tally = s.cal.tally
      ∧ (s.endFrame count).csq.moveCounter = s.csq.moveCounter := by
  unfold State.endFrame
  dsimp only
  (repeat' split) <;> simp

/-- The commands that write one of them. -/
def writesTables : Instr → Bool
  | .coldReset .. | .writeProfile .. | .setField .. | .setCapture .. | .calibrateFlat .. | .setClock .. | .standby ..
  | .secondTick | .lampOnMinute | .refreshDue | .refreshComplete | .rowMergeComplete | .clearRowWrite
  | .calibrationAccumulationRow | .finalizationRowWrite => true
  | _ => false

/-- A request but those that set a table leaves the tables to its handler's frame. -/
theorem State.sameTables_handler {i : Instr} {q : Src} {kind : RequestKind} (hi : requestOf? i = some (q, kind))
    (hw : writesTables i = false) (now : Seconds) (x : State) : x.SameTables (handlerOf now i x).1 := by
  cases i <;> cases hi
  case writeProfile | setField | setCapture | calibrateFlat | setClock | standby => cases hw
  case enrol | setDelivery | fetch | atCell | moveFault | calibrateDark | readStatus =>
    constructor <;> simp [handlerOf]
  case seated | unseated | withdraw | retire | hold | free | mark =>
    exact withPlate_keeps (.refl x) fun r _ => by constructor <;> simp
  case releaseKeep | releaseRecapture => exact withCell_keeps (.refl x) fun r c _ _ => by constructor <;> simp
  case readPlate | readCell | readProfile | readCalib | readFault | warmRestart | resume =>
    exact ⟨rfl, rfl, rfl, rfl, rfl, rfl⟩
  case setFilter =>
    unfold handlerOf State.handleSetFilter
    dsimp only
    split <;> exact ⟨rfl, rfl, rfl, rfl, rfl, rfl⟩

/-- A command but those that write a table leaves them as they are. -/
theorem State.sameTables_exec {i : Instr} (hw : writesTables i = false) {s t : State} (ht : exec i s = .next t) :
    s.SameTables t := by
  cases hr : requestOf? i with
  | some k =>
    exact s.sameTables_unported.exec_request hr (.refl s) (fun x hx => hx.trans (x.sameTables_handler hr hw _)) ht
  | none =>
    cases i
    case coldReset | secondTick | lampOnMinute | refreshDue | refreshComplete | rowMergeComplete | clearRowWrite
      | calibrationAccumulationRow | finalizationRowWrite => cases hw
    case coldResetEnd | warmUpExpiry | monitorSample | shutterRise | readyRise | readyFall | startSent | headerSent
      | deliveryRowSent | endSent | badFrame | nonRequestFrame | lineBreak | paceRise | paceFall | noticeSent
      | answerSent | unknownUnit =>
      simp only [exec, execColdResetEnd, execWarmUpExpiry, execMonitorSample, execShutterRise, execReadyRise,
        execReadyFall, execStartSent, execHeaderSent, execDeliveryRowSent, execEndSent, execBadFrame,
        execNonRequestFrame, execLineBreak, execPaceRise, execPaceFall, execNoticeSent, execAnswerSent,
        execUnknownUnit] at ht
      repeat' split at ht
      all_goals cases ht; constructor <;> simp
    case resetWarm | bringUpPass | bringUpFail | relockPass | relockFail | settleTimerExpiry | moveTimerExpiry
      | lampCheck | idleTimerExpiry | shutterFall | uplinkRow | frameEnd =>
      simp only [exec, execResetWarm, execBringUpPass, execBringUpFail, execRelockPass, execRelockFail,
        execSettleTimerExpiry, execMoveTimerExpiry, execLampCheck, execIdleTimerExpiry, execShutterFall, execUplinkRow,
        execFrameEnd, State.uplinkEnd] at ht
      repeat' split at ht
      all_goals cases ht; constructor <;> simp
    case deliveryReadComplete | frameTimerExpiry | frameStart | uplinkIdle =>
      simp only [exec, execDeliveryReadComplete, execFrameTimerExpiry, execFrameStart, execUplinkIdle, State.uplinkEnd,
        State.idleEnd] at ht
      repeat' split at ht
      all_goals cases ht; constructor <;> simp
    all_goals cases hr

/-! ## The commands that write one of them -/

/-- A projection that neither the ports nor the notices raised nor a wake touch. -/
structure UnportedFn {α : Type} (f : State → α) : Prop where
  ports : ∀ x ports, f { x with ports := ports } = f x
  raised : ∀ x raised, f { x with raised := raised } = f x
  wake : ∀ x : State, f (x.onFsc fun y => { y with state := .waking }) = f x

theorem UnportedFn.unported {α : Type} {f : State → α} (h : UnportedFn f) (a : α) : Unported fun x => f x = a where
  ports x p hx := (h.ports x p).trans hx
  raised x p hx := (h.raised x p).trans hx
  wake x hx := (h.wake x).trans hx

/-- A request keeps what its handler keeps. -/
theorem UnportedFn.exec_request {α : Type} {f : State → α} (h : UnportedFn f) {i : Instr} {q : Src} {kind : RequestKind}
    (hi : requestOf? i = some (q, kind)) {s t : State} (hh : ∀ now x, f (handlerOf now i x).1 = f x)
    (ht : exec i s = .next t) : f t = f s :=
  (h.unported (f s)).exec_request hi rfl (fun x hx => (hh _ x).trans hx) ht

theorem unported_profiles : UnportedFn State.profiles := ⟨fun _ _ => rfl, fun _ _ => rfl, fun _ => rfl⟩
theorem unported_geometry : UnportedFn State.geometry := ⟨fun _ _ => rfl, fun _ _ => rfl, fun _ => rfl⟩
theorem unported_settings : UnportedFn State.settings := ⟨fun _ _ => rfl, fun _ _ => rfl, fun _ => rfl⟩
theorem unported_clock : UnportedFn fun x => x.tbu.clock := ⟨fun _ _ => rfl, fun _ _ => rfl, fun _ => rfl⟩
theorem unported_mem : UnportedFn fun x => x.fsc.mem := ⟨fun _ _ => rfl, fun _ _ => rfl, fun _ => rfl⟩
theorem unported_owed : UnportedFn fun x => x.fsc.refreshOwed := ⟨fun _ _ => rfl, fun _ _ => rfl, fun _ => rfl⟩

/-- The row completions and the refresh events leave the tables and the clock. -/
theorem State.tables_of_completion {i : Instr}
    (hi : i = .refreshDue ∨ i = .refreshComplete ∨ i = .rowMergeComplete ∨ i = .clearRowWrite
      ∨ i = .calibrationAccumulationRow ∨ i = .finalizationRowWrite) {s t : State} (ht : exec i s = .next t) :
    t.profiles = s.profiles ∧ t.geometry = s.geometry ∧ t.settings = s.settings ∧ t.tbu.clock = s.tbu.clock := by
  rcases hi with rfl | rfl | rfl | rfl | rfl | rfl
  all_goals
    simp only [exec, execRefreshDue, execRefreshComplete, execRowMergeComplete, execClearRowWrite,
      execCalibrationAccumulationRow, execFinalizationRowWrite, State.accessEnd] at ht
    repeat' split at ht
    all_goals cases ht; simp

/-- The events that count seconds leave everything but the clock, the calibration and what the ports send. -/
theorem State.tables_of_second {i : Instr} (hi : i = .secondTick ∨ i = .lampOnMinute) {s t : State}
    (ht : exec i s = .next t) :
    t.profiles = s.profiles ∧ t.geometry = s.geometry ∧ t.settings = s.settings ∧ t.fsc = s.fsc := by
  rcases hi with rfl | rfl
  all_goals
    simp only [exec, execSecondTick, execLampOnMinute] at ht
    split at ht
    all_goals cases ht; simp

/-- A refresh event writes no byte. -/
theorem State.mem_of_refresh {i : Instr} (hi : i = .refreshDue ∨ i = .refreshComplete) {s t : State}
    (ht : exec i s = .next t) : t.fsc.mem = s.fsc.mem := by
  rcases hi with rfl | rfl
  all_goals
    simp only [exec, execRefreshDue, execRefreshComplete] at ht
    repeat' split at ht
    all_goals cases ht; simp

/-- WRITE_PROFILE changes no table but the profiles, and no byte. -/
theorem State.tables_of_writeProfile {q a b c d e f g} {s t : State} (ht : exec (.writeProfile q a b c d e f g) s = .next t) :
    t.geometry = s.geometry ∧ t.settings = s.settings ∧ t.tbu.clock = s.tbu.clock ∧ t.fsc.mem = s.fsc.mem
      ∧ t.fsc.refreshOwed = s.fsc.refreshOwed :=
  ⟨unported_geometry.exec_request rfl (by simp [handlerOf]) ht, unported_settings.exec_request rfl (by simp [handlerOf]) ht,
    unported_clock.exec_request rfl (by simp [handlerOf]) ht, unported_mem.exec_request rfl (by simp [handlerOf]) ht,
    unported_owed.exec_request rfl (by simp [handlerOf]) ht⟩

/-- SET_FIELD changes no table but the geometry, and no byte. -/
theorem State.tables_of_setField {q w h} {s t : State} (ht : exec (.setField q w h) s = .next t) :
    t.profiles = s.profiles ∧ t.settings = s.settings ∧ t.tbu.clock = s.tbu.clock ∧ t.fsc.mem = s.fsc.mem
      ∧ t.fsc.refreshOwed = s.fsc.refreshOwed :=
  ⟨unported_profiles.exec_request rfl (by simp [handlerOf]) ht, unported_settings.exec_request rfl (by simp [handlerOf]) ht,
    unported_clock.exec_request rfl (by simp [handlerOf]) ht, unported_mem.exec_request rfl (by simp [handlerOf]) ht,
    unported_owed.exec_request rfl (by simp [handlerOf]) ht⟩

/-- SET_CAPTURE as the profile table takes it leaves the register, the profiles, the geometry and the store. -/
@[simp] theorem State.handleSetCapture_frame (s : State) (given : Option (List (Setting × Nat))) :
    (s.handleSetCapture given).1.profiles = s.profiles ∧ (s.handleSetCapture given).1.geometry = s.geometry
      ∧ (s.handleSetCapture given).1.tbu.clock = s.tbu.clock ∧ (s.handleSetCapture given).1.fsc = s.fsc := by
  unfold State.handleSetCapture
  split
  · simp
  · split_ifs <;> simp

/-- SET_CAPTURE changes no table but the settings, and no byte. -/
theorem State.tables_of_setCapture {q l} {s t : State} (ht : exec (.setCapture q l) s = .next t) :
    t.profiles = s.profiles ∧ t.geometry = s.geometry ∧ t.tbu.clock = s.tbu.clock ∧ t.fsc.mem = s.fsc.mem
      ∧ t.fsc.refreshOwed = s.fsc.refreshOwed :=
  ⟨unported_profiles.exec_request rfl (by simp [handlerOf]) ht, unported_geometry.exec_request rfl (by simp [handlerOf]) ht,
    unported_clock.exec_request rfl (by simp [handlerOf]) ht, unported_mem.exec_request rfl (by simp [handlerOf]) ht,
    unported_owed.exec_request rfl (by simp [handlerOf]) ht⟩

/-- CALIBRATE FLAT changes no table but the settings, and no byte. -/
theorem State.tables_of_calibrateFlat {q a b l} {s t : State} (ht : exec (.calibrateFlat q a b l) s = .next t) :
    t.profiles = s.profiles ∧ t.geometry = s.geometry ∧ t.tbu.clock = s.tbu.clock ∧ t.fsc.mem = s.fsc.mem
      ∧ t.fsc.refreshOwed = s.fsc.refreshOwed :=
  ⟨unported_profiles.exec_request rfl (by simp [handlerOf]) ht, unported_geometry.exec_request rfl (by simp [handlerOf]) ht,
    unported_clock.exec_request rfl (by simp [handlerOf]) ht, unported_mem.exec_request rfl (by simp [handlerOf]) ht,
    unported_owed.exec_request rfl (by simp [handlerOf]) ht⟩

/-- SET_CLOCK changes the clock alone. -/
theorem State.tables_of_setClock {q v} {s t : State} (ht : exec (.setClock q v) s = .next t) :
    t.profiles = s.profiles ∧ t.geometry = s.geometry ∧ t.settings = s.settings ∧ t.fsc.mem = s.fsc.mem
      ∧ t.fsc.refreshOwed = s.fsc.refreshOwed :=
  ⟨unported_profiles.exec_request rfl (by simp [handlerOf]) ht, unported_geometry.exec_request rfl (by simp [handlerOf]) ht,
    unported_settings.exec_request rfl (by simp [handlerOf]) ht, unported_mem.exec_request rfl (by simp [handlerOf]) ht,
    unported_owed.exec_request rfl (by simp [handlerOf]) ht⟩

/-- STANDBY as the store takes it leaves the tables and the clock. -/
@[simp] theorem State.handleStandby_frame (s : State) (mask : Option (List RegionNo)) :
    (s.handleStandby mask).1.profiles = s.profiles ∧ (s.handleStandby mask).1.geometry = s.geometry
      ∧ (s.handleStandby mask).1.settings = s.settings ∧ (s.handleStandby mask).1.tbu.clock = s.tbu.clock := by
  unfold State.handleStandby State.standby
  repeat' split
  all_goals simp

/-- STANDBY changes no table and not the clock. -/
theorem State.tables_of_standby {q m} {s t : State} (ht : exec (.standby q m) s = .next t) :
    t.profiles = s.profiles ∧ t.geometry = s.geometry ∧ t.settings = s.settings ∧ t.tbu.clock = s.tbu.clock :=
  ⟨unported_profiles.exec_request rfl (by simp [handlerOf]) ht, unported_geometry.exec_request rfl (by simp [handlerOf]) ht,
    unported_settings.exec_request rfl (by simp [handlerOf]) ht, unported_clock.exec_request rfl (by simp [handlerOf]) ht⟩

/-- Each command that writes a table changes no table but its own. -/
theorem State.changed_of_writesTables {i : Instr} (hw : writesTables i = true) {s t : State} (ht : exec i s = .next t) :
    (t.profiles ≠ s.profiles → (∃ a b c, i = .coldReset a b c) ∨ ∃ q a b c d e f g, i = .writeProfile q a b c d e f g)
      ∧ (t.geometry ≠ s.geometry → (∃ a b c, i = .coldReset a b c) ∨ ∃ q w h, i = .setField q w h)
      ∧ (t.settings ≠ s.settings → (∃ a b c, i = .coldReset a b c) ∨ (∃ q l, i = .setCapture q l)
          ∨ ∃ q b x l, i = .calibrateFlat q b x l)
      ∧ (t.tbu.clock ≠ s.tbu.clock → (∃ a b c, i = .coldReset a b c) ∨ (∃ q v, i = .setClock q v) ∨ i = .secondTick
          ∨ i = .lampOnMinute)
      ∧ (t.fsc.mem ≠ s.fsc.mem → (∃ a b c, i = .coldReset a b c) ∨ (∃ q m, i = .standby q m) ∨ i = .rowMergeComplete
          ∨ i = .clearRowWrite ∨ i = .calibrationAccumulationRow ∨ i = .finalizationRowWrite) := by
  cases i
  case coldReset => simp
  case writeProfile => simp [State.tables_of_writeProfile ht]
  case setField => simp [State.tables_of_setField ht]
  case setCapture => simp [State.tables_of_setCapture ht]
  case calibrateFlat => simp [State.tables_of_calibrateFlat ht]
  case setClock => simp [State.tables_of_setClock ht]
  case standby => simp [State.tables_of_standby ht]
  case secondTick | lampOnMinute => simp [State.tables_of_second (by simp) ht]
  case refreshDue | refreshComplete =>
    simp [State.tables_of_completion (by simp) ht, State.mem_of_refresh (by simp) ht]
  case rowMergeComplete | clearRowWrite | calibrationAccumulationRow | finalizationRowWrite =>
    simp [State.tables_of_completion (by simp) ht]
  all_goals cases hw

/-- Settles O49: a command that writes no table keeps them all, and each of the others keeps all but its own. -/
theorem onlyTheseCommandsChange : Obligations.OnlyTheseCommandsChange := by
  constructor
  all_goals
    intro s t i ht
    rcases Bool.eq_false_or_eq_true (writesTables i) with hw | hw
  · obtain ⟨hprofiles, hgeometry, hsettings, hclock, -⟩ := State.changed_of_writesTables hw ht
    exact ⟨hprofiles, hgeometry, hsettings, hclock⟩
  · have h := State.sameTables_exec hw ht
    simp [h.profiles, h.geometry, h.settings, h.clock]
  · obtain ⟨-, -, -, -, hmem⟩ := State.changed_of_writesTables hw ht
    exact hmem
  · simp [(State.sameTables_exec hw ht).mem]

end Sys2Proof.Machine
end

section
/-! PROOFS. The store's bytes after the completion of an access, and the law on them. -/

namespace Sys2Proof.Machine

-- One proof at a time: under the memory limit of the check there is no room for the stacks of many threads.
set_option Elab.async false

/-! ## The bytes that a completion writes -/

@[simp] theorem State.writeRow_accessDone_mem (s : State) (row : Option StoreRow) :
    (s.accessDone.writeRow row).fsc.mem = (s.writeRow row).fsc.mem := by cases row <;> rfl

theorem State.mergeDone_mem (s : State) (k : SlotNo) (o y : Nat) (codes : List CameraCode) :
    (s.mergeDone k o y codes).fsc.mem = (s.writeRow (s.storedRow? (.merge k o y codes))).fsc.mem := rfl

theorem State.clearRowDone_mem (s : State) (k : SlotNo) (y : Nat) :
    (s.clearRowDone k y).fsc.mem = (s.writeRow (s.storedRow? (.clear k y))).fsc.mem := by
  unfold State.clearRowDone
  dsimp only
  repeat' split
  all_goals simp [State.onCtx]

theorem State.finalRowDone_mem (s : State) (k : SlotNo) (y : Nat) :
    (s.finalRowDone k y).fsc.mem = (s.writeRow (s.storedRow? (.finalize k y))).fsc.mem := by
  unfold State.finalRowDone
  dsimp only
  split <;> simp

/-- The end of a calibration access writes the row of its plane, or none. -/
theorem State.calibWorkDone_mem (s : State) {w : StoreWork} (hw : w.isCalib = true) :
    (s.calibWorkDone w).fsc.mem = (s.writeRow (s.storedRow? w)).fsc.mem := by
  unfold State.calibWorkDone State.storedRow?
  cases hop : s.cal.op with
  | none => cases w <;> simp_all [StoreWork.isCalib]
  | some op =>
    cases w with
    | calibAdd frame y codes => simp [State.addCalibRow]
    | openRow y => simp
    | gainRow y =>
      simp only [State.gainRowDone]
      repeat' split
      all_goals simp
    | _ => cases hw

/-- A written row leaves the store in canonical form. -/
theorem State.memoryWf_writeRow {s : State} (h : memoryWf s.fsc.mem) (row : Option StoreRow) :
    memoryWf (s.writeRow row).fsc.mem := by
  cases row with
  | none => exact h
  | some r => exact memoryWf_writeBytes h _ _

/-- What the completion of an access does to the store's bytes: a used one writes the row of its work, a stopped one
the row it was forming (R140, R141, R149). -/
theorem State.accessEnd_mem {s : State} {w : StoreWork} {result : AccessResult} {effect : State → State}
    (he : ∀ x : State, x = s.accessDone → (effect x).fsc.mem = (x.writeRow (x.storedRow? w)).fsc.mem) :
    ∃ row, (s.accessEnd result effect).fsc.mem = (s.writeRow row).fsc.mem := by
  cases result with
  | used => exact ⟨s.accessDone.storedRow? w, by rw [State.accessEnd_used, he _ rfl, State.writeRow_accessDone_mem]⟩
  | unused row => exact ⟨row, by rw [State.accessEnd_unused, State.writeRow_accessDone_mem]⟩

/-- The completion of an access writes one row, or none. -/
theorem State.mem_of_rowCompletion {i : Instr}
    (hi : i = .rowMergeComplete ∨ i = .clearRowWrite ∨ i = .calibrationAccumulationRow ∨ i = .finalizationRowWrite)
    {s t : State} (ht : exec i s = .next t) :
    (∃ row, t.fsc.mem = (s.writeRow row).fsc.mem) ∧ t.fsc.refreshOwed = s.fsc.refreshOwed := by
  rcases hi with rfl | rfl | rfl | rfl
  · simp only [exec, execRowMergeComplete] at ht
    split at ht <;> cases ht
    · rename_i k o y codes result _
      refine ⟨?_, ?_⟩
      · simpa using State.accessEnd_mem (s := s) (result := result) fun x _ => x.mergeDone_mem k o y codes
      · cases result <;> simp
    · exact ⟨⟨none, rfl⟩, rfl⟩
  · simp only [exec, execClearRowWrite] at ht
    split at ht <;> cases ht
    · rename_i k y result _
      refine ⟨?_, ?_⟩
      · simpa using State.accessEnd_mem (s := s) (result := result) fun x _ => x.clearRowDone_mem k y
      · cases result <;> simp
    · exact ⟨⟨none, rfl⟩, rfl⟩
  · simp only [exec, execCalibrationAccumulationRow] at ht
    split at ht
    · rename_i a _
      split at ht <;> cases ht
      · rename_i hc
        refine ⟨?_, ?_⟩
        · simpa using State.accessEnd_mem (s := s) (result := a.result) fun x _ => x.calibWorkDone_mem hc
        · cases a.result <;> simp
      · exact ⟨⟨none, rfl⟩, rfl⟩
    · cases ht
      exact ⟨⟨none, rfl⟩, rfl⟩
  · simp only [exec, execFinalizationRowWrite] at ht
    split at ht <;> cases ht
    · rename_i k y result _
      refine ⟨?_, ?_⟩
      · simpa using State.accessEnd_mem (s := s) (result := result) fun x _ => x.finalRowDone_mem k y
      · cases result <;> simp
    · exact ⟨⟨none, rfl⟩, rfl⟩

/-! ## The law on the store's bytes -/

/-- A refresh event keeps the refreshes owed at most 2 (R142). -/
theorem State.owed_of_refresh {i : Instr} (hi : i = .refreshDue ∨ i = .refreshComplete) {s t : State}
    (h : s.fsc.refreshOwed ≤ 2) (ht : exec i s = .next t) : t.fsc.refreshOwed ≤ 2 := by
  rcases hi with rfl | rfl
  · simp only [exec, execRefreshDue] at ht
    split at ht <;> cases ht
    · simp
    · exact h
  · simp only [exec, execRefreshComplete] at ht
    repeat' split at ht
    all_goals cases ht
    · simpa using by omega
    · exact h
    · exact h

theorem State.storeLaw_unported : Unported State.storeLaw where
  ports _ _ h := h
  raised _ _ h := h
  wake _ h := h

/-- A STANDBY keeps the bytes of the retained regions in canonical form, and owes no refresh (R145). -/
theorem State.storeLaw_handleStandby {s : State} (h : s.storeLaw) (mask : Option (List RegionNo)) :
    (s.handleStandby mask).1.storeLaw := by
  unfold State.handleStandby
  split
  · exact h
  · split
    · exact h
    · refine ⟨?_, by simp [State.standby, State.enterRetention, State.raise]⟩
      simpa [State.standby, State.enterRetention, State.raise] using memoryWf_retainOnly h.1 _

theorem State.storeLaw_exec {i : Instr} {s t : State} (h : s.storeLaw) (ht : exec i s = .next t) : t.storeLaw := by
  rcases Bool.eq_false_or_eq_true (writesTables i) with hw | hw
  · cases i
    case coldReset =>
      cases ht
      exact ⟨memoryWf_reset, Nat.zero_le _⟩
    case writeProfile => simpa [State.storeLaw, State.tables_of_writeProfile ht] using h
    case setField => simpa [State.storeLaw, State.tables_of_setField ht] using h
    case setCapture => simpa [State.storeLaw, State.tables_of_setCapture ht] using h
    case calibrateFlat => simpa [State.storeLaw, State.tables_of_calibrateFlat ht] using h
    case setClock => simpa [State.storeLaw, State.tables_of_setClock ht] using h
    case standby => 
      refine State.storeLaw_unported.exec_request rfl h (fun x hx => ?_) ht
      exact State.storeLaw_handleStandby hx _
    case secondTick | lampOnMinute => simpa [State.storeLaw, State.tables_of_second (by simp) ht] using h
    case refreshDue | refreshComplete =>
      exact ⟨State.mem_of_refresh (by simp) ht ▸ h.1, State.owed_of_refresh (by simp) h.2 ht⟩
    case rowMergeComplete | clearRowWrite | calibrationAccumulationRow | finalizationRowWrite =>
      obtain ⟨⟨row, hm⟩, ho⟩ := State.mem_of_rowCompletion (by simp) ht
      exact ⟨hm ▸ State.memoryWf_writeRow h.1 row, ho ▸ h.2⟩
    all_goals cases hw
  · have hs := State.sameTables_exec hw ht
    exact ⟨hs.mem ▸ h.1, hs.owed ▸ h.2⟩

/-- What a step is: idling on an empty queue, or the front command on the state with the queue's rest. -/
theorem step_next {s t : State} (h : step s = .next t) :
    t = s ∨ ∃ c rest, s.pending = c :: rest ∧ exec c { s with pending := rest } = .next t := by
  unfold step at h
  split at h
  · cases h
    exact .inl rfl
  · rename_i c rest hp
    exact .inr ⟨c, rest, hp, h⟩

/-- Settles O56: only a refresh event, a STANDBY and the completion of a row write touch what the law speaks of. -/
theorem stepKeepsStore : Obligations.StepKeepsStore := by
  intro s t h ht
  rcases step_next ht with rfl | ⟨c, rest, -, ht⟩
  · exact h
  · exact State.storeLaw_exec (s := { s with pending := rest }) h ht

end Sys2Proof.Machine
end

section
/-! PROOFS. The ranges of the tables, and the fault count with its link state. -/

namespace Sys2Proof.Machine

-- One proof at a time: under the memory limit of the check there is no room for the stacks of many threads.
set_option Elab.async false

/-! ## The calibration life, which SET_CAPTURE alone sets -/

section life

variable (s : State)

@[simp] theorem State.setCalRecord_life {f : CalRecord → CalRecord} (hf : ∀ r, (f r).life = r.life) :
    (s.setCalRecord f).cal.record.life = s.cal.record.life := hf _

@[simp] theorem State.darkComplete_life (op : CalOp) :
    (s.darkComplete op).cal.record.life = s.cal.record.life := by
  simp [State.darkComplete]

@[simp] theorem State.flatComplete_life (op : CalOp) :
    (s.flatComplete op).cal.record.life = s.cal.record.life := by
  simp [State.flatComplete]

@[simp] theorem State.attemptEnded_life (op : CalOp) : (s.attemptEnded op).cal.record.life = s.cal.record.life := by
  unfold State.attemptEnded
  repeat' split
  all_goals simp

@[simp] theorem State.pollCal_life : s.pollCal.cal.record.life = s.cal.record.life := by
  simp only [State.pollCal, State.pollAttemptTrigger_frame]
  unfold State.pollAttempt
  repeat' split
  all_goals simp

@[simp] theorem State.pollAll_life : s.pollAll.cal.record.life = s.cal.record.life := by
  simp [State.pollAll]

@[simp] theorem State.ageCalibration_life : s.ageCalibration.cal.record.life = s.cal.record.life := by
  unfold State.ageCalibration
  dsimp only
  repeat' split
  all_goals simp

@[simp] theorem State.minuteEvent_life : s.minuteEvent.cal.record.life = s.cal.record.life := by
  simp [State.minuteEvent]

@[simp] theorem State.gainRowDone_life (op : CalOp) (y : Nat) :
    (s.gainRowDone op y).cal.record.life = s.cal.record.life := by
  unfold State.gainRowDone
  dsimp only
  repeat' split
  all_goals simp

@[simp] theorem State.calibWorkDone_life (w : StoreWork) :
    (s.calibWorkDone w).cal.record.life = s.cal.record.life := by
  unfold State.calibWorkDone
  repeat' split
  all_goals simp

@[simp] theorem State.calibrationNone_life : s.calibrationNone.cal.record.life = s.cal.record.life := by
  unfold State.calibrationNone
  dsimp only
  split <;> rfl

@[simp] theorem State.handleSetField_life (width height : Option Nat) :
    (s.handleSetField width height).1.cal.record.life = s.cal.record.life := by
  unfold State.handleSetField
  dsimp only
  repeat' split
  all_goals simp

@[simp] theorem State.handleCalibrateDark_life (given : Bool) (tRef level : Option Nat) :
    (s.handleCalibrateDark given tRef level).1.cal.record.life = s.cal.record.life := by
  unfold State.handleCalibrateDark State.startDark
  repeat' split
  all_goals simp [CalRecord.withoutDark, CalRecord.withoutFlat]

@[simp] theorem State.handleCalibrateFlat_life (given : Bool) (tRef level : Option Nat) :
    (s.handleCalibrateFlat given tRef level).1.cal.record.life = s.cal.record.life := by
  unfold State.handleCalibrateFlat State.startFlat
  repeat' split
  all_goals simp [CalRecord.withoutFlat]

@[simp] theorem State.standbyCalibration_life (mask : List RegionNo) :
    (s.standbyCalibration mask).cal.record.life = s.cal.record.life := by
  unfold State.standbyCalibration
  repeat' split
  all_goals simp [CalRecord.withoutDark, CalRecord.withoutFlat]

@[simp] theorem State.handleStandby_life (mask : Option (List RegionNo)) :
    (s.handleStandby mask).1.cal.record.life = s.cal.record.life := by
  unfold State.handleStandby State.standby
  repeat' split
  all_goals simp

end life

theorem unported_life : UnportedFn fun x => x.cal.record.life := ⟨fun _ _ => rfl, fun _ _ => rfl, fun _ => rfl⟩

/-- The commands that set the life. -/
def setsLife : Instr → Bool
  | .coldReset .. | .setCapture .. => true
  | _ => false

/-- A request but SET_CAPTURE keeps the life. -/
theorem State.life_handler {i : Instr} {q : Src} {kind : RequestKind} (hi : requestOf? i = some (q, kind))
    (hw : setsLife i = false) (now : Seconds) (x : State) :
    (handlerOf now i x).1.cal.record.life = x.cal.record.life := by
  cases i <;> cases hi
  case setCapture => cases hw
  case seated | unseated | withdraw | retire | hold | free | mark =>
    exact withPlate_keeps (P := fun t => t.cal.record.life = x.cal.record.life) rfl fun r _ => by simp
  case releaseKeep | releaseRecapture =>
    exact withCell_keeps (P := fun t => t.cal.record.life = x.cal.record.life) rfl fun r c _ _ => by simp
  case readPlate | readCell | readProfile | readCalib | readFault | warmRestart | resume => rfl
  case setFilter =>
    unfold handlerOf State.handleSetFilter
    dsimp only
    split <;> rfl
  all_goals simp [handlerOf]

/-- A command but COLD_RESET and SET_CAPTURE keeps the life. -/
theorem State.life_exec {i : Instr} (hw : setsLife i = false) {s t : State}
    (ht : exec i s = .next t) : t.cal.record.life = s.cal.record.life := by
  cases hr : requestOf? i with
  | some k => exact unported_life.exec_request hr (fun now x => x.life_handler hr hw now) ht
  | none =>
    cases i
    case coldReset => cases hw
    case coldResetEnd | warmUpExpiry | monitorSample | shutterRise | readyRise | readyFall | startSent | headerSent
      | deliveryRowSent | endSent | badFrame | nonRequestFrame | lineBreak | paceRise | paceFall | noticeSent
      | answerSent | unknownUnit | refreshDue | refreshComplete | secondTick | lampOnMinute | deliveryReadComplete =>
      simp only [exec, execColdResetEnd, execWarmUpExpiry, execMonitorSample, execShutterRise, execReadyRise,
        execReadyFall, execStartSent, execHeaderSent, execDeliveryRowSent, execEndSent, execBadFrame,
        execNonRequestFrame, execLineBreak, execPaceRise, execPaceFall, execNoticeSent, execAnswerSent,
        execUnknownUnit, execRefreshDue, execRefreshComplete, execSecondTick, execLampOnMinute,
        execDeliveryReadComplete] at ht
      repeat' split at ht
      all_goals cases ht; simp
    case resetWarm | bringUpPass | bringUpFail | relockPass | relockFail | settleTimerExpiry | moveTimerExpiry
      | lampCheck | idleTimerExpiry | shutterFall =>
      simp only [exec, execResetWarm, execBringUpPass, execBringUpFail, execRelockPass, execRelockFail,
        execSettleTimerExpiry, execMoveTimerExpiry, execLampCheck, execIdleTimerExpiry, execShutterFall] at ht
      repeat' split at ht
      all_goals cases ht; simp
    case uplinkRow | frameEnd | frameTimerExpiry | frameStart | uplinkIdle =>
      simp only [exec, execUplinkRow, execFrameEnd, execFrameTimerExpiry, execFrameStart, execUplinkIdle,
        State.uplinkEnd, State.idleEnd] at ht
      repeat' split at ht
      all_goals cases ht; simp
    case rowMergeComplete | clearRowWrite | calibrationAccumulationRow | finalizationRowWrite =>
      simp only [exec, execRowMergeComplete, execClearRowWrite, execCalibrationAccumulationRow,
        execFinalizationRowWrite, State.accessEnd] at ht
      repeat' split at ht
      all_goals cases ht; simp
    all_goals cases hr

/-! ## What the requests store is in range -/

theorem clamp_within {lo hi : Nat} (h : lo ≤ hi) (v : Nat) : within lo hi (clamp lo hi v) := by
  simp only [within, clamp]
  omega

/-- A written profile is in range (R24, R27). -/
theorem inRange_of_writtenProfile? {index ladder a f x c y i p b}
    (h : writtenProfile? index ladder a f x y c = some (i, p, b)) (hi : strictlyIncreasing p.ladder = true) :
    p.inRange := by
  unfold writtenProfile? at h
  dsimp only at h
  split at h
  · split at h
    · rename_i hl
      cases h
      refine ⟨by simpa [within, clampedProfile] using hl, fun t ht => ?_, hi, clamp_within (by omega) _,
        clamp_within (by omega) _, clamp_within (by omega) _, clamp_within (by omega) _⟩
      obtain ⟨v, -, rfl⟩ := List.mem_map.mp ht
      exact clamp_within (by decide) v
    · cases h
  · cases h

/-- A field size is in range and stays a multiple, the ends of the range being multiples (R30, R31). -/
theorem fieldSize_inRange {m : Nat} (hm : 4096 % m = 0) (hl : 256 % m = 0) (v : Nat) :
    within 256 4096 (fieldSize m v) ∧ fieldSize m v % m = 0 := by
  refine ⟨clamp_within (by omega) _, ?_⟩
  unfold fieldSize clamp
  rcases max_choice 256 (min 4096 (v / m * m)) with h | h <;> rw [h]
  · exact hl
  · rcases min_choice 4096 (v / m * m) with h | h <;> rw [h]
    · exact hm
    · exact Nat.mul_mod_left _ _

theorem givenField_inRange (w h : Nat) : (givenField w h).inRange := by
  obtain ⟨hw, hw'⟩ := fieldSize_inRange (m := 64) (by omega) (by omega) w
  obtain ⟨hh, hh'⟩ := fieldSize_inRange (m := 16) (by omega) (by omega) h
  exact ⟨hw, hw', hh, hh'⟩

/-- A clamped setting is in the range of its setting (R32, R33). -/
theorem clampSetting_within (x : Setting) (v : Nat) :
    within (settingRange x).1 (settingRange x).2 (clampSetting x v) :=
  clamp_within (by cases x <;> decide) v

theorem settingOr_within {x : Setting} {v : Nat} (h : within (settingRange x).1 (settingRange x).2 v)
    (l : List (Setting × Nat)) : within (settingRange x).1 (settingRange x).2 (settingOr l x v) := by
  unfold settingOr
  split
  · exact clampSetting_within _ _
  · exact h

theorem Settings.updated_inRange {x : Settings} (h : x.inRange) (l : List (Setting × Nat)) :
    (x.updated l).inRange := by
  obtain ⟨h1, h2, h3, h4, h5, h6, h7, h8, h9⟩ := h
  exact ⟨settingOr_within (x := .fragileCap) h1 l, settingOr_within (x := .settleDwell) h2 l,
    settingOr_within (x := .moveTimeout) h3 l, settingOr_within (x := .readoutAllowance) h4 l,
    settingOr_within (x := .lampLevel) h5 l, settingOr_within (x := .warmUpTime) h6 l,
    settingOr_within (x := .lampTolerance) h7 l, settingOr_within (x := .idleTime) h8 l,
    settingOr_within (x := .linkWarningLimit) h9 l⟩

/-! ## The ranges of the tables -/

theorem State.tablesLaw_unported : Unported State.tablesLaw where
  ports _ _ h := h
  raised _ _ h := h
  wake _ h := h

theorem State.tablesLaw_congr {s t : State} (h : s.tablesLaw) (hp : t.profiles = s.profiles)
    (hg : t.geometry = s.geometry) (hs : t.settings = s.settings) (hl : t.cal.record.life = s.cal.record.life) :
    t.tablesLaw := by
  simpa only [State.tablesLaw, hp, hg, hs, hl] using h

theorem State.tablesLaw_handleWriteProfile {s : State} (h : s.tablesLaw) (index ladder a f x y c) :
    (s.handleWriteProfile (writtenProfile? index ladder a f x y c)).1.tablesLaw := by
  unfold State.handleWriteProfile
  split
  · exact h
  · rename_i i p b hw
    split
    · exact h
    · rename_i hi
      split_ifs
      · exact h
      · exact h
      · obtain ⟨hprofiles, hrest⟩ := h
        refine ⟨fun j => ?_, hrest⟩
        by_cases hj : i = j
        · subst hj
          simpa using inRange_of_writtenProfile? hw (by simpa using hi)
        · simpa [setAt_get_ne _ _ hj] using hprofiles j

theorem State.tablesLaw_handleSetField {s : State} (h : s.tablesLaw) (width height : Option Nat) :
    (s.handleSetField width height).1.tablesLaw := by
  obtain ⟨hp, hg, hs, hl⟩ := h
  refine ⟨by simpa using hp, ?_, by simpa using hs, by simpa using hl⟩
  unfold State.handleSetField
  dsimp only
  split
  · split_ifs
    all_goals first | exact hg | simpa using givenField_inRange _ _
  · exact hg

theorem State.tablesLaw_handleCalibrateFlat {s : State} (h : s.tablesLaw) (given : Bool) (tRef level : Option Nat) :
    (s.handleCalibrateFlat given tRef level).1.tablesLaw := by
  obtain ⟨hp, hg, hs, hl⟩ := h
  refine ⟨by simpa using hp, by simpa using hg, ?_, by simpa using hl⟩
  obtain ⟨h1, h2, h3, h4, h5, hrest⟩ := hs
  unfold State.handleCalibrateFlat State.startFlat
  repeat' split
  all_goals simp only [State.answer, State.lampRestart_frame, State.calibNotice_frame]
  all_goals first
    | exact ⟨h1, h2, h3, h4, h5, hrest⟩
    | exact ⟨h1, h2, h3, h4, clampSetting_within .lampLevel _, hrest⟩

theorem State.tablesLaw_handleSetCapture {s : State} (h : s.tablesLaw) (given : Option (List (Setting × Nat))) :
    (s.handleSetCapture given).1.tablesLaw := by
  obtain ⟨hp, hg, hs, hl⟩ := h
  unfold State.handleSetCapture
  split
  · exact ⟨hp, hg, hs, hl⟩
  · rename_i l
    split
    · exact ⟨hp, hg, hs, hl⟩
    · refine ⟨by simpa using hp, by simpa using hg, ?_, ?_⟩
      · rw [State.applySettings_settings]
        exact Settings.updated_inRange hs l
      · have hr : (s.levelledRecord l).life = s.cal.record.life := by
          unfold State.levelledRecord CalRecord.relevelled
          split_ifs <;> rfl
        rw [State.applySettings_cal, CalRecord.givenLife_eq]
        exact settingOr_within (x := .calibrationLife) (hr ▸ hl) l

theorem State.tablesLaw_exec {i : Instr} {s t : State} (h : s.tablesLaw) (ht : exec i s = .next t) : t.tablesLaw := by
  cases i
  case coldReset =>
    cases ht
    exact tablesLaw_reset
  case writeProfile =>
    refine State.tablesLaw_unported.exec_request rfl h (fun x hx => ?_) ht
    exact State.tablesLaw_handleWriteProfile hx _ _ _ _ _ _ _
  case setField =>
    refine State.tablesLaw_unported.exec_request rfl h (fun x hx => ?_) ht
    exact State.tablesLaw_handleSetField hx _ _
  case setCapture =>
    refine State.tablesLaw_unported.exec_request rfl h (fun x hx => ?_) ht
    exact State.tablesLaw_handleSetCapture hx _
  case calibrateFlat =>
    refine State.tablesLaw_unported.exec_request rfl h (fun x hx => ?_) ht
    exact State.tablesLaw_handleCalibrateFlat hx _ _ _
  case setClock =>
    obtain ⟨hp, hg, hs, -⟩ := State.tables_of_setClock ht
    exact State.tablesLaw_congr h hp hg hs (State.life_exec rfl ht)
  case standby =>
    obtain ⟨hp, hg, hs, -⟩ := State.tables_of_standby ht
    exact State.tablesLaw_congr h hp hg hs (State.life_exec rfl ht)
  case secondTick | lampOnMinute =>
    obtain ⟨hp, hg, hs, -⟩ := State.tables_of_second (by simp) ht
    exact State.tablesLaw_congr h hp hg hs (State.life_exec rfl ht)
  case refreshDue | refreshComplete | rowMergeComplete | clearRowWrite | calibrationAccumulationRow
    | finalizationRowWrite =>
    obtain ⟨hp, hg, hs, -⟩ := State.tables_of_completion (by simp) ht
    exact State.tablesLaw_congr h hp hg hs (State.life_exec rfl ht)
  all_goals
    have hs := State.sameTables_exec rfl ht
    exact State.tablesLaw_congr h hs.profiles hs.geometry hs.settings (State.life_exec rfl ht)

/-! ## The fault count and the link state -/

/-- The arbiter takes the row at the head of the receiver's queue or none, and nothing else of the receiver. -/
theorem State.arbitrate_plr (s : State) : s.arbitrate.plr = { s.plr with queue := s.arbitrate.plr.queue } := by
  unfold State.arbitrate State.grant Plr.takeFor
  dsimp only
  repeat' split
  all_goals rfl

@[simp] theorem State.arbitrate_link (s : State) :
    s.arbitrate.plr.faultCount = s.plr.faultCount ∧ s.arbitrate.plr.link = s.plr.link := by
  rw [State.arbitrate_plr]
  exact ⟨rfl, rfl⟩

@[simp] theorem State.pollAll_link (s : State) :
    s.pollAll.plr.faultCount = s.plr.faultCount ∧ s.pollAll.plr.link = s.plr.link := by
  simp [State.pollAll]

theorem State.linkLaw_unported : Unported State.linkLaw where
  ports _ _ h := h
  raised _ _ h := h
  wake _ h := h

theorem State.linkLaw_congr {s t : State} (h : s.linkLaw) (hs : t.settings = s.settings)
    (hc : t.plr.faultCount = s.plr.faultCount) (hl : t.plr.link = s.plr.link) : t.linkLaw := by
  simpa only [State.linkLaw, hs, hc, hl] using h

/-- A change of the receiver that leaves its count and its link state. -/
theorem State.linkLaw_onPlr {s : State} (h : s.linkLaw) {f : Plr → Plr}
    (hc : (f s.plr).faultCount = s.plr.faultCount := by rfl) (hl : (f s.plr).link = s.plr.link := by rfl) :
    (s.onPlr f).linkLaw :=
  State.linkLaw_congr h rfl hc hl

/-- A fault count of 0 is CLEAN under every warning limit (R115). -/
theorem linkOf_zero {limit : Nat} (h : within 8 191 limit) : linkOf limit 0 = .clean := by
  obtain ⟨h8, -⟩ := h
  simp [linkOf, Config.droppedCount, Config.guardedCount]
  omega

/-- A new warning limit moves CLEAN and WARNED alone, and leaves the link state that of the count (R35). -/
theorem relimited_linkOf (old new count : Nat) :
    relimited new count (linkOf old count) = linkOf new count := by
  have hlow (limit : Nat) (h : ¬ Config.droppedCount ≤ count) (h' : ¬ Config.guardedCount ≤ count) :
      linkOf limit count = if limit ≤ count then .warned else .clean := by simp [linkOf, h, h']
  by_cases hd : Config.droppedCount ≤ count
  · simp [linkOf, hd, relimited]
  · by_cases hg : Config.guardedCount ≤ count
    · simp [linkOf, hd, hg, relimited]
    · rw [hlow old hd hg, hlow new hd hg]
      split <;> rfl

/-- Whatever the link state was, a new fault count sets it (R114, R115). -/
theorem State.linkLaw_setFaultCount {s : State} (h : within 8 191 s.settings.linkWarningLimit) (n : Nat)
    (cause : LinkCause) : (s.setFaultCount n cause).linkLaw := by
  refine ⟨by simpa using h, ?_⟩
  unfold State.setFaultCount
  dsimp only
  split_ifs <;> simp

theorem State.linkLaw_chargeFault {s : State} (h : s.linkLaw) (m : FaultMark) (weight : Nat) :
    (s.chargeFault m weight).linkLaw := by
  unfold State.chargeFault
  dsimp only
  split_ifs
  · exact h
  · refine State.linkLaw_setFaultCount ?_ _ _
    exact h.1

theorem State.linkLaw_chargeRow {s : State} (h : s.linkLaw) (m : FaultMark) : (s.chargeRow m).linkLaw := by
  unfold State.chargeRow
  dsimp only
  split_ifs
  · exact h
  · exact State.linkLaw_chargeFault (State.linkLaw_onPlr (State.linkLaw_onPlr h)) _ _
  · exact State.linkLaw_chargeFault (State.linkLaw_onPlr h) _ _

theorem State.linkLaw_tearRow {s : State} (h : s.linkLaw) (kind : FaultKind) (i : Nat) : (s.tearRow kind i).linkLaw := by
  unfold State.tearRow
  split_ifs
  · exact h
  · exact State.linkLaw_chargeRow (State.linkLaw_onPlr h) _

theorem State.linkLaw_tearRows {s : State} (h : s.linkLaw) (kind : FaultKind) (first count : Nat) :
    (s.tearRows kind first count).linkLaw := by
  unfold State.tearRows
  generalize List.range count = l
  induction l generalizing s with
  | nil => exact h
  | cons k ks ih => exact ih (State.linkLaw_tearRow h _ _)

theorem State.linkLaw_strayFrame {s : State} (h : s.linkLaw) : s.strayFrame.linkLaw :=
  State.linkLaw_chargeFault (State.linkLaw_onPlr h) _ _

theorem State.linkLaw_cleanDecrement {s : State} (h : s.linkLaw) : s.cleanDecrement.linkLaw := by
  unfold State.cleanDecrement
  split_ifs
  · exact State.linkLaw_setFaultCount h.1 _ _
  · exact h

/-! ### The stages of a frame's end (R111) -/

/-- The missing rows of the open frame are torn. -/
def State.missingTorn (s : State) : State := s.tearRows .length s.plr.nextRow (s.geometry.height - s.plr.nextRow)

/-- The row count of a FRAME_END whose check passes differs from H. -/
def State.wrongCount (s : State) (count : Option Nat) : Bool :=
  match count with
  | some n => n != s.geometry.height
  | none => false

/-- The LENGTH fault of weight 0. -/
def State.countCaptured (s : State) : State :=
  s.chargeFault { kind := .length, exposure := s.plr.faultExposure, row := none } 0

/-- The clean decrement is made and the frame is no longer awaited. -/
def State.frameClosed (s : State) : State :=
  s.cleanDecrement.onPlr fun p => { p with reception := .between, awaitedTag := none }

/-- The end is reported, or waits for the window-end decision. -/
def State.endConcluded (s : State) : State :=
  if s.plr.decision = .waiting then s.onPlr fun p => { p with endPending := true } else s.reportFrameEnd s.plr.tornCount

theorem State.endFrame_eq (s : State) (count : Option Nat) :
    s.endFrame count =
      if s.missingTorn.plr.link = .dropped then s.missingTorn
      else
        (if s.geometry.height - s.plr.nextRow = 0 ∧ s.wrongCount count = true then s.missingTorn.countCaptured
          else s.missingTorn).frameClosed.endConcluded := rfl

theorem State.linkLaw_endConcluded {s : State} (h : s.linkLaw) : s.endConcluded.linkLaw := by
  unfold State.endConcluded
  split
  · exact State.linkLaw_onPlr h
  · exact State.linkLaw_congr h (by simp) (by simp) (by simp)

theorem State.linkLaw_endFrame {s : State} (h : s.linkLaw) (count : Option Nat) : (s.endFrame count).linkLaw := by
  have htear : s.missingTorn.linkLaw := State.linkLaw_tearRows h _ _ _
  have hend {x : State} (hx : x.linkLaw) : x.frameClosed.endConcluded.linkLaw :=
    State.linkLaw_endConcluded (State.linkLaw_onPlr (State.linkLaw_cleanDecrement hx))
  rw [State.endFrame_eq]
  split_ifs
  · exact htear
  · exact hend (State.linkLaw_chargeFault htear _ _)
  · exact hend htear

theorem State.linkLaw_queueRow {s : State} (h : s.linkLaw) (i : Nat) (codes : List CameraCode) :
    (s.queueRow i codes).linkLaw := by
  unfold State.queueRow
  dsimp only
  split
  · exact State.linkLaw_onPlr h
  · exact State.linkLaw_onPlr h
  · split_ifs
    · exact State.linkLaw_tearRow (State.linkLaw_onPlr h) _ _
    · exact State.linkLaw_onPlr (State.linkLaw_onPlr h)
    · exact State.linkLaw_onPlr (State.linkLaw_onPlr h)

theorem State.linkLaw_receiveRow {s : State} (h : s.linkLaw) (good : Bool) (index : Nat) (codes : List Byte) :
    (s.receiveRow good index codes).linkLaw := by
  unfold State.receiveRow
  dsimp only
  split_ifs
  · exact State.linkLaw_tearRow (State.linkLaw_onPlr h) _ _
  · exact State.linkLaw_tearRow (State.linkLaw_onPlr h) _ _
  · exact State.linkLaw_chargeRow h _
  · exact State.linkLaw_tearRows h _ _ _
  · exact State.linkLaw_queueRow (State.linkLaw_tearRows h _ _ _) _ _

theorem State.linkLaw_recoverLink {s : State} (h : s.linkLaw) : s.recoverLink.linkLaw :=
  ⟨h.1, Nat.zero_le _, (linkOf_zero h.1).symm⟩

theorem State.linkLaw_idleWhileDropped {s : State} (h : s.linkLaw) (good : Bool) : (s.idleWhileDropped good).linkLaw := by
  unfold State.idleWhileDropped
  split_ifs
  · exact State.linkLaw_recoverLink h
  · exact State.linkLaw_onPlr h
  · exact State.linkLaw_onPlr h

theorem State.linkLaw_judgeStart {s : State} (h : s.linkLaw) (tag : Byte) (good : Bool) :
    (s.judgeStart tag good).linkLaw := by
  unfold State.judgeStart
  split_ifs
  · exact State.linkLaw_onPlr h
  · exact State.linkLaw_strayFrame h
  · exact State.linkLaw_onPlr h
  · exact State.linkLaw_onPlr h
  · exact State.linkLaw_strayFrame h

/-- What the blocks test at the end of an uplink event leaves the fault count. -/
theorem State.linkLaw_uplinkEnd {s0 s t : State} (h : s.linkLaw) (ht : State.uplinkEnd s0 s = .next t) : t.linkLaw := by
  cases ht
  exact State.linkLaw_congr h (by simp) (by simp) (by simp)

theorem State.linkLaw_idleEnd {s0 s t : State} (h : s.linkLaw) (ht : State.idleEnd s0 s = .next t) : t.linkLaw := by
  cases ht
  exact State.linkLaw_congr h (by simp) (by simp) (by simp)

theorem State.linkLaw_resume {s : State} (h : s.linkLaw) : s.resume.linkLaw := by
  refine State.linkLaw_congr (s := s.warmRestart) ⟨h.1, Nat.zero_le _, (linkOf_zero h.1).symm⟩ ?_ ?_ ?_
  all_goals simp [State.resume]

theorem State.linkLaw_handleSetCapture {s : State} (h : s.linkLaw) (given : Option (List (Setting × Nat))) :
    (s.handleSetCapture given).1.linkLaw := by
  obtain ⟨hlimit, hcount, hlink⟩ := h
  unfold State.handleSetCapture
  split
  · exact ⟨hlimit, hcount, hlink⟩
  · rename_i l
    have hnew : within 8 191 (s.settings.updated l).linkWarningLimit :=
      settingOr_within (x := .linkWarningLimit) hlimit l
    split
    · exact ⟨hlimit, hcount, hlink⟩
    · simp only [State.linkLaw, State.applySettings_settings, State.applySettings_plr]
      refine ⟨hnew, hcount, ?_⟩
      unfold State.limitedLink
      split
      · rw [hlink, relimited_linkOf]
      · rename_i hg
        rw [hlink]
        simp [Settings.updated, settingOr_of_not_given (Bool.eq_false_iff.mpr hg)]

/-! ### The requests' handlers leave the fault count and the link state -/

section handlers

variable (s : State)

@[simp] theorem State.loseCells_link (l : List (CellRef × SlotNo)) :
    (l.foldl State.loseCell s).plr.faultCount = s.plr.faultCount
      ∧ (l.foldl State.loseCell s).plr.link = s.plr.link := by
  induction l generalizing s with
  | nil => exact ⟨rfl, rfl⟩
  | cons p l ih => simp [ih]

@[simp] theorem State.handleSeated_link (r : PlateRecord) :
    (s.handleSeated r).1.plr.faultCount = s.plr.faultCount ∧ (s.handleSeated r).1.plr.link = s.plr.link := by
  unfold State.handleSeated State.seatPlate
  dsimp only
  repeat' split
  all_goals simp

@[simp] theorem State.handleUnseated_link (r : PlateRecord) :
    (s.handleUnseated r).1.plr.faultCount = s.plr.faultCount ∧ (s.handleUnseated r).1.plr.link = s.plr.link := by
  unfold State.handleUnseated
  repeat' split
  all_goals simp

@[simp] theorem State.handleWithdraw_link (r : PlateRecord) :
    (s.handleWithdraw r).1.plr.faultCount = s.plr.faultCount ∧ (s.handleWithdraw r).1.plr.link = s.plr.link := by
  unfold State.handleWithdraw
  dsimp only
  repeat' split
  all_goals simp

@[simp] theorem State.handleFree_link (r : PlateRecord) :
    (s.handleFree r).1.plr.faultCount = s.plr.faultCount ∧ (s.handleFree r).1.plr.link = s.plr.link := by
  unfold State.handleFree
  dsimp only
  repeat' split
  all_goals simp

@[simp] theorem State.handleKeep_link (r : PlateRecord) (c : CellRecord) :
    (s.handleKeep r c).1.plr.faultCount = s.plr.faultCount ∧ (s.handleKeep r c).1.plr.link = s.plr.link := by
  unfold State.handleKeep State.keepCell
  repeat' split
  all_goals simp

@[simp] theorem State.handleRecapture_link (r : PlateRecord) (c : CellRecord) :
    (s.handleRecapture r c).1.plr.faultCount = s.plr.faultCount ∧ (s.handleRecapture r c).1.plr.link = s.plr.link := by
  unfold State.handleRecapture State.recaptureCell
  dsimp only
  repeat' split
  all_goals simp

@[simp] theorem State.handleSetDelivery_link (mode : Arg DeliveryMode) :
    (s.handleSetDelivery mode).1.plr.faultCount = s.plr.faultCount ∧ (s.handleSetDelivery mode).1.plr.link = s.plr.link := by
  unfold State.handleSetDelivery
  repeat' split
  all_goals simp

@[simp] theorem State.handleFetch_link (key : Option PlateKey) (column row : Option Nat) :
    (s.handleFetch key column row).1.plr.faultCount = s.plr.faultCount ∧ (s.handleFetch key column row).1.plr.link = s.plr.link := by
  unfold State.handleFetch
  repeat' split
  all_goals simp

@[simp] theorem State.handleStandby_link (mask : Option (List RegionNo)) :
    (s.handleStandby mask).1.plr.faultCount = s.plr.faultCount ∧ (s.handleStandby mask).1.plr.link = s.plr.link := by
  unfold State.handleStandby State.standby
  repeat' split
  all_goals simp

/-- CALIBRATE FLAT sets no setting but the lamp level. -/
@[simp] theorem State.handleCalibrateFlat_limit (given : Bool) (tRef level : Option Nat) :
    (s.handleCalibrateFlat given tRef level).1.settings.linkWarningLimit = s.settings.linkWarningLimit := by
  unfold State.handleCalibrateFlat State.startFlat
  dsimp only
  repeat' split
  all_goals simp

end handlers

/-- A request keeps the law: SET_CAPTURE moves the link state with the limit, and no other handler touches either. -/
theorem State.linkLaw_handler {i : Instr} {q : Src} {kind : RequestKind} (hi : requestOf? i = some (q, kind))
    (now : Seconds) {x : State} (hx : x.linkLaw) : (handlerOf now i x).1.linkLaw := by
  cases i <;> cases hi
  case setCapture => exact State.linkLaw_handleSetCapture hx _
  case seated | unseated | withdraw | retire | hold | free | mark =>
    exact withPlate_keeps hx fun r _ => State.linkLaw_congr hx (by simp) (by simp) (by simp)
  case releaseKeep | releaseRecapture =>
    exact withCell_keeps hx fun r c _ _ => State.linkLaw_congr hx (by simp) (by simp) (by simp)
  case readPlate | readCell | readProfile | readCalib | readFault | warmRestart | resume => exact hx
  case setFilter =>
    unfold handlerOf State.handleSetFilter
    dsimp only
    split <;> exact hx
  case calibrateFlat => simpa [State.linkLaw, handlerOf] using hx
  all_goals exact State.linkLaw_congr hx (by simp [handlerOf]) (by simp [handlerOf]) (by simp [handlerOf])

section events

variable (s : State)

@[simp] theorem State.storeReady_link (cause : StoreCause) :
    (s.storeReady cause).plr.faultCount = s.plr.faultCount ∧ (s.storeReady cause).plr.link = s.plr.link := by
  simp [State.storeReady]

@[simp] theorem State.decideWindow_link (release : Bool) :
    (s.decideWindow release).plr.faultCount = s.plr.faultCount
      ∧ (s.decideWindow release).plr.link = s.plr.link := by
  unfold State.decideWindow Plr.release Plr.drain
  dsimp only
  cases release <;> split <;> simp

@[simp] theorem State.windowEnded_link (m : Nat) (steady : Bool) :
    (s.windowEnded m steady).plr.faultCount = s.plr.faultCount
      ∧ (s.windowEnded m steady).plr.link = s.plr.link := by
  unfold State.windowEnded State.tryWindowEnd State.attemptWindowEnd
  dsimp only
  repeat' split
  all_goals simp

@[simp] theorem State.timeoutWait_link :
    s.timeoutWait.plr.faultCount = s.plr.faultCount ∧ s.timeoutWait.plr.link = s.plr.link := by
  unfold State.timeoutWait Plr.dropHeld
  dsimp only
  split <;> simp <;> split_ifs <;> simp

end events

theorem State.linkLaw_exec {i : Instr} {s t : State} (h : s.linkLaw) (ht : exec i s = .next t) : t.linkLaw := by
  cases hr : requestOf? i with
  | some k => exact State.linkLaw_unported.exec_request hr h (fun x hx => State.linkLaw_handler hr _ hx) ht
  | none =>
    cases i
    case coldReset =>
      cases ht
      exact (by decide : State.reset.linkLaw)
    case resetWarm =>
      cases ht
      exact State.linkLaw_resume h
    case answerSent =>
      simp only [exec, execAnswerSent] at ht
      repeat' split at ht
      all_goals cases ht
      · refine State.linkLaw_resume ?_
        exact h
      · exact h
      · exact h
    case frameTimerExpiry =>
      simp only [exec, execFrameTimerExpiry] at ht
      split at ht
      · cases ht
        exact h
      · have hcharge := State.linkLaw_chargeFault (s := s.onTimers fun t => { t with frame := none }) h
          { kind := .timeout, exposure := s.plr.faultExposure, row := none } Config.timeoutWeight
        refine State.linkLaw_uplinkEnd (s0 := s) ?_ ht
        split
        · exact hcharge
        · exact State.linkLaw_congr hcharge (by simp) (by simp) (by simp)
    case frameStart tag check =>
      simp only [exec, execFrameStart] at ht
      split at ht
      · cases ht
        exact State.linkLaw_onPlr h
      · refine State.linkLaw_uplinkEnd (State.linkLaw_judgeStart ?_ _ _) ht
        split
        · exact State.linkLaw_endFrame h _
        · exact h
    case uplinkRow =>
      simp only [exec, execUplinkRow] at ht
      split at ht
      · cases ht
        exact State.linkLaw_onPlr h
      · split at ht
        · exact State.linkLaw_uplinkEnd (State.linkLaw_strayFrame h) ht
        · cases ht
          exact h
        · exact State.linkLaw_uplinkEnd (State.linkLaw_receiveRow h _ _ _) ht
    case frameEnd =>
      simp only [exec, execFrameEnd] at ht
      split at ht
      · cases ht
        exact State.linkLaw_onPlr h
      · split at ht
        · exact State.linkLaw_uplinkEnd (State.linkLaw_strayFrame h) ht
        · cases ht
          exact h
        · exact State.linkLaw_uplinkEnd (State.linkLaw_endFrame h _) ht
    case uplinkIdle =>
      simp only [exec, execUplinkIdle] at ht
      split at ht
      · exact State.linkLaw_idleEnd (State.linkLaw_idleWhileDropped h _) ht
      · split at ht
        · cases ht
          exact h
        · cases ht
          exact State.linkLaw_onPlr h
        · refine State.linkLaw_uplinkEnd ?_ ht
          split
          · exact State.linkLaw_idleWhileDropped (State.linkLaw_endFrame h _) _
          · exact State.linkLaw_endFrame h _
    case coldResetEnd | warmUpExpiry | monitorSample | shutterRise | readyRise | readyFall | startSent | headerSent
      | deliveryRowSent | endSent | badFrame | nonRequestFrame | lineBreak | paceRise | paceFall | noticeSent
      | unknownUnit | refreshDue | refreshComplete | secondTick | lampOnMinute | deliveryReadComplete =>
      simp only [exec, execColdResetEnd, execWarmUpExpiry, execMonitorSample, execShutterRise, execReadyRise,
        execReadyFall, execStartSent, execHeaderSent, execDeliveryRowSent, execEndSent, execBadFrame,
        execNonRequestFrame, execLineBreak, execPaceRise, execPaceFall, execNoticeSent, execUnknownUnit,
        execRefreshDue, execRefreshComplete, execSecondTick, execLampOnMinute, execDeliveryReadComplete] at ht
      repeat' split at ht
      all_goals
        cases ht
        exact State.linkLaw_congr h (by simp) (by simp) (by simp)
    case bringUpPass | bringUpFail | relockPass | relockFail | settleTimerExpiry | moveTimerExpiry | lampCheck
      | idleTimerExpiry | shutterFall =>
      simp only [exec, execBringUpPass, execBringUpFail, execRelockPass, execRelockFail, execSettleTimerExpiry,
        execMoveTimerExpiry, execLampCheck, execIdleTimerExpiry, execShutterFall] at ht
      repeat' split at ht
      all_goals
        cases ht
        exact State.linkLaw_congr h (by simp) (by simp) (by simp)
    case rowMergeComplete | clearRowWrite | calibrationAccumulationRow | finalizationRowWrite =>
      simp only [exec, execRowMergeComplete, execClearRowWrite, execCalibrationAccumulationRow,
        execFinalizationRowWrite, State.accessEnd] at ht
      repeat' split at ht
      all_goals
        cases ht
        exact State.linkLaw_congr h (by simp) (by simp) (by simp)
    all_goals cases hr

/-- Settles O55: what a request stores is clamped into its range, and a new fault count sets the link state. -/
theorem stepKeepsRanges : Obligations.StepKeepsRanges := by
  constructor
  · intro s t h ht
    rcases step_next ht with rfl | ⟨c, rest, -, ht⟩
    · exact h
    · exact State.tablesLaw_exec (s := { s with pending := rest }) h ht
  · intro s t h ht
    rcases step_next ht with rfl | ⟨c, rest, -, ht⟩
    · exact h
    · exact State.linkLaw_exec (s := { s with pending := rest }) h ht

end Sys2Proof.Machine
end

section
/-! PROOFS. The work of the cells: the part of the state that the laws on plates, slots, tries, work records,
deliveries and accesses speak of, and the operations that leave it as it is. -/

namespace Sys2Proof.Machine

-- One proof at a time: under the memory limit of the check there is no room for the stacks of many threads.
set_option Elab.async false

/-- What the laws on the work of cells speak of. -/
structure Core where
  plates : List PlateRecord
  profiles : Vector Profile 4
  geometry : Geometry
  csqState : CsqState
  ctx : Option TryContext
  move : Option MoveRecord
  moveTimer : Option Nat
  mge : Mge
  held : Vector Bool 7
  holders : Vector (Option CellRef) 7
  access : Option Access
  mem : List Host.Cell
  dltQueue : List CellRef
  stream : Option Stream
  link : Option LinkUnit

/-- The work of the cells in a state. -/
def State.core (s : State) : Core :=
  { plates := s.plates, profiles := s.profiles, geometry := s.geometry, csqState := s.csq.state, ctx := s.csq.ctx,
    move := s.csq.move, moveTimer := s.tbu.timers.move, mge := s.mge, held := s.fsc.held, holders := s.fsc.holders,
    access := s.fsc.access, mem := s.fsc.mem, dltQueue := s.dlt.queue, stream := s.dlt.stream, link := s.dlt.link }

/-- A change beside the work of the cells: it leaves the core, and queues no row. -/
structure Aside (s t : State) : Prop where
  core : t.core = s.core
  queue : t.plr.queue.length ≤ s.plr.queue.length

theorem Aside.refl (s : State) : Aside s s := ⟨rfl, le_rfl⟩

theorem Aside.trans {s t u : State} (h : Aside s t) (g : Aside t u) : Aside s u :=
  ⟨g.core.trans h.core, g.queue.trans h.queue⟩

/-- A change that leaves the receiver's queue as it is. -/
theorem Aside.of_core {s t : State} (h : t.core = s.core) (hq : t.plr.queue = s.plr.queue := by rfl) : Aside s t :=
  ⟨h, by rw [hq]⟩

/-! ## The operations beside it -/

section

variable (s : State)

theorem aside_raise (n : Notice) : Aside s (s.raise n) := .of_core rfl
theorem aside_onLtc (f : Ltc → Ltc) : Aside s (s.onLtc f) := .of_core rfl
theorem aside_onCal (f : Cal → Cal) : Aside s (s.onCal f) := .of_core rfl
theorem aside_onPort (p : PortNo) (f : Port → Port) : Aside s (s.onPort p f) := .of_core rfl
theorem aside_finish (ns : List Notice) : Aside s (s.finish ns) := .of_core rfl
theorem aside_flush : Aside s s.flush := .of_core rfl
theorem aside_announce (base : List PlateRecord) : Aside s (s.announce base) := .of_core rfl

theorem aside_onPlr {f : Plr → Plr} (h : (f s.plr).queue.length ≤ s.plr.queue.length := by exact le_rfl) :
    Aside s (s.onPlr f) := ⟨rfl, h⟩

theorem aside_onTimers {f : Timers → Timers} (h : (f s.tbu.timers).move = s.tbu.timers.move := by rfl) :
    Aside s (s.onTimers f) :=
  .of_core (by simp only [State.core, State.onTimers, State.onTbu, h])

theorem aside_onTbu {f : Tbu → Tbu} (h : (f s.tbu).timers = s.tbu.timers := by rfl) : Aside s (s.onTbu f) :=
  .of_core (by simp only [State.core, State.onTbu, h])

theorem aside_onFsc {f : Fsc → Fsc} (h : (f s.fsc).held = s.fsc.held := by rfl)
    (ho : (f s.fsc).holders = s.fsc.holders := by rfl) (ha : (f s.fsc).access = s.fsc.access := by rfl)
    (hm : (f s.fsc).mem = s.fsc.mem := by rfl) : Aside s (s.onFsc f) :=
  .of_core (by simp only [State.core, State.onFsc, h, ho, ha, hm])

theorem aside_onDlt {f : Dlt → Dlt} (h : (f s.dlt).queue = s.dlt.queue := by rfl)
    (hs : (f s.dlt).stream = s.dlt.stream := by rfl) (hl : (f s.dlt).link = s.dlt.link := by rfl) :
    Aside s (s.onDlt f) :=
  .of_core (by simp only [State.core, State.onDlt, h, hs, hl])

theorem aside_onCsq {f : Csq → Csq} (h : (f s.csq).state = s.csq.state := by rfl)
    (hc : (f s.csq).ctx = s.csq.ctx := by rfl) (hm : (f s.csq).move = s.csq.move := by rfl) : Aside s (s.onCsq f) :=
  .of_core (by simp only [State.core, State.onCsq, h, hc, hm])

/-! ### The lamp -/

theorem aside_lampWarm (cause : LampCause) : Aside s (s.lampWarm cause) :=
  ((aside_onLtc s _).trans (aside_onTimers _)).trans (aside_raise _ _)

theorem aside_lampSwitchOn : Aside s s.lampSwitchOn := by
  unfold State.lampSwitchOn
  split
  · exact aside_lampWarm s _
  · exact .refl s

theorem aside_lampDark : Aside s s.lampDark := (aside_onLtc s _).trans (aside_onTimers _)

theorem aside_lampSwitchOff (cause : LampCause) : Aside s (s.lampSwitchOff cause) := by
  unfold State.lampSwitchOff
  split
  · exact aside_lampDark s
  · exact (aside_lampDark s).trans (aside_raise _ _)

theorem aside_lampFlatEnded : Aside s s.lampFlatEnded := by
  unfold State.lampFlatEnded
  split
  · exact aside_onTimers s
  · exact .refl s

theorem aside_checkPassed : Aside s s.checkPassed := by
  unfold State.checkPassed
  dsimp only
  split
  · exact ((aside_onLtc s _).trans (aside_onLtc _ _)).trans (aside_raise _ _)
  · exact aside_onLtc s _

theorem aside_checkMissed : Aside s s.checkMissed := by
  unfold State.checkMissed
  dsimp only
  split
  · exact ((aside_onLtc s _).trans (aside_onLtc _ _)).trans (aside_raise _ _)
  · exact aside_onLtc s _

theorem aside_lampFail : Aside s s.lampFail := ((aside_onLtc s _).trans (aside_onTimers _)).trans (aside_raise _ _)

/-! ### The link and the calibration -/

theorem aside_sendTrigger (who : Requester) (time : Nat) (lamp : LampRequirement) (decision : Decision) :
    Aside s (s.sendTrigger who time lamp decision) := (aside_onPlr s).trans (aside_onTimers _)

theorem aside_cancelWait : Aside s s.cancelWait :=
  (aside_onPlr s (by simp)).trans (aside_onTimers _)

theorem aside_discardWindow : Aside s s.discardWindow := aside_onLtc s _

theorem aside_setCalRecord (f : CalRecord → CalRecord) : Aside s (s.setCalRecord f) :=
  (aside_onCal s _).trans (aside_raise _ _)

theorem aside_onOp (f : CalOp → CalOp) : Aside s (s.onOp f) := aside_onCal s _

theorem aside_endCalibration (op : CalOp) : Aside s (s.endCalibration op) := by
  unfold State.endCalibration
  dsimp only
  split
  · exact aside_onCal s _
  · exact (aside_onCal s _).trans (aside_lampFlatEnded _)

theorem aside_darkComplete (op : CalOp) : Aside s (s.darkComplete op) :=
  ((aside_onCal s _).trans (aside_endCalibration _ _)).trans (aside_raise _ _)

theorem aside_flatComplete (op : CalOp) : Aside s (s.flatComplete op) :=
  ((aside_onCal s _).trans (aside_endCalibration _ _)).trans (aside_raise _ _)

theorem aside_pollAttemptTrigger : Aside s s.pollAttemptTrigger := by
  unfold State.pollAttemptTrigger State.triggerAttempt
  dsimp only
  split
  · exact .refl s
  · split
    · split
      · exact (aside_sendTrigger s _ _ _ _).trans (aside_onOp _ _)
      · exact (aside_sendTrigger s _ _ _ _).trans (aside_onOp _ _)
    · exact .refl s

theorem aside_ageCalibration : Aside s s.ageCalibration := by
  unfold State.ageCalibration
  dsimp only
  split
  · split
    · exact (aside_onCal s _).trans (aside_setCalRecord _ _)
    · exact aside_onCal s _
  · exact .refl s

theorem aside_takeDiscards : Aside s s.takeDiscards := by
  unfold State.takeDiscards
  split
  · exact .refl s
  · exact aside_onPlr s (List.length_dropWhile_le _ _)

theorem aside_sealFaults (s0 : State) : Aside s (s0.sealFaults s) := by
  unfold State.sealFaults
  dsimp only
  split
  · exact .of_core rfl
  · exact .of_core rfl

theorem aside_idleWhileDropped (good : Bool) : Aside s (s.idleWhileDropped good) := by
  unfold State.idleWhileDropped
  split_ifs
  · exact (aside_onPlr s).trans (aside_raise _ _)
  · exact aside_onPlr s
  · exact aside_onPlr s

theorem aside_setLife (life : Nat) : Aside s (s.setLife life) := by
  unfold State.setLife
  dsimp only
  split
  · exact (aside_onCal s _).trans (aside_setCalRecord _ _)
  · exact aside_onCal s _

theorem aside_relimit : Aside s s.relimit := by
  unfold State.relimit
  dsimp only
  split
  · exact .refl s
  · exact (aside_onPlr s).trans (aside_raise _ _)

theorem aside_lampLevelChanged : Aside s s.lampLevelChanged := by
  rw [State.lampLevelChanged_eq]
  have hc : Aside s s.relevelCal := by
    unfold State.relevelCal
    split
    · exact aside_setCalRecord s _
    · exact .refl s
  split
  · exact hc.trans (aside_lampWarm _ _)
  · exact hc

theorem aside_applySettings (l : List (Setting × Nat)) : Aside s (s.applySettings l) := by
  have hlevel : Aside s (s.levelStage l) := by
    unfold State.levelStage
    split
    · exact .of_core rfl
    · exact Aside.trans (t := { s with settings := s.settings.updated l }) (.of_core rfl) (aside_lampLevelChanged _)
  have hlife (x : State) : Aside x (x.lifeStage l) := by
    unfold State.lifeStage
    split
    · exact aside_setLife x _
    · exact .refl x
  have hlimit (x : State) : Aside x (x.limitStage l) := by
    unfold State.limitStage
    split
    · exact aside_relimit x
    · exact .refl x
  rw [State.applySettings_eq]
  exact (hlevel.trans (hlife _)).trans (hlimit _)

theorem aside_calibrationNone : Aside s s.calibrationNone := by
  unfold State.calibrationNone
  dsimp only
  split
  · exact (aside_onLtc s _).trans (aside_setCalRecord _ _)
  · exact aside_setCalRecord s _

theorem aside_startDark (tRef : Nat) : Aside s (s.startDark tRef) :=
  (((aside_onCal s _).trans (aside_raise _ _)).trans (aside_lampSwitchOff _ _)).trans (aside_pollAttemptTrigger _)

theorem aside_startFlat (level : Nat) : Aside s (s.startFlat level) :=
  .of_core rfl

theorem aside_standbyCalibration (mask : List RegionNo) : Aside s (s.standbyCalibration mask) := by
  unfold State.standbyCalibration
  repeat' split
  all_goals first | exact .refl s | exact aside_setCalRecord s _

end

end Sys2Proof.Machine
end

section
/-! PROOFS. Every command as a chain of moves on the work of the cells. A law that each move keeps is kept by every
command; which command makes which moves is said here once, for all the laws. -/

namespace Sys2Proof.Machine

-- One proof at a time: under the memory limit of the check there is no room for the stacks of many threads.
set_option Elab.async false

/-- A change of the sequencer's state that begins and ends no try, no move and no exposure. -/
abbrev CsqState.Passes (a b : CsqState) : Prop :=
  b.admitsStandby = a.admitsStandby ∧ a ≠ .moving ∧ b ≠ .moving
    ∧ (b = .exposing ∨ b = .readout ∨ b = .review → a = .exposing ∨ a = .readout ∨ a = .review)

/-- The try that a review decides on is that of a context, and none of its rows is being merged. -/
structure State.Reviews (s : State) (c : TryContext) : Prop where
  state : s.csq.state = .review
  ctx : ∃ x, s.csq.ctx = some x ∧ x.cell = c.cell ∧ x.slot = c.slot
  merged : s.busyWith StoreWork.isMerge = false

/-- One move on the work of the cells: an operation of the model, with what holds where the model makes it.
`standby` says whether the moves of a STANDBY are among them. -/
inductive Move (standby : Bool) : State → State → Prop
  | aside {s t : State} (h : Aside s t) : Move standby s t
  | enqueue {s t : State} (h : t.core = s.core) (hq : t.plr.queue.length ≤ Config.maxQueuedRows) : Move standby s t
  | cold {s t : State} (h : Aside State.reset t) : Move standby s t
  | warm (s : State) : Move standby s s.warmRestart
  -- the sequencer
  | passes (s : State) (x : CsqState) (h : s.csq.state.Passes x) : Move standby s (s.setCsq x)
  | recontext (s : State) (f : TryContext → TryContext) (hc : ∀ c, (f c).cell = c.cell) (hs : ∀ c, (f c).slot = c.slot)
      (hd : ∀ c, (f c).clearComplete = c.clearComplete) : Move standby s (s.onCtx f)
  | moveEnds {s t : State} (status : MoveStatus) (x : CsqState)
      (hm : s.tbu.timers.move.isSome = true ∨ s.csq.move.map (·.status) = some .moving) (hst : status ≠ .moving)
      (hx : x = .settling ∨ x = .awaitLamp ∨ x = .paused .move)
      (h : Aside ((s.onTimers fun t => { t with move := none }).onCsq fun q =>
        { q with state := x, move := q.move.map fun m => m.ended status }) t) : Move standby s t
  | sendMove (s : State) (c : CellRef) (h : Handling) (hp : s.csq.state = .paused .move)
      (hc : s.csq.ctx.isSome = true) : Move standby s (s.sendMove c h)
  | triggerTry (s : State) (c : TryContext) (hl : s.csq.state = .awaitLamp) (hc : s.csq.ctx = some c)
      (hd : c.clearComplete = true) (hn : (s.work c.slot).list.length < Config.maxExposures) :
      Move standby s (s.triggerTry c)
  | onLatest (s : State) (k : SlotNo) (f : Exposure → Exposure) : Move standby s (s.onLatest k f)
  | abandonTry (s : State) : Move standby s s.abandonTry
  | endTry (s : State) (c : TryContext) (o : LastOutcome) (h : s.Reviews c) : Move standby s (s.endTry c o)
  | handOver (s : State) (c : TryContext) (h : s.Reviews c) : Move standby s (s.handOver c)
  | claim (s : State) (r : PlateRecord) (p : Nat × Nat) (k : SlotNo) (hs : s.csq.state = .awaitSlot)
      (hr : s.capturable? = some r) (hp : r.nextCell? = some p) (hk : s.freeSlot? = some k)
      (he : s.anyCell (· == .exposing) = false) : Move standby s (s.claim r ⟨r.key, p.1, p.2⟩ k)
  -- the plate register
  | rehold (s : State) (f : PlateRecord → Holds) :
      Move standby s (s.onPlates fun ps => ps.map fun r => { r with holds := f r })
  | enrol (s : State) (k : PlateKey) (p : ProfileNo) (h : Handling) (e : Emulsion) (c w : Nat) (now : Seconds)
      (hk : s.plate? k = none) (hn : s.plates.length < Config.maxPlates) :
      Move standby s (s.onPlates fun ps => ps ++ [PlateRecord.enrolled k p h e c w now])
  | seat (s : State) (r : PlateRecord) (now : Seconds) (failed : Bool) (hr : s.plate? r.key = some r)
      (hw : r.state ≠ .withdrawn) (hs : s.anySeated = false) :
      Move standby s (s.onPlate r.key fun y => y.seat now failed)
  | unseat (s : State) (r : PlateRecord) (hr : s.plate? r.key = some r) (hs : r.seated = true)
      (hw : r.state ≠ .withdrawn) : Move standby s ((s.onPlate r.key PlateRecord.unseat).leaveCaptureOf r.key)
  | removePlate (s : State) (r : PlateRecord) (hr : s.plate? r.key = some r)
      (hw : r.state = .withdrawn ∨ r.state = .done ∨ r.state = .faulted) : Move standby s (s.removePlate r.key)
  | withdraw (s : State) (r : PlateRecord) (hr : s.plate? r.key = some r) (hw : r.state ≠ .withdrawn)
      (hs : r.seated = true) :
      Move standby s (((s.leaveCaptureOf r.key).undoPlate r.key).onPlate r.key PlateRecord.withdrawn)
  | withdrawUnseated (s : State) (r : PlateRecord) (hr : s.plate? r.key = some r) (hw : r.state ≠ .withdrawn)
      (hs : r.seated = false) : Move standby s ((s.undoPlate r.key).removePlate r.key)
  | mark (s : State) (key : PlateKey) (h : Arg Handling) (e : Arg Emulsion) :
      Move standby s (s.onPlate key fun r => r.marked h e)
  | keep (s : State) (r : PlateRecord) (x : CellRecord) (hr : s.plate? r.key = some r)
      (hx : r.cell? x.column x.row = some x) (hd : x.state = .delivered) :
      Move standby s ((s.changeCell ⟨r.key, x.column, x.row⟩ (fun c => { c with state := .kept, slot := none })
        fun p => { p with kept := p.kept + 1 }).returnCellSlot x)
  | recapture (s : State) (r : PlateRecord) (x : CellRecord) (hr : s.plate? r.key = some r)
      (hx : r.cell? x.column x.row = some x) (hm : x.state = .merged ∨ x.state = .delivered)
      (hl : x.triesUsed < s.tryLimit r) :
      Move standby s (((s.changeCell ⟨r.key, x.column, x.row⟩ (fun c => { c with state := .pending, slot := none })
        id).dequeue ⟨r.key, x.column, x.row⟩).returnCellSlot x)
  | fail (s : State) (r : PlateRecord) (x : CellRecord) (hr : s.plate? r.key = some r)
      (hx : r.cell? x.column x.row = some x) (hm : x.state = .merged ∨ x.state = .delivered)
      (hl : ¬ x.triesUsed < s.tryLimit r) :
      Move standby s (((s.changeCell ⟨r.key, x.column, x.row⟩ (fun c => { c with state := .failed, slot := none })
        fun p => { p with failed := p.failed + 1 }).dequeue ⟨r.key, x.column, x.row⟩).returnCellSlot x)
  -- the tables
  | setProfile (s : State) (i : ProfileNo) (p : Profile) (hs : s.profileSeated i = false)
      (ht : p.singleTry = true → s.profileTried i = false) : Move standby s { s with profiles := setAt s.profiles i p }
  | setGeometry (s : State) (g : Geometry) (hs : s.anySeated = false) (hk : ∀ k : SlotNo, s.fsc.held.get k = false) :
      Move standby s { s with geometry := g }
  -- the delivery
  | startStream (s : State) (c : CellRef) (hs : s.dlt.stream = none)
      (hc : s.dlt.queue.head? = some c
        ∨ ∃ r x, s.plate? c.key = some r ∧ r.cell? c.column c.row = some x ∧ x.state = .merged) :
      Move standby s (s.startStream c)
  | serveLink (s : State) : Move standby s s.serveLink
  | startSent (s : State) (h : s.dlt.onLink DeliveryUnit.isStart = true) :
      Move standby s (s.onDlt fun d => d.unitSent fun t _ => t.advance .header)
  | headerSent (s : State) (h : s.dlt.onLink DeliveryUnit.isHeader = true) :
      Move standby s (s.onDlt fun d => d.unitSent fun t _ => t.advance .rows)
  | rowSent (s : State) (h : s.dlt.onLink DeliveryUnit.isRow = true) :
      Move standby s (s.onDlt fun d => d.unitSent fun t u => t.rowSent s.geometry.height u)
  | streamEnded (s : State) (h : s.dlt.sending DeliveryUnit.isFinish = true) : Move standby s s.streamEnded
  | linkFreed (s : State) : Move standby s (s.onDlt fun d => { d with link := none })
  -- the store
  | accessDone (s : State) : Move standby s s.accessDone
  | stoppedDone (s : State) (w : StoreWork) (row : Option StoreRow)
      (h : s.fsc.access = some { work := w, result := .unused row }) : Move standby s (s.accessDone.writeRow row)
  | mergeDone (s : State) (k : SlotNo) (o y : Nat) (codes : List CameraCode)
      (h : s.fsc.access = some { work := .merge k o y codes, result := .used }) :
      Move standby s (s.accessDone.mergeDone k o y codes)
  | clearDone (s : State) (k : SlotNo) (y : Nat) (h : s.fsc.access = some { work := .clear k y, result := .used }) :
      Move standby s (s.accessDone.clearRowDone k y)
  | finalDone (s : State) (k : SlotNo) (y : Nat) (h : s.fsc.access = some { work := .finalize k y, result := .used }) :
      Move standby s (s.accessDone.finalRowDone k y)
  | calibDone {s t : State} (w : StoreWork) (h : s.fsc.access = some { work := w, result := .used })
      (hw : w.isCalib = true) (ht : Aside (s.accessDone.writeRow (s.accessDone.storedRow? w)) t) : Move standby s t
  | readDone (s : State) (k : SlotNo) (y : Nat) (h : s.fsc.access = some { work := .deliver k y, result := .used }) :
      Move standby s (s.accessDone.fillBuffer k y)
  | stopCalib (s : State) : Move standby s (s.stopAccess StoreWork.isCalib)
  | arbitrate (s : State) : Move standby s s.arbitrate
  | standby {s t : State} (mask : List RegionNo) (hs : standby = true) (h : s.standbyRefusal? = none)
      (ht : Aside (((s.cellsOutside mask).foldl State.loseCell s).onFsc fun f =>
        { f with mem := retainOnly f.mem mask }) t) : Move standby s t

/-- A chain of moves. -/
abbrev Moves (standby : Bool) : State → State → Prop := Relation.ReflTransGen (Move standby)

variable {b : Bool}

theorem Moves.aside {s t : State} (h : Aside s t) : Moves b s t := .single (.aside h)

theorem Moves.andAside {s t u : State} (h : Moves b s t) (g : Aside t u) : Moves b s u := h.tail (.aside g)

theorem Moves.andThen {s t u : State} (h : Moves b s t) (g : Moves b t u) : Moves b s u := Relation.ReflTransGen.trans h g

theorem Moves.andMove {s t u : State} (h : Moves b s t) (g : Move b t u) : Moves b s u := h.tail g

theorem Move.chain {s t : State} (h : Move b s t) : Moves b s t := .single h

/-- A law that every move keeps is kept by a chain. -/
theorem Moves.keeps {P : State → Prop} (hP : ∀ s t, P s → Move b s t → P t) {s t : State} (h : Moves b s t) (hs : P s) :
    P t := by
  induction h with
  | refl => exact hs
  | tail _ hm ih => exact hP _ _ ih hm

/-! ## The sequencer -/

section

variable (s : State)

theorem moves_failCalibration (reason : CalResult) : Moves b s (s.failCalibration reason) := by
  unfold State.failCalibration
  split
  · exact .refl
  · have hcancel : Moves b s s.cancelWait.discardWindow := .aside ((aside_cancelWait s).trans (aside_discardWindow _))
    have hstop : Moves b s (s.cancelWait.discardWindow.stopAccess StoreWork.isCalib) := hcancel.tail (.stopCalib _)
    exact hstop.andAside ((aside_endCalibration _ _).trans (aside_raise _ _))

theorem moves_setCsq (x : CsqState) {a : CsqState} (h : s.csq.state = a) (hp : a.Passes x) : Moves b s (s.setCsq x) :=
  (Move.passes s x (h ▸ hp)).chain

theorem moves_leaveCapture : Moves b s s.leaveCapture := by
  unfold State.leaveCapture
  split
  · exact (Move.abandonTry s).chain
  · split
    · rename_i h
      exact moves_setCsq s _ h (by decide)
    · rename_i h
      exact moves_setCsq s _ h (by decide)
    · exact .refl

theorem moves_dropLink : Moves b s s.dropLink := by
  unfold State.dropLink
  have hclear := (aside_onPlr s (f := fun p => { p with
    awaitedTag := none, cancelledTag := none, straySeen := false, queue := [], reception := .between, idleRun := 0,
    endPending := false }) (by simp)).trans (aside_onTimers _ (f := fun t => { t with frame := none }))
  exact ((Moves.aside hclear).andThen (moves_leaveCapture _)).andThen (moves_failCalibration _ _)

theorem moves_attemptEnded (op : CalOp) : Moves b s (s.attemptEnded op) := by
  unfold State.attemptEnded
  split
  · split
    · exact .aside (aside_onOp s _)
    · split
      · exact .aside (aside_darkComplete s _)
      · exact .aside (aside_onOp s _)
  · split
    · exact .aside (aside_onOp s _)
    · exact moves_failCalibration s _

theorem moves_pollCal : Moves b s s.pollCal := by
  have hpoll : Moves b s s.pollAttempt := by
    unfold State.pollAttempt
    split
    · exact .refl
    · split
      · exact moves_attemptEnded s _
      · exact .refl
  exact hpoll.andAside (aside_pollAttemptTrigger _)

/-! ### The review -/

variable {s} {c : TryContext}

/-- A review goes on after the context's rung and counts have changed. -/
theorem State.Reviews.onCtx (h : s.Reviews c) {f : TryContext → TryContext} (hc : ∀ x, (f x).cell = x.cell)
    (hs : ∀ x, (f x).slot = x.slot) : (s.onCtx f).Reviews c := by
  obtain ⟨x, hx, hcell, hslot⟩ := h.ctx
  exact ⟨h.state, ⟨f x, by simp [State.onCtx, hx], by rw [hc, hcell], by rw [hs, hslot]⟩, h.merged⟩

theorem moves_nextTrigger (h : s.Reviews c) : Moves b s (s.nextTrigger c) := by
  unfold State.nextTrigger
  split
  · exact (Move.endTry s c _ h).chain
  · exact moves_setCsq s _ h.state (by decide)

/-- A change of the context's rung and counts, then the next trigger. -/
theorem moves_onCtx_nextTrigger (h : s.Reviews c) {f : TryContext → TryContext} (hc : ∀ x, (f x).cell = x.cell)
    (hs : ∀ x, (f x).slot = x.slot) (hd : ∀ x, (f x).clearComplete = x.clearComplete) :
    Moves b s ((s.onCtx f).nextTrigger c) :=
  (Move.recontext s f hc hs hd).chain.andThen (moves_nextTrigger (h.onCtx hc hs))

theorem moves_acceptExposure (h : s.Reviews c) : Moves b s (s.acceptExposure c) := by
  unfold State.acceptExposure
  split
  · exact (Move.handOver s c h).chain
  · split
    · exact moves_onCtx_nextTrigger h (fun _ => rfl) (fun _ => rfl) fun _ => rfl
    · unfold State.decideExtension
      dsimp only
      split
      · exact moves_onCtx_nextTrigger h (fun _ => rfl) (fun _ => rfl) fun _ => rfl
      · exact (Move.handOver s c h).chain

theorem moves_repeatRung (h : s.Reviews c) : Moves b s (s.repeatRung c) := by
  have hkeeps (x : TryContext) : x.raiseRepeat.cell = x.cell ∧ x.raiseRepeat.slot = x.slot
      ∧ x.raiseRepeat.clearComplete = x.clearComplete := by
    unfold TryContext.raiseRepeat
    split <;> exact ⟨rfl, rfl, rfl⟩
  unfold State.repeatRung
  split
  · exact (Move.endTry s c _ h).chain
  · exact moves_onCtx_nextTrigger h (fun x => (hkeeps x).1) (fun x => (hkeeps x).2.1) fun x => (hkeeps x).2.2

variable (s)

theorem moves_pollMerged : Moves b s s.pollMerged := by
  unfold State.pollMerged
  split
  · exact .refl
  · rename_i c hc
    split
    · rename_i h
      obtain ⟨hread, -, -, hmerge⟩ := h
      unfold State.review
      dsimp only
      have hturn : Moves b s (s.onCsq fun q => { q with state := .review, frameReported := false }) :=
        (moves_setCsq s .review hread (by decide)).andAside
          (aside_onCsq (s.setCsq .review) (f := fun q => { q with state := .review, frameReported := false }))
      have hrev : (s.onCsq fun q => { q with state := .review, frameReported := false }).Reviews c :=
        ⟨rfl, ⟨c, hc, rfl, rfl⟩, (Bool.not_eq_true' _).mp hmerge⟩
      split
      · exact hturn
      · split
        · exact hturn.andThen (moves_acceptExposure hrev)
        · exact hturn.andThen (moves_repeatRung hrev)
        · exact hturn.andThen (Move.endTry _ c _ hrev).chain
    · exact .refl

theorem moves_pollPaused : Moves b s s.pollPaused := by
  unfold State.pollPaused
  split
  · rename_i hp _
    split
    · exact .refl
    · split
      · split
        · exact moves_setCsq s _ hp (by decide)
        · exact moves_setCsq s _ hp (by decide)
      · rename_i hc
        exact (Move.sendMove s _ _ hp (by rw [hc]; rfl)).chain
      · exact moves_setCsq s _ hp (by decide)
      · exact .refl
  · exact .refl

theorem moves_pollIdle : Moves b s s.pollIdle := by
  unfold State.pollIdle
  split
  · rename_i hs _
    split
    · split
      · exact moves_setCsq s _ hs (by decide)
      · exact moves_setCsq s _ hs (by decide)
    · exact .refl
  · exact .refl

theorem moves_pollSlot : Moves b s s.pollSlot := by
  unfold State.pollSlot
  split
  · rename_i hs
    split
    · exact moves_setCsq s _ hs (by decide)
    · rename_i r hr
      split
      · exact moves_setCsq s _ hs (by decide)
      · split
        · exact moves_setCsq s _ hs (by decide)
        · split
          · rename_i he
            split
            · rename_i hp hk
              exact (Move.claim s r _ _ hs hr hp hk (by simpa using he.2)).chain
            · exact .refl
          · exact .refl
  · exact .refl

theorem moves_pollLamp : Moves b s s.pollLamp := by
  unfold State.pollLamp
  split
  · rename_i hs hc
    split
    · exact .refl
    · split
      · exact moves_setCsq s _ hs (by decide)
      · split
        · exact .aside (aside_lampSwitchOn s)
        · split
          · rename_i h
            obtain ⟨-, hd, -, hn⟩ := h
            exact (Move.triggerTry s _ hs hc hd hn).chain
          · exact .refl
  · exact .refl

theorem moves_pollHold : Moves b s s.pollHold := by
  unfold State.pollHold
  split
  · exact .refl
  · split
    · split
      · rename_i hs
        exact moves_setCsq s _ hs (by decide)
      · rename_i hs
        exact moves_setCsq s _ hs (by decide)
      · exact .refl
    · exact .refl

theorem moves_pollCsq : Moves b s s.pollCsq :=
  ((((moves_pollMerged s).andThen (moves_pollPaused _)).andThen (moves_pollIdle _)).andThen (moves_pollSlot _)).andThen
    (moves_pollLamp _)

theorem moves_pollDelivery : Moves b s s.pollDelivery := by
  have hauto : Moves b s s.autoStream := by
    unfold State.autoStream
    split
    · rename_i hs hq
      split
      · exact (Move.startStream s _ hs (.inl (by rw [hq]; rfl))).chain
      · exact .refl
    · exact .refl
  exact hauto.tail (.serveLink _)

theorem moves_pollAll : Moves b s s.pollAll :=
  (((Moves.aside (aside_takeDiscards s)).andThen (moves_pollCal _)).andThen (moves_pollCsq _)).andThen
    ((moves_pollDelivery _).tail (.arbitrate _))

theorem moves_addSeatedHold (f : Holds → Holds) : Moves b s (s.addSeatedHold f) := by
  have h : s.addSeatedHold f
      = s.onPlates fun ps => ps.map fun r => { r with holds := if r.seated then f r.holds else r.holds } := by
    unfold State.addSeatedHold
    congr
    funext ps
    congr
    funext r
    split <;> rfl
  rw [h]
  exact (Move.rehold s _).chain

theorem moves_failMove {status : MoveStatus} (hst : status ≠ .moving)
    (hm : s.tbu.timers.move.isSome = true ∨ s.csq.move.map (·.status) = some .moving) :
    Moves b s (s.failMove status) :=
  (Move.moveEnds status (.paused .move) hm hst (.inr (.inr rfl)) (.refl _)).chain.andThen (moves_addSeatedHold _ _)

/-! ## The link -/

theorem moves_setFaultCount (count : Nat) (cause : LinkCause) : Moves b s (s.setFaultCount count cause) := by
  unfold State.setFaultCount
  dsimp only
  split
  · exact .aside (aside_onPlr s)
  · split
    · exact (Moves.aside ((aside_onPlr s).trans (aside_raise _ _))).andThen (moves_dropLink _)
    · exact .aside ((aside_onPlr s).trans (aside_raise _ _))

theorem captureFault_queue (p : Plr) (m : FaultMark) : (p.captureFault m).queue = p.queue := by
  unfold Plr.captureFault
  split <;> rfl

theorem moves_chargeFault (m : FaultMark) (weight : Nat) : Moves b s (s.chargeFault m weight) := by
  unfold State.chargeFault
  dsimp only
  split
  · exact .refl
  · refine Moves.andThen (.aside ((aside_onPlr s).trans (aside_onPlr _ ?_))) (moves_setFaultCount _ _ _)
    rw [captureFault_queue]

theorem moves_chargeRow (m : FaultMark) : Moves b s (s.chargeRow m) := by
  unfold State.chargeRow
  dsimp only
  split
  · exact .refl
  · split
    · exact (Moves.aside ((aside_onPlr s).trans (aside_onPlr _))).andThen (moves_chargeFault _ _ _)
    · exact (Moves.aside (aside_onPlr s)).andThen (moves_chargeFault _ _ _)

theorem moves_tearRow (kind : FaultKind) (i : Nat) : Moves b s (s.tearRow kind i) := by
  unfold State.tearRow
  split
  · exact .refl
  · exact (Moves.aside (aside_onPlr s)).andThen (moves_chargeRow _ _)

theorem moves_tearRows (kind : FaultKind) (first count : Nat) : Moves b s (s.tearRows kind first count) := by
  unfold State.tearRows
  generalize List.range count = l
  induction l generalizing s with
  | nil => exact .refl
  | cons k ks ih => exact (moves_tearRow s kind (first + k)).andThen (ih _)

theorem moves_strayFrame : Moves b s s.strayFrame :=
  (Moves.aside (aside_onPlr s)).andThen (moves_chargeFault _ _ _)

theorem moves_reportFrameEnd (torn : Nat) : Moves b s (s.reportFrameEnd torn) := by
  have hstop : Moves b s ((s.onTimers fun t => { t with frame := none }).onPlr fun p => { p with endPending := false }) :=
    .aside ((aside_onTimers s).trans (aside_onPlr _))
  unfold State.reportFrameEnd
  dsimp only
  split
  · exact Moves.andAside (hstop.tail (.onLatest _ _ _)) (aside_onCsq _)
  · exact hstop.andAside (aside_onOp _ _)
  · exact hstop

theorem moves_reportTimeout (released : Nat) (straySeen : Bool) : Moves b s (s.reportTimeout released straySeen) := by
  unfold State.reportTimeout
  dsimp only
  split
  · have hreport (x : State) (k : SlotNo) (f : Exposure → Exposure) : Moves b x ((x.onLatest k f).onCsq fun q =>
        { q with state := if q.state = .exposing then .readout else q.state, frameReported := true }) := by
      refine (Move.onLatest x k f).chain.andThen ?_
      by_cases he : x.csq.state = .exposing
      · refine Moves.andAside (moves_setCsq _ .readout he (by decide)) (.of_core ?_)
        simp [State.core, State.onCsq, State.setCsq, State.onLatest, State.onWork, State.onMge, he]
      · refine .aside (aside_onCsq _ ?_)
        simp [State.onLatest, State.onWork, State.onMge, he]
    split
    · exact (Moves.aside (aside_discardWindow s)).andThen (hreport _ _ _)
    · exact hreport _ _ _
  · exact .aside ((aside_discardWindow s).trans (aside_onOp _ _))
  · exact .refl

theorem moves_cleanDecrement : Moves b s s.cleanDecrement := by
  unfold State.cleanDecrement
  split
  · exact moves_setFaultCount s _ _
  · exact .refl

theorem moves_endFrame (count : Option Nat) : Moves b s (s.endFrame count) := by
  rw [State.endFrame_eq]
  have htear : Moves b s s.missingTorn := moves_tearRows s _ _ _
  split
  · exact htear
  · have hcount (x : State) : Moves b x (x.frameClosed.endConcluded) := by
      have hclose : Moves b x x.frameClosed := (moves_cleanDecrement x).andAside (aside_onPlr _)
      unfold State.endConcluded
      split
      · exact hclose.andAside (aside_onPlr _)
      · exact hclose.andThen (moves_reportFrameEnd _ _)
    split
    · exact (htear.andThen (moves_chargeFault _ _ _)).andThen (hcount _)
    · exact htear.andThen (hcount _)

theorem moves_decideWindow (release : Bool) : Moves b s (s.decideWindow release) := by
  have hdecide : Moves b s (s.onPlr fun p => if release then p.release else p.drain) := by
    refine .aside (aside_onPlr s ?_)
    cases release
    · exact List.length_filter_le _ _
    · exact (List.length_map _).le
  unfold State.decideWindow
  dsimp only
  split
  · exact hdecide.andThen (moves_reportFrameEnd _ _)
  · exact hdecide

theorem moves_judgeStart (tag : Byte) (good : Bool) : Moves b s (s.judgeStart tag good) := by
  unfold State.judgeStart
  split_ifs
  · exact .aside (aside_onPlr s)
  · exact moves_strayFrame s
  · exact .aside (aside_onPlr s)
  · exact .aside (aside_onPlr s)
  · exact moves_strayFrame s

theorem moves_timeoutWait : Moves b s s.timeoutWait := by
  unfold State.timeoutWait
  dsimp only
  have hdrop : Moves b s (s.onPlr fun p =>
      if p.decision = .waiting then
        Plr.dropHeld { p with awaitedTag := none, endPending := false,
                              reception := if p.reception = .receiving then .discarding else p.reception }
      else { p with awaitedTag := none, endPending := false,
                    reception := if p.reception = .receiving then .discarding else p.reception }) := by
    refine .aside (aside_onPlr s ?_)
    split
    · exact List.length_filter_le _ _
    · exact le_rfl
  split
  · exact hdrop.andThen (moves_reportFrameEnd _ _)
  · exact hdrop.andThen (moves_reportTimeout _ _ _)

theorem moves_windowEnded (m : Nat) (steady : Bool) : Moves b s (s.windowEnded m steady) := by
  unfold State.windowEnded
  split
  · split
    · split
      · rename_i he
        unfold State.tryWindowEnd
        dsimp only
        exact (((Move.onLatest s _ _).chain).andThen (moves_setCsq _ .readout he (by decide))).andThen
          (moves_decideWindow _ _)
      · exact .refl
    · split
      · unfold State.attemptWindowEnd
        split
        · exact (Moves.aside (aside_onOp s _)).andThen (moves_decideWindow _ _)
        · exact (Moves.aside (aside_onOp s _)).andThen (moves_decideWindow _ _)
      · exact .refl
    · exact .refl
  · exact .refl

theorem moves_lampFailed : Moves b s s.lampFailed := by
  have hfail : Moves b s (s.lampFail.addSeatedHold fun h => { h with lamp := true }) :=
    (Moves.aside (aside_lampFail s)).andThen (moves_addSeatedHold _ _)
  unfold State.lampFailed
  dsimp only
  split
  · exact hfail.andThen (moves_failCalibration _ _)
  · exact hfail

end

end Sys2Proof.Machine
end

section
/-! PROOFS. Every command as a chain of moves: the store's events, the requests, and the commands. -/

namespace Sys2Proof.Machine

-- One proof at a time: under the memory limit of the check there is no room for the stacks of many threads.
set_option Elab.async false

variable {b : Bool} (s : State)

/-! ## The store -/

/-- With no access in progress there is none to stop. -/
theorem stopAccess_of_free {s : State} (h : s.fsc.access = none) (p : StoreWork → Bool) : s.stopAccess p = s := by
  have hf : { s.fsc with access := s.fsc.access.map fun a => if p a.work then a.stop (s.storedRow? a.work) else a } = s.fsc := by
    rw [h, Option.map_none, ← h]
  unfold State.stopAccess State.onFsc
  exact congrArg (fun f => { s with fsc := f }) hf

theorem aside_failCalibration {s : State} (h : s.fsc.access = none) (reason : CalResult) :
    Aside s (s.failCalibration reason) := by
  unfold State.failCalibration
  split
  · exact .refl s
  · have hfree : s.cancelWait.discardWindow.fsc.access = none := h
    rw [stopAccess_of_free hfree]
    exact (((aside_cancelWait s).trans (aside_discardWindow _)).trans (aside_endCalibration _ _)).trans (aside_raise _ _)

theorem aside_calibWorkDone {s : State} (h : s.fsc.access = none) {w : StoreWork} (hw : w.isCalib = true) :
    Aside (s.writeRow (s.storedRow? w)) (s.calibWorkDone w) := by
  unfold State.calibWorkDone State.storedRow?
  cases hop : s.cal.op with
  | none => cases w <;> first | exact .refl s | cases hw
  | some op =>
    cases w with
    | calibAdd frame y codes => exact aside_onCal _ _
    | openRow y =>
      dsimp only [State.openRowDone]
      split
      · exact aside_onOp s _
      · split
        · unfold State.openPassEnded
          split
          · exact (aside_onOp s _).trans (aside_failCalibration (s := s.onOp _) h _)
          · split
            · exact (aside_onOp s _).trans (aside_failCalibration (s := s.onOp _) h _)
            · exact (aside_onOp s _).trans (aside_onOp _ _)
        · exact aside_onOp s _
    | gainRow y =>
      dsimp only [State.gainRowDone]
      split
      · exact aside_onOp _ _
      · split
        · exact (aside_onOp _ _).trans (aside_flatComplete _ _)
        · exact aside_onOp _ _
    | _ => cases hw

/-- The completion of an access: the move of a used one, or the write of a stopped one. -/
theorem moves_accessEnd {s : State} {w : StoreWork} {result : AccessResult} {effect : State → State}
    (h : s.fsc.access = some { work := w, result := result })
    (he : result = .used → Moves b s (effect s.accessDone)) : Moves b s (s.accessEnd result effect) := by
  cases result with
  | used => exact he rfl
  | unused row => exact (Move.stoppedDone s w row h).chain

theorem moves_arbitrate : Moves b s s.arbitrate := (Move.arbitrate s).chain

theorem moves_storeReady (cause : StoreCause) : Moves b s (s.storeReady cause) := by
  have hready : Moves b s ((s.onFsc fun f => { f with state := .ready }).raise
      (.store .ready s.fsc.state cause none none)) := .aside ((aside_onFsc s).trans (aside_raise _ _))
  exact (((hready.andThen (moves_pollIdle _)).andThen (moves_pollSlot _)).andThen (moves_pollDelivery _)).andThen
    (moves_arbitrate _)

theorem moves_resume : Moves b s s.resume := by
  have hpoll := (((Move.warm (standby := b) s).chain.andThen (moves_pollIdle _)).andThen (moves_pollSlot _)).andThen
    ((moves_pollDelivery _).andThen (moves_arbitrate _))
  exact hpoll.andAside (aside_announce _ _)

/-- The end of an event that the blocks may test. -/
theorem moves_pollAll_announce {x : State} (h : Moves b s x) (base : List PlateRecord) :
    Moves b s (x.pollAll.announce base) :=
  (h.andThen (moves_pollAll _)).andAside (aside_announce _ _)

/-! ## The requests -/

variable {s}

theorem moves_handleEnrol {record : Option PlateRecord}
    (h : ∀ r, record = some r → ∃ k p a e c w now, r = PlateRecord.enrolled k p a e c w now) :
    Moves b s (s.handleEnrol record).1 := by
  unfold State.handleEnrol
  split
  · exact .refl
  · rename_i r
    obtain ⟨k, p, a, e, c, w, now, rfl⟩ := h r rfl
    split
    · exact .refl
    · rename_i hk
      split
      · exact .refl
      · rename_i hn
        refine (Move.enrol s k p a e c w now ?_ (Nat.not_le.mp hn)).chain
        exact Option.not_isSome_iff_eq_none.mp hk

theorem moves_handleSeated {r : PlateRecord} (hr : s.plate? r.key = some r) : Moves b s (s.handleSeated r).1 := by
  unfold State.handleSeated
  split_ifs with hw _ hs
  · exact .refl
  · exact .refl
  · exact .refl
  · exact .refl
  · have hseat : Moves b s (s.onPlate r.key fun y => y.seat s.tbu.clock (s.ltc.lamp == .failed)) :=
      (Move.seat s r _ _ hr hw (by simpa using hs)).chain
    unfold State.seatPlate
    dsimp only
    split
    · exact (((hseat.andAside (aside_lampSwitchOn _)).andThen (moves_pollIdle _)).andThen (moves_pollSlot _)).andThen
        (moves_arbitrate _)
    · exact ((hseat.andThen (moves_pollIdle _)).andThen (moves_pollSlot _)).andThen (moves_arbitrate _)

theorem moves_handleUnseated {r : PlateRecord} (hr : s.plate? r.key = some r) : Moves b s (s.handleUnseated r).1 := by
  unfold State.handleUnseated
  split_ifs with hs hw
  · exact .refl
  · exact (Move.removePlate s r hr (.inl hw)).chain
  · exact (Move.unseat s r hr (by simpa using hs) hw).chain.andThen (moves_arbitrate _)

theorem moves_handleWithdraw {r : PlateRecord} (hr : s.plate? r.key = some r) : Moves b s (s.handleWithdraw r).1 := by
  unfold State.handleWithdraw
  dsimp only
  split_ifs with hw hs
  · exact .refl
  · exact (((Move.withdraw s r hr hw hs).chain.andThen (moves_pollSlot _)).andThen (moves_pollDelivery _)).andThen
      (moves_arbitrate _)
  · exact (((Move.withdrawUnseated s r hr hw (by simpa using hs)).chain.andThen (moves_pollSlot _)).andThen
      (moves_pollDelivery _)).andThen (moves_arbitrate _)

theorem moves_handleRetire {r : PlateRecord} (hr : s.plate? r.key = some r) : Moves b s (s.handleRetire r).1 := by
  unfold State.handleRetire
  split
  · rename_i h
    exact (Move.removePlate s r hr (.inr (.inl h))).chain
  · rename_i h
    exact (Move.removePlate s r hr (.inr (.inr h))).chain
  · exact .refl

/-- A change of one record's hold reasons. -/
theorem moves_onPlate_holds (key : PlateKey) (f : PlateRecord → Holds) :
    Moves b s (s.onPlate key fun r => { r with holds := f r }) := by
  have h : (s.onPlate key fun r => { r with holds := f r })
      = s.onPlates fun ps => ps.map fun r => { r with holds := if r.key = key then f r else r.holds } := by
    unfold State.onPlate
    congr
    funext ps
    congr
    funext r
    split <;> rfl
  rw [h]
  exact (Move.rehold s _).chain

theorem moves_handleHold (r : PlateRecord) : Moves b s (s.handleHold r).1 := by
  unfold State.handleHold
  split
  · exact .refl
  · exact (moves_onPlate_holds _ _).andThen (moves_pollHold _)

theorem moves_handleFree (r : PlateRecord) : Moves b s (s.handleFree r).1 := by
  unfold State.handleFree
  dsimp only
  split
  · exact .refl
  · have hfree : Moves b s (s.onPlate r.key fun x => { x with holds := { console := false, move := false, lamp := false } }) :=
      moves_onPlate_holds _ _
    have hpoll {x : State} (hx : Moves b s x) : Moves b s x.pollPaused.pollSlot.pollLamp.arbitrate :=
      (((hx.andThen (moves_pollPaused _)).andThen (moves_pollSlot _)).andThen (moves_pollLamp _)).andThen
        (moves_arbitrate _)
    split
    · exact hpoll (hfree.andAside (aside_lampWarm _ _))
    · exact hpoll hfree

theorem moves_handleMark (h : Arg Handling) (e : Arg Emulsion) (r : PlateRecord) : Moves b s (s.handleMark h e r).1 := by
  unfold State.handleMark
  split_ifs
  · exact .refl
  · exact .refl
  · exact (Move.mark s r.key h e).chain.andAside (aside_raise _ _)

theorem moves_handleWriteProfile (w : Option (ProfileNo × Profile × Bool)) : Moves b s (s.handleWriteProfile w).1 := by
  unfold State.handleWriteProfile
  split
  · exact .refl
  · split_ifs with _ hs ht
    · exact .refl
    · exact .refl
    · exact .refl
    · refine (Move.setProfile s _ _ (by simpa using hs) fun hp => ?_).chain
      simpa [hp] using ht

theorem moves_handleSetField (width height : Option Nat) : Moves b s (s.handleSetField width height).1 := by
  unfold State.handleSetField
  dsimp only
  split
  · split_ifs with hs hk
    · exact .refl
    · exact .refl
    · exact .refl
    · exact .refl
    · refine (Move.setGeometry s _ (by simpa using hs) fun k => ?_).chain.andAside (aside_calibrationNone _)
      simp only [List.any_eq_true, not_exists, not_and, Bool.not_eq_true] at hk
      exact hk k (List.mem_finRange k)
  · exact .refl

theorem moves_handleSetCapture (given : Option (List (Setting × Nat))) : Moves b s (s.handleSetCapture given).1 := by
  unfold State.handleSetCapture
  split
  · exact .refl
  · split
    · exact .refl
    · exact .aside (aside_applySettings s _)

theorem moves_arrive {m : MoveRecord} (hm : s.csq.move = some m) (hst : m.status = .moving) :
    Moves b s (s.arrive m) := by
  unfold State.arrive State.enterSettling
  dsimp only
  have hst' : s.csq.move.map (·.status) = some .moving := by simp [hm, hst]
  split
  · refine ((Move.moveEnds .arrived .awaitLamp (.inr hst') nofun (.inr (.inl rfl)) ?_).chain).andThen (moves_pollLamp _)
    refine .of_core ?_
    simp [State.core, State.onCsq, State.setCsq, State.onTimers, State.onTbu, hm]
  · refine ((Move.moveEnds .arrived .settling (.inr hst') nofun (.inl rfl) ?_).chain).andThen (moves_pollLamp _)
    refine .of_core ?_
    simp [State.core, State.onCsq, State.setCsq, State.onTimers, State.onTbu, hm]

theorem moves_handleAtCell (key : Option PlateKey) (column row number : Option Nat) :
    Moves b s (s.handleAtCell key column row number).1 := by
  unfold State.handleAtCell
  split
  · split
    · exact .refl
    · rename_i m hm
      split
      · exact .refl
      · split
        · exact .refl
        · exact .refl
        · exact .refl
        · exact .refl
        · rename_i hst
          split
          · exact moves_arrive hm hst
          · exact .refl
  · exact .refl

theorem moves_handleMoveFault (key : Option PlateKey) (number : Option Nat) :
    Moves b s (s.handleMoveFault key number).1 := by
  unfold State.handleMoveFault
  split
  · split
    · exact .refl
    · rename_i m hm
      split_ifs with h
      · exact .refl
      · exact .refl
      · refine moves_failMove s nofun (.inr ?_)
        simp only [not_or, not_not] at h
        simp [hm, h.2]
  · exact .refl

theorem moves_handleCalibrateDark (given : Bool) (tRef level : Option Nat) :
    Moves b s (s.handleCalibrateDark given tRef level).1 := by
  unfold State.handleCalibrateDark
  repeat' split
  all_goals first | exact .refl | exact .aside (aside_startDark s _)

theorem moves_handleCalibrateFlat (given : Bool) (tRef level : Option Nat) :
    Moves b s (s.handleCalibrateFlat given tRef level).1 := by
  unfold State.handleCalibrateFlat
  repeat' split
  all_goals first | exact .refl | exact .aside (aside_startFlat s _)

theorem moves_handleStandby (mask : Option (List RegionNo)) : Moves true s (s.handleStandby mask).1 := by
  unfold State.handleStandby
  split
  · exact .refl
  · rename_i m
    split
    · exact .refl
    · rename_i hs
      refine (Move.standby m rfl hs ?_).chain
      unfold State.standby
      refine Aside.trans (t := ((((s.cellsOutside m).foldl State.loseCell s).standbyCalibration m).lampSwitchOff
        .offRequest).onFsc fun f => { f with mem := retainOnly f.mem m }) ?_ (.of_core rfl)
      have h := (aside_standbyCalibration ((s.cellsOutside m).foldl State.loseCell s) m).trans
        (aside_lampSwitchOff _ .offRequest)
      exact ⟨congrArg (fun c : Core => { c with mem := retainOnly c.mem m }) h.core, h.queue⟩

theorem moves_handleSetDelivery (mode : Arg DeliveryMode) : Moves b s (s.handleSetDelivery mode).1 := by
  unfold State.handleSetDelivery
  split
  · exact ((Moves.aside (aside_onDlt s (f := fun d => { d with mode := .auto }))).andThen
      (moves_pollDelivery _)).andThen (moves_arbitrate _)
  · exact .aside (aside_onDlt s (f := fun d => { d with mode := .fetch }))
  · exact .refl

theorem moves_fetched {c : CellRef} {r : PlateRecord} {x : CellRecord} (hs : s.dlt.stream = none)
    (hr : s.plate? c.key = some r) (hx : r.cell? c.column c.row = some x) (hm : x.state = .merged) :
    Moves b s (s.startStream c).serveLink.arbitrate :=
  ((Move.startStream s c hs (.inr ⟨r, x, hr, hx, hm⟩)).chain.andThen (Move.serveLink _).chain).andThen
    (moves_arbitrate _)

theorem moves_handleFetch (key : Option PlateKey) (column row : Option Nat) :
    Moves b s (s.handleFetch key column row).1 := by
  unfold State.handleFetch
  split
  · split
    · exact .refl
    · split
      · exact .refl
      · rename_i r hr
        split
        · exact .refl
        · rename_i x hx
          split_ifs with _ hs hm
          · exact .refl
          · exact .refl
          · exact .refl
          · have hmerged : x.state = .merged := by simpa using hm
            exact moves_fetched (c := ⟨_, _, _⟩) (by simpa using hs) hr hx hmerged
  · exact .refl

theorem moves_handleKeep {r : PlateRecord} {x : CellRecord} (hr : s.plate? r.key = some r)
    (hx : r.cell? x.column x.row = some x) : Moves b s (s.handleKeep r x).1 := by
  unfold State.handleKeep State.keepCell
  split
  · rename_i hd
    exact ((Move.keep s r x hr hx hd).chain.andThen (moves_pollSlot _)).andThen (moves_arbitrate _)
  · exact .refl

theorem moves_handleRecapture {r : PlateRecord} {x : CellRecord} (hr : s.plate? r.key = some r)
    (hx : r.cell? x.column x.row = some x) : Moves b s (s.handleRecapture r x).1 := by
  unfold State.handleRecapture State.recaptureCell
  dsimp only
  split
  · rename_i hm
    split
    · rename_i hl
      exact (((Move.recapture s r x hr hx hm hl).chain.andThen (moves_pollIdle _)).andThen (moves_pollSlot _)).andThen
        (moves_arbitrate _)
    · rename_i hl
      exact (((Move.fail s r x hr hx hm hl).chain.andThen (moves_pollIdle _)).andThen (moves_pollSlot _)).andThen
        (moves_arbitrate _)
  · exact .refl

end Sys2Proof.Machine
end

section
/-! PROOFS. Every command is a chain of moves. -/

namespace Sys2Proof.Machine

-- One proof at a time: under the memory limit of the check there is no room for the stacks of many threads.
set_option Elab.async false

variable {b : Bool}

/-- A chain from a state goes on beside the work when a port or a notice changes, or the store wakes. -/
theorem unported_moves (b : Bool) (s : State) : Unported (Moves b s) where
  ports _ _ h := h.andAside (.of_core rfl)
  raised _ _ h := h.andAside (.of_core rfl)
  wake x h := h.andAside (aside_onFsc x)

/-- Whether a command is a STANDBY. -/
def isStandby : Instr → Bool
  | .standby .. => true
  | _ => false

theorem moves_handleSetFilter (s : State) (p : PortNo) (kinds : Option (List (Option NoticeKind)))
    (code mask : Option PlateKey) : Moves b s (s.handleSetFilter p kinds code mask).1 := by
  unfold State.handleSetFilter
  split
  · exact .aside (.of_core rfl)
  · exact .refl

theorem moves_handleReadStatus (s : State) (p : PortNo) (sect : Arg StatusSection) :
    Moves b s (s.handleReadStatus p sect).1 := by
  unfold State.handleReadStatus
  split
  · exact .aside (.of_core rfl)
  · exact .refl

theorem moves_handleSetClock (s : State) (value : Option Seconds) : Moves b s (s.handleSetClock value).1 := by
  unfold State.handleSetClock
  split
  · exact .refl
  · exact .aside (.of_core rfl)

theorem enrolRecord?_eq {key : Option PlateKey} {profile : Option Nat} {h : Arg Handling} {e : Arg Emulsion}
    {c w : Option Nat} {now : Seconds} {r : PlateRecord} (hr : enrolRecord? key profile h e c w now = some r) :
    ∃ k p a m x y z, r = PlateRecord.enrolled k p a m x y z := by
  unfold enrolRecord? at hr
  split at hr
  · exact ⟨_, _, _, _, _, _, _, (Option.some.inj hr).symm⟩
  · cases hr

/-- What the handler of a request does to the work of the cells. -/
theorem moves_handler (now : Seconds) (i : Instr) (s : State) : Moves (isStandby i) s (handlerOf now i s).1 := by
  cases i
  case enrol => exact moves_handleEnrol fun r hr => enrolRecord?_eq hr
  case seated => exact withPlate_keeps (P := Moves _ s) .refl fun r hr => moves_handleSeated hr
  case unseated => exact withPlate_keeps (P := Moves _ s) .refl fun r hr => moves_handleUnseated hr
  case withdraw => exact withPlate_keeps (P := Moves _ s) .refl fun r hr => moves_handleWithdraw hr
  case retire => exact withPlate_keeps (P := Moves _ s) .refl fun r hr => moves_handleRetire hr
  case hold => exact withPlate_keeps (P := Moves _ s) .refl fun r _ => moves_handleHold r
  case free => exact withPlate_keeps (P := Moves _ s) .refl fun r _ => moves_handleFree r
  case mark => exact withPlate_keeps (P := Moves _ s) .refl fun r _ => moves_handleMark _ _ r
  case writeProfile => exact moves_handleWriteProfile _
  case setField => exact moves_handleSetField _ _
  case setCapture => exact moves_handleSetCapture _
  case atCell => exact moves_handleAtCell _ _ _ _
  case moveFault => exact moves_handleMoveFault _ _
  case calibrateDark => exact moves_handleCalibrateDark _ _ _
  case calibrateFlat => exact moves_handleCalibrateFlat _ _ _
  case readFault => exact .aside (.of_core rfl)
  case setClock => exact moves_handleSetClock s _
  case standby => exact moves_handleStandby _
  case setDelivery => exact moves_handleSetDelivery _
  case fetch => exact moves_handleFetch _ _ _
  case releaseKeep => exact withCell_keeps (P := Moves _ s) .refl fun r x hr hx => moves_handleKeep hr hx
  case releaseRecapture => exact withCell_keeps (P := Moves _ s) .refl fun r x hr hx => moves_handleRecapture hr hx
  case setFilter => exact moves_handleSetFilter s _ _ _ _
  case resume => exact .aside (.of_core rfl)
  case readStatus => exact moves_handleReadStatus s _ _
  all_goals exact .refl

/-! ## The events of the store -/

variable (s : State)

theorem moves_storeFault (reason : FaultReason) : Moves b s (s.storeFault reason) :=
  .aside ((aside_onFsc s).trans (aside_raise _ _))

theorem moves_rowMergeComplete {t : State} (ht : execRowMergeComplete s = .next t) : Moves b s t := by
  unfold execRowMergeComplete at ht
  split at ht
  · rename_i k o y codes result ha
    cases ht
    refine moves_pollAll_announce _ (moves_accessEnd ha ?_) _
    rintro rfl
    exact (Move.mergeDone s k o y codes ha).chain
  · cases ht
    exact .refl

theorem moves_clearRowWrite {t : State} (ht : execClearRowWrite s = .next t) : Moves b s t := by
  unfold execClearRowWrite at ht
  split at ht
  · rename_i k y result ha
    cases ht
    refine moves_pollAll_announce _ (moves_accessEnd ha ?_) _
    rintro rfl
    exact (Move.clearDone s k y ha).chain
  · cases ht
    exact .refl

theorem moves_calibrationRow {t : State} (ht : execCalibrationAccumulationRow s = .next t) : Moves b s t := by
  unfold execCalibrationAccumulationRow at ht
  split at ht
  · rename_i a ha
    split at ht
    · rename_i hw
      cases ht
      obtain ⟨w, result⟩ := a
      refine moves_pollAll_announce _ (moves_accessEnd ha ?_) _
      rintro rfl
      exact (Move.calibDone w ha hw (aside_calibWorkDone (s := s.accessDone) rfl hw)).chain
    · cases ht
      exact .refl
  · cases ht
    exact .refl

theorem moves_finalizationRow {t : State} (ht : execFinalizationRowWrite s = .next t) : Moves b s t := by
  unfold execFinalizationRowWrite at ht
  split at ht
  · rename_i k y result ha
    cases ht
    refine moves_pollAll_announce _ (moves_accessEnd ha ?_) _
    rintro rfl
    exact (Move.finalDone s k y ha).chain
  · cases ht
    exact .refl

theorem moves_deliveryRead {t : State} (ht : execDeliveryReadComplete s = .next t) : Moves b s t := by
  unfold execDeliveryReadComplete at ht
  split at ht
  · rename_i k y result ha
    cases ht
    have hdone : Moves b s (if result = .used then s.accessDone.fillBuffer k y else s.accessDone) := by
      split
      · rename_i hu
        subst hu
        exact (Move.readDone s k y ha).chain
      · exact (Move.accessDone s).chain
    exact ((hdone.andMove (.serveLink _)).andAside (aside_takeDiscards _)).andThen (moves_arbitrate _)
  · cases ht
    exact .refl

theorem moves_refreshComplete {t : State} (ht : execRefreshComplete s = .next t) : Moves b s t := by
  unfold execRefreshComplete at ht
  split at ht
  · split at ht
    · cases ht
      exact ((Move.accessDone s).chain.andAside (aside_onFsc _ (f := fun f => { f with refreshOwed := f.refreshOwed - 1 }))).andThen
        (moves_arbitrate _)
    · cases ht
      exact .refl
  · cases ht
    exact .refl

theorem moves_refreshDue {t : State} (ht : execRefreshDue s = .next t) : Moves b s t := by
  unfold execRefreshDue at ht
  split at ht
  · cases ht
    exact (Moves.aside (aside_onFsc s (f := fun f => { f with refreshOwed := min 2 (f.refreshOwed + 1) }))).andThen
      (moves_arbitrate _)
  · cases ht
    exact .refl

theorem moves_bringUpPass {n : Nat} {t : State} (ht : execBringUpPass n s = .next t) : Moves b s t := by
  unfold execBringUpPass at ht
  split at ht
  · split at ht
    · cases ht
      exact (moves_storeReady s _).andAside (aside_announce _ _)
    · cases ht
      exact (moves_storeFault s _).andAside (aside_flush _)
  · cases ht
    exact .refl

theorem moves_storeEvents {i : Instr} {t : State} (hi : i = .bringUpFail ∨ i = .relockPass ∨ i = .relockFail)
    (ht : exec i s = .next t) : Moves b s t := by
  obtain rfl | rfl | rfl := hi
  · change execBringUpFail s = _ at ht
    unfold execBringUpFail at ht
    split at ht <;> cases ht
    · exact (moves_storeFault s _).andAside (aside_flush _)
    · exact .refl
  · change execRelockPass s = _ at ht
    unfold execRelockPass at ht
    split at ht <;> cases ht
    · exact (moves_storeReady s _).andAside (aside_announce _ _)
    · exact .refl
  · change execRelockFail s = _ at ht
    unfold execRelockFail at ht
    split at ht <;> cases ht
    · exact (moves_storeFault s _).andAside (aside_flush _)
    · exact .refl

/-! ## The events of the timers and the lamp -/

theorem moves_minuteEvent : Moves b s s.minuteEvent :=
  .aside (((aside_onTbu s).trans (aside_ageCalibration _)).trans (aside_flush _))

theorem moves_secondTick {t : State} (ht : execSecondTick s = .next t) : Moves b s t := by
  unfold execSecondTick at ht
  split at ht <;> cases ht
  · exact moves_minuteEvent s
  · exact .aside (aside_onTbu s)

theorem moves_lampOnMinute {t : State} (ht : execLampOnMinute s = .next t) : Moves b s t := by
  unfold execLampOnMinute at ht
  split at ht <;> cases ht
  · exact moves_minuteEvent s
  · exact .refl

theorem moves_settleTimerExpiry {t : State} (ht : execSettleTimerExpiry s = .next t) : Moves b s t := by
  have hstop : Moves b s (s.onTimers fun t => { t with settle := none }) := .aside (aside_onTimers s)
  unfold execSettleTimerExpiry at ht
  split at ht
  · cases ht
    exact .refl
  · dsimp only at ht
    split at ht <;> cases ht
    · rename_i hs
      exact ((hstop.andThen (moves_setCsq _ .awaitLamp (show _ = CsqState.settling from hs) (by decide))).andThen
        (moves_pollLamp _)).andAside (aside_flush _)
    · exact hstop

theorem moves_moveTimerExpiry {t : State} (ht : execMoveTimerExpiry s = .next t) : Moves b s t := by
  unfold execMoveTimerExpiry at ht
  split at ht <;> cases ht
  · exact .refl
  · rename_i hm
    exact (moves_failMove (status := .expired) s (by decide) (.inl (by rw [hm]; rfl))).andAside (aside_announce _ _)

theorem moves_frameTimerExpiry {t : State} (ht : execFrameTimerExpiry s = .next t) : Moves b s t := by
  unfold execFrameTimerExpiry at ht
  split at ht
  · cases ht
    exact .refl
  · cases ht
    have hcharge := (Moves.aside (b := b) (aside_onTimers s (f := fun t => { t with frame := none }))).andThen
      (moves_chargeFault _ { kind := .timeout, exposure := s.plr.faultExposure, row := none } Config.timeoutWeight)
    have hwait {x : State} (hx : Moves b s x) : Moves b s (if x.plr.link = .dropped then x else x.timeoutWait) := by
      split
      · exact hx
      · exact hx.andThen (moves_timeoutWait _)
    exact moves_pollAll_announce _ ((hwait hcharge).andAside (aside_sealFaults _ _)) _

theorem moves_warmUpExpiry {t : State} (ht : execWarmUpExpiry s = .next t) : Moves b s t := by
  unfold execWarmUpExpiry at ht
  split at ht <;> cases ht
  · exact .refl
  · exact .aside ((aside_onLtc s _).trans (aside_onTimers _))

theorem moves_lampCheck {reading : Reading} {t : State} (ht : execLampCheck reading s = .next t) : Moves b s t := by
  unfold execLampCheck at ht
  split at ht
  · cases ht
    exact .refl
  · split at ht
    · cases ht
      have hfail := (Moves.aside (b := b) (aside_onLtc s fun l => { l with last := some reading })).andThen (moves_lampFailed _)
      exact ((hfail.andThen (moves_pollHold _)).andThen (moves_arbitrate _)).andAside (aside_announce _ _)
    · have htake : Moves b s (s.takeReading reading) := .aside (aside_onLtc s _)
      dsimp only at ht
      split at ht <;> cases ht
      · exact (((htake.andAside (aside_checkPassed _)).andAside (aside_pollAttemptTrigger _)).andThen
          (moves_pollLamp _)).andAside (aside_flush _)
      · exact (htake.andAside (aside_checkMissed _)).andAside (aside_flush _)

theorem moves_idleTimerExpiry {t : State} (ht : execIdleTimerExpiry s = .next t) : Moves b s t := by
  unfold execIdleTimerExpiry at ht
  split at ht
  · cases ht
    exact .refl
  · split at ht <;> cases ht
    · exact ((Moves.aside (aside_lampSwitchOff s _)).andThen (moves_pollLamp _)).andAside (aside_flush _)
    · exact .aside (aside_onTimers s)

theorem moves_shutterRise {reading : Reading} {t : State} (ht : execShutterRise reading s = .next t) : Moves b s t := by
  unfold execShutterRise at ht
  split at ht <;> cases ht
  · exact .aside ((aside_onPlr s).trans (aside_onLtc _ _))
  · exact .refl

theorem moves_shutterFall {t : State} (ht : execShutterFall s = .next t) : Moves b s t := by
  unfold execShutterFall at ht
  split at ht <;> cases ht
  · exact moves_pollAll_announce _ ((Moves.aside (aside_onLtc s _)).andThen (moves_windowEnded _ _ _)) _
  · exact .refl

theorem moves_monitorSample {reading : Reading} {t : State} (ht : execMonitorSample reading s = .next t) :
    Moves b s t := by
  unfold execMonitorSample at ht
  split at ht <;> cases ht
  · exact .aside (aside_onLtc s _)
  · exact .refl

/-! ## The uplink -/

theorem moves_breakIdleRun : Moves b s s.breakIdleRun := .aside (aside_onPlr s)

variable {s} in
theorem moves_uplinkEnd {x t : State} (h : Moves b s x) (s0 : State) (ht : s0.uplinkEnd x = .next t) : Moves b s t := by
  cases ht
  exact moves_pollAll_announce _ (h.andAside (aside_sealFaults _ _)) _

theorem moves_frameStart {tag : Byte} {check : BitVec 16} {t : State} (ht : execFrameStart tag check s = .next t) :
    Moves b s t := by
  unfold execFrameStart at ht
  split at ht
  · cases ht
    exact moves_breakIdleRun s
  · refine moves_uplinkEnd (Moves.andThen ?_ (moves_judgeStart _ _ _)) s ht
    split
    · exact moves_endFrame s none
    · exact .refl

theorem moves_queueRow (i : Nat) (codes : List CameraCode) : Moves b s (s.queueRow i codes) := by
  have hnext : Moves b s (s.onPlr fun p => { p with nextRow := i + 1 }) := .aside (aside_onPlr s)
  unfold State.queueRow
  dsimp only
  split
  · exact hnext
  · exact hnext
  · split
    · exact hnext.andThen (moves_tearRow _ _ _)
    · rename_i hq
      refine Move.chain (.enqueue ?_ ?_)
      · rfl
      · simp only [State.onPlr, List.length_append, List.length_singleton]
        omega

theorem moves_receiveRow (good : Bool) (index : Nat) (bytes : List Byte) : Moves b s (s.receiveRow good index bytes) := by
  have htear (kind : FaultKind) (i : Nat) :
      Moves b s ((s.onPlr fun p => { p with nextRow := i + 1 }).tearRow kind i) :=
    (Moves.aside (aside_onPlr s)).andThen (moves_tearRow _ _ _)
  unfold State.receiveRow
  dsimp only
  split
  · exact htear _ _
  · split
    · exact htear _ _
    · split
      · exact moves_chargeRow s _
      · split
        · exact moves_tearRows s _ _ _
        · exact (moves_tearRows s _ _ _).andThen (moves_queueRow _ _ _)

theorem moves_uplinkRow {index check : BitVec 16} {bytes : List Byte} {t : State}
    (ht : execUplinkRow index bytes check s = .next t) : Moves b s t := by
  unfold execUplinkRow at ht
  split at ht
  · cases ht
    exact moves_breakIdleRun s
  · split at ht
    · exact moves_uplinkEnd (moves_strayFrame s) s ht
    · cases ht
      exact .refl
    · exact moves_uplinkEnd (moves_receiveRow s _ _ _) s ht

theorem moves_frameEnd {n check : BitVec 16} {t : State} (ht : execFrameEnd n check s = .next t) : Moves b s t := by
  unfold execFrameEnd at ht
  split at ht
  · cases ht
    exact moves_breakIdleRun s
  · split at ht
    · exact moves_uplinkEnd (moves_strayFrame s) s ht
    · cases ht
      exact .refl
    · exact moves_uplinkEnd (moves_endFrame s _) s ht

theorem moves_uplinkIdle {check : BitVec 16} {t : State} (ht : execUplinkIdle check s = .next t) : Moves b s t := by
  unfold execUplinkIdle at ht
  split at ht
  · cases ht
    exact ((((Moves.aside (aside_idleWhileDropped s _)).andThen (moves_pollIdle _)).andThen (moves_pollSlot _)).andThen
      (moves_arbitrate _)).andAside (aside_announce _ _)
  · split at ht
    · cases ht
      exact .refl
    · cases ht
      exact .aside (aside_onPlr s)
    · refine moves_uplinkEnd ?_ s ht
      split
      · exact (moves_endFrame s none).andAside (aside_idleWhileDropped _ _)
      · exact moves_endFrame s none

theorem moves_unknownUnit {bytes : List Byte} {t : State} (ht : execUnknownUnit bytes s = .next t) : Moves b s t := by
  unfold execUnknownUnit at ht
  split at ht <;> cases ht
  · exact moves_breakIdleRun s
  · exact .refl

/-! ## The delivery and the station lines -/

theorem moves_readyRise {t : State} (ht : execReadyRise s = .next t) : Moves b s t := by
  cases ht
  exact ((Moves.aside (aside_onDlt s (f := fun d => { d with ready := true }))).andMove (.serveLink _)).andThen
    (moves_arbitrate _)

theorem moves_startSent {t : State} (ht : execStartSent s = .next t) : Moves b s t := by
  unfold execStartSent at ht
  split at ht <;> cases ht
  · rename_i h
    exact ((Move.startSent s h).chain.andMove (.serveLink _)).andThen (moves_arbitrate _)
  · exact .refl

theorem moves_headerSent {t : State} (ht : execHeaderSent s = .next t) : Moves b s t := by
  unfold execHeaderSent at ht
  split at ht <;> cases ht
  · rename_i h
    exact ((Move.headerSent s h).chain.andMove (.serveLink _)).andThen (moves_arbitrate _)
  · exact .refl

theorem moves_deliveryRowSent {t : State} (ht : execDeliveryRowSent s = .next t) : Moves b s t := by
  unfold execDeliveryRowSent at ht
  split at ht <;> cases ht
  · rename_i h
    exact ((Move.rowSent s h).chain.andMove (.serveLink _)).andThen (moves_arbitrate _)
  · exact .refl

theorem moves_endSent {t : State} (ht : execEndSent s = .next t) : Moves b s t := by
  unfold execEndSent at ht
  split at ht
  · rename_i h
    cases ht
    exact (((Move.streamEnded s h).chain.andThen (moves_pollDelivery _)).andThen (moves_arbitrate _)).andAside
      (aside_announce _ _)
  · split at ht <;> cases ht
    · exact ((Move.linkFreed s).chain.andMove (.serveLink _)).andThen (moves_arbitrate _)
    · exact .refl

theorem moves_lineEvents {p : PortNo} {i : Instr} {t : State} (hi : i = .lineBreak p ∨ i = .paceRise p ∨ i = .paceFall p)
    (ht : exec i s = .next t) : Moves b s t := by
  obtain rfl | rfl | rfl := hi <;> cases ht <;> exact .aside (aside_onPort s _ _)

theorem moves_answerSent {p : PortNo} {t : State} (ht : execAnswerSent p s = .next t) : Moves b s t := by
  unfold execAnswerSent at ht
  split at ht
  · split at ht <;> cases ht
    · exact (Moves.aside (aside_onPort s _ _)).andThen (moves_resume _)
    · exact .aside (aside_onPort s _ _)
  · cases ht
    exact .refl

theorem moves_noticeSent {p : PortNo} {t : State} (ht : execNoticeSent p s = .next t) : Moves b s t := by
  unfold execNoticeSent at ht
  split at ht <;> cases ht
  · exact .aside (aside_onPort s _ _)
  · exact .refl

theorem moves_badFrame {p : PortNo} {characters : List Character} {t : State}
    (ht : execBadFrame p characters s = .next t) : Moves b s t := by
  unfold execBadFrame at ht
  split at ht <;> cases ht
  · exact .refl
  · exact .aside (aside_onPort s _ _)

theorem moves_nonRequestFrame {p : PortNo} {kind : Byte} {body : List Byte} {t : State}
    (ht : execNonRequestFrame p kind body s = .next t) : Moves b s t := by
  unfold execNonRequestFrame at ht
  split at ht <;> cases ht
  · exact .refl
  · exact .aside (aside_onPort s _ _)

theorem moves_coldResetEnd {t : State} (ht : execColdResetEnd s = .next t) : Moves b s t := by
  unfold execColdResetEnd at ht
  split at ht <;> cases ht
  · exact .aside (aside_onFsc s)
  · exact .refl

theorem moves_coldReset {p0 p1 p2 : Straps} {t : State} (ht : execColdReset p0 p1 p2 s = .next t) : Moves b s t := by
  cases ht
  refine (Move.cold (.of_core ?_ ?_)).chain <;> rfl

/-! ## Every command -/

/-- A command that is a request is a chain of moves. -/
theorem moves_request {i : Instr} {q : Src} {kind : RequestKind} (hi : requestOf? i = some (q, kind)) {s t : State}
    (ht : exec i s = .next t) : Moves (isStandby i) s t :=
  (unported_moves (isStandby i) s).exec_request hi .refl (fun _ hx => hx.andThen (moves_handler _ i _)) ht

/-- Every command is a chain of moves on the work of the cells. -/
theorem exec_moves {i : Instr} {s t : State} (ht : exec i s = .next t) : Moves (isStandby i) s t := by
  cases i
  case coldReset => exact moves_coldReset s ht
  case coldResetEnd => exact moves_coldResetEnd s ht
  case resetWarm => cases ht; exact moves_resume s
  case bringUpPass => exact moves_bringUpPass s ht
  case bringUpFail => exact moves_storeEvents s (.inl rfl) ht
  case relockPass => exact moves_storeEvents s (.inr (.inl rfl)) ht
  case relockFail => exact moves_storeEvents s (.inr (.inr rfl)) ht
  case refreshDue => exact moves_refreshDue s ht
  case refreshComplete => exact moves_refreshComplete s ht
  case rowMergeComplete => exact moves_rowMergeComplete s ht
  case clearRowWrite => exact moves_clearRowWrite s ht
  case calibrationAccumulationRow => exact moves_calibrationRow s ht
  case finalizationRowWrite => exact moves_finalizationRow s ht
  case deliveryReadComplete => exact moves_deliveryRead s ht
  case secondTick => exact moves_secondTick s ht
  case lampOnMinute => exact moves_lampOnMinute s ht
  case settleTimerExpiry => exact moves_settleTimerExpiry s ht
  case moveTimerExpiry => exact moves_moveTimerExpiry s ht
  case frameTimerExpiry => exact moves_frameTimerExpiry s ht
  case warmUpExpiry => exact moves_warmUpExpiry s ht
  case lampCheck => exact moves_lampCheck s ht
  case idleTimerExpiry => exact moves_idleTimerExpiry s ht
  case shutterRise => exact moves_shutterRise s ht
  case shutterFall => exact moves_shutterFall s ht
  case monitorSample => exact moves_monitorSample s ht
  case frameStart => exact moves_frameStart s ht
  case uplinkRow => exact moves_uplinkRow s ht
  case frameEnd => exact moves_frameEnd s ht
  case uplinkIdle => exact moves_uplinkIdle s ht
  case unknownUnit => exact moves_unknownUnit (bytes := []) s ht
  case readyRise => exact moves_readyRise s ht
  case readyFall => cases ht; exact .aside (aside_onDlt s)
  case startSent => exact moves_startSent s ht
  case headerSent => exact moves_headerSent s ht
  case deliveryRowSent => exact moves_deliveryRowSent s ht
  case endSent => exact moves_endSent s ht
  case badFrame => exact moves_badFrame s ht
  case nonRequestFrame => exact moves_nonRequestFrame s ht
  case lineBreak p => exact moves_lineEvents s (.inl rfl) ht
  case paceRise p => exact moves_lineEvents s (.inr (.inl rfl)) ht
  case paceFall p => exact moves_lineEvents s (.inr (.inr rfl)) ht
  case answerSent => exact moves_answerSent s ht
  case noticeSent => exact moves_noticeSent s ht
  all_goals exact moves_request rfl ht

end Sys2Proof.Machine
end

section
/-! PROOFS. The register's records under the moves: their keys, grids, seats and exposing cells. -/

namespace Sys2Proof.Machine

-- One proof at a time: under the memory limit of the check there is no room for the stacks of many threads.
set_option Elab.async false

/-! ## Records that keep their key, grid and places -/

/-- A record as it may stand after a move: with its key, its grid and the places of its cells, and not seated anew. -/
structure PlateRecord.Reworked (r q : PlateRecord) : Prop where
  key : q.key = r.key
  columns : q.columns = r.columns
  rows : q.rows = r.rows
  places : q.cells.map (fun c => (c.column, c.row)) = r.cells.map fun c => (c.column, c.row)
  seated : q.seated = true → r.seated = true

/-- A record after a move that exposes no cell anew. -/
structure PlateRecord.Within (r q : PlateRecord) : Prop extends r.Reworked q where
  exposing : q.cells.countP (·.state == .exposing) ≤ r.cells.countP (·.state == .exposing)

theorem PlateRecord.Within.refl (r : PlateRecord) : r.Within r := ⟨⟨rfl, rfl, rfl, rfl, id⟩, le_rfl⟩

theorem PlateRecord.Reworked.trans {r q p : PlateRecord} (h : r.Reworked q) (g : q.Reworked p) : r.Reworked p :=
  ⟨g.key.trans h.key, g.columns.trans h.columns, g.rows.trans h.rows, g.places.trans h.places,
    fun hp => h.seated (g.seated hp)⟩

theorem PlateRecord.Within.trans {r q p : PlateRecord} (h : r.Within q) (g : q.Within p) : r.Within p :=
  ⟨h.toReworked.trans g.toReworked, g.exposing.trans h.exposing⟩

/-- A record that keeps its cells and its seat. -/
structure PlateRecord.SameCells (r q : PlateRecord) : Prop where
  key : q.key = r.key
  columns : q.columns = r.columns
  rows : q.rows = r.rows
  cells : q.cells = r.cells
  seated : q.seated = r.seated
  profile : q.profile = r.profile

theorem PlateRecord.SameCells.refl (r : PlateRecord) : r.SameCells r := ⟨rfl, rfl, rfl, rfl, rfl, rfl⟩

theorem PlateRecord.sameCells_id (r : PlateRecord) : r.SameCells (id r) := .refl r

theorem PlateRecord.SameCells.trans {r q p : PlateRecord} (h : r.SameCells q) (g : q.SameCells p) : r.SameCells p :=
  ⟨g.key.trans h.key, g.columns.trans h.columns, g.rows.trans h.rows, g.cells.trans h.cells, g.seated.trans h.seated,
    g.profile.trans h.profile⟩

theorem PlateRecord.SameCells.within {r q : PlateRecord} (h : r.SameCells q) : r.Within q :=
  ⟨⟨h.key, h.columns, h.rows, by rw [h.cells], fun hq => h.seated ▸ hq⟩, by rw [h.cells]⟩

theorem PlateRecord.sameCells_recaptured (r : PlateRecord) : r.SameCells r.recaptured := by
  unfold PlateRecord.recaptured
  repeat' split
  all_goals exact ⟨rfl, rfl, rfl, rfl, rfl, rfl⟩

theorem PlateRecord.sameCells_completed (r : PlateRecord) (now : Seconds) : r.SameCells (r.completed now) := by
  unfold PlateRecord.completed
  split
  · exact ⟨rfl, rfl, rfl, rfl, rfl, rfl⟩
  · exact .refl r

theorem PlateRecord.sameCells_settled (r : PlateRecord) (now : Seconds) : r.SameCells (r.settled now) :=
  r.sameCells_recaptured.trans (r.recaptured.sameCells_completed now)

/-- A change of a cell record that leaves it in its place. -/
def InPlace (f : CellRecord → CellRecord) : Prop := ∀ c, (f c).column = c.column ∧ (f c).row = c.row

theorem InPlace.abandon : InPlace CellRecord.abandon := fun _ => ⟨rfl, rfl⟩

theorem InPlace.ite {f : CellRecord → CellRecord} (h : InPlace f) (p : CellRecord → Prop) [DecidablePred p] :
    InPlace fun c => if p c then f c else c := by
  intro c
  dsimp only
  split
  · exact h c
  · exact ⟨rfl, rfl⟩

/-- A record with its cells changed in place. -/
theorem PlateRecord.reworked_mapCells (r : PlateRecord) {f : CellRecord → CellRecord} (h : InPlace f) :
    r.Reworked { r with cells := r.cells.map f } :=
  ⟨rfl, rfl, rfl, by simp only [List.map_map]; exact List.map_congr_left fun c _ => Prod.ext (h c).1 (h c).2, id⟩

theorem PlateRecord.within_mapCells (r : PlateRecord) {f : CellRecord → CellRecord} (h : InPlace f)
    (he : ∀ c, (f c).state = .exposing → c.state = .exposing) : r.Within { r with cells := r.cells.map f } := by
  refine ⟨r.reworked_mapCells h, ?_⟩
  dsimp only
  rw [List.countP_map]
  exact List.countP_mono_left fun c _ hc => by simpa using he c (by simpa using hc)

/-- A change of one cell, and of what the cells leave alone, then R9 and R10. -/
theorem PlateRecord.reworked_changed (r : PlateRecord) {f : CellRecord → CellRecord} (h : InPlace f)
    {g : PlateRecord → PlateRecord} (hg : ∀ x : PlateRecord, x.SameCells (g x)) (column row : Nat) (now : Seconds) :
    r.Reworked ((g (r.onCell column row f)).settled now) :=
  (r.reworked_mapCells (h.ite fun c => c.column = column ∧ c.row = row)).trans
    ((hg _).trans (sameCells_settled _ now)).within.toReworked

theorem PlateRecord.within_changed (r : PlateRecord) {f : CellRecord → CellRecord} (h : InPlace f)
    (he : ∀ c, (f c).state = .exposing → c.state = .exposing) {g : PlateRecord → PlateRecord}
    (hg : ∀ x : PlateRecord, x.SameCells (g x)) (column row : Nat) (now : Seconds) :
    r.Within ((g (r.onCell column row f)).settled now) := by
  refine (r.within_mapCells (h.ite fun c => c.column = column ∧ c.row = row) ?_).trans
    ((hg _).trans (sameCells_settled _ now)).within
  intro c hc
  split at hc
  · exact he c hc
  · exact hc

/-! ## The register's list -/

/-- The records after a move, each reworked. -/
abbrev Reworks (ps qs : List PlateRecord) : Prop := List.Forall₂ PlateRecord.Reworked ps qs

/-- The records after a move that exposes no cell anew. -/
abbrev Withins (ps qs : List PlateRecord) : Prop := List.Forall₂ PlateRecord.Within ps qs

theorem Withins.refl (ps : List PlateRecord) : Withins ps ps := List.forall₂_same.mpr fun r _ => .refl r

theorem Withins.trans {ps qs us : List PlateRecord} (h : Withins ps qs) (g : Withins qs us) : Withins ps us := by
  induction h generalizing us with
  | nil => exact g
  | cons hr _ ih =>
    cases g with
    | cons hq gs => exact .cons (hr.trans hq) (ih gs)

theorem Withins.reworks {ps qs : List PlateRecord} (h : Withins ps qs) : Reworks ps qs :=
  h.imp fun _ _ hr => hr.toReworked

theorem withins_map {ps : List PlateRecord} {f : PlateRecord → PlateRecord} (h : ∀ r : PlateRecord, r.Within (f r)) :
    Withins ps (ps.map f) :=
  List.forall₂_map_right_iff.mpr (List.forall₂_same.mpr fun r _ => h r)

/-- A change of the record of a key. -/
theorem withins_onPlate (s : State) (key : PlateKey) {f : PlateRecord → PlateRecord} (h : ∀ r : PlateRecord, r.Within (f r)) :
    Withins s.plates (s.onPlate key f).plates :=
  withins_map fun r => by
    split
    · exact h r
    · exact .refl r

theorem Reworks.keys {ps qs : List PlateRecord} (h : Reworks ps qs) : qs.map (·.key) = ps.map (·.key) := by
  induction h with
  | nil => rfl
  | cons hr _ ih => rw [List.map_cons, List.map_cons, hr.key, ih]

theorem Reworks.seated {ps qs : List PlateRecord} (h : Reworks ps qs) :
    qs.countP (·.seated) ≤ ps.countP (·.seated) := by
  induction h with
  | nil => exact le_rfl
  | cons hr _ ih =>
    rw [List.countP_cons, List.countP_cons]
    refine Nat.add_le_add ih ?_
    split
    · rename_i hq
      rw [if_pos (hr.seated hq)]
    · exact Nat.zero_le _

theorem Reworks.registerLaw {s t : State} (h : Reworks s.plates t.plates) (hs : s.registerLaw) : t.registerLaw := by
  obtain ⟨hn, hk, h1⟩ := hs
  exact ⟨h.length_eq ▸ hn, by rw [h.keys]; exact hk, h.seated.trans h1⟩

theorem Reworks.gridLaw {s t : State} (h : Reworks s.plates t.plates) (hs : s.gridLaw) : t.gridLaw := by
  have hlaw (ps qs : List PlateRecord) (h : Reworks ps qs)
      (hp : ∀ r ∈ ps, r.cells.map (fun c => (c.column, c.row)) = gridCells r.columns r.rows) :
      ∀ r ∈ qs, r.cells.map (fun c => (c.column, c.row)) = gridCells r.columns r.rows := by
    induction h with
    | nil => exact hp
    | cons hr _ ih =>
      obtain ⟨h0, hrest⟩ := List.forall_mem_cons.mp hp
      exact List.forall_mem_cons.mpr ⟨by rw [hr.places, h0, hr.columns, hr.rows], ih hrest⟩
  exact hlaw _ _ h hs

theorem Withins.exposingLaw {s t : State} (h : Withins s.plates t.plates) (hs : s.exposingLaw) : t.exposingLaw := by
  refine le_trans ?_ hs
  have hcount (ps qs : List PlateRecord) (h : Withins ps qs) :
      (qs.flatMap (·.cells)).countP (·.state == .exposing) ≤ (ps.flatMap (·.cells)).countP (·.state == .exposing) := by
    induction h with
    | nil => exact le_rfl
    | cons hr _ ih =>
      rw [List.flatMap_cons, List.flatMap_cons, List.countP_append, List.countP_append]
      exact Nat.add_le_add hr.exposing ih
  exact hcount _ _ h

/-! ## The operations -/

section

variable (s : State)

theorem withins_changeCellQuiet (c : CellRef) {f : CellRecord → CellRecord} (h : InPlace f)
    (he : ∀ c, (f c).state = .exposing → c.state = .exposing) {g : PlateRecord → PlateRecord}
    (hg : ∀ x : PlateRecord, x.SameCells (g x)) : Withins s.plates (s.changeCellQuiet c f g).plates :=
  withins_onPlate s c.key fun r => r.within_changed h he hg _ _ _

theorem changeCell_plates (c : CellRef) (f : CellRecord → CellRecord) (g : PlateRecord → PlateRecord) :
    (s.changeCell c f g).plates = (s.changeCellQuiet c f g).plates := by
  unfold State.changeCell
  dsimp only
  split
  · simp
  · rfl

theorem withins_changeCell (c : CellRef) {f : CellRecord → CellRecord} (h : InPlace f)
    (he : ∀ c, (f c).state = .exposing → c.state = .exposing) {g : PlateRecord → PlateRecord}
    (hg : ∀ x : PlateRecord, x.SameCells (g x)) : Withins s.plates (s.changeCell c f g).plates :=
  changeCell_plates s c f g ▸ withins_changeCellQuiet s c h he hg

theorem withins_abandon (c : CellRef) : Withins s.plates (s.changeCell c CellRecord.abandon id).plates :=
  withins_changeCell s c .abandon nofun PlateRecord.sameCells_id

theorem withins_abandonTry : Withins s.plates s.abandonTry.plates := by
  have habandon {x : State} (hx : x.plates = s.plates) (c : TryContext) :
      Withins s.plates (((x.changeCell c.cell CellRecord.abandon id).returnSlot c.slot).clearCsq).plates := by
    have h := withins_abandon x c.cell
    rw [hx] at h
    simpa using h
  unfold State.abandonTry
  split
  · exact .refl _
  · dsimp only
    split
    all_goals exact habandon (by simp) _

theorem withins_leaveCapture : Withins s.plates s.leaveCapture.plates := by
  unfold State.leaveCapture
  split
  · exact withins_abandonTry s
  · split
    all_goals exact .refl _

theorem withins_leaveCaptureOf (key : PlateKey) : Withins s.plates (s.leaveCaptureOf key).plates := by
  unfold State.leaveCaptureOf
  split
  · split
    · exact withins_leaveCapture s
    · exact .refl _
  · exact withins_leaveCapture s

theorem withins_endTry (c : TryContext) (o : LastOutcome) : Withins s.plates (s.endTry c o).plates := by
  unfold State.endTry
  split
  · split
    · have h := withins_changeCell s c.cell (f := fun y => { y with triesUsed := y.triesUsed + 1, lastOutcome := o })
        (fun _ => ⟨rfl, rfl⟩) (fun _ h => h) PlateRecord.sameCells_id
      simpa using h
    · have h := withins_changeCell s c.cell
        (f := fun y => { y with triesUsed := y.triesUsed + 1, lastOutcome := o, state := .failed, slot := none })
        (fun _ => ⟨rfl, rfl⟩) nofun (g := fun r => { r with failed := r.failed + 1 })
        fun x => ⟨rfl, rfl, rfl, rfl, rfl, rfl⟩
      simpa using h
  · exact .refl _

theorem withins_handOver (c : TryContext) : Withins s.plates (s.handOver c).plates := by
  have h := withins_changeCell s c.cell (f := fun x => { x with state := .finalizing }) (fun _ => ⟨rfl, rfl⟩) nofun
    PlateRecord.sameCells_id
  unfold State.handOver
  simpa using h

theorem withins_startStream (c : CellRef) : Withins s.plates (s.startStream c).plates := by
  unfold State.startStream
  split
  · split
    · exact .refl _
    · have h := withins_changeCell (s.dequeue c) c (f := fun y => { y with state := .delivering }) (fun _ => ⟨rfl, rfl⟩)
        nofun PlateRecord.sameCells_id
      simpa using h
  · exact .refl _

theorem withins_streamEnded : Withins s.plates s.streamEnded.plates := by
  unfold State.streamEnded
  dsimp only
  split
  · exact withins_changeCell (s.onDlt fun d => { d with link := none, stream := none }) _
      (f := fun x => { x with state := .delivered }) (fun _ => ⟨rfl, rfl⟩) nofun PlateRecord.sameCells_id
  · exact .refl _

theorem withins_passComplete (k : SlotNo) : Withins s.plates (s.passComplete k).plates := by
  unfold State.passComplete
  dsimp only
  split
  · simpa using Withins.refl s.plates
  · rename_i c _
    have h := withins_changeCell (((s.onWork k fun w => w.coded s.tbu.clock).onMge
      fun x => { x with queue := x.queue.filter fun j => j != k }).startPass) c (f := fun x =>
          { x with state := .merged, triesUsed := x.triesUsed + 1, summary := some (s.work k).passSummary,
                   lastOutcome := .finalized }) (fun _ => ⟨rfl, rfl⟩) nofun PlateRecord.sameCells_id
    simpa using h

theorem withins_finalRowDone (k : SlotNo) (y : Nat) : Withins s.plates (s.finalRowDone k y).plates := by
  unfold State.finalRowDone
  dsimp only
  split
  · exact withins_passComplete ((s.writeRow (some _)).onWork k _) k
  · simpa using Withins.refl s.plates

theorem withins_loseCell (p : CellRef × SlotNo) : Withins s.plates (s.loseCell p).plates := by
  have h := withins_changeCellQuiet s p.1 (f := CellRecord.abandon) .abandon nofun
    PlateRecord.sameCells_id
  unfold State.loseCell
  simpa using h

theorem withins_loseCells (l : List (CellRef × SlotNo)) : Withins s.plates (l.foldl State.loseCell s).plates := by
  induction l generalizing s with
  | nil => exact .refl _
  | cons p ps ih => exact (withins_loseCell s p).trans (ih _)

theorem PlateRecord.within_restarted (r : PlateRecord) : r.Within r.restarted := by
  have hcells : r.Within { r with cells := r.cells.map CellRecord.restarted } := by
    refine r.within_mapCells (fun c => ?_) fun c hc => ?_
    · unfold CellRecord.restarted
      split
      · exact ⟨rfl, rfl⟩
      · split <;> exact ⟨rfl, rfl⟩
    · unfold CellRecord.restarted at hc
      split at hc
      · cases hc
      · split at hc
        · cases hc
        · exact hc
  unfold PlateRecord.restarted
  dsimp only
  split
  · exact hcells.trans (sameCells_recaptured _).within
  · exact hcells

theorem PlateRecord.within_unseat (r : PlateRecord) : r.Within r.unseat := ⟨⟨rfl, rfl, rfl, rfl, nofun⟩, le_rfl⟩

theorem PlateRecord.within_withdrawn (r : PlateRecord) : r.Within r.withdrawn := by
  have h := r.within_mapCells (InPlace.abandon.ite fun c => c.state.withdrawLoses = true) (by
    intro c hc
    split at hc
    · cases hc
    · exact hc)
  exact h.trans ⟨⟨rfl, rfl, rfl, rfl, id⟩, le_rfl⟩

/-! ## The moves that are no `Withins` -/

theorem gridCells_nodup (columns rows : Nat) : (gridCells columns rows).Nodup := by
  unfold gridCells
  refine List.nodup_flatMap.mpr ⟨fun y _ => List.nodup_range.map fun a b h => (Prod.ext_iff.mp h).1, ?_⟩
  refine List.nodup_range.imp ?_
  intro a b hab
  simp only [Function.onFun, List.disjoint_left, List.mem_map]
  rintro _ ⟨c, _, rfl⟩ ⟨d, _, h⟩
  exact hab (Prod.ext_iff.mp h).2.symm

/-- With no key twice a predicate that holds of the record of one key alone holds once. -/
theorem countP_le_one_of_key {ps : List PlateRecord} (hk : (ps.map (·.key)).Nodup) (key : PlateKey) :
    ps.countP (fun r => r.key == key) ≤ 1 := by
  have h := List.nodup_iff_count_le_one.mp hk key
  rwa [List.count, List.countP_map] at h

theorem sum_indicator_eq_countP {α : Type} (p : α → Bool) (l : List α) :
    (l.map fun x => if p x then 1 else 0).sum = l.countP p := by
  induction l with
  | nil => rfl
  | cons x xs ih => rw [List.map_cons, List.sum_cons, ih, List.countP_cons, Nat.add_comm]

theorem reworks_claim (r : PlateRecord) (c : CellRef) (k : SlotNo) : Reworks s.plates (s.claim r c k).plates := by
  unfold State.claim
  have h : Reworks s.plates
      ((s.claimSlot k c).changeCellQuiet c (fun x => { x with state := .exposing, slot := some k }) id).plates :=
    List.forall₂_map_right_iff.mpr (List.forall₂_same.mpr fun r _ => by
      split
      · exact r.reworked_changed (f := fun x => { x with state := .exposing, slot := some k }) (fun _ => ⟨rfl, rfl⟩)
          PlateRecord.sameCells_id _ _ _
      · exact (PlateRecord.Within.refl r).toReworked)
  simpa using h

variable {s}

theorem exposingLaw_claim (hr : s.registerLaw) (hg : s.gridLaw) (he : s.anyCell (· == .exposing) = false)
    (r : PlateRecord) (c : CellRef) (k : SlotNo) : (s.claim r c k).exposingLaw := by
  obtain ⟨-, hkeys, -⟩ := hr
  have hnone : ∀ r ∈ s.plates, ∀ x ∈ r.cells, x.state ≠ .exposing := by
    simpa [State.anyCell] using he
  have hplates : (s.claim r c k).plates = s.plates.map fun r =>
      if r.key = c.key then (r.onCell c.column c.row fun x => { x with state := .exposing, slot := some k }).settled
        s.tbu.clock else r := by
    unfold State.claim
    simp [State.changeCellQuiet, State.onPlate]
  have hone : ∀ r ∈ s.plates, (if r.key = c.key then (r.onCell c.column c.row fun x =>
      { x with state := .exposing, slot := some k }).settled s.tbu.clock else r).cells.countP (·.state == .exposing)
        ≤ if r.key == c.key then 1 else 0 := by
    intro r hr
    simp only [beq_iff_eq]
    split
    · rw [(PlateRecord.sameCells_settled _ _).cells, PlateRecord.onCell, List.countP_map]
      refine le_trans (List.countP_mono_left (q := fun x => (x.column, x.row) == (c.column, c.row)) fun x hx h => ?_) ?_
      · by_contra hne
        have hne' : ¬ (x.column = c.column ∧ x.row = c.row) := by simpa using hne
        exact hnone r hr x hx (by simpa [hne'] using h)
      · have h := List.nodup_iff_count_le_one.mp (hg r hr ▸ gridCells_nodup _ _) (c.column, c.row)
        rwa [List.count, List.countP_map] at h
    · exact (List.countP_eq_zero.mpr fun x hx => by simpa using hnone r hr x hx).le
  show ((s.claim r c k).plates.flatMap (·.cells)).countP (·.state == .exposing) ≤ 1
  rw [hplates, List.countP_flatMap, List.map_map]
  refine le_trans (List.sum_le_sum hone) ?_
  exact (sum_indicator_eq_countP _ _).trans_le (countP_le_one_of_key hkeys c.key)

/-! ## Every move -/

theorem PlateRecord.sameCells_kept (r : PlateRecord) : r.SameCells { r with kept := r.kept + 1 } :=
  ⟨rfl, rfl, rfl, rfl, rfl, rfl⟩

theorem PlateRecord.sameCells_failed (r : PlateRecord) : r.SameCells { r with failed := r.failed + 1 } :=
  ⟨rfl, rfl, rfl, rfl, rfl, rfl⟩

@[simp] theorem returnCellSlot_plates (s : State) (x : CellRecord) : (s.returnCellSlot x).plates = s.plates := by
  unfold State.returnCellSlot
  split
  · simp
  · rfl

/-- What a move does to the register's records. -/
inductive RegisterMove (s t : State) : Prop
  | within (h : Withins s.plates t.plates)
  | claim (r : PlateRecord) (c : CellRef) (k : SlotNo) (h : t = s.claim r c k) (he : s.anyCell (· == .exposing) = false)
  | enrol (k : PlateKey) (p : ProfileNo) (a : Handling) (e : Emulsion) (c w : Nat) (now : Seconds)
      (h : t.plates = s.plates ++ [PlateRecord.enrolled k p a e c w now]) (hk : s.plate? k = none)
      (hn : s.plates.length < Config.maxPlates)
  | seat (key : PlateKey) (now : Seconds) (failed : Bool) (h : t = s.onPlate key fun y => y.seat now failed)
      (hs : s.anySeated = false)
  | removed (p : PlateRecord → Bool) (h : t.plates = s.plates.filter p)
  | cleared (h : t.plates = [])

theorem RegisterMove.same {s t : State} (h : t.plates = s.plates) : RegisterMove s t := .within (h ▸ .refl _)

theorem Move.register {b : Bool} {s t : State} (h : Move b s t) : RegisterMove s t := by
  cases h with
  | aside h => exact .same (congrArg Core.plates h.core)
  | enqueue h => exact .same (congrArg Core.plates h)
  | cold h => exact .cleared (congrArg Core.plates h.core)
  | warm => exact .within (withins_map PlateRecord.within_restarted)
  | moveEnds status x _ _ _ h => exact .same (congrArg Core.plates h.core)
  | calibDone w _ _ ht => exact .same ((congrArg Core.plates ht.core).trans (by simp [State.core]))
  | standby mask _ _ ht =>
    have hp : t.plates = ((s.cellsOutside mask).foldl State.loseCell s).plates := congrArg Core.plates ht.core
    exact .within (hp ▸ withins_loseCells s _)
  | claim r p k _ _ _ _ he => exact .claim r _ k rfl he
  | enrol k p a e c w now hk hn => exact .enrol k p a e c w now rfl hk hn
  | seat r now failed _ _ hs => exact .seat r.key now failed rfl hs
  | removePlate r => exact .removed _ rfl
  | withdrawUnseated r => exact .removed (fun x => x.key != r.key) (by simp [State.removePlate])
  | abandonTry => exact .within (withins_abandonTry s)
  | endTry c o => exact .within (withins_endTry s c o)
  | handOver c => exact .within (withins_handOver s c)
  | rehold f => exact .within (withins_map fun r => ⟨⟨rfl, rfl, rfl, rfl, id⟩, le_rfl⟩)
  | unseat r =>
    exact .within ((withins_onPlate s r.key PlateRecord.within_unseat).trans (withins_leaveCaptureOf _ r.key))
  | withdraw r =>
    refine .within ((withins_leaveCaptureOf s r.key).trans ?_)
    have hundo := withins_onPlate ((s.leaveCaptureOf r.key).undoPlate r.key) r.key PlateRecord.within_withdrawn
    simpa using hundo
  | mark key a e => exact .within (withins_onPlate s key fun r => ⟨⟨rfl, rfl, rfl, rfl, id⟩, le_rfl⟩)
  | keep r x =>
    refine .within ?_
    have h := withins_changeCell s ⟨r.key, x.column, x.row⟩ (f := fun c => { c with state := .kept, slot := none })
      (fun _ => ⟨rfl, rfl⟩) nofun PlateRecord.sameCells_kept
    simpa using h
  | recapture r x =>
    refine .within ?_
    have h := withins_changeCell s ⟨r.key, x.column, x.row⟩ (f := fun c => { c with state := .pending, slot := none })
      (fun _ => ⟨rfl, rfl⟩) nofun PlateRecord.sameCells_id
    simpa using h
  | fail r x =>
    refine .within ?_
    have h := withins_changeCell s ⟨r.key, x.column, x.row⟩ (f := fun c => { c with state := .failed, slot := none })
      (fun _ => ⟨rfl, rfl⟩) nofun PlateRecord.sameCells_failed
    simpa using h
  | startStream c => exact .within (withins_startStream s c)
  | streamEnded => exact .within (withins_streamEnded s)
  | finalDone k y => exact .within (withins_finalRowDone s.accessDone k y)
  | _ => exact .same (by simp)

end

/-! ## The laws -/

variable {s t : State}

theorem PlateRecord.enrolled_places (k : PlateKey) (p : ProfileNo) (a : Handling) (e : Emulsion) (c w : Nat)
    (now : Seconds) : (PlateRecord.enrolled k p a e c w now).cells.map (fun x => (x.column, x.row)) = gridCells c w := by
  simp only [PlateRecord.enrolled, List.map_map]
  exact List.map_id' _

theorem RegisterMove.registerLaw (h : RegisterMove s t) (hs : s.registerLaw) : t.registerLaw := by
  cases h with
  | within h => exact h.reworks.registerLaw hs
  | claim r c k h he =>
    subst h
    exact (reworks_claim s r c k).registerLaw hs
  | enrol k p a e c w now h hk hn =>
    obtain ⟨-, hkeys, hseat⟩ := hs
    refine ⟨by rw [h, List.length_append]; exact hn, ?_, by rw [h, List.countP_append]; exact hseat⟩
    rw [h, List.map_append]
    refine List.nodup_append.mpr ⟨hkeys, List.nodup_singleton _, ?_⟩
    rintro a ha b hb rfl
    obtain ⟨r, hr, rfl⟩ := List.mem_map.mp ha
    have hne : ∀ x ∈ s.plates, ¬ x.key = k := by simpa [State.plate?] using hk
    exact hne r hr (by simpa [PlateRecord.enrolled] using hb)
  | seat key now failed h he =>
    subst h
    obtain ⟨hn, hkeys, -⟩ := hs
    have hmap : (s.onPlate key fun y => y.seat now failed).plates.map (·.key) = s.plates.map (·.key) := by
      simp only [State.onPlate, State.onPlates_plates, List.map_map]
      refine List.map_congr_left fun r _ => ?_
      simp only [Function.comp_apply]
      split <;> rfl
    refine ⟨by simpa [State.onPlate] using hn, by rw [hmap]; exact hkeys, ?_⟩
    refine le_trans ?_ (countP_le_one_of_key hkeys key)
    simp only [State.onPlate, State.onPlates_plates, List.countP_map]
    refine List.countP_mono_left fun r hr hseated => ?_
    by_contra hne
    have hfree : ∀ x ∈ s.plates, x.seated = false := by simpa [State.anySeated] using he
    have hne' : ¬ r.key = key := by simpa using hne
    simp [hne', hfree r hr] at hseated
  | removed p h =>
    obtain ⟨hn, hkeys, hseat⟩ := hs
    rw [State.registerLaw, h]
    exact ⟨(List.length_filter_le _ _).trans hn, hkeys.sublist (List.filter_sublist.map _),
      (List.filter_sublist.countP_le).trans hseat⟩
  | cleared h =>
    rw [State.registerLaw, h]
    exact ⟨Nat.zero_le _, List.nodup_nil, Nat.zero_le _⟩

theorem RegisterMove.gridLaw (h : RegisterMove s t) (hs : s.gridLaw) : t.gridLaw := by
  cases h with
  | within h => exact h.reworks.gridLaw hs
  | claim r c k h he =>
    subst h
    exact (reworks_claim s r c k).gridLaw hs
  | enrol k p a e c w now h hk hn =>
    rw [State.gridLaw, h]
    refine List.forall_mem_append.mpr ⟨hs, ?_⟩
    rintro r hr
    obtain rfl := List.mem_singleton.mp hr
    exact PlateRecord.enrolled_places k p a e c w now
  | seat key now failed h he =>
    subst h
    refine List.forall_mem_map.mpr fun r hr => ?_
    split
    · exact hs r hr
    · exact hs r hr
  | removed p h =>
    rw [State.gridLaw, h]
    exact fun r hr => hs r (List.mem_of_mem_filter hr)
  | cleared h =>
    rw [State.gridLaw, h]
    exact List.forall_mem_nil _

theorem RegisterMove.exposingLaw (h : RegisterMove s t) (hr : s.registerLaw) (hg : s.gridLaw) (hs : s.exposingLaw) :
    t.exposingLaw := by
  cases h with
  | within h => exact h.exposingLaw hs
  | claim r c k h he =>
    subst h
    exact exposingLaw_claim hr hg he r c k
  | enrol k p a e c w now h hk hn =>
    have hnew : (PlateRecord.enrolled k p a e c w now).cells.countP (·.state == .exposing) = 0 := by
      refine List.countP_eq_zero.mpr fun x hx => ?_
      obtain ⟨y, -, rfl⟩ := List.mem_map.mp hx
      exact Bool.false_ne_true
    rw [State.exposingLaw, h, List.flatMap_append, List.countP_append, List.flatMap_singleton, hnew]
    exact hs
  | seat key now failed h he =>
    subst h
    have hcells : (s.onPlate key fun y => y.seat now failed).plates.flatMap (·.cells) = s.plates.flatMap (·.cells) := by
      simp only [State.onPlate, State.onPlates_plates, List.flatMap_map]
      refine List.flatMap_congr fun r _ => ?_
      split <;> rfl
    rw [State.exposingLaw, hcells]
    exact hs
  | removed p h =>
    rw [State.exposingLaw, h]
    exact (List.Sublist.flatMap List.filter_sublist _).countP_le.trans hs
  | cleared h =>
    rw [State.exposingLaw, h]
    exact Nat.zero_le _

/-- Every step but an idle one is a chain of moves, from the state without its front command. -/
theorem step_keeps {P : State → Prop} (hP : ∀ b s t, P s → Move b s t → P t)
    (hpending : ∀ s rest, P s → P { s with pending := rest }) (hs : P s) (ht : step s = .next t) : P t := by
  obtain rfl | ⟨c, rest, -, ht⟩ := step_next ht
  · exact hs
  · exact (exec_moves ht).keeps (hP _) (hpending s rest hs)

/-- Settles O50, move by move. -/
theorem stepKeepsRegister : Obligations.StepKeepsRegister := by
  refine ⟨fun s t hr hg ht => ?_, fun s t hr hg he ht => ?_⟩
  · exact step_keeps (P := fun x => x.registerLaw ∧ x.gridLaw)
      (fun _ _ _ hx hm => ⟨hm.register.registerLaw hx.1, hm.register.gridLaw hx.2⟩) (fun _ _ hx => hx) ⟨hr, hg⟩ ht
  · exact (step_keeps (P := fun x => x.registerLaw ∧ x.gridLaw ∧ x.exposingLaw)
      (fun _ _ _ hx hm => ⟨hm.register.registerLaw hx.1, hm.register.gridLaw hx.2.1,
        hm.register.exposingLaw hx.1 hx.2.1 hx.2.2⟩) (fun _ _ hx => hx) ⟨hr, hg, he⟩ ht).2.2

end Sys2Proof.Machine
end

section
/-! PROOFS. The queues (R39, R110, R167, R168, R171, R172): rows and entries by the moves, notices and answers by what
the ports' operations do. -/

namespace Sys2Proof.Machine

-- One proof at a time: under the memory limit of the check there is no room for the stacks of many threads.
set_option Elab.async false

/-! ## Work records under the operations -/

theorem State.work_onWork (s : State) (k : SlotNo) (f : WorkRecord → WorkRecord) (j : SlotNo) :
    (s.onWork k f).work j = if k = j then f (s.work k) else s.work j := setAt_get _ _ _ _

theorem State.work_congr {s t : State} (h : t.mge.work = s.mge.work) (j : SlotNo) : t.work j = s.work j :=
  congrArg (fun v : Vector WorkRecord 7 => v.get j) h

/-- The start of a pass changes no record but the one at the head of the queue, which goes from QUEUED to RUNNING. -/
theorem State.work_startPass (s : State) (j : SlotNo) :
    s.startPass.work j = s.work j ∨ (s.mge.queue.head? = some j ∧ (s.work j).state = .queued
      ∧ s.startPass.work j = { s.work j with
          state := .running, rowsFinalized := 0, histogram := List.replicate 64 0, passClipLight := 0, passClipDark := 0,
          passDead := 0 }) := by
  unfold State.startPass
  split
  · exact .inl rfl
  · rename_i k ks hq
    split
    · rename_i hk
      rw [State.work_onWork]
      split
      · rename_i hkj
        subst hkj
        exact .inr ⟨by rw [hq]; rfl, hk, rfl⟩
      · exact .inl rfl
    · exact .inl rfl

/-! ## Rows and entries -/

/-- No row joins the queue, and no list grows. -/
structure Shorter (s t : State) : Prop where
  rows : t.plr.queue.length ≤ s.plr.queue.length
  list : ∀ k : SlotNo, (t.work k).list.length ≤ (s.work k).list.length

theorem Shorter.trans {s t u : State} (h : Shorter s t) (g : Shorter t u) : Shorter s u :=
  ⟨g.rows.trans h.rows, fun k => (g.list k).trans (h.list k)⟩

theorem Shorter.of_eq {s t : State} (h : t.mge.work = s.mge.work) (hq : t.plr.queue.length ≤ s.plr.queue.length) :
    Shorter s t := ⟨hq, fun k => by rw [State.work_congr h]⟩

theorem Shorter.refl (s : State) : Shorter s s := .of_eq rfl le_rfl

theorem Shorter.of_aside {s t : State} (h : Aside s t) : Shorter s t :=
  .of_eq (congrArg (fun c : Core => c.mge.work) h.core) h.queue

section

variable {s x : State}

theorem Shorter.onWork (h : Shorter s x) (k : SlotNo) {f : WorkRecord → WorkRecord}
    (hf : ∀ w, (f w).list.length ≤ w.list.length) : Shorter s (x.onWork k f) := by
  refine h.trans ⟨le_rfl, fun j => ?_⟩
  rw [State.work_onWork]
  split
  · rename_i hkj
    exact hkj ▸ hf _
  · exact le_rfl

theorem Shorter.onMge (h : Shorter s x) {f : Mge → Mge} (hf : (f x.mge).work = x.mge.work := by rfl) :
    Shorter s (x.onMge f) := h.trans (.of_eq hf le_rfl)

theorem Shorter.onPlr (h : Shorter s x) {f : Plr → Plr} (hf : (f x.plr).queue.length ≤ x.plr.queue.length) :
    Shorter s (x.onPlr f) := h.trans (.of_eq rfl hf)

theorem Shorter.onCsq (h : Shorter s x) (f : Csq → Csq) : Shorter s (x.onCsq f) := h.trans (.of_eq rfl le_rfl)

theorem Shorter.onDlt (h : Shorter s x) (f : Dlt → Dlt) : Shorter s (x.onDlt f) := h.trans (.of_eq rfl le_rfl)

theorem Shorter.onFsc (h : Shorter s x) (f : Fsc → Fsc) : Shorter s (x.onFsc f) := h.trans (.of_eq rfl le_rfl)

theorem Shorter.onPlates (h : Shorter s x) (f : List PlateRecord → List PlateRecord) : Shorter s (x.onPlates f) :=
  h.trans (.of_eq rfl le_rfl)

theorem Shorter.startPass (h : Shorter s x) : Shorter s x.startPass := by
  refine h.trans ⟨by simp, fun j => ?_⟩
  obtain h | ⟨-, -, h⟩ := x.work_startPass j <;> rw [h]

theorem Shorter.returnSlot (h : Shorter s x) (k : SlotNo) : Shorter s (x.returnSlot k) :=
  ((((h.onFsc _).onFsc _).onPlr (List.length_filter_le _ _)).onWork k fun _ => Nat.zero_le _).onMge.startPass

theorem Shorter.returnSlots (h : Shorter s x) (l : List SlotNo) : Shorter s (x.returnSlots l) := by
  unfold State.returnSlots
  induction l generalizing x with
  | nil => exact h
  | cons k ks ih => exact ih (h.returnSlot k)

theorem Shorter.returnCellSlot (h : Shorter s x) (c : CellRecord) : Shorter s (x.returnCellSlot c) := by
  unfold State.returnCellSlot
  split
  · exact h.returnSlot _
  · exact h

theorem Shorter.changeCellQuiet (h : Shorter s x) (c : CellRef) (f : CellRecord → CellRecord)
    (g : PlateRecord → PlateRecord) : Shorter s (x.changeCellQuiet c f g) := h.onPlates _

theorem Shorter.changeCell (h : Shorter s x) (c : CellRef) (f : CellRecord → CellRecord)
    (g : PlateRecord → PlateRecord) : Shorter s (x.changeCell c f g) := h.trans (.of_eq (by simp) (by simp))

theorem Shorter.beginTry (h : Shorter s x) (r : PlateRecord) (c : CellRef) (k : SlotNo) : Shorter s (x.beginTry r c k) := by
  unfold State.beginTry State.startClear
  exact (h.onCsq _).onWork k fun _ => Nat.zero_le _

theorem Shorter.abandonTry (h : Shorter s x) : Shorter s x.abandonTry := by
  have habandon {y : State} (hy : Shorter s y) (c : TryContext) :
      Shorter s (((y.changeCell c.cell CellRecord.abandon id).returnSlot c.slot).clearCsq) :=
    ((hy.changeCell _ _ _).returnSlot _).onCsq _
  unfold State.abandonTry
  split
  · exact h
  · dsimp only
    split
    all_goals exact habandon (h.trans (.of_eq (by simp) (by simp [State.cancelWait]))) _

theorem Shorter.leaveCapture (h : Shorter s x) : Shorter s x.leaveCapture := by
  unfold State.leaveCapture
  split
  · exact h.abandonTry
  · split
    · exact h.onCsq _
    · exact h.onCsq _
    · exact h

theorem Shorter.leaveCaptureOf (h : Shorter s x) (key : PlateKey) : Shorter s (x.leaveCaptureOf key) := by
  unfold State.leaveCaptureOf
  split
  · split
    · exact h.leaveCapture
    · exact h
  · exact h.leaveCapture

theorem Shorter.endTry (h : Shorter s x) (c : TryContext) (o : LastOutcome) : Shorter s (x.endTry c o) := by
  unfold State.endTry
  split
  · split
    · exact ((h.changeCell _ _ _).beginTry _ _ _).onCsq _
    · exact ((h.changeCell _ _ _).returnSlot _).onCsq _
  · exact h.onCsq _

theorem Shorter.handOver (h : Shorter s x) (c : TryContext) : Shorter s (x.handOver c) := by
  have hqueue {y : State} (hy : Shorter s y) (q : Nat) : Shorter s (y.queuePass c.slot q) :=
    ((hy.onWork c.slot (f := fun w => { w with state := .queued, qceil := some q }) fun _ => le_rfl).onMge
      (f := fun m => { m with queue := m.queue ++ [c.slot] })).startPass
  unfold State.handOver State.clearCsq
  exact (hqueue (h.changeCell _ _ _) _).onCsq _

theorem Shorter.claim (h : Shorter s x) (r : PlateRecord) (c : CellRef) (k : SlotNo) : Shorter s (x.claim r c k) :=
  (((h.onFsc _).changeCellQuiet _ _ _).beginTry _ _ _).trans (.of_eq rfl le_rfl)

theorem Shorter.undoPlate (h : Shorter s x) (key : PlateKey) : Shorter s (x.undoPlate key) := by
  have hcut : Shorter s ((x.cutPlateStream key).onDlt fun d => { d with queue := d.queue.filter fun c => c.key != key }) :=
    h.trans (.of_eq (by simp) (by simp))
  unfold State.undoPlate
  dsimp only
  split
  · exact hcut
  · exact hcut.returnSlots _

theorem Shorter.loseCells (h : Shorter s x) (l : List (CellRef × SlotNo)) : Shorter s (l.foldl State.loseCell x) := by
  induction l generalizing x with
  | nil => exact h
  | cons p ps ih => exact ih (((h.changeCellQuiet _ _ _).onDlt _).returnSlot _)

theorem Shorter.startStream (h : Shorter s x) (c : CellRef) : Shorter s (x.startStream c) := by
  unfold State.startStream
  split
  · split
    · exact h
    · exact ((h.onDlt _).changeCell _ _ _).onDlt _
  · exact h

theorem Shorter.streamEnded (h : Shorter s x) : Shorter s x.streamEnded := by
  unfold State.streamEnded
  dsimp only
  split
  · exact (h.onDlt _).changeCell _ _ _
  · exact h.onDlt _

theorem Shorter.writeRow (h : Shorter s x) (row : Option StoreRow) : Shorter s (x.writeRow row) := by
  cases row <;> exact h.trans (.of_eq rfl le_rfl)

theorem Shorter.clearRowDone (h : Shorter s x) (k : SlotNo) (y : Nat) : Shorter s (x.clearRowDone k y) := by
  have hwrite : Shorter s ((x.writeRow (some (x.clearedStoreRow k y))).onWork k fun w => { w with rowsCleared := y + 1 }) :=
    (h.writeRow _).onWork k fun _ => le_rfl
  have hdone := hwrite.onWork k (f := fun w => { w with state := .accumulating }) fun _ => le_rfl
  unfold State.clearRowDone
  dsimp only
  split
  · split
    · split
      · exact hdone.onCsq _
      · exact hdone
    · exact hdone
  · exact hwrite

theorem Shorter.passComplete (h : Shorter s x) (k : SlotNo) : Shorter s (x.passComplete k) := by
  have hcoded : Shorter s ((x.onWork k fun w => w.coded x.tbu.clock).onMge
      fun m => { m with queue := m.queue.filter fun j => j != k }).startPass :=
    ((h.onWork k (f := fun w => w.coded x.tbu.clock) fun _ => le_rfl).onMge
      (f := fun m => { m with queue := m.queue.filter fun j => j != k })).startPass
  unfold State.passComplete
  dsimp only
  split
  · exact hcoded
  · exact (hcoded.changeCell _ _ _).onDlt _

theorem Shorter.finalRowDone (h : Shorter s x) (k : SlotNo) (y : Nat) : Shorter s (x.finalRowDone k y) := by
  unfold State.finalRowDone
  dsimp only
  split
  · refine Shorter.passComplete ((h.writeRow _).onWork k ?_) k
    exact fun _ => le_rfl
  · refine (h.writeRow _).onWork k ?_
    exact fun _ => le_rfl

theorem Shorter.arbitrate (h : Shorter s x) : Shorter s x.arbitrate := by
  refine h.trans (.of_eq (by simp) ?_)
  show x.grant.plr.queue.length ≤ _
  obtain ⟨hg, -⟩ | ⟨w, _, -, -, -, hg⟩ := State.grant_cases x
  · rw [hg]
  · rw [hg]
    dsimp only
    unfold Plr.takeFor
    split
    · exact (List.tail_sublist _).length_le
    · exact (List.tail_sublist _).length_le
    · exact le_rfl

end

theorem shorter_warmRestart (s : State) : Shorter s s.warmRestart := by
  refine ⟨Nat.zero_le _, fun k => ?_⟩
  have h : s.warmRestart.work k = (s.work k).restarted := by
    simp [State.work, State.warmRestart, Vector.get]
    rfl
  rw [h]
  unfold WorkRecord.restarted
  split
  · exact le_rfl
  · exact Nat.zero_le _

/-- A law on the lengths is kept by what makes nothing longer. -/
theorem Shorter.queueLaw {s t : State} (h : Shorter s t) (hs : s.queueLaw) : t.queueLaw :=
  ⟨h.rows.trans hs.1, fun k => (h.list k).trans (hs.2 k)⟩

theorem queueLaw_triggerTry {s : State} {c : TryContext} (hn : (s.work c.slot).list.length < Config.maxExposures)
    (hs : s.queueLaw) : (s.triggerTry c).queueLaw := by
  refine ⟨hs.1, fun k => ?_⟩
  have hwork : (s.triggerTry c).mge.work = (s.onWork c.slot fun w => { w with
      list := w.list ++ [{ ordinal := (s.work c.slot).list.length, rung := c.rung, time := c.nominal, monitor := 0,
                           outcome := .pending, torn := none }],
      firstTrigger := if (s.work c.slot).list.length = 0 then some s.tbu.clock else w.firstTrigger }).mge.work := rfl
  rw [State.work_congr hwork, State.work_onWork]
  split
  · rw [List.length_append]
    exact hn
  · exact hs.2 k

theorem queueLaw_reset : State.reset.queueLaw := by
  refine ⟨Nat.zero_le _, fun k => ?_⟩
  rw [work_reset]
  exact Nat.zero_le _

/-- Every move keeps the row queue and the exposure lists within their sizes. -/
theorem Move.queueLaw {b : Bool} {s t : State} (h : Move b s t) (hs : s.queueLaw) : t.queueLaw := by
  cases h with
  | enqueue h hq =>
    exact ⟨hq, fun k => by rw [State.work_congr (congrArg (fun c : Core => c.mge.work) h)]; exact hs.2 k⟩
  | cold h => exact (Shorter.of_aside h).queueLaw queueLaw_reset
  | triggerTry c _ _ _ hn => exact queueLaw_triggerTry hn hs
  | aside h => exact (Shorter.of_aside h).queueLaw hs
  | warm => exact (shorter_warmRestart s).queueLaw hs
  | moveEnds status x _ _ _ h => exact ((Shorter.of_eq rfl le_rfl).trans (.of_aside h)).queueLaw hs
  | onLatest k f => exact ((Shorter.refl s).onWork k fun w => (List.length_modify _ _ _).le).queueLaw hs
  | abandonTry => exact (Shorter.refl s).abandonTry.queueLaw hs
  | endTry c o => exact ((Shorter.refl s).endTry c o).queueLaw hs
  | handOver c => exact ((Shorter.refl s).handOver c).queueLaw hs
  | claim r p k => exact ((Shorter.refl s).claim r _ k).queueLaw hs
  | unseat r => exact (((Shorter.refl s).onPlates _).leaveCaptureOf _).queueLaw hs
  | withdraw r => exact ((((Shorter.refl s).leaveCaptureOf _).undoPlate _).onPlates _).queueLaw hs
  | withdrawUnseated r => exact (((Shorter.refl s).undoPlate _).onPlates _).queueLaw hs
  | keep r x => exact (((Shorter.refl s).changeCell _ _ _).returnCellSlot _).queueLaw hs
  | recapture r x => exact ((((Shorter.refl s).changeCell _ _ _).onDlt _).returnCellSlot _).queueLaw hs
  | fail r x => exact ((((Shorter.refl s).changeCell _ _ _).onDlt _).returnCellSlot _).queueLaw hs
  | startStream c => exact ((Shorter.refl s).startStream c).queueLaw hs
  | streamEnded => exact (Shorter.refl s).streamEnded.queueLaw hs
  | stoppedDone w row => exact (((Shorter.refl s).onFsc _).writeRow _).queueLaw hs
  | mergeDone k o y codes =>
    have hwrite : Shorter s (s.accessDone.mergeDone k o y codes) := by
      refine Shorter.onWork (((Shorter.refl s).onFsc _).writeRow _) k ?_
      exact fun _ => le_rfl
    exact hwrite.queueLaw hs
  | clearDone k y => exact (((Shorter.refl s).onFsc _).clearRowDone k y).queueLaw hs
  | finalDone k y => exact (((Shorter.refl s).onFsc _).finalRowDone k y).queueLaw hs
  | calibDone w _ _ ht => exact ((((Shorter.refl s).onFsc _).writeRow _).trans (.of_aside ht)).queueLaw hs
  | arbitrate => exact (Shorter.refl s).arbitrate.queueLaw hs
  | standby mask _ _ ht => exact ((((Shorter.refl s).loseCells _).onFsc _).trans (.of_aside ht)).queueLaw hs
  | _ => exact (Shorter.of_eq rfl le_rfl).queueLaw hs

/-! ## What the operations of a port do to its answers and notices -/

/-- The answers, the line and the outstanding request of a port stay, and its notices. -/
structure Port.SameQueues (p q : Port) : Prop where
  answers : q.answers = p.answers
  line : q.line = p.line
  outstanding : q.outstanding = p.outstanding
  notices : q.notices = p.notices

/-- The law on the answers of one port (R167, R168). -/
def Port.answerLaw (p : Port) : Prop :=
  p.answers.countP (fun a => !a.forOutstanding) ≤ 3 ∧ p.answers.length ≤ 4
    ∧ p.ownAnswers.map (fun a => (a.tag, a.kind)) = p.outstanding.toList.map fun o => (o.1, EchoKind.request o.2)

theorem Port.ownAnswers_of_line {p q : Port} (ha : q.answers = p.answers) (hl : q.line = p.line) :
    q.ownAnswers = p.ownAnswers := by
  unfold Port.ownAnswers
  rw [ha, hl]

theorem Port.SameQueues.answerLaw {p q : Port} (h : p.SameQueues q) (hp : p.answerLaw) : q.answerLaw := by
  unfold Port.answerLaw
  rw [Port.ownAnswers_of_line h.answers h.line, h.answers, h.outstanding]
  exact hp

/-- A list whose marked members are at most 3 and whose others at most one has at most 4 members. -/
theorem length_le_four {l : List Answer} (h : l.countP (fun a => !a.forOutstanding) ≤ 3)
    (h1 : (l.filter (·.forOutstanding)).length ≤ 1) : l.length ≤ 4 := by
  have hsplit := List.length_eq_countP_add_countP (fun a : Answer => a.forOutstanding) (l := l)
  rw [← List.countP_eq_length_filter] at h1
  have hneg : l.countP (fun a => decide ¬a.forOutstanding = true) = l.countP fun a => !a.forOutstanding := by
    congr 1
    funext a
    cases a.forOutstanding <;> rfl
  rw [hneg] at hsplit
  omega

theorem Port.answerLaw_offers {p : Port} (h : p.answerLaw) (ns : List Notice) : (ns.foldl Port.offer p).answerLaw := by
  obtain ⟨a, b, c, e⟩ := p.offers_eq ns
  rw [e]
  exact h

theorem Port.answerLaw_pump {p : Port} (h : p.answerLaw) : p.pump.answerLaw := by
  unfold Port.pump
  split
  · rename_i hl
    split
    · rename_i a rest ha
      obtain ⟨h3, h4, hown⟩ := h
      refine ⟨?_, ?_, ?_⟩
      · rw [ha, List.countP_cons] at h3
        exact le_trans (Nat.le_add_right _ _) h3
      · rw [ha, List.length_cons] at h4
        exact Nat.le_of_succ_le h4
      · simpa [Port.ownAnswers, hl, ha] using hown
    · rename_i ha
      split
      · exact h
      · split
        · obtain ⟨h3, h4, h1⟩ := h
          refine ⟨h3, h4, ?_⟩
          simpa [Port.ownAnswers, hl] using h1
        · exact h
  · exact h

theorem Port.answerLaw_frameTaken {p : Port} (h : p.answerLaw) : p.frameTaken.answerLaw := h

theorem Port.answerLaw_answerAside {p : Port} (h : p.answerLaw) (tag : Byte) (kind : EchoKind) (r : Reply) :
    (p.answerAside tag kind r).answerLaw := by
  unfold Port.answerAside
  split
  · exact h
  · rename_i hl
    obtain ⟨h3, h4, hown⟩ := h
    have hlen : p.answers.length < 3 := Nat.not_le.mp hl
    refine ⟨?_, ?_, ?_⟩
    · rw [List.countP_append]
      have := List.countP_le_length (p := fun a : Answer => !a.forOutstanding) (l := p.answers)
      simp only [List.countP_singleton]
      split <;> omega
    · rw [List.length_append, List.length_singleton]
      omega
    · simpa [Port.ownAnswers, List.filter_append] using hown

/-- A taken request and its answer, at a port with none outstanding. -/
theorem Port.answerLaw_reply {p : Port} (h : p.answerLaw) (ho : p.outstanding = none) {q : Port}
    (hq : (p.take tag kind).SameQueues q) (r : Reply) : (q.reply tag kind r).answerLaw := by
  obtain ⟨h3, h4, hown⟩ := h
  have hnone : p.ownAnswers = [] := by simpa [ho] using hown
  have hown' : q.ownAnswers = [] := (Port.ownAnswers_of_line hq.answers hq.line).trans hnone
  have hans : q.answers = p.answers := hq.answers
  have hout : q.outstanding = some (tag, kind) := hq.outstanding
  have hfilter : q.answers.filter (·.forOutstanding) = [] := by
    rw [Port.ownAnswers, List.filter_append, List.append_eq_nil_iff] at hown'
    exact hown'.2
  have hcount : (q.reply tag kind r).answers.countP (fun a => !a.forOutstanding) ≤ 3 := by
    simp only [Port.reply, List.countP_append, List.countP_singleton]
    rw [hans]
    simpa using h3
  refine ⟨hcount, length_le_four hcount ?_, ?_⟩
  · simp [Port.reply, List.filter_append, hfilter]
  · have hnew : (q.reply tag kind r).ownAnswers = q.ownAnswers ++
        [{ tag := tag, kind := .request kind, code := r.code, clamped := r.clamped, data := r.data,
           forOutstanding := true }] := by
      simp only [Port.reply, Port.ownAnswers, List.filter_append, List.append_assoc]
      rfl
    have hout' : (q.reply tag kind r).outstanding = some (tag, kind) := hout
    rw [hnew, hown', hout']
    rfl

theorem Port.answerLaw_answered {p : Port} (h : p.answerLaw) {a : Answer} (ha : p.line = .answer a) :
    (p.answered a).answerLaw := by
  obtain ⟨h3, h4, hown⟩ := h
  refine ⟨h3, h4, ?_⟩
  have hline : p.ownAnswers = [a].filter (·.forOutstanding) ++ p.answers.filter (·.forOutstanding) := by
    simp only [Port.ownAnswers, ha, List.filter_append]
  have hrest : (p.answered a).ownAnswers = p.answers.filter (·.forOutstanding) := rfl
  rw [hline] at hown
  rw [hrest]
  unfold Port.answered
  cases hf : a.forOutstanding with
  | false => simpa [hf] using hown
  | true =>
    have hnil : (p.answers.filter (·.forOutstanding)).map (fun x => (x.tag, x.kind)) = [] := by
      cases ho : p.outstanding <;> simp_all
    rw [hnil]
    rfl

/-- A port whose answers are dropped, with the outstanding request that is still being answered. -/
theorem Port.answerLaw_dropped {p q : Port} (h : p.answerLaw) (ha : q.answers = []) (hl : q.line = p.line)
    (ho : q.outstanding = p.stillOutstanding) : q.answerLaw := by
  obtain ⟨-, -, hown⟩ := h
  refine ⟨by rw [ha]; exact Nat.zero_le _, by rw [ha]; exact Nat.zero_le _, ?_⟩
  rw [ho]
  unfold Port.ownAnswers Port.stillOutstanding
  rw [ha, hl]
  cases hline : p.line with
  | idle => rfl
  | notice n x => rfl
  | answer a =>
    dsimp only
    cases hf : a.forOutstanding with
    | false => simp [hf]
    | true =>
      rw [Port.ownAnswers, hline] at hown
      simp only [List.singleton_append, List.filter_cons, hf, if_true, List.map_cons] at hown
      cases hout : p.outstanding with
      | none => rw [hout] at hown; cases hown
      | some o =>
        rw [hout] at hown
        simp only [Option.toList_some, List.map_cons, List.map_nil, List.cons.injEq] at hown
        simp [hf, hown.1]

end Sys2Proof.Machine
end

section
/-! PROOFS. What a command does to a port's queues, and the laws on notices and answers. -/

namespace Sys2Proof.Machine

-- One proof at a time: under the memory limit of the check there is no room for the stacks of many threads.
set_option Elab.async false

/-! ## One port -/

/-- What the operations of the station ports do to one port's answers, line, outstanding request and notices. -/
inductive PortStep : Port → Port → Prop
  | same {p q : Port} (h : p.SameQueues q) : PortStep p q
  | offered (p : Port) (ns : List Notice) : PortStep p (ns.foldl Port.offer p)
  | pumped (p : Port) : PortStep p p.pump
  | aside (p : Port) (tag : Byte) (kind : EchoKind) (r : Reply) : PortStep p (p.answerAside tag kind r)
  | replied {p q : Port} (tag : Byte) (kind : RequestKind) (r : Reply) (ho : p.outstanding = none)
      (h : (p.take tag kind).SameQueues q) : PortStep p (q.reply tag kind r)
  | answered (p : Port) (a : Answer) (h : p.line = .answer a) : PortStep p (p.answered a)
  | noticed (p : Port) (n : Byte) (x : Notice) (h : p.line = .notice n x) : PortStep p { p with line := .idle }
  | dropped {p q : Port} (ha : q.answers = []) (hl : q.line = p.line) (ho : q.outstanding = p.stillOutstanding)
      (hn : q.notices = []) : PortStep p q
  | fresh (p : Port) (role : Role) (rate : Rate) (kinds : List NoticeKind) (pace : Bool) :
      PortStep p (Port.fresh role rate kinds pace)

/-- A chain of such operations. -/
abbrev PortSteps : Port → Port → Prop := Relation.ReflTransGen PortStep

theorem PortStep.chain {p q : Port} (h : PortStep p q) : PortSteps p q := .single h

/-- A change beside a port's queues goes before its operations. -/
theorem Port.SameQueues.andThen {p q r : Port} (h : p.SameQueues q) (g : PortSteps q r) : PortSteps p r :=
  .head (.same h) g

theorem PortStep.answerLaw {p q : Port} (h : PortStep p q) (hp : p.answerLaw) : q.answerLaw := by
  cases h with
  | same h => exact h.answerLaw hp
  | offered ns => exact Port.answerLaw_offers hp ns
  | pumped => exact Port.answerLaw_pump hp
  | aside tag kind r => exact Port.answerLaw_answerAside hp tag kind r
  | replied tag kind r ho h => exact Port.answerLaw_reply hp ho h r
  | answered a h => exact Port.answerLaw_answered hp h
  | noticed n x h =>
    obtain ⟨h3, h4, h1⟩ := hp
    refine ⟨h3, h4, ?_⟩
    simpa [Port.ownAnswers, h] using h1
  | dropped ha hl ho _ => exact Port.answerLaw_dropped hp ha hl ho
  | fresh => exact ⟨Nat.zero_le _, Nat.zero_le _, rfl⟩

theorem PortStep.notices {p q : Port} (h : PortStep p q) (hp : p.notices.length ≤ Config.maxNotices) :
    q.notices.length ≤ Config.maxNotices := by
  cases h with
  | same h => rwa [h.notices]
  | offered ns => exact Port.offers_notices_length ns hp
  | pumped => exact (Port.pump_notices_length p).trans hp
  | aside tag kind r => obtain ⟨-, h⟩ | ⟨-, h⟩ := p.answerAside_eq tag kind r <;> rw [h] <;> exact hp
  | replied tag kind r _ h =>
    rename_i q
    exact (congrArg List.length h.notices).trans_le hp
  | answered => exact hp
  | noticed => exact hp
  | dropped _ _ _ hn => rw [hn]; exact Nat.zero_le _
  | fresh => exact Nat.zero_le _

theorem PortSteps.answerLaw {p q : Port} (h : PortSteps p q) (hp : p.answerLaw) : q.answerLaw := by
  induction h with
  | refl => exact hp
  | tail _ hm ih => exact hm.answerLaw ih

theorem PortSteps.notices {p q : Port} (h : PortSteps p q) (hp : p.notices.length ≤ Config.maxNotices) :
    q.notices.length ≤ Config.maxNotices := by
  induction h with
  | refl => exact hp
  | tail _ hm ih => exact hm.notices ih

/-! ## The ports at a command -/

/-- Every port has come by its operations from what it was. -/
abbrev PortsFrom (s t : State) : Prop := ∀ k : PortNo, PortSteps (s.ports.get k) (t.ports.get k)

theorem PortsFrom.of_eq {s t : State} (h : t.ports = s.ports) : PortsFrom s t := fun _ => h ▸ .refl

theorem PortsFrom.trans {s t u : State} (h : PortsFrom s t) (g : PortsFrom t u) : PortsFrom s u :=
  fun k => Relation.ReflTransGen.trans (h k) (g k)

theorem portsFrom_finish (s : State) (ns : List Notice) : PortsFrom s (s.finish ns) := by
  intro k
  rw [State.finish_port]
  exact (PortStep.offered _ _).chain.tail (.pumped _)

theorem portsFrom_onPort (s : State) (p : PortNo) {f : Port → Port} (h : PortSteps (s.ports.get p) (f (s.ports.get p))) :
    PortsFrom s (s.onPort p f) := by
  intro k
  rw [State.onPort_ports, setAt_get]
  split
  · rename_i hk
    exact hk ▸ h
  · exact .refl

theorem portsFrom_onPort_same (s : State) (p : PortNo) {f : Port → Port}
    (h : ∀ x : Port, x.SameQueues (f x) := by exact fun _ => ⟨rfl, rfl, rfl, rfl⟩) : PortsFrom s (s.onPort p f) :=
  portsFrom_onPort s p (PortStep.same (h _)).chain

theorem portsFrom_warmRestart (s : State) : PortsFrom s s.warmRestart := by
  intro k
  have h : s.warmRestart.ports.get k = (s.ports.get k).restarted := by
    simp [State.warmRestart, Vector.get]
    rfl
  rw [h]
  exact (PortStep.dropped (p := s.ports.get k) (q := (s.ports.get k).restarted) rfl rfl rfl rfl).chain

theorem portsFrom_resume (s : State) : PortsFrom s s.resume := by
  have hpoll : PortsFrom s s.warmRestart.pollIdle.pollSlot.pollDelivery.arbitrate :=
    (portsFrom_warmRestart s).trans (.of_eq (by simp))
  exact hpoll.trans (portsFrom_finish _ _)

/-! ### Requests -/

/-- Ports whose queues stand. -/
abbrev SamePorts (s t : State) : Prop := ∀ k : PortNo, (s.ports.get k).SameQueues (t.ports.get k)

theorem SamePorts.of_eq {s t : State} (h : t.ports = s.ports) : SamePorts s t := fun _ => by
  rw [h]
  exact ⟨rfl, rfl, rfl, rfl⟩

theorem samePorts_onPort (s : State) (p : PortNo) {f : Port → Port} (h : ∀ x : Port, x.SameQueues (f x)) :
    SamePorts s (s.onPort p f) := by
  intro k
  rw [State.onPort_ports, setAt_get]
  split
  · rename_i hk
    exact hk ▸ h _
  · exact ⟨rfl, rfl, rfl, rfl⟩

@[simp] theorem handleSetCapture_ports (s : State) (given : Option (List (Setting × Nat))) :
    (s.handleSetCapture given).1.ports = s.ports := by
  unfold State.handleSetCapture
  split
  · rfl
  · split
    · rfl
    · simp

@[simp] theorem handleStandby_ports (s : State) (mask : Option (List RegionNo)) :
    (s.handleStandby mask).1.ports = s.ports := by
  have hlose (x : State) (l : List (CellRef × SlotNo)) : (l.foldl State.loseCell x).ports = x.ports := by
    induction l generalizing x with
    | nil => rfl
    | cons p ps ih => rw [List.foldl_cons, ih]; simp
  unfold State.handleStandby
  split
  · rfl
  · split
    · rfl
    · simp [State.standby, State.enterRetention, hlose]

/-- The handler of a request leaves every port its answers, its line, its outstanding request and its notices. -/
theorem samePorts_handler (now : Seconds) (i : Instr) (s : State) : SamePorts s (handlerOf now i s).1 := by
  have plate {key : Option PlateKey} {f : PlateRecord → State × Reply} (hf : ∀ r, (f r).1.ports = s.ports) :
      SamePorts s (s.withPlate key f).1 :=
    withPlate_keeps (P := SamePorts s) (.of_eq rfl) fun r _ => .of_eq (hf r)
  have cell {key : Option PlateKey} {c y : Option Nat} {given : Bool} {f : PlateRecord → CellRecord → State × Reply}
      (hf : ∀ r x, (f r x).1.ports = s.ports) : SamePorts s (s.withCell key c y given f).1 :=
    withCell_keeps (P := SamePorts s) (.of_eq rfl) fun r x _ _ => .of_eq (hf r x)
  cases i
  case seated => exact plate fun r => by simp
  case unseated => exact plate fun r => by simp
  case withdraw => exact plate fun r => by simp
  case retire => exact plate fun r => by simp
  case hold => exact plate fun r => by simp
  case free => exact plate fun r => by simp
  case mark => exact plate fun r => by simp
  case releaseKeep => exact cell fun r x => by simp
  case releaseRecapture => exact cell fun r x => by simp
  case setFilter =>
    unfold handlerOf State.handleSetFilter
    dsimp only
    split
    · exact samePorts_onPort s _ fun _ => ⟨rfl, rfl, rfl, rfl⟩
    · exact .of_eq rfl
  case resume => exact samePorts_onPort s _ fun _ => ⟨rfl, rfl, rfl, rfl⟩
  case readStatus =>
    unfold handlerOf State.handleReadStatus
    dsimp only
    split
    · rename_i x
      exact samePorts_onPort { s with freeCount := s.freeCount + sectionAsks x } _
        (f := fun y => { y with badFrame := false, overrun := false }) fun _ => ⟨rfl, rfl, rfl, rfl⟩
    · exact .of_eq rfl
  all_goals exact .of_eq (by simp [handlerOf])

theorem portsFrom_request (s : State) (q : Src) (kind : RequestKind) {handle : State → State × Reply}
    (hh : ∀ x, SamePorts x (handle x).1) : PortsFrom s (s.request q kind handle) := by
  have hframe : PortsFrom s (s.frameTaken q.port) := portsFrom_onPort_same s q.port
  have hrefuse {x : State} (hx : PortsFrom s x) (code : AnswerCode) : PortsFrom s (x.refuse q kind code) :=
    hx.trans (portsFrom_onPort x _ (PortStep.aside _ _ _ _).chain)
  have hwake : PortsFrom s ((s.frameTaken q.port).wake q.port) := hframe.trans (.of_eq rfl)
  unfold State.request State.judgeRequest
  dsimp only
  split
  · exact .of_eq rfl
  · split
    · split_ifs
      · exact hrefuse hwake _
      · refine hwake.trans (PortsFrom.trans (fun k => (PortStep.same (hh _ k)).chain) ?_)
        exact portsFrom_onPort _ _ (PortStep.aside _ _ _ _).chain
      · exact hrefuse hwake _
    · split_ifs with ho
      · exact hrefuse hframe _
      · refine hframe.trans fun k => ?_
        have hnone : ((s.frameTaken q.port).ports.get q.port).outstanding = none := by simpa using ho
        have hsame := hh ((s.frameTaken q.port).onPort q.port fun p => p.take q.tag kind) k
        unfold State.hand
        dsimp only
        rw [State.onPort_ports, setAt_get] at *
        split at hsame
        · rename_i hk
          subst hk
          rw [if_pos rfl]
          exact (PortStep.replied q.tag kind _ hnone hsame).chain
        · rename_i hk
          rw [if_neg hk]
          exact (PortStep.same hsame).chain
      · exact hrefuse hframe _

/-! ### The other events -/

/-- How an event that is no request and no port's ends: with notices, from a state that has touched no port, or
without. -/
inductive Ends (s t : State) : Prop
  | still (hp : t.ports = s.ports) (hr : t.raised = s.raised)
  | finished (x : State) (ns : List Notice) (hp : x.ports = s.ports) (ht : t = x.finish ns)

theorem Ends.announce {s x : State} (hp : x.ports = s.ports) (base : List PlateRecord) : Ends s (x.announce base) :=
  .finished x _ hp rfl

theorem Ends.flush {s x : State} (hp : x.ports = s.ports) : Ends s x.flush := .finished x _ hp rfl

theorem Ends.portsFrom {s t : State} (h : Ends s t) : PortsFrom s t := by
  cases h with
  | still hp _ => exact .of_eq hp
  | finished x ns hp ht => exact ht ▸ (PortsFrom.of_eq hp).trans (portsFrom_finish x ns)

theorem Ends.raised {s t : State} (h : Ends s t) : t.raised = [] ∨ t.raised = s.raised := by
  cases h with
  | still _ hr => exact .inr hr
  | finished x ns _ ht => exact .inl (by rw [ht]; rfl)

/-- A port's own events, and the resets: what the other lemmas below do not speak of. -/
def touchesPorts : Instr → Bool
  | .coldReset .. | .resetWarm | .badFrame .. | .nonRequestFrame .. | .lineBreak _ | .paceFall _ | .paceRise _
  | .answerSent _ | .noticeSent _ => true
  | i => (requestOf? i).isSome

theorem Ends.same (s : State) : Ends s s := .still rfl rfl

theorem ends_accessEnd {s x : State} (hp : x.ports = s.ports) : Ends s (x.pollAll.announce s.plates) :=
  .announce (by simp [hp]) _

theorem accessEnd_ports (s : State) (result : AccessResult) {effect : State → State}
    (h : ∀ x : State, (effect x).ports = x.ports) : (s.accessEnd result effect).ports = s.ports := by
  cases result with
  | used => exact h _
  | unused row => cases row <;> rfl

theorem Ends.minuteEvent (s : State) : Ends s s.minuteEvent := .flush (by simp)

theorem Ends.uplinkEnd {s x t : State} (hx : x.ports = s.ports) (ht : s.uplinkEnd x = .next t) : Ends s t := by
  cases ht
  exact .announce (by simp [hx]) _

/-- An event of no port touches the ports, and the notices, at its end alone. -/
theorem ends_of_event {i : Instr} (hi : touchesPorts i = false) {s t : State} (ht : exec i s = .next t) : Ends s t := by
  cases i
  case coldResetEnd =>
    change execColdResetEnd s = _ at ht
    unfold execColdResetEnd at ht
    split at ht <;> cases ht <;> exact .still rfl rfl
  case bringUpPass =>
    change execBringUpPass _ s = _ at ht
    unfold execBringUpPass at ht
    split at ht
    · split at ht <;> cases ht
      · exact .announce (by simp) _
      · exact .flush (by simp)
    · cases ht
      exact .same s
  case bringUpFail =>
    change execBringUpFail s = _ at ht
    unfold execBringUpFail at ht
    split at ht <;> cases ht
    · exact .flush (by simp)
    · exact .same s
  case relockPass =>
    change execRelockPass s = _ at ht
    unfold execRelockPass at ht
    split at ht <;> cases ht
    · exact .announce (by simp) _
    · exact .same s
  case relockFail =>
    change execRelockFail s = _ at ht
    unfold execRelockFail at ht
    split at ht <;> cases ht
    · exact .flush (by simp)
    · exact .same s
  case refreshDue =>
    change execRefreshDue s = _ at ht
    unfold execRefreshDue at ht
    split at ht <;> cases ht
    · exact .still (by simp) (by simp)
    · exact .same s
  case refreshComplete =>
    change execRefreshComplete s = _ at ht
    unfold execRefreshComplete at ht
    split at ht
    · split at ht <;> cases ht
      · exact .still (by simp) (by simp)
      · exact .same s
    · cases ht
      exact .same s
  case rowMergeComplete =>
    change execRowMergeComplete s = _ at ht
    unfold execRowMergeComplete at ht
    split at ht <;> cases ht
    · exact ends_accessEnd (accessEnd_ports s _ fun x => by simp)
    · exact .same s
  case clearRowWrite =>
    change execClearRowWrite s = _ at ht
    unfold execClearRowWrite at ht
    split at ht <;> cases ht
    · exact ends_accessEnd (accessEnd_ports s _ fun x => by simp)
    · exact .same s
  case calibrationAccumulationRow =>
    change execCalibrationAccumulationRow s = _ at ht
    unfold execCalibrationAccumulationRow at ht
    split at ht
    · split at ht <;> cases ht
      · exact ends_accessEnd (accessEnd_ports s _ fun x => by simp)
      · exact .same s
    · cases ht
      exact .same s
  case finalizationRowWrite =>
    change execFinalizationRowWrite s = _ at ht
    unfold execFinalizationRowWrite at ht
    split at ht <;> cases ht
    · exact ends_accessEnd (accessEnd_ports s _ fun x => by simp)
    · exact .same s
  case deliveryReadComplete =>
    change execDeliveryReadComplete s = _ at ht
    unfold execDeliveryReadComplete at ht
    split at ht <;> cases ht
    · have hfill (result : AccessResult) (k : SlotNo) (y : Nat) :
          (if result = .used then s.accessDone.fillBuffer k y else s.accessDone).ports = s.ports
            ∧ (if result = .used then s.accessDone.fillBuffer k y else s.accessDone).raised = s.raised := by
        split <;> exact ⟨rfl, rfl⟩
      exact .still (by simp [hfill]) (by simp [hfill])
    · exact .same s
  case secondTick =>
    change execSecondTick s = _ at ht
    unfold execSecondTick at ht
    split at ht <;> cases ht
    · exact .minuteEvent s
    · exact .still rfl rfl
  case lampOnMinute =>
    change execLampOnMinute s = _ at ht
    unfold execLampOnMinute at ht
    split at ht <;> cases ht
    · exact .minuteEvent s
    · exact .same s
  case settleTimerExpiry =>
    change execSettleTimerExpiry s = _ at ht
    unfold execSettleTimerExpiry at ht
    split at ht
    · cases ht
      exact .same s
    · dsimp only at ht
      split at ht <;> cases ht
      · exact .flush (by simp)
      · exact .still rfl rfl
  case moveTimerExpiry =>
    change execMoveTimerExpiry s = _ at ht
    unfold execMoveTimerExpiry at ht
    split at ht <;> cases ht
    · exact .same s
    · exact .announce (by simp) _
  case frameTimerExpiry =>
    change execFrameTimerExpiry s = _ at ht
    unfold execFrameTimerExpiry at ht
    split at ht <;> cases ht
    · exact .same s
    · have hwait (x : State) : (if x.plr.link = .dropped then x else x.timeoutWait).ports = x.ports := by
        split <;> simp
      exact .announce (by simp [hwait]) _
  case warmUpExpiry =>
    change execWarmUpExpiry s = _ at ht
    unfold execWarmUpExpiry at ht
    split at ht <;> cases ht
    · exact .same s
    · exact .still rfl rfl
  case lampCheck =>
    change execLampCheck _ s = _ at ht
    unfold execLampCheck at ht
    split at ht
    · cases ht
      exact .same s
    · split at ht
      · cases ht
        exact .announce (by simp) _
      · dsimp only at ht
        split at ht <;> cases ht
        · exact .flush (by simp)
        · exact .flush (by simp)
  case idleTimerExpiry =>
    change execIdleTimerExpiry s = _ at ht
    unfold execIdleTimerExpiry at ht
    split at ht
    · cases ht
      exact .same s
    · split at ht <;> cases ht
      · exact .flush (by simp)
      · exact .still rfl rfl
  case shutterRise =>
    change execShutterRise _ s = _ at ht
    unfold execShutterRise at ht
    split at ht <;> cases ht <;> exact .still rfl rfl
  case shutterFall =>
    change execShutterFall s = _ at ht
    unfold execShutterFall at ht
    split at ht <;> cases ht
    · exact ends_accessEnd (by simp)
    · exact .same s
  case monitorSample =>
    change execMonitorSample _ s = _ at ht
    unfold execMonitorSample at ht
    split at ht <;> cases ht <;> exact .still rfl rfl
  case frameStart =>
    change execFrameStart _ _ s = _ at ht
    unfold execFrameStart at ht
    split at ht
    · cases ht
      exact .still rfl rfl
    · have hend : (if s.plr.reception = .receiving then s.endFrame none else s).ports = s.ports := by
        split <;> simp
      exact .uplinkEnd (by simp [hend]) ht
  case uplinkRow =>
    change execUplinkRow _ _ _ s = _ at ht
    unfold execUplinkRow at ht
    split at ht
    · cases ht
      exact .still rfl rfl
    · split at ht
      · exact .uplinkEnd (by simp) ht
      · cases ht
        exact .same s
      · exact .uplinkEnd (by simp) ht
  case frameEnd =>
    change execFrameEnd _ _ s = _ at ht
    unfold execFrameEnd at ht
    split at ht
    · cases ht
      exact .still rfl rfl
    · split at ht
      · exact .uplinkEnd (by simp) ht
      · cases ht
        exact .same s
      · exact .uplinkEnd (by simp) ht
  case uplinkIdle =>
    change execUplinkIdle _ s = _ at ht
    unfold execUplinkIdle at ht
    split at ht
    · cases ht
      exact .announce (by simp) _
    · split at ht
      · cases ht
        exact .same s
      · cases ht
        exact .still rfl rfl
      · refine .uplinkEnd ?_ ht
        split <;> simp
  case unknownUnit =>
    change execUnknownUnit [] s = _ at ht
    unfold execUnknownUnit at ht
    split at ht <;> cases ht <;> exact .still rfl rfl
  case readyRise =>
    cases ht
    exact .still (by simp) (by simp)
  case readyFall =>
    cases ht
    exact .still rfl rfl
  case startSent =>
    change execStartSent s = _ at ht
    unfold execStartSent at ht
    split at ht <;> cases ht
    · exact .still (by simp) (by simp)
    · exact .same s
  case headerSent =>
    change execHeaderSent s = _ at ht
    unfold execHeaderSent at ht
    split at ht <;> cases ht
    · exact .still (by simp) (by simp)
    · exact .same s
  case deliveryRowSent =>
    change execDeliveryRowSent s = _ at ht
    unfold execDeliveryRowSent at ht
    split at ht <;> cases ht
    · exact .still (by simp) (by simp)
    · exact .same s
  case endSent =>
    change execEndSent s = _ at ht
    unfold execEndSent at ht
    split at ht
    · cases ht
      exact .announce (by simp) _
    · split at ht <;> cases ht
      · exact .still (by simp) (by simp)
      · exact .same s
  all_goals cases hi

/-! ### A port's own events, and the resets -/

theorem State.coldPorts_get (a b c : Port) (k : PortNo) :
    (#v[a, b, c] : Vector Port 3).get k = if k = 0 then a else if k = 1 then b else c := by
  fin_cases k <;> rfl

theorem portsFrom_coldReset {p0 p1 p2 : Straps} {s t : State} (ht : execColdReset p0 p1 p2 s = .next t) :
    PortsFrom s t := by
  cases ht
  intro k
  rw [State.coldPorts_get]
  split
  · exact (PortStep.fresh _ _ _ _ _).chain
  · split <;> exact (PortStep.fresh _ _ _ _ _).chain

theorem portsFrom_answerSent {p : PortNo} {s t : State} (ht : execAnswerSent p s = .next t) : PortsFrom s t := by
  unfold execAnswerSent at ht
  split at ht
  · rename_i a ha
    have hanswered : PortStep (s.ports.get p) ((s.ports.get p).answered a) := .answered _ a ha
    split at ht <;> cases ht
    · exact (portsFrom_onPort s p hanswered.chain).trans (portsFrom_resume _)
    · exact portsFrom_onPort s p (hanswered.chain.tail (.pumped _))
  · cases ht
    exact .of_eq rfl

theorem portsFrom_noticeSent {p : PortNo} {s t : State} (ht : execNoticeSent p s = .next t) : PortsFrom s t := by
  unfold execNoticeSent at ht
  split at ht <;> cases ht
  · rename_i n x hl
    exact portsFrom_onPort s p ((PortStep.noticed _ n x hl).chain.tail (.pumped _))
  · exact .of_eq rfl

theorem portsFrom_badFrame {p : PortNo} {characters : List Character} {s t : State}
    (ht : execBadFrame p characters s = .next t) : PortsFrom s t := by
  unfold execBadFrame at ht
  split at ht <;> cases ht
  · exact .of_eq rfl
  · exact portsFrom_onPort_same s p

theorem portsFrom_nonRequestFrame {p : PortNo} {kind : Byte} {body : List Byte} {s t : State}
    (ht : execNonRequestFrame p kind body s = .next t) : PortsFrom s t := by
  unfold execNonRequestFrame at ht
  split at ht <;> cases ht
  · exact .of_eq rfl
  · refine portsFrom_onPort s p ?_
    exact Port.SameQueues.andThen (q := (s.ports.get p).frameTaken) ⟨rfl, rfl, rfl, rfl⟩
      ((PortStep.aside _ _ _ _).chain.tail (.pumped _))

/-- Every command moves the ports by their operations alone. -/
theorem portsFrom_exec {i : Instr} {s t : State} (ht : exec i s = .next t) : PortsFrom s t := by
  by_cases hi : touchesPorts i = false
  · exact (ends_of_event hi ht).portsFrom
  · cases i
    case coldReset => exact portsFrom_coldReset ht
    case resetWarm => cases ht; exact portsFrom_resume s
    case badFrame => exact portsFrom_badFrame ht
    case nonRequestFrame => exact portsFrom_nonRequestFrame ht
    case lineBreak p =>
      cases ht
      exact portsFrom_onPort s p (PortStep.dropped (p := s.ports.get p) (q := (s.ports.get p).broken) rfl rfl rfl rfl).chain
    case paceRise p => cases ht; exact portsFrom_onPort_same s p
    case paceFall p =>
      cases ht
      exact portsFrom_onPort s p (Port.SameQueues.andThen (q := { s.ports.get p with pace := false })
        ⟨rfl, rfl, rfl, rfl⟩ (PortStep.pumped _).chain)
    case answerSent => exact portsFrom_answerSent ht
    case noticeSent => exact portsFrom_noticeSent ht
    all_goals first
      | exact absurd rfl hi
      | (rw [exec_request rfl] at ht
         split at ht <;> cases ht <;>
           exact (portsFrom_request s _ _ (samePorts_handler _ _)).trans (portsFrom_finish _ _))

/-- Every command ends with its notices offered, or raises none. -/
theorem raised_exec {i : Instr} {s t : State} (ht : exec i s = .next t) : t.raised = [] ∨ t.raised = s.raised := by
  by_cases hi : touchesPorts i = false
  · exact (ends_of_event hi ht).raised
  · cases i
    case badFrame =>
      change execBadFrame _ _ s = _ at ht
      unfold execBadFrame at ht
      split at ht <;> cases ht <;> exact .inr rfl
    case nonRequestFrame =>
      change execNonRequestFrame _ _ _ s = _ at ht
      unfold execNonRequestFrame at ht
      split at ht <;> cases ht <;> exact .inr rfl
    case answerSent =>
      change execAnswerSent _ s = _ at ht
      unfold execAnswerSent at ht
      split at ht
      · split at ht <;> cases ht
        · exact .inl rfl
        · exact .inr rfl
      · cases ht
        exact .inr rfl
    case noticeSent =>
      change execNoticeSent _ s = _ at ht
      unfold execNoticeSent at ht
      split at ht <;> cases ht <;> exact .inr rfl
    case lineBreak => cases ht; exact .inr rfl
    case paceRise => cases ht; exact .inr rfl
    case paceFall => cases ht; exact .inr rfl
    case coldReset => cases ht; exact .inl rfl
    case resetWarm => cases ht; exact .inl rfl
    all_goals first
      | exact absurd rfl hi
      | (rw [exec_request rfl] at ht
         split at ht <;> cases ht <;> exact .inl rfl)

/-- Settles O57: rows and entries move by move, notices and answers port by port. -/
theorem stepKeepsQueues : Obligations.StepKeepsQueues := by
  refine ⟨fun s t hn hq hr ht => ?_, fun s t ha ht => ?_⟩
  · have hqueue : t.queueLaw := step_keeps (P := State.queueLaw) (fun _ _ _ hx hm => hm.queueLaw hx) (fun _ _ hx => hx) hq ht
    obtain rfl | ⟨i, rest, -, ht⟩ := step_next ht
    · exact ⟨hn, hqueue, hr⟩
    · refine ⟨fun k => (portsFrom_exec ht k).notices (hn k), hqueue, ?_⟩
      obtain h | h := raised_exec ht
      · exact h
      · exact h.trans hr
  · obtain rfl | ⟨i, rest, -, ht⟩ := step_next ht
    · exact ha
    · exact fun k => (portsFrom_exec ht k).answerLaw (ha k)

end Sys2Proof.Machine
end

section
/-! PROOFS. The merge of one pixel (R69 to R71, R73): one exposure case by case, and all the exposures of a try. -/

namespace Sys2Proof.Machine

-- One proof at a time: under the memory limit of the check there is no room for the stacks of many threads.
set_option Elab.async false

section

variable {list : List Exposure} {satS floorF o c d g : Nat} {a : Accum}

theorem mergePixel_dead : mergePixel list satS floorF o c d 0 a = { a with dead := true } := if_pos rfl

theorem mergePixel_saturated (hg : g ≠ 0) (h : satS ≤ c) :
    mergePixel list satS floorF o c d g a = { a with seenSaturated := true } := by
  rw [mergePixel, if_neg hg, if_pos h]

theorem mergePixel_starved (hg : g ≠ 0) (h : c < satS) (hd : c < d + floorF) :
    mergePixel list satS floorF o c d g a = { a with seenStarved := true } := by
  rw [mergePixel, if_neg hg, if_neg (Nat.not_le.mpr h), if_pos hd]

theorem mergePixel_best (hg : g ≠ 0) (h : c < satS) (hd : d + floorF ≤ c)
    (hb : a.hasBest = false ∨ timeOf list a.ordinal ≤ timeOf list o) :
    mergePixel list satS floorF o c d g a = { a with best := (c - d) * g, ordinal := o, hasBest := true } := by
  rw [mergePixel, if_neg hg, if_neg (Nat.not_le.mpr h), if_neg (Nat.not_lt.mpr hd), if_pos hb]

theorem mergePixel_shorter (hg : g ≠ 0) (h : c < satS) (hd : d + floorF ≤ c) (hb : a.hasBest = true)
    (ht : timeOf list o < timeOf list a.ordinal) : mergePixel list satS floorF o c d g a = a := by
  rw [mergePixel, if_neg hg, if_neg (Nat.not_le.mpr h), if_neg (Nat.not_lt.mpr hd), if_neg]
  rintro (h | h)
  · rw [hb] at h; cases h
  · exact Nat.not_le.mpr ht h

end

/-- The accumulation that the exposures of a try, each an ordinal and a code, leave of a pixel. -/
def mergeAll (list : List Exposure) (satS floorF d g : Nat) (merges : List (Nat × Nat)) : Accum :=
  merges.foldl (fun a p => mergePixel list satS floorF p.1 p.2 d g a) Accum.cleared

theorem mergeAll_append (list : List Exposure) (satS floorF d g : Nat) (merges : List (Nat × Nat)) (p : Nat × Nat) :
    mergeAll list satS floorF d g (merges ++ [p])
      = mergePixel list satS floorF p.1 p.2 d g (mergeAll list satS floorF d g merges) := List.foldl_append ..

/-- A pixel of flat gain 0 is marked dead by its first exposure, and nothing else becomes of it. -/
theorem mergeAll_of_gain_zero (list : List Exposure) (satS floorF d : Nat) (merges : List (Nat × Nat)) :
    mergeAll list satS floorF d 0 merges = { Accum.cleared with dead := !merges.isEmpty } := by
  induction merges using List.reverseRecOn with
  | nil => rfl
  | append_singleton ms p ih =>
    rw [mergeAll_append, mergePixel_dead, ih]
    simp

/-- The pair is the longest valid one, the latest of these. -/
def Longest (time : Nat × Nat → Nat) (valid : Nat × Nat → Prop) (merges : List (Nat × Nat)) (p : Nat × Nat) : Prop :=
  ∃ before later, merges = before ++ p :: later ∧ valid p ∧ (∀ z ∈ before, valid z → time z ≤ time p)
    ∧ ∀ z ∈ later, valid z → time z < time p

theorem Longest.forall_le {time : Nat × Nat → Nat} {valid : Nat × Nat → Prop} {merges : List (Nat × Nat)} {p : Nat × Nat}
    (h : Longest time valid merges p) : ∀ z ∈ merges, valid z → time z ≤ time p := by
  obtain ⟨before, later, rfl, -, hbefore, hlater⟩ := h
  intro z hz hv
  obtain hz | hz := List.mem_append.mp hz
  · exact hbefore z hz hv
  · obtain rfl | hz := List.mem_cons.mp hz
    · exact le_rfl
    · exact (hlater z hz hv).le

theorem Longest.append {time : Nat × Nat → Nat} {valid : Nat × Nat → Prop} {merges : List (Nat × Nat)} {p q : Nat × Nat}
    (h : Longest time valid merges p) (hq : valid q → time q < time p) : Longest time valid (merges ++ [q]) p := by
  obtain ⟨before, later, rfl, hv, hbefore, hlater⟩ := h
  refine ⟨before, later ++ [q], by simp, hv, hbefore, fun z hz => ?_⟩
  obtain hz | hz := List.mem_append.mp hz
  · exact hlater z hz
  · obtain rfl := List.mem_singleton.mp hz
    exact hq

/-- What the exposures so far have left of a pixel of a gain above 0. -/
structure Merged (list : List Exposure) (satS floorF d g : Nat) (merges : List (Nat × Nat)) (a : Accum) : Prop where
  dead : a.dead = false
  saturated : a.seenSaturated = true ↔ ∃ p ∈ merges, satS ≤ p.2
  starved : a.seenStarved = true ↔ ∃ p ∈ merges, p.2 < satS ∧ p.2 < d + floorF
  hasBest : a.hasBest = true ↔ ∃ p ∈ merges, p.2 < satS ∧ d + floorF ≤ p.2
  best : a.hasBest = true → ∃ p, a.ordinal = p.1 ∧ a.best = (p.2 - d) * g
    ∧ Longest (fun p => timeOf list p.1) (fun p => p.2 < satS ∧ d + floorF ≤ p.2) merges p

theorem exists_mem_append_singleton {α : Type} {l : List α} {x : α} {P : α → Prop} :
    (∃ p ∈ l ++ [x], P p) ↔ (∃ p ∈ l, P p) ∨ P x := by
  simp only [List.mem_append, List.mem_singleton, or_and_right, exists_or, exists_eq_left]

theorem Merged.merge {list : List Exposure} {satS floorF d g : Nat} {ms : List (Nat × Nat)} {a : Accum} (hg : g ≠ 0)
    (h : Merged list satS floorF d g ms a) (p : Nat × Nat) :
    Merged list satS floorF d g (ms ++ [p]) (mergePixel list satS floorF p.1 p.2 d g a) := by
  by_cases hs : satS ≤ p.2
  · rw [mergePixel_saturated hg hs]
    have hinvalid : ¬ (p.2 < satS ∧ d + floorF ≤ p.2) := fun hv => Nat.not_lt.mpr hs hv.1
    refine ⟨h.dead, ?_, ?_, ?_, fun hb => ?_⟩
    · simp only [exists_mem_append_singleton, hs, or_true]
    · rw [exists_mem_append_singleton, ← h.starved]
      simp [Nat.not_lt.mpr hs]
    · rw [exists_mem_append_singleton, ← h.hasBest]
      simp [hinvalid]
    · obtain ⟨q, ho, hbest, hl⟩ := h.best hb
      exact ⟨q, ho, hbest, hl.append fun hv => absurd hv hinvalid⟩
  · have hlt : p.2 < satS := Nat.not_le.mp hs
    by_cases hd : p.2 < d + floorF
    · rw [mergePixel_starved hg hlt hd]
      have hinvalid : ¬ (p.2 < satS ∧ d + floorF ≤ p.2) := fun hv => Nat.not_lt.mpr hv.2 hd
      refine ⟨h.dead, ?_, ?_, ?_, fun hb => ?_⟩
      · rw [exists_mem_append_singleton, ← h.saturated]
        simp [hs]
      · simp only [exists_mem_append_singleton, hlt, hd, and_self, or_true]
      · rw [exists_mem_append_singleton, ← h.hasBest]
        simp [hinvalid]
      · obtain ⟨q, ho, hbest, hl⟩ := h.best hb
        exact ⟨q, ho, hbest, hl.append fun hv => absurd hv hinvalid⟩
    · have hge : d + floorF ≤ p.2 := Nat.not_lt.mp hd
      have hsat : (∃ q ∈ ms ++ [p], satS ≤ q.2) ↔ ∃ q ∈ ms, satS ≤ q.2 := by simp [hs]
      have hstar : (∃ q ∈ ms ++ [p], q.2 < satS ∧ q.2 < d + floorF) ↔ ∃ q ∈ ms, q.2 < satS ∧ q.2 < d + floorF := by
        simp [hd]
      have hvalid : ∃ q ∈ ms ++ [p], q.2 < satS ∧ d + floorF ≤ q.2 := ⟨p, by simp, hlt, hge⟩
      by_cases hb : a.hasBest = false ∨ timeOf list a.ordinal ≤ timeOf list p.1
      · rw [mergePixel_best hg hlt hge hb]
        refine ⟨h.dead, h.saturated.trans hsat.symm, h.starved.trans hstar.symm, by simpa using hvalid, fun _ => ?_⟩
        refine ⟨p, rfl, rfl, ms, [], rfl, ⟨hlt, hge⟩, fun z hz hv => ?_, List.forall_mem_nil _⟩
        obtain hb | hb := hb
        · have := h.hasBest.mpr ⟨z, hz, hv⟩
          rw [hb] at this
          cases this
        · obtain ⟨q, ho, -, hl⟩ := h.best (h.hasBest.mpr ⟨z, hz, hv⟩)
          exact (hl.forall_le z hz hv).trans (ho ▸ hb)
      · obtain ⟨hhas, ht⟩ := not_or.mp hb
        have hhas : a.hasBest = true := by simpa using hhas
        have ht := Nat.not_le.mp ht
        rw [mergePixel_shorter hg hlt hge hhas ht]
        refine ⟨h.dead, h.saturated.trans hsat.symm, h.starved.trans hstar.symm, by simpa [hhas] using hvalid, fun _ => ?_⟩
        obtain ⟨q, ho, hbest, hl⟩ := h.best hhas
        exact ⟨q, ho, hbest, hl.append fun _ => ho ▸ ht⟩

theorem merged_mergeAll (list : List Exposure) (satS floorF d : Nat) {g : Nat} (hg : g ≠ 0) (merges : List (Nat × Nat)) :
    Merged list satS floorF d g merges (mergeAll list satS floorF d g merges) := by
  induction merges using List.reverseRecOn with
  | nil => exact ⟨rfl, by simp [mergeAll, Accum.cleared], by simp [mergeAll, Accum.cleared],
      by simp [mergeAll, Accum.cleared], nofun⟩
  | append_singleton ms p ih =>
    rw [mergeAll_append]
    exact ih.merge hg p

/-! ## The class -/

theorem Accum.cls_eq (a : Accum) :
    (a.cls = .dead ↔ a.dead = true) ∧ (a.cls = .valid ↔ a.dead = false ∧ a.hasBest = true)
      ∧ (a.cls = .satOnly ↔ a.dead = false ∧ a.hasBest = false ∧ a.seenSaturated = true)
      ∧ (a.cls = .starvedOnly ↔ a.dead = false ∧ a.hasBest = false ∧ a.seenSaturated = false ∧ a.seenStarved = true)
      ∧ (a.cls = .unseen ↔ a.dead = false ∧ a.hasBest = false ∧ a.seenSaturated = false ∧ a.seenStarved = false) := by
  unfold Accum.cls
  cases a.dead <;> cases a.hasBest <;> cases a.seenSaturated <;> cases a.seenStarved <;> decide

/-- Every exposure is saturated, starved or valid for a pixel. -/
theorem code_cases (satS x c : Nat) : satS ≤ c ∨ (c < satS ∧ c < x) ∨ (c < satS ∧ x ≤ c) := by omega

/-- Settles O60, exposure by exposure from the first. -/
theorem bestIsLongestValid : Obligations.BestIsLongestValid := by
  intro list satS floorF d g merges a time valid
  have ha : a = mergeAll list satS floorF d g merges := rfl
  clear_value a
  subst ha
  obtain ⟨hdead, hvalid, hsat, hstarved, hunseen⟩ := (mergeAll list satS floorF d g merges).cls_eq
  rw [hdead, hvalid, hsat, hstarved, hunseen]
  by_cases hg : g = 0
  · subst hg
    rw [mergeAll_of_gain_zero]
    simp [Accum.cleared]
  · have h := merged_mergeAll list satS floorF d hg merges
    generalize mergeAll list satS floorF d g merges = a at h
    have hbest : a.hasBest = false ↔ ¬ ∃ p ∈ merges, p.2 < satS ∧ d + floorF ≤ p.2 := by
      rw [← h.hasBest, Bool.not_eq_true]
    have hns : a.seenSaturated = false ↔ ¬ ∃ p ∈ merges, satS ≤ p.2 := by rw [← h.saturated, Bool.not_eq_true]
    have hnt : a.seenStarved = false ↔ ¬ ∃ p ∈ merges, p.2 < satS ∧ p.2 < d + floorF := by
      rw [← h.starved, Bool.not_eq_true]
    refine ⟨fun h0 => absurd h0 hg, fun _ => ⟨h.dead, h.saturated, h.starved, h.hasBest, fun hb => ?_⟩,
      by simp [h.dead, hg], by simp [h.dead, hg, h.hasBest, valid], ?_, ?_, ?_⟩
    · obtain ⟨p, ho, hb, before, later, hm, hv, h1, h2⟩ := h.best hb
      exact ⟨before, p, later, hm, hv, ho, hb, h1, h2⟩
    · rw [hbest, h.saturated]
      simp [h.dead, hg, valid]
    · rw [hbest, hns, h.starved, h.dead]
      constructor
      · rintro ⟨-, hv, hs, p, hp, -⟩
        refine ⟨hg, List.ne_nil_of_mem hp, ?_⟩
        rintro ⟨z, hz, h | h⟩
        · exact hv ⟨z, hz, h⟩
        · exact hs ⟨z, hz, h⟩
      · rintro ⟨-, hne, hnone⟩
        obtain ⟨p, hp⟩ := List.exists_mem_of_ne_nil _ hne
        refine ⟨rfl, fun ⟨z, hz, h⟩ => hnone ⟨z, hz, .inl h⟩, fun ⟨z, hz, h⟩ => hnone ⟨z, hz, .inr h⟩, p, hp, ?_⟩
        obtain h | h | h := code_cases satS (d + floorF) p.2
        · exact absurd ⟨p, hp, .inr h⟩ hnone
        · exact h
        · exact absurd ⟨p, hp, .inl h⟩ hnone
    · rw [hbest, hns, hnt, h.dead]
      constructor
      · rintro ⟨-, hv, hs, ht⟩
        by_contra hne
        obtain ⟨p, hp⟩ := List.exists_mem_of_ne_nil _ hne
        obtain h | h | h := code_cases satS (d + floorF) p.2
        · exact hs ⟨p, hp, h⟩
        · exact ht ⟨p, hp, h⟩
        · exact hv ⟨p, hp, h⟩
      · rintro rfl
        simp

end Sys2Proof.Machine
end

section
/-! PROOFS. The density code (R78 to R80): the search for the largest code, and the cases of a pixel. -/

namespace Sys2Proof.Machine

-- One proof at a time: under the memory limit of the check there is no room for the stacks of many threads.
set_option Elab.async false

/-- The search finds the end of an initial segment of the values, from a value in it or the first. -/
theorem largest_spec {p : Nat → Bool} (hp : ∀ i j, i ≤ j → p j = true → p i = true) (fuel lo hi : Nat) (hle : lo ≤ hi)
    (hf : hi - lo < 2 ^ fuel) :
    lo ≤ largest p fuel lo hi ∧ largest p fuel lo hi ≤ hi
      ∧ (largest p fuel lo hi = lo ∨ p (largest p fuel lo hi) = true)
      ∧ ∀ k, largest p fuel lo hi < k → k ≤ hi → p k = false := by
  induction fuel generalizing lo hi with
  | zero =>
    have heq : lo = hi := by omega
    subst heq
    exact ⟨le_rfl, le_rfl, .inl rfl, fun k h1 h2 => absurd (h1.trans_le h2) (lt_irrefl _)⟩
  | succ fuel ih =>
    have hpow : 2 ^ (fuel + 1) = 2 * 2 ^ fuel := Nat.pow_succ'
    rw [largest]
    split
    · have heq : lo = hi := by omega
      subst heq
      exact ⟨le_rfl, le_rfl, .inl rfl, fun k h1 h2 => absurd (h1.trans_le h2) (lt_irrefl _)⟩
    · dsimp only
      split
      · rename_i hmid
        obtain ⟨h1, h2, h3, h4⟩ := ih ((lo + hi + 1) / 2) hi (by omega) (by omega)
        refine ⟨by omega, h2, .inr ?_, h4⟩
        obtain h | h := h3
        · rw [h]; exact hmid
        · exact h
      · rename_i hmid
        obtain ⟨h1, h2, h3, h4⟩ := ih lo ((lo + hi + 1) / 2 - 1) (by omega) (by omega)
        refine ⟨h1, by omega, h3, fun k hk hhi => ?_⟩
        by_cases hkm : k ≤ (lo + hi + 1) / 2 - 1
        · exact h4 k hk hkm
        · exact Bool.eq_false_iff.mpr fun hpk => hmid (hp _ k (by omega) hpk)

theorem codeAtLeast_iff (num den k : Nat) :
    codeAtLeast num den k = true ↔ 10 ^ (2 * k - 1) * den ^ 16384 ≤ num ^ 16384 := decide_eq_true_iff

theorem codeAtLeast_antitone (num den i j : Nat) (h : i ≤ j) (hj : codeAtLeast num den j = true) :
    codeAtLeast num den i = true := by
  rw [codeAtLeast_iff] at *
  refine le_trans (Nat.mul_le_mul_right _ (Nat.pow_le_pow_right (by decide) ?_)) hj
  omega

/-- The code of a quotient is the largest that the quotient reaches, of those up to the ceiling (R79, R80). -/
theorem densityCode_spec (num den qceil : Nat) (hq : qceil ≤ 65534) :
    densityCode num den qceil ≤ qceil
      ∧ (densityCode num den qceil = 0 ∨ codeAtLeast num den (densityCode num den qceil) = true)
      ∧ ∀ k, densityCode num den qceil < k → k ≤ qceil → codeAtLeast num den k = false := by
  obtain ⟨-, h⟩ := largest_spec (codeAtLeast_antitone num den) 17 0 qceil (Nat.zero_le _) (by omega)
  exact h

/-- The code never passes its ceiling, whatever it is. -/
theorem largest_le (p : Nat → Bool) (fuel lo hi : Nat) (h : lo ≤ hi) : largest p fuel lo hi ≤ hi := by
  induction fuel generalizing lo hi with
  | zero => exact h
  | succ fuel ih =>
    rw [largest]
    split
    · exact h
    · dsimp only
      split
      · exact ih _ _ (by omega)
      · exact (ih _ _ (by omega)).trans (by omega)

theorem densityCode_le (num den qceil : Nat) : densityCode num den qceil ≤ qceil :=
  largest_le _ _ _ _ (Nat.zero_le _)

/-! ## The cases of a pixel -/

section

variable {ref : References} {list : List Exposure} {qceil g : Nat} {a : Accum}

theorem pixelCode_of_dead (h : pixelCase list g a = .dead) : pixelCode ref list qceil g a = 65535 := by
  unfold pixelCode
  rw [h]

theorem pixelCode_of_light (h : pixelCase list g a = .clipLight) : pixelCode ref list qceil g a = 0 := by
  unfold pixelCode
  rw [h]

theorem pixelCode_of_dark (h : pixelCase list g a = .clipDark) : pixelCode ref list qceil g a = qceil := by
  unfold pixelCode
  rw [h]

theorem pixelCode_of_measured (h : pixelCase list g a = .measured) :
    pixelCode ref list qceil g a
      = densityCode (densityNum ref.openLevel (timeOf list a.ordinal) (monitorOf list a.ordinal))
          (densityDen a.best ref.tRef ref.mRef) qceil := by
  unfold pixelCode
  rw [h]

theorem pixelCase_of_dead (h : g = 0) : pixelCase list g a = .dead := if_pos h

theorem pixelCase_of_light (hg : g ≠ 0) (hb : a.hasBest = false) (hs : a.seenSaturated = true) :
    pixelCase list g a = .clipLight := by simp [pixelCase, hg, hb, hs]

theorem pixelCase_of_dark (hg : g ≠ 0) (hb : a.hasBest = false) (hs : a.seenSaturated = false) :
    pixelCase list g a = .clipDark := by simp [pixelCase, hg, hb, hs]

theorem pixelCase_of_unmonitored (hg : g ≠ 0) (hb : a.hasBest = true) (hm : monitorOf list a.ordinal = 0) :
    pixelCase list g a = .clipDark := by simp [pixelCase, hg, hb, hm]

theorem pixelCase_of_measured (hg : g ≠ 0) (hb : a.hasBest = true) (hm : monitorOf list a.ordinal ≠ 0) :
    pixelCase list g a = .measured := by simp [pixelCase, hg, hb, hm]

theorem pixelCase_ne_dead (hg : g ≠ 0) : pixelCase list g a ≠ .dead := by
  unfold pixelCase
  rw [if_neg hg]
  repeat' split
  all_goals exact PixelCase.noConfusion

theorem pixelCode_le (hg : g ≠ 0) : pixelCode ref list qceil g a ≤ qceil := by
  cases h : pixelCase list g a with
  | dead => exact absurd h (pixelCase_ne_dead hg)
  | clipLight => exact (pixelCode_of_light h).trans_le (Nat.zero_le _)
  | clipDark => exact (pixelCode_of_dark h).le
  | measured => exact (pixelCode_of_measured h).trans_le (densityCode_le _ _ _)

end

/-- Settles O58: the search finds the end of the codes that the quotient reaches. -/
theorem densityCodeIsRoundedLogarithm : Obligations.DensityCodeIsRoundedLogarithm := by
  refine ⟨fun num den qceil _ hq => ?_, fun ref list qceil g a => ?_⟩
  · obtain ⟨hle, hreached, habove⟩ := densityCode_spec num den qceil hq
    refine ⟨hle, fun hpos => ?_, fun k hk hkq => ?_⟩
    · exact (codeAtLeast_iff _ _ _).mp (hreached.resolve_left hpos.ne')
    · have hno := habove k hk hkq
      rw [← Bool.not_eq_true, codeAtLeast_iff] at hno
      exact Nat.not_le.mp hno
  · intro code
    have dark (h : pixelCase list g a = .clipDark) : code .clipDark qceil := ⟨h, pixelCode_of_dark h⟩
    refine ⟨fun hg => ⟨pixelCase_of_dead hg, pixelCode_of_dead (pixelCase_of_dead hg)⟩,
      fun hg hb hs => ⟨pixelCase_of_light hg hb hs, pixelCode_of_light (pixelCase_of_light hg hb hs)⟩,
      fun hg hb hs => dark (pixelCase_of_dark hg hb hs), fun e he hg hb => ?_, pixelCode_le⟩
    have ht : timeOf list a.ordinal = e.time := by simp [timeOf, he]
    have hm : monitorOf list a.ordinal = e.monitor := by simp [monitorOf, he]
    refine ⟨fun h0 => dark (pixelCase_of_unmonitored hg hb (hm.trans h0)), fun h0 => ?_⟩
    have hc := pixelCase_of_measured hg hb (hm.trans_ne h0)
    have h := pixelCode_of_measured (ref := ref) (qceil := qceil) hc
    rw [ht, hm] at h
    exact ⟨hc, h⟩

end Sys2Proof.Machine
end

section
/-! PROOFS. The codes of a camera row and the frames of a station port are read as they are written (R107, R165,
R166): the framer's states as a frame's bytes come in, one part of the frame after another. -/

namespace Sys2Proof.Machine
-- One proof at a time: under the memory limit of the check there is no room for the stacks of many threads.
set_option Elab.async false

/-! ## The codes of a row -/

/-- The three bytes of a pair of codes are read as the pair. -/
theorem unpackCodes_pair (e o : CameraCode) (rest : List Byte) :
    unpackCodes (e.extractLsb' 0 8 :: (o.extractLsb' 0 4 ++ e.extractLsb' 8 4 : BitVec 8) :: o.extractLsb' 4 8 :: rest)
      = e :: o :: unpackCodes rest := by
  have he : (o.extractLsb' 0 4 ++ e.extractLsb' 8 4 : BitVec 8).extractLsb' 0 4 ++ e.extractLsb' 0 8 = e := by
    ext i hi
    simp only [BitVec.getElem_append, BitVec.getElem_extractLsb', BitVec.getLsbD_append,
      BitVec.getLsbD_extractLsb']
    split
    · simp [BitVec.getLsbD_eq_getElem hi]
    · have h4 : i - 8 < 4 := by omega
      have h8 : 8 + (i - 8) = i := by omega
      simp [h4, h8, BitVec.getLsbD_eq_getElem hi]
  have ho : o.extractLsb' 4 8 ++ (o.extractLsb' 0 4 ++ e.extractLsb' 8 4 : BitVec 8).extractLsb' 4 4 = o := by
    ext i hi
    simp only [BitVec.getElem_append, BitVec.getElem_extractLsb', BitVec.getLsbD_append,
      BitVec.getLsbD_extractLsb']
    split
    · rename_i h4
      simp [h4, BitVec.getLsbD_eq_getElem hi]
    · have h4 : 4 + (i - 4) = i := by omega
      simp [h4, BitVec.getLsbD_eq_getElem hi]
  rw [unpackCodes, he, ho]

/-- A row of whole pairs is read as it is written, three bytes to a pair (R107). -/
theorem unpackCodes_packCodes (codes : List CameraCode) (h : codes.length % 2 = 0) :
    unpackCodes (packCodes codes) = codes ∧ (packCodes codes).length = 3 * codes.length / 2 := by
  induction codes using packCodes.induct with
  | case1 e o rest ih =>
    obtain ⟨hcodes, hlength⟩ := ih (by simp only [List.length_cons] at h; omega)
    refine ⟨by rw [packCodes, unpackCodes_pair, hcodes], ?_⟩
    rw [packCodes]
    simp only [List.length_cons, hlength]
    omega
  | case2 codes hno =>
    match codes, h, hno with
    | [], _, _ => exact ⟨rfl, rfl⟩
    | [_], h, _ => cases h
    | e :: o :: rest, _, hno => exact absurd rfl (hno e o rest)

/-! ## A frame's bytes, part by part -/

/-- A byte received with its stop bit. -/
def wholeChar (b : Byte) : Character := { value := b, stopBit := true }

/-- A byte received without its stop bit. -/
def tornChar (b : Byte) : Character := { value := b, stopBit := false }

theorem Framer.take_whole (f : Framer) (b : Byte) (hf : f ≠ .hunt) : f.take (wholeChar b) = f.takeByte b := by
  cases f <;> simp_all [Framer.take, wholeChar]

theorem Framer.hunt_take_sync : Framer.hunt.take (wholeChar syncByte) = (.length, none) := rfl

theorem Framer.afterBody_ne_hunt (n k : Byte) (taken : List Byte) : Framer.afterBody n k taken ≠ .hunt := by
  unfold Framer.afterBody
  split <;> exact Framer.noConfusion

/-- After any noise without SYNC, a SYNC leaves the framer before the length. -/
theorem Framer.receive_sync (noise : List Byte) (h : ∀ b ∈ noise, b ≠ 0xC5) (rest : List Character) :
    Framer.hunt.receive (noise.map wholeChar ++ wholeChar syncByte :: rest) = Framer.length.receive rest := by
  have hnoise : Framer.hunt.receive (noise.map wholeChar) = (.hunt, []) := by
    refine Framer.hunt_discards_run _ fun c hc => ?_
    obtain ⟨b, hb, rfl⟩ := List.mem_map.mp hc
    exact fun hsync => h b hb hsync.2
  rw [Framer.receive_append, hnoise, Framer.receive_cons, Framer.hunt_take_sync]
  rfl

/-- A length of at most 200 and a kind byte lead to the body. -/
theorem Framer.receive_head (n k : Byte) (hn : n.toNat ≤ 200) (rest : List Character) :
    Framer.length.receive (wholeChar n :: wholeChar k :: rest) = (Framer.afterBody n k []).receive rest := by
  have hlength : Framer.length.take (wholeChar n) = (.kind n, none) := by
    rw [Framer.take_whole _ _ Framer.noConfusion]
    exact if_neg (Nat.not_lt.mpr hn)
  have hkind : (Framer.kind n).take (wholeChar k) = (Framer.afterBody n k [], none) :=
    Framer.take_whole _ _ Framer.noConfusion
  rw [Framer.receive_cons, hlength, Framer.receive_cons, hkind]
  rfl

/-- The bytes of a body are taken while the length asks for them. -/
theorem Framer.receive_body (n k : Byte) (taken bytes : List Byte) (h : taken.length + bytes.length ≤ n.toNat)
    (rest : List Character) :
    (Framer.afterBody n k taken).receive (bytes.map wholeChar ++ rest)
      = (Framer.afterBody n k (taken ++ bytes)).receive rest := by
  induction bytes generalizing taken with
  | nil => rw [List.append_nil]; rfl
  | cons b bytes ih =>
    rw [List.length_cons] at h
    have hmore : Framer.afterBody n k taken = .body n k taken := if_neg (by omega)
    have htake : (Framer.afterBody n k taken).take (wholeChar b) = (Framer.afterBody n k (taken ++ [b]), none) := by
      rw [Framer.take_whole _ _ (Framer.afterBody_ne_hunt n k taken), hmore]
      rfl
    rw [List.map_cons, List.cons_append, Framer.receive_cons, htake,
      ih (taken ++ [b]) (by rw [List.length_append, List.length_singleton]; omega), List.append_assoc]
    rfl

/-- The whole body received, the framer is before the check. -/
theorem Framer.afterBody_whole (n k : Byte) (body : List Byte) (h : n.toNat = body.length) :
    Framer.afterBody n k body = .check n k body none := if_pos h.le

theorem Framer.receive_check (n k first last : Byte) (body : List Byte) :
    (Framer.check n k body none).receive [wholeChar first, wholeChar last]
      = (.hunt, [judgeFrame n k body first last]) := rfl

/-- A character without its stop bit ends the frame that it stands in. -/
theorem Framer.receive_torn (f : Framer) (hf : f ≠ .hunt) (v : Byte) : f.receive [tornChar v] = (.hunt, [.bad]) := by
  rw [Framer.receive_cons, Framer.take_without_stop f _ hf rfl]
  rfl

/-! ## Whole frames -/

section

variable {kind : Byte} {body noise : List Byte} (hbody : body.length ≤ 200) (hnoise : ∀ b ∈ noise, b ≠ 0xC5)
include hbody

theorem toNat_bodyLength : (BitVec.ofNat 8 body.length).toNat = body.length := by
  rw [BitVec.toNat_ofNat]
  omega

include hnoise

/-- The parts of a frame up to the part of its body received, whatever follows. -/
theorem receive_upToBody (part : List Byte) (h : part.length ≤ body.length) (rest : List Character) :
    Framer.hunt.receive (noise.map wholeChar ++ wholeChar syncByte :: wholeChar (BitVec.ofNat 8 body.length)
        :: wholeChar kind :: (part.map wholeChar ++ rest))
      = (Framer.afterBody (BitVec.ofNat 8 body.length) kind part).receive rest := by
  have hn := toNat_bodyLength hbody
  rw [Framer.receive_sync noise hnoise, Framer.receive_head _ _ (by omega), Framer.receive_body _ _ _ _ (by simpa [hn])]
  rfl

/-- A frame's covered bytes and two check bytes are judged by the check. -/
theorem receive_frame (first last : Byte) :
    Framer.hunt.receive
        ((noise ++ syncByte :: BitVec.ofNat 8 body.length :: kind :: body ++ [first, last]).map wholeChar)
      = (.hunt, [judgeFrame (BitVec.ofNat 8 body.length) kind body first last]) := by
  have h := receive_upToBody (kind := kind) hbody hnoise body le_rfl [wholeChar first, wholeChar last]
  rw [Framer.afterBody_whole _ _ _ (toNat_bodyLength hbody), Framer.receive_check] at h
  simpa using h

end

/-- The two bytes of a check are the check. -/
theorem leBytes_two (check : BitVec 16) :
    leBytes 2 check.toNat = [check.extractLsb' 0 8, check.extractLsb' 8 8] := by
  have hlow : BitVec.ofNat 8 (check.toNat / 256 ^ 0) = check.extractLsb' 0 8 := by
    apply BitVec.eq_of_toNat_eq
    simp
  have hhigh : BitVec.ofNat 8 (check.toNat / 256 ^ 1) = check.extractLsb' 8 8 := by
    apply BitVec.eq_of_toNat_eq
    simp [Nat.shiftRight_eq_div_pow]
  simp only [leBytes, List.range, List.range.loop, List.map_cons, List.map_nil, hlow, hhigh]

theorem append_halves (check : BitVec 16) : check.extractLsb' 8 8 ++ check.extractLsb' 0 8 = check := by
  ext i hi
  simp only [BitVec.getElem_append, BitVec.getElem_extractLsb']
  split
  · simp [BitVec.getLsbD_eq_getElem hi]
  · have h8 : 8 + (i - 8) = i := by omega
    simp [h8, BitVec.getLsbD_eq_getElem hi]

/-- A frame under a check is judged good exactly where the check is that of its bytes. -/
theorem judgeFrame_eq (n k : Byte) (body : List Byte) (check : BitVec 16) :
    judgeFrame n k body (check.extractLsb' 0 8) (check.extractLsb' 8 8)
      = if check = crc16 (n :: k :: body) then .good k body else .bad := by
  unfold judgeFrame
  rw [append_halves]

/-- A frame broken off after any of its characters but the last is in no HUNT, and has ended nothing. -/
theorem receive_partialFrame (kind : Byte) (body noise : List Byte) (hbody : body.length ≤ 200)
    (hnoise : ∀ b ∈ noise, b ≠ 0xC5) (n : Nat) (hn : n ≤ body.length + 3) (rest : List Character) :
    ∃ f, f ≠ Framer.hunt
      ∧ Framer.hunt.receive ((noise ++ (stationFrame kind body).take (n + 1)).map wholeChar ++ rest)
        = f.receive rest := by
  have hframe : stationFrame kind body
      = syncByte :: BitVec.ofNat 8 body.length :: kind
        :: (body ++ leBytes 2 (crc16 (BitVec.ofNat 8 body.length :: kind :: body)).toNat) := rfl
  rw [hframe, leBytes_two]
  generalize crc16 (BitVec.ofNat 8 body.length :: kind :: body) = check
  match n with
  | 0 =>
    refine ⟨.length, Framer.noConfusion, ?_⟩
    have h := Framer.receive_sync noise hnoise rest
    simpa using h
  | 1 =>
    refine ⟨.kind (BitVec.ofNat 8 body.length), Framer.noConfusion, ?_⟩
    have h := Framer.receive_sync noise hnoise (wholeChar (BitVec.ofNat 8 body.length) :: rest)
    rw [Framer.receive_cons, Framer.take_whole _ _ Framer.noConfusion] at h
    have hlength : Framer.length.takeByte (BitVec.ofNat 8 body.length) = (.kind (BitVec.ofNat 8 body.length), none) :=
      if_neg (Nat.not_lt.mpr (by rw [toNat_bodyLength hbody]; exact hbody))
    rw [hlength] at h
    simpa using h
  | m + 2 =>
    rcases Nat.lt_or_ge body.length m with hm | hm
    · refine ⟨.check (BitVec.ofNat 8 body.length) kind body (some (check.extractLsb' 0 8)), Framer.noConfusion, ?_⟩
      obtain rfl : m = body.length + 1 := by omega
      have h := receive_upToBody (kind := kind) hbody hnoise body le_rfl (wholeChar (check.extractLsb' 0 8) :: rest)
      rw [Framer.afterBody_whole _ _ _ (toNat_bodyLength hbody)] at h
      have hcheck : (Framer.check (BitVec.ofNat 8 body.length) kind body none).receive
            (wholeChar (check.extractLsb' 0 8) :: rest)
          = (Framer.check (BitVec.ofNat 8 body.length) kind body (some (check.extractLsb' 0 8))).receive rest := rfl
      rw [hcheck] at h
      have htake : (body ++ [check.extractLsb' 0 8, check.extractLsb' 8 8]).take (body.length + 1)
          = body ++ [check.extractLsb' 0 8] := by
        rw [List.take_append, List.take_of_length_le (Nat.le_succ _), Nat.add_sub_cancel_left]
        rfl
      rw [List.take_succ_cons, List.take_succ_cons, List.take_succ_cons, htake]
      simpa using h
    · refine ⟨Framer.afterBody (BitVec.ofNat 8 body.length) kind (body.take m), Framer.afterBody_ne_hunt _ _ _, ?_⟩
      have h := receive_upToBody (kind := kind) hbody hnoise (body.take m) (List.length_take_le' m body) rest
      rw [List.take_succ_cons, List.take_succ_cons, List.take_succ_cons, List.take_append_of_le_length hm]
      simpa using h

/-- Settles O59: the pairs of a row's codes, and the framer's way through a frame. -/
theorem codesAndFramesRoundTrip : Obligations.CodesAndFramesRoundTrip := by
  refine ⟨unpackCodes_packCodes, fun kind body noise hbody hnoise => ⟨?_, fun check hcheck => ?_, fun n v hn => ?_,
    fun n hn => ?_, fun v => rfl⟩⟩
  · have h := receive_frame (kind := kind) hbody hnoise
      ((crc16 (BitVec.ofNat 8 body.length :: kind :: body)).extractLsb' 0 8)
      ((crc16 (BitVec.ofNat 8 body.length :: kind :: body)).extractLsb' 8 8)
    rw [judgeFrame_eq, if_pos rfl] at h
    rw [← h, stationFrame, withCrc16, leBytes_two, List.append_assoc noise]
    rfl
  · have h := receive_frame (kind := kind) hbody hnoise (check.extractLsb' 0 8) (check.extractLsb' 8 8)
    rw [judgeFrame_eq, if_neg hcheck] at h
    rw [leBytes_two]
    exact h
  · obtain ⟨f, hf, h⟩ := receive_partialFrame kind body noise hbody hnoise n hn [tornChar v]
    exact h.trans (Framer.receive_torn f hf v)
  · have h := Framer.receive_sync noise hnoise [wholeChar n]
    have hlong : Framer.length.receive [wholeChar n] = (.hunt, [.bad]) := by
      rw [Framer.receive_cons, Framer.take_whole _ _ Framer.noConfusion]
      simp [Framer.takeByte, Config.maxBody, hn]
    rw [hlong] at h
    rw [← h, List.map_append]
    rfl

end Sys2Proof.Machine
end

section
/-! PROOFS. The reads (R5, R29, R102): each answers what stands in the state, which nothing it does changes. -/

namespace Sys2Proof.Machine
-- One proof at a time: under the memory limit of the check there is no room for the stacks of many threads.
set_option Elab.async false

/-- A read that is taken answers what it reads of the state, and changes nothing. -/
theorem State.answeredOnly_of_read {s : State} {i : Instr} {q : Src} {kind : RequestKind} {read : State → Reply}
    {r : Reply} (hs : s.takes q kind) (he : exec i s = s.serveQuiet q kind fun x => (x, read x))
    (h : read (s.taken q kind) = r) : s.answeredOnly i q kind r :=
  State.answeredOnly_of_serveQuiet hs he (congrArg _ h)

section

variable {s : State}

/-! ## What each read answers -/

theorem State.readPlate_key {key : PlateKey} {r : PlateRecord} (h : s.plate? key = some r) :
    s.readPlate (.key key) = Reply.withData (.plate r.report none) := by simp [State.readPlate, h]

theorem State.readPlate_noKey {key : PlateKey} (h : s.plate? key = none) :
    s.readPlate (.key key) = Reply.plain .unknown := by simp [State.readPlate, h]

theorem State.readPlate_position {p : Nat} {r : PlateRecord} (hp : p < 24) (h : s.plates[p]? = some r) :
    s.readPlate (.position p) = Reply.withData (.plate r.report (some s.plates.length)) :=
  (if_neg (Nat.not_le.mpr hp)).trans (by rw [h])

theorem State.readPlate_noPosition {p : Nat} (hp : p < 24) (h : s.plates.length ≤ p) :
    s.readPlate (.position p) = Reply.plain .unknown :=
  (if_neg (Nat.not_le.mpr hp)).trans (by rw [List.getElem?_eq_none h])

theorem State.readPlate_beyond {p : Nat} (hp : 24 ≤ p) : s.readPlate (.position p) = Reply.plain .field := if_pos hp

theorem State.readCell_found {key : PlateKey} {c y : Nat} {r : PlateRecord} {x : CellRecord}
    (hr : s.plate? key = some r) (hx : r.cell? c y = some x) :
    s.readCell (some key) (some c) (some y) = Reply.withData (.cell x) := by simp [State.readCell, hr, hx]

theorem State.readCell_noPlate {key : PlateKey} {c y : Nat} (hr : s.plate? key = none) :
    s.readCell (some key) (some c) (some y) = Reply.plain .unknown := by simp [State.readCell, hr]

theorem State.readCell_noCell {key : PlateKey} {c y : Nat} {r : PlateRecord} (hr : s.plate? key = some r)
    (hx : r.cell? c y = none) : s.readCell (some key) (some c) (some y) = Reply.plain .field := by
  simp [State.readCell, hr, hx]

theorem State.readProfile_number (p : ProfileNo) :
    s.readProfile (.profile p.val) = Reply.withData (.profile (s.profiles.get p)) := by
  simp [State.readProfile, profileNo?_val]

theorem State.readProfile_noNumber {n : Nat} (h : 4 ≤ n) : s.readProfile (.profile n) = Reply.plain .field := by
  simp [State.readProfile, profileNo?_eq_none h]

end

/-- Every role but OFF may read (R170). -/
theorem permits_reads (role : Role) (h : role ≠ .off) :
    permits role .readPlate = true ∧ permits role .readCell = true
      ∧ permits role .readProfile = true ∧ permits role .readCalib = true := by
  cases role with
  | off => exact absurd rfl h
  | _ => exact ⟨rfl, rfl, rfl, rfl⟩

/-- Settles O42: each read answers what it finds, and its block changes nothing. -/
theorem readsChangeNothing : Obligations.ReadsChangeNothing := by
  refine ⟨permits_reads, fun s q => ⟨fun hs => ?_, fun hs key c y => ?_, fun hs => ?_, fun hs => ?_⟩⟩
  · have reads {sel : PlateSelector} {r : Reply} (h : (s.taken q .readPlate).readPlate sel = r) :
        s.answeredOnly (.readPlate q sel) q .readPlate r := State.answeredOnly_of_read hs rfl h
    exact ⟨fun _ _ h => reads (State.readPlate_key h), fun _ h => reads (State.readPlate_noKey h),
      fun _ _ hp h => reads (State.readPlate_position hp h), fun _ hp h => reads (State.readPlate_noPosition hp h),
      fun _ hp => reads (State.readPlate_beyond hp)⟩
  · have reads {r : Reply} (h : (s.taken q .readCell).readCell (some key) (some c) (some y) = r) :
        s.answeredOnly (.readCell q (some key) (some c) (some y)) q .readCell r := State.answeredOnly_of_read hs rfl h
    exact ⟨fun _ _ hr hx => reads (State.readCell_found hr hx), fun hr => reads (State.readCell_noPlate hr),
      fun _ hr hx => reads (State.readCell_noCell hr hx)⟩
  · have reads {sel : ProfileSelector} {r : Reply} (h : (s.taken q .readProfile).readProfile sel = r) :
        s.answeredOnly (.readProfile q sel) q .readProfile r := State.answeredOnly_of_read hs rfl h
    exact ⟨fun p => reads (State.readProfile_number p), reads rfl, fun _ h => reads (State.readProfile_noNumber h),
      reads rfl⟩
  · have reads {r : Reply} (h : Reply.withData (.calib s.cal.record (s.cal.op.map s.calOpReport)) = r) :
        s.answeredOnly (.readCalib q) q .readCalib r := State.answeredOnly_of_read hs rfl h
    exact ⟨fun h => reads (by rw [h]; rfl), fun op h => reads (by rw [h]; rfl)⟩

end Sys2Proof.Machine
end

section
/-! PROOFS. A TRIGGER leaves only where none is awaited, and nothing after it at the same event takes it back (R48, R90,
R93, R105): the operations that leave the downlink and the tag counter, what stands once a TRIGGER has left, and the
two that send one. -/

namespace Sys2Proof.Machine
-- One proof at a time: under the memory limit of the check there is no room for the stacks of many threads.
set_option Elab.async false

/-! ## What sends no TRIGGER -/

section

variable (s : State)

@[simp] theorem State.returnSlot_line (k : SlotNo) :
    (s.returnSlot k).plr.downlink = s.plr.downlink ∧ (s.returnSlot k).plr.tagCounter = s.plr.tagCounter := by
  unfold State.returnSlot
  simp

@[simp] theorem State.returnSlots_line (ks : List SlotNo) :
    (s.returnSlots ks).plr.downlink = s.plr.downlink ∧ (s.returnSlots ks).plr.tagCounter = s.plr.tagCounter := by
  unfold State.returnSlots
  induction ks generalizing s with
  | nil => exact ⟨rfl, rfl⟩
  | cons k ks ih => simp [ih]

@[simp] theorem State.cancelWait_line :
    s.cancelWait.plr.downlink = s.plr.downlink ∧ s.cancelWait.plr.tagCounter = s.plr.tagCounter := by
  unfold State.cancelWait
  simp

@[simp] theorem State.failCalibration_line (reason : CalResult) :
    (s.failCalibration reason).plr.downlink = s.plr.downlink ∧ (s.failCalibration reason).plr.tagCounter = s.plr.tagCounter := by
  unfold State.failCalibration
  split <;> simp

@[simp] theorem State.attemptEnded_line (op : CalOp) :
    (s.attemptEnded op).plr.downlink = s.plr.downlink ∧ (s.attemptEnded op).plr.tagCounter = s.plr.tagCounter := by
  unfold State.attemptEnded
  repeat' split
  all_goals simp

@[simp] theorem State.pollAttempt_line :
    s.pollAttempt.plr.downlink = s.plr.downlink ∧ s.pollAttempt.plr.tagCounter = s.plr.tagCounter := by
  unfold State.pollAttempt
  repeat' split
  all_goals simp

@[simp] theorem State.openPassEnded_line (op : CalOp) :
    (s.openPassEnded op).plr.downlink = s.plr.downlink ∧ (s.openPassEnded op).plr.tagCounter = s.plr.tagCounter := by
  unfold State.openPassEnded
  repeat' split
  all_goals simp

@[simp] theorem State.openRowDone_line (y : Nat) :
    (s.openRowDone y).plr.downlink = s.plr.downlink ∧ (s.openRowDone y).plr.tagCounter = s.plr.tagCounter := by
  unfold State.openRowDone
  dsimp only
  repeat' split
  all_goals simp

@[simp] theorem State.calibWorkDone_line (w : StoreWork) :
    (s.calibWorkDone w).plr.downlink = s.plr.downlink ∧ (s.calibWorkDone w).plr.tagCounter = s.plr.tagCounter := by
  unfold State.calibWorkDone
  repeat' split
  all_goals simp

@[simp] theorem State.abandonTry_line :
    s.abandonTry.plr.downlink = s.plr.downlink ∧ s.abandonTry.plr.tagCounter = s.plr.tagCounter := by
  unfold State.abandonTry
  repeat' split
  all_goals simp

@[simp] theorem State.leaveCapture_line :
    s.leaveCapture.plr.downlink = s.plr.downlink ∧ s.leaveCapture.plr.tagCounter = s.plr.tagCounter := by
  unfold State.leaveCapture
  repeat' split
  all_goals simp

@[simp] theorem State.leaveCaptureOf_line (key : PlateKey) :
    (s.leaveCaptureOf key).plr.downlink = s.plr.downlink ∧ (s.leaveCaptureOf key).plr.tagCounter = s.plr.tagCounter := by
  unfold State.leaveCaptureOf
  repeat' split
  all_goals simp

@[simp] theorem State.endTry_line (c : TryContext) (outcome : LastOutcome) :
    (s.endTry c outcome).plr.downlink = s.plr.downlink ∧ (s.endTry c outcome).plr.tagCounter = s.plr.tagCounter := by
  unfold State.endTry
  repeat' split
  all_goals simp

@[simp] theorem State.nextTrigger_line (c : TryContext) :
    (s.nextTrigger c).plr.downlink = s.plr.downlink ∧ (s.nextTrigger c).plr.tagCounter = s.plr.tagCounter := by
  unfold State.nextTrigger
  repeat' split
  all_goals simp

@[simp] theorem State.decideExtension_line (c : TryContext) :
    (s.decideExtension c).plr.downlink = s.plr.downlink ∧ (s.decideExtension c).plr.tagCounter = s.plr.tagCounter := by
  unfold State.decideExtension
  dsimp only
  repeat' split
  all_goals simp

@[simp] theorem State.acceptExposure_line (c : TryContext) :
    (s.acceptExposure c).plr.downlink = s.plr.downlink ∧ (s.acceptExposure c).plr.tagCounter = s.plr.tagCounter := by
  unfold State.acceptExposure
  repeat' split
  all_goals simp

@[simp] theorem State.repeatRung_line (c : TryContext) :
    (s.repeatRung c).plr.downlink = s.plr.downlink ∧ (s.repeatRung c).plr.tagCounter = s.plr.tagCounter := by
  unfold State.repeatRung
  repeat' split
  all_goals simp

@[simp] theorem State.review_line (c : TryContext) :
    (s.review c).plr.downlink = s.plr.downlink ∧ (s.review c).plr.tagCounter = s.plr.tagCounter := by
  unfold State.review
  dsimp only
  repeat' split
  all_goals simp

@[simp] theorem State.pollMerged_line :
    s.pollMerged.plr.downlink = s.plr.downlink ∧ s.pollMerged.plr.tagCounter = s.plr.tagCounter := by
  unfold State.pollMerged
  repeat' split
  all_goals simp

@[simp] theorem State.dropLink_line :
    s.dropLink.plr.downlink = s.plr.downlink ∧ s.dropLink.plr.tagCounter = s.plr.tagCounter := by
  unfold State.dropLink
  simp

@[simp] theorem State.setFaultCount_line (count : Nat) (cause : LinkCause) :
    (s.setFaultCount count cause).plr.downlink = s.plr.downlink ∧ (s.setFaultCount count cause).plr.tagCounter = s.plr.tagCounter := by
  unfold State.setFaultCount
  dsimp only
  repeat' split
  all_goals simp

@[simp] theorem Plr.captureFault_line (p : Plr) (m : FaultMark) :
    (p.captureFault m).downlink = p.downlink ∧ (p.captureFault m).tagCounter = p.tagCounter := by
  unfold Plr.captureFault
  split <;> exact ⟨rfl, rfl⟩

@[simp] theorem State.chargeFault_line (m : FaultMark) (weight : Nat) :
    (s.chargeFault m weight).plr.downlink = s.plr.downlink ∧ (s.chargeFault m weight).plr.tagCounter = s.plr.tagCounter := by
  unfold State.chargeFault
  dsimp only
  repeat' split
  all_goals simp

@[simp] theorem State.chargeRow_line (m : FaultMark) :
    (s.chargeRow m).plr.downlink = s.plr.downlink ∧ (s.chargeRow m).plr.tagCounter = s.plr.tagCounter := by
  unfold State.chargeRow
  dsimp only
  repeat' split
  all_goals simp

@[simp] theorem State.tearRow_line (kind : FaultKind) (i : Nat) :
    (s.tearRow kind i).plr.downlink = s.plr.downlink ∧ (s.tearRow kind i).plr.tagCounter = s.plr.tagCounter := by
  unfold State.tearRow
  repeat' split
  all_goals simp

@[simp] theorem State.tearRows_line (kind : FaultKind) (first : Nat) (count : Nat) :
    (s.tearRows kind first count).plr.downlink = s.plr.downlink ∧ (s.tearRows kind first count).plr.tagCounter = s.plr.tagCounter := by
  unfold State.tearRows
  generalize List.range count = l
  induction l generalizing s with
  | nil => exact ⟨rfl, rfl⟩
  | cons k ks ih => simp [ih]

@[simp] theorem State.strayFrame_line :
    s.strayFrame.plr.downlink = s.plr.downlink ∧ s.strayFrame.plr.tagCounter = s.plr.tagCounter := by
  unfold State.strayFrame
  simp

@[simp] theorem State.throwRow_line (index : Nat) :
    (s.throwRow index).plr.downlink = s.plr.downlink ∧ (s.throwRow index).plr.tagCounter = s.plr.tagCounter := by
  unfold State.throwRow
  simp

@[simp] theorem State.reportFrameEnd_line (torn : Nat) :
    (s.reportFrameEnd torn).plr.downlink = s.plr.downlink ∧ (s.reportFrameEnd torn).plr.tagCounter = s.plr.tagCounter := by
  unfold State.reportFrameEnd
  dsimp only
  repeat' split
  all_goals simp

@[simp] theorem State.cleanDecrement_line :
    s.cleanDecrement.plr.downlink = s.plr.downlink ∧ s.cleanDecrement.plr.tagCounter = s.plr.tagCounter := by
  unfold State.cleanDecrement
  split <;> simp

@[simp] theorem State.decideWindow_line (release : Bool) :
    (s.decideWindow release).plr.downlink = s.plr.downlink ∧ (s.decideWindow release).plr.tagCounter = s.plr.tagCounter := by
  unfold State.decideWindow Plr.release Plr.drain
  dsimp only
  cases release <;> split <;> simp

@[simp] theorem State.queueRow_line (i : Nat) (codes : List CameraCode) :
    (s.queueRow i codes).plr.downlink = s.plr.downlink ∧ (s.queueRow i codes).plr.tagCounter = s.plr.tagCounter := by
  unfold State.queueRow
  dsimp only
  repeat' split
  all_goals simp

@[simp] theorem State.receiveRow_line (good : Bool) (index : Nat) (codes : List Byte) :
    (s.receiveRow good index codes).plr.downlink = s.plr.downlink ∧ (s.receiveRow good index codes).plr.tagCounter = s.plr.tagCounter := by
  unfold State.receiveRow
  dsimp only
  repeat' split
  all_goals simp

@[simp] theorem State.recoverLink_line :
    s.recoverLink.plr.downlink = s.plr.downlink ∧ s.recoverLink.plr.tagCounter = s.plr.tagCounter := by
  unfold State.recoverLink
  simp

@[simp] theorem State.idleWhileDropped_line (good : Bool) :
    (s.idleWhileDropped good).plr.downlink = s.plr.downlink ∧ (s.idleWhileDropped good).plr.tagCounter = s.plr.tagCounter := by
  unfold State.idleWhileDropped
  repeat' split
  all_goals simp

@[simp] theorem State.breakIdleRun_line :
    s.breakIdleRun.plr.downlink = s.plr.downlink ∧ s.breakIdleRun.plr.tagCounter = s.plr.tagCounter := by
  unfold State.breakIdleRun
  simp

@[simp] theorem State.sealFaults_line (x : State) :
    (s.sealFaults x).plr.downlink = x.plr.downlink ∧ (s.sealFaults x).plr.tagCounter = x.plr.tagCounter := by
  unfold State.sealFaults
  split <;> simp

@[simp] theorem State.takeDiscards_line :
    s.takeDiscards.plr.downlink = s.plr.downlink ∧ s.takeDiscards.plr.tagCounter = s.plr.tagCounter := by
  unfold State.takeDiscards
  split <;> simp

@[simp] theorem State.timeoutWait_line :
    s.timeoutWait.plr.downlink = s.plr.downlink ∧ s.timeoutWait.plr.tagCounter = s.plr.tagCounter := by
  unfold State.timeoutWait Plr.dropHeld
  dsimp only
  split <;> simp <;> split_ifs <;> simp

@[simp] theorem State.lampFailed_line :
    s.lampFailed.plr.downlink = s.plr.downlink ∧ s.lampFailed.plr.tagCounter = s.plr.tagCounter := by
  unfold State.lampFailed
  dsimp only
  repeat' split
  all_goals simp

@[simp] theorem State.windowEnded_line (m : Nat) (steady : Bool) :
    (s.windowEnded m steady).plr.downlink = s.plr.downlink ∧ (s.windowEnded m steady).plr.tagCounter = s.plr.tagCounter := by
  unfold State.windowEnded State.tryWindowEnd State.attemptWindowEnd
  dsimp only
  repeat' split
  all_goals simp

@[simp] theorem State.judgeStart_line (tag : Byte) (good : Bool) :
    (s.judgeStart tag good).plr.downlink = s.plr.downlink ∧ (s.judgeStart tag good).plr.tagCounter = s.plr.tagCounter := by
  unfold State.judgeStart
  repeat' split
  all_goals simp

@[simp] theorem State.countCaptured_line :
    s.countCaptured.plr.downlink = s.plr.downlink ∧ s.countCaptured.plr.tagCounter = s.plr.tagCounter := by
  unfold State.countCaptured
  simp

@[simp] theorem State.missingTorn_line :
    s.missingTorn.plr.downlink = s.plr.downlink ∧ s.missingTorn.plr.tagCounter = s.plr.tagCounter := by
  unfold State.missingTorn
  simp

@[simp] theorem State.frameClosed_line :
    s.frameClosed.plr.downlink = s.plr.downlink ∧ s.frameClosed.plr.tagCounter = s.plr.tagCounter := by
  unfold State.frameClosed
  simp

@[simp] theorem State.endConcluded_line :
    s.endConcluded.plr.downlink = s.plr.downlink ∧ s.endConcluded.plr.tagCounter = s.plr.tagCounter := by
  unfold State.endConcluded
  repeat' split
  all_goals simp

@[simp] theorem State.endFrame_line (count : Option Nat) :
    (s.endFrame count).plr.downlink = s.plr.downlink ∧ (s.endFrame count).plr.tagCounter = s.plr.tagCounter := by
  rw [State.endFrame_eq]
  split_ifs <;> simp

@[simp] theorem State.undoPlate_line (key : PlateKey) :
    (s.undoPlate key).plr.downlink = s.plr.downlink ∧ (s.undoPlate key).plr.tagCounter = s.plr.tagCounter := by
  unfold State.undoPlate
  dsimp only
  split <;> simp

@[simp] theorem State.relimit_line :
    s.relimit.plr.downlink = s.plr.downlink ∧ s.relimit.plr.tagCounter = s.plr.tagCounter := by
  unfold State.relimit
  dsimp only
  repeat' split
  all_goals simp

@[simp] theorem State.applySettings_line (l : List (Setting × Nat)) :
    (s.applySettings l).plr.downlink = s.plr.downlink ∧ (s.applySettings l).plr.tagCounter = s.plr.tagCounter := by
  unfold State.applySettings
  dsimp only
  repeat' split
  all_goals simp

@[simp] theorem State.returnCellSlot_line (x : CellRecord) :
    (s.returnCellSlot x).plr.downlink = s.plr.downlink ∧ (s.returnCellSlot x).plr.tagCounter = s.plr.tagCounter := by
  unfold State.returnCellSlot
  split <;> simp

@[simp] theorem State.loseCell_line (p : CellRef × SlotNo) :
    (s.loseCell p).plr.downlink = s.plr.downlink ∧ (s.loseCell p).plr.tagCounter = s.plr.tagCounter := by
  unfold State.loseCell
  simp

@[simp] theorem State.loseCells_line (l : List (CellRef × SlotNo)) :
    (l.foldl State.loseCell s).plr.downlink = s.plr.downlink
      ∧ (l.foldl State.loseCell s).plr.tagCounter = s.plr.tagCounter := by
  induction l generalizing s with
  | nil => exact ⟨rfl, rfl⟩
  | cons p l ih => simp [ih]

@[simp] theorem State.enterRetention_line (mask : List RegionNo) :
    (s.enterRetention mask).plr.downlink = s.plr.downlink ∧ (s.enterRetention mask).plr.tagCounter = s.plr.tagCounter := by
  unfold State.enterRetention
  simp

@[simp] theorem State.arbitrate_line :
    s.arbitrate.plr.downlink = s.plr.downlink ∧ s.arbitrate.plr.tagCounter = s.plr.tagCounter := by
  rw [State.arbitrate_plr]
  exact ⟨rfl, rfl⟩

@[simp] theorem State.storeReady_line (cause : StoreCause) :
    (s.storeReady cause).plr.downlink = s.plr.downlink ∧ (s.storeReady cause).plr.tagCounter = s.plr.tagCounter := by
  unfold State.storeReady
  simp

end

/-- What a lit lamp keeps: a plate that becomes ACTIVE lights an OFF lamp alone (R122). -/
theorem State.changeCell_steady {s : State} (h : s.ltc.lamp = .steady) (c : CellRef) (f : CellRecord → CellRecord)
    (g : PlateRecord → PlateRecord) : (s.changeCell c f g).ltc.lamp = .steady := by
  have hq : (s.changeCellQuiet c f g).ltc.lamp = .steady := by simpa using h
  unfold State.changeCell
  dsimp only
  split
  · unfold State.lampSwitchOn
    rw [hq]
    exact hq
  · exact hq

theorem State.endTry_steady {s : State} (h : s.ltc.lamp = .steady) (c : TryContext) (outcome : LastOutcome) :
    (s.endTry c outcome).ltc.lamp = .steady := by
  unfold State.endTry
  split
  · split
    · simpa using State.changeCell_steady h _ _ _
    · simpa using State.changeCell_steady h _ _ _
  · simpa using h

theorem State.nextTrigger_steady {s : State} (h : s.ltc.lamp = .steady) (c : TryContext) :
    (s.nextTrigger c).ltc.lamp = .steady := by
  unfold State.nextTrigger
  split
  · exact State.endTry_steady h _ _
  · simpa using h

theorem State.handOver_steady {s : State} (h : s.ltc.lamp = .steady) (c : TryContext) :
    (s.handOver c).ltc.lamp = .steady := by
  unfold State.handOver
  simpa using State.changeCell_steady h _ _ _

theorem State.acceptExposure_steady {s : State} (h : s.ltc.lamp = .steady) (c : TryContext) :
    (s.acceptExposure c).ltc.lamp = .steady := by
  unfold State.acceptExposure State.decideExtension
  dsimp only
  repeat' split
  · exact State.handOver_steady h c
  · exact State.nextTrigger_steady (by simpa using h) c
  · exact State.nextTrigger_steady (by simpa using h) c
  · exact State.handOver_steady h c

theorem State.repeatRung_steady {s : State} (h : s.ltc.lamp = .steady) (c : TryContext) :
    (s.repeatRung c).ltc.lamp = .steady := by
  unfold State.repeatRung
  split
  · exact State.endTry_steady h _ _
  · exact State.nextTrigger_steady (by simpa using h) c

theorem State.review_steady {s : State} (h : s.ltc.lamp = .steady) (c : TryContext) :
    (s.review c).ltc.lamp = .steady := by
  have hq : (s.onCsq fun q => { q with state := .review, frameReported := false }).ltc.lamp = .steady := h
  unfold State.review
  dsimp only
  generalize (s.onCsq fun q => { q with state := .review, frameReported := false }) = x at hq
  repeat' split
  · exact hq
  · exact State.acceptExposure_steady hq c
  · exact State.repeatRung_steady hq c
  · exact State.endTry_steady hq c _

theorem State.pollMerged_steady {s : State} (h : s.ltc.lamp = .steady) : s.pollMerged.ltc.lamp = .steady := by
  unfold State.pollMerged
  split
  · exact h
  · split
    · exact State.review_steady h _
    · exact h

theorem State.pollDelivery_steady {s : State} (h : s.ltc.lamp = .steady) : s.pollDelivery.ltc.lamp = .steady := by
  have hstart (c : CellRef) : (s.startStream c).ltc.lamp = .steady := by
    unfold State.startStream
    split
    · split
      · exact h
      · exact State.changeCell_steady (s := s.dequeue c) h _ _ _
    · exact h
  have hauto : s.autoStream.ltc.lamp = .steady := by
    unfold State.autoStream
    split
    · split
      · exact hstart _
      · exact h
    · exact h
  exact hauto

/-! ## What stands once a TRIGGER has left -/

/-- No TRIGGER has left: the downlink is what it was, or empty after a reset. -/
def State.Quiet (d : Option Trigger) (n : Byte) (x : State) : Prop :=
  (x.plr.downlink = d ∨ x.plr.downlink = none) ∧ x.plr.tagCounter = n

/-- A TRIGGER has left under the tag after `n`, its frame is awaited, and what it required of the lamp holds. -/
def State.Sent (n : Byte) (x : State) : Prop :=
  ∃ g, x.plr.downlink = some g ∧ g.tag = n + 1 ∧ x.plr.awaitedTag = some g.tag
    ∧ ((g.lamp = .steady ∧ x.ltc.lamp = .steady) ∨ (g.lamp = .none ∧ ∃ op, x.cal.op = some op ∧ op.kind = .dark))

/-- At most one TRIGGER has left. -/
def State.Lined (d : Option Trigger) (n : Byte) (x : State) : Prop := x.Quiet d n ∨ x.Sent n

section

variable {d : Option Trigger} {n : Byte} {x y : State}

theorem State.Quiet.congr (h : x.Quiet d n) (hline : y.plr.downlink = x.plr.downlink ∧ y.plr.tagCounter = x.plr.tagCounter) :
    y.Quiet d n := by
  obtain ⟨hd, hn⟩ := hline
  obtain ⟨h1, h2⟩ := h
  exact ⟨hd ▸ h1, hn.trans h2⟩

theorem State.Sent.congr (h : x.Sent n) (hd : y.plr.downlink = x.plr.downlink)
    (ha : y.plr.awaitedTag = x.plr.awaitedTag) (hc : y.cal.op = x.cal.op)
    (hl : x.ltc.lamp = .steady → y.ltc.lamp = .steady) : y.Sent n := by
  obtain ⟨g, hg, htag, hawait, hlamp⟩ := h
  refine ⟨g, hd.trans hg, htag, ha.trans hawait, ?_⟩
  rcases hlamp with ⟨hs, hlit⟩ | ⟨hno, hop⟩
  · exact .inl ⟨hs, hl hlit⟩
  · exact .inr ⟨hno, hc ▸ hop⟩

/-- What leaves the line and the calibration alone, and a STEADY lamp STEADY, takes no TRIGGER back. -/
theorem State.Lined.congr (h : x.Lined d n)
    (hline : y.plr.downlink = x.plr.downlink ∧ y.plr.tagCounter = x.plr.tagCounter)
    (ha : y.plr.awaitedTag = x.plr.awaitedTag) (hc : y.cal.op = x.cal.op)
    (hl : x.ltc.lamp = .steady → y.ltc.lamp = .steady) : y.Lined d n :=
  h.imp (fun h => h.congr hline) fun h => h.congr hline.1 ha hc hl

theorem State.Lined.congr' (h : x.Lined d n) (hp : y.plr = x.plr) (hc : y.cal = x.cal) (hl : y.ltc = x.ltc) :
    y.Lined d n := h.congr (by simp [hp]) (by rw [hp]) (by rw [hc]) (by rw [hl]; exact id)

theorem State.Quiet.triggerTry (h : x.Quiet d n) (hl : x.ltc.lamp = .steady) (c : TryContext) :
    (x.triggerTry c).Sent n :=
  ⟨_, rfl, congrArg (· + 1) h.2, rfl, .inl ⟨rfl, hl⟩⟩

theorem State.Quiet.triggerAttempt (h : x.Quiet d n) {op : CalOp} (hop : x.cal.op = some op)
    (hl : op.kind = .dark ∨ x.ltc.lamp = .steady) : (x.triggerAttempt op).Sent n := by
  unfold State.triggerAttempt
  cases hk : op.kind with
  | dark =>
    refine ⟨_, rfl, congrArg (· + 1) h.2, rfl, .inr ⟨rfl, ?_⟩⟩
    exact ⟨_, congrArg (Option.map _) hop, hk⟩
  | flat => exact ⟨_, rfl, congrArg (· + 1) h.2, rfl, .inl ⟨rfl, hl.resolve_left (by rw [hk]; exact CalKind.noConfusion)⟩⟩

/-- A TRIGGER leaves where none is awaited. -/
theorem State.Sent.no_canTrigger (h : x.Sent n) : x.canTrigger = false := by
  obtain ⟨g, -, -, hawait, -⟩ := h
  simp [State.canTrigger, hawait]

theorem State.Lined.pollAttemptTrigger (h : x.Lined d n) : x.pollAttemptTrigger.Lined d n := by
  unfold State.pollAttemptTrigger
  split
  · exact h
  · rename_i op hop
    split
    · rename_i hcond
      obtain ⟨-, -, hlamp, hcan⟩ := hcond
      rcases h with h | h
      · exact .inr (h.triggerAttempt hop hlamp)
      · exact absurd hcan (by simp [h.no_canTrigger])
    · exact h

theorem State.Lined.pollLamp (h : x.Lined d n) : x.pollLamp.Lined d n := by
  unfold State.pollLamp
  split
  · split
    · exact h
    · split_ifs with hhold hoff hcond
      · exact h.congr' (by simp) (by simp) (by simp)
      · refine h.congr (by simp) (by simp) (by simp) fun hlit => ?_
        rw [hlit] at hoff
        cases hoff
      · obtain ⟨hlit, -, hcan, -⟩ := hcond
        rcases h with h | h
        · exact .inr (h.triggerTry hlit _)
        · exact absurd hcan (by simp [h.no_canTrigger])
      · exact h
  · exact h

theorem State.Lined.pollCsq (h : x.Lined d n) : x.pollCsq.Lined d n := by
  have hmerged : x.pollMerged.Lined d n := h.congr (by simp) (by simp) (by simp) State.pollMerged_steady
  have hslot : x.pollMerged.pollPaused.pollIdle.pollSlot.Lined d n := hmerged.congr' (by simp) (by simp) (by simp)
  exact hslot.pollLamp

theorem State.Lined.arbitrate (h : x.Lined d n) : x.arbitrate.Lined d n :=
  h.congr (by simp) (by rw [State.arbitrate_plr]) (by simp) fun hl => by simpa using hl

theorem State.Lined.pollAll (h : x.Quiet d n) : x.pollAll.Lined d n := by
  have hattempt : x.takeDiscards.pollAttempt.Quiet d n := h.congr (by simp)
  have hcsq : x.takeDiscards.pollCal.pollCsq.Lined d n :=
    State.Lined.pollCsq (State.Lined.pollAttemptTrigger (.inl hattempt))
  unfold State.pollAll
  generalize x.takeDiscards.pollCal.pollCsq = z at hcsq
  have hdelivery : z.pollDelivery.Lined d n :=
    hcsq.congr (by simp) (by simp) (by simp) State.pollDelivery_steady
  exact hdelivery.arbitrate

theorem State.quiet_unported (d : Option Trigger) (n : Byte) : Unported (State.Quiet d n) :=
  ⟨fun _ _ h => h, fun _ _ h => h, fun _ h => h⟩

theorem State.lined_unported (d : Option Trigger) (n : Byte) : Unported (State.Lined d n) :=
  ⟨fun _ _ h => h, fun _ _ h => h, fun _ h => h⟩

end

/-! ## The service of a request -/

section

variable {P Q : State → Prop}

/-- A request's handler runs at most once: what it leaves of a state with `P` stands at the end of the request. -/
theorem Unported.request_of (hP : Unported P) (hQ : Unported Q) (hPQ : ∀ x, P x → Q x) {s : State} (hs : P s) {q : Src}
    {kind : RequestKind} {handle : State → State × Reply} (hh : ∀ x, P x → Q (handle x).1) :
    Q (s.request q kind handle) := by
  have hand (x : State) (hx : P x) : Q (x.hand q kind handle) := by
    unfold State.hand
    exact hQ.onPort (hh _ (hP.onPort hx _ _)) _ _
  have aside (x : State) (hx : P x) : Q (x.handAside q kind handle) := by
    unfold State.handAside
    exact hQ.onPort (hh _ hx) _ _
  have refuse (x : State) (hx : P x) (code : AnswerCode) : Q (x.refuse q kind code) := hPQ _ (hP.onPort hx _ _)
  have hf : P (s.frameTaken q.port) := hP.onPort hs _ _
  have hw := hP.woken hf q.port
  unfold State.request State.judgeRequest
  dsimp only
  split
  · exact hPQ _ hs
  · split
    · split_ifs
      · exact refuse _ hw _
      · exact aside _ hw
      · exact refuse _ hw _
    · split_ifs
      · exact refuse _ hf _
      · exact hand _ hf
      · exact refuse _ hf _

theorem Unported.exec_request_of (hP : Unported P) (hQ : Unported Q) (hPQ : ∀ x, P x → Q x) {i : Instr} {q : Src}
    {kind : RequestKind} (hi : requestOf? i = some (q, kind)) {s t : State} (hs : P s)
    (hh : ∀ x, P x → Q (handlerOf s.tbu.clock i x).1) (ht : exec i s = .next t) : Q t := by
  rw [Machine.exec_request hi] at ht
  split at ht <;> cases ht <;> exact hQ.finish (hP.request_of hQ hPQ hs hh) _

end

/-! ## The handlers -/

section

variable {d : Option Trigger} {n : Byte} {x : State}

theorem State.Quiet.lined (h : x.Quiet d n) : x.Lined d n := .inl h

/-- What leaves the line alone leaves no TRIGGER. -/
theorem State.Quiet.stays {y : State} (h : x.Quiet d n)
    (hline : y.plr.downlink = x.plr.downlink ∧ y.plr.tagCounter = x.plr.tagCounter) : y.Lined d n := .inl (h.congr hline)

theorem State.Quiet.handleSeated (h : x.Quiet d n) (r : PlateRecord) : (x.handleSeated r).1.Lined d n := by
  unfold State.handleSeated State.seatPlate
  dsimp only
  repeat' split
  all_goals exact h.stays (by simp)

theorem State.Quiet.handleUnseated (h : x.Quiet d n) (r : PlateRecord) : (x.handleUnseated r).1.Lined d n := by
  unfold State.handleUnseated
  repeat' split
  all_goals exact h.stays (by simp)

theorem State.Quiet.handleWithdraw (h : x.Quiet d n) (r : PlateRecord) : (x.handleWithdraw r).1.Lined d n := by
  unfold State.handleWithdraw
  dsimp only
  repeat' split
  all_goals exact h.stays (by simp)

theorem State.Quiet.handleFree (h : x.Quiet d n) (r : PlateRecord) : (x.handleFree r).1.Lined d n := by
  unfold State.handleFree
  dsimp only
  repeat' split
  · exact h.stays (by simp)
  · exact State.Lined.arbitrate (State.Lined.pollLamp (h.stays (by simp)))
  · exact State.Lined.arbitrate (State.Lined.pollLamp (h.stays (by simp)))

theorem State.Quiet.handleAtCell (h : x.Quiet d n) (key : Option PlateKey) (column row number : Option Nat) :
    (x.handleAtCell key column row number).1.Lined d n := by
  unfold State.handleAtCell State.arrive
  repeat' split
  case h_5.isTrue => exact State.Lined.pollLamp (h.stays (by simp))
  all_goals exact h.stays (by simp)

theorem State.Quiet.startDark (h : x.Quiet d n) (tRef : Nat) : (x.startDark tRef).Lined d n :=
  State.Lined.pollAttemptTrigger (h.stays (by simp))

theorem State.Quiet.handleCalibrateDark (h : x.Quiet d n) (given : Bool) (tRef level : Option Nat) :
    (x.handleCalibrateDark given tRef level).1.Lined d n := by
  unfold State.handleCalibrateDark
  repeat' split
  · exact h.lined
  · exact h.lined
  · exact h.startDark _
  · exact h.startDark _

theorem State.Quiet.handleKeep (h : x.Quiet d n) (r : PlateRecord) (c : CellRecord) : (x.handleKeep r c).1.Lined d n := by
  unfold State.handleKeep State.keepCell
  split
  all_goals exact h.stays (by simp)

theorem State.Quiet.handleRecapture (h : x.Quiet d n) (r : PlateRecord) (c : CellRecord) :
    (x.handleRecapture r c).1.Lined d n := by
  unfold State.handleRecapture State.recaptureCell
  dsimp only
  repeat' split
  all_goals exact h.stays (by simp)

/-- A request leaves at most one TRIGGER: that of a free sequencer, of a move's end or of a dark. -/
theorem State.Quiet.handler {i : Instr} {q : Src} {kind : RequestKind} (hi : requestOf? i = some (q, kind))
    (now : Seconds) (h : x.Quiet d n) : (handlerOf now i x).1.Lined d n := by
  cases i <;> cases hi
  case seated => exact withPlate_keeps (P := State.Lined d n) h.lined fun r _ => h.handleSeated r
  case unseated => exact withPlate_keeps (P := State.Lined d n) h.lined fun r _ => h.handleUnseated r
  case withdraw => exact withPlate_keeps (P := State.Lined d n) h.lined fun r _ => h.handleWithdraw r
  case free => exact withPlate_keeps (P := State.Lined d n) h.lined fun r _ => h.handleFree r
  case retire | hold | mark => exact withPlate_keeps (P := State.Lined d n) h.lined fun r _ => h.stays (by simp)
  case releaseKeep => exact withCell_keeps (P := State.Lined d n) h.lined fun r c _ _ => h.handleKeep r c
  case releaseRecapture => exact withCell_keeps (P := State.Lined d n) h.lined fun r c _ _ => h.handleRecapture r c
  case atCell => exact h.handleAtCell _ _ _ _
  case calibrateDark => exact h.handleCalibrateDark _ _ _
  case readPlate | readCell | readProfile | readCalib | readFault | warmRestart | resume => exact h.lined
  case setCapture =>
    simp only [handlerOf, State.handleSetCapture]
    repeat' split
    all_goals exact h.stays (by simp)
  case standby =>
    simp only [handlerOf, State.handleStandby, State.standby]
    repeat' split
    all_goals exact h.stays (by simp)
  case setFilter =>
    simp only [handlerOf, State.handleSetFilter]
    split <;> exact h.lined
  case setDelivery =>
    simp only [handlerOf, State.handleSetDelivery]
    repeat' split
    all_goals exact h.stays (by simp)
  case fetch =>
    simp only [handlerOf, State.handleFetch]
    repeat' split
    all_goals exact h.stays (by simp)
  all_goals exact h.stays (by simp [handlerOf])

end

/-! ## The commands -/

section

variable {d : Option Trigger} {n : Byte}

theorem State.Quiet.ends {s0 s t : State} (h : s.Quiet d n) (ht : State.uplinkEnd s0 s = .next t) : t.Lined d n := by
  cases ht
  refine (State.lined_unported d n).finish (State.Lined.pollAll (h.congr ?_)) _
  simp

theorem State.Quiet.resume {s : State} (h : s.Quiet d n) : s.resume.Lined d n := by
  have hwarm : s.warmRestart.Quiet d n := ⟨.inr rfl, h.2⟩
  unfold State.resume
  generalize s.warmRestart = w at hwarm
  exact (State.lined_unported d n).finish (hwarm.stays (by simp)) _

/-- Every command leaves at most one TRIGGER, but a COLD_RESET, which leaves none. -/
theorem State.Quiet.exec {i : Instr} {s t : State} (h : s.Quiet d n) (ht : exec i s = .next t) :
    t.Lined d n ∨ t.plr.downlink = none := by
  have finish {x : State} (hx : x.Lined d n) (ns : List Notice) : (x.finish ns).Lined d n :=
    (State.lined_unported d n).finish hx ns
  cases hr : requestOf? i with
  | some k =>
    exact .inl ((State.quiet_unported d n).exec_request_of (State.lined_unported d n) (fun _ => .inl) hr h
      (fun x hx => hx.handler hr _) ht)
  | none =>
    cases i
    case coldReset =>
      cases ht
      exact .inr rfl
    case resetWarm =>
      cases ht
      exact .inl h.resume
    case answerSent =>
      simp only [Machine.exec, execAnswerSent] at ht
      repeat' split at ht
      all_goals cases ht
      · exact .inl (State.Quiet.resume ((State.quiet_unported d n).onPort h _ _))
      · exact .inl h.lined
      · exact .inl h.lined
    case frameTimerExpiry =>
      simp only [Machine.exec, execFrameTimerExpiry] at ht
      split at ht
      · cases ht
        exact .inl h.lined
      · refine .inl (State.Quiet.ends (s0 := s) (h.congr ?_) ht)
        split <;> simp
    case frameStart tag check =>
      simp only [Machine.exec, execFrameStart] at ht
      split at ht
      · cases ht
        exact .inl h.lined
      · refine .inl (State.Quiet.ends (h.congr ?_) ht)
        split <;> simp
    case uplinkRow =>
      simp only [Machine.exec, execUplinkRow] at ht
      split at ht
      · cases ht
        exact .inl h.lined
      · split at ht
        · exact .inl (State.Quiet.ends (h.congr (by simp)) ht)
        · cases ht
          exact .inl h.lined
        · exact .inl (State.Quiet.ends (h.congr (by simp)) ht)
    case frameEnd =>
      simp only [Machine.exec, execFrameEnd] at ht
      split at ht
      · cases ht
        exact .inl h.lined
      · split at ht
        · exact .inl (State.Quiet.ends (h.congr (by simp)) ht)
        · cases ht
          exact .inl h.lined
        · exact .inl (State.Quiet.ends (h.congr (by simp)) ht)
    case uplinkIdle =>
      simp only [Machine.exec, execUplinkIdle] at ht
      split at ht
      · cases ht
        exact .inl (finish (h.stays (by simp)) _)
      · split at ht
        · cases ht
          exact .inl h.lined
        · cases ht
          exact .inl h.lined
        · refine .inl (State.Quiet.ends (h.congr ?_) ht)
          split <;> simp
    case shutterFall =>
      simp only [Machine.exec, execShutterFall] at ht
      split at ht
      all_goals cases ht
      · exact .inl (finish (State.Lined.pollAll (h.congr (by simp))) _)
      · exact .inl h.lined
    case rowMergeComplete | clearRowWrite | calibrationAccumulationRow | finalizationRowWrite =>
      simp only [Machine.exec, execRowMergeComplete, execClearRowWrite, execCalibrationAccumulationRow,
        execFinalizationRowWrite, State.accessEnd] at ht
      repeat' split at ht
      all_goals
        cases ht
        first
        | exact .inl (finish (State.Lined.pollAll (h.congr (by simp))) _)
        | exact .inl h.lined
    case settleTimerExpiry =>
      simp only [Machine.exec, execSettleTimerExpiry] at ht
      repeat' split at ht
      all_goals cases ht
      · exact .inl h.lined
      · exact .inl (finish (State.Lined.pollLamp (h.stays (by simp))) _)
      · exact .inl h.lined
    case lampCheck =>
      simp only [Machine.exec, execLampCheck] at ht
      repeat' split at ht
      all_goals cases ht
      · exact .inl h.lined
      · exact .inl (finish (h.stays (by simp)) _)
      · exact .inl (finish (State.Lined.pollLamp (State.Lined.pollAttemptTrigger (h.stays (by simp)))) _)
      · exact .inl (finish (h.stays (by simp)) _)
    case idleTimerExpiry =>
      simp only [Machine.exec, execIdleTimerExpiry] at ht
      repeat' split at ht
      all_goals cases ht
      · exact .inl h.lined
      · exact .inl (finish (State.Lined.pollLamp (h.stays (by simp))) _)
      · exact .inl h.lined
    case coldResetEnd | warmUpExpiry | monitorSample | shutterRise | readyRise | readyFall | startSent | headerSent
      | deliveryRowSent | endSent | badFrame | nonRequestFrame | lineBreak | paceRise | paceFall | noticeSent
      | unknownUnit | refreshDue | refreshComplete | secondTick | lampOnMinute | deliveryReadComplete | bringUpPass
      | bringUpFail | relockPass | relockFail | moveTimerExpiry =>
      simp only [Machine.exec, execColdResetEnd, execWarmUpExpiry, execMonitorSample, execShutterRise, execReadyRise,
        execReadyFall, execStartSent, execHeaderSent, execDeliveryRowSent, execEndSent, execBadFrame,
        execNonRequestFrame, execLineBreak, execPaceRise, execPaceFall, execNoticeSent, execUnknownUnit,
        execRefreshDue, execRefreshComplete, execSecondTick, execLampOnMinute, execDeliveryReadComplete,
        execBringUpPass, execBringUpFail, execRelockPass, execRelockFail, execMoveTimerExpiry] at ht
      repeat' split at ht
      all_goals
        cases ht
        exact .inl (h.stays (by simp))
    all_goals cases hr

end

/-- Settles O54: what has left is no TRIGGER, or one under the next tag whose lamp requirement still holds. -/
theorem triggersUnderSteadyLamp : Obligations.TriggersUnderSteadyLamp := by
  intro s t ht
  rcases step_next ht with rfl | ⟨c, rest, -, ht⟩
  · exact .inl rfl
  · have h : State.Quiet s.plr.downlink s.plr.tagCounter { s with pending := rest } := ⟨.inl rfl, rfl⟩
    rcases h.exec ht with (h | h) | h
    · exact h.1.imp id .inl
    · exact .inr (.inr h)
    · exact .inr (.inl h)

end Sys2Proof.Machine
end

section
/-! SUPPORT. How an event ends: the notices that its end offers, and that no operation takes back a notice that has
been raised. -/

namespace Sys2Proof.Machine
-- One proof at a time: under the memory limit of the check there is no room for the stacks of many threads.
set_option Elab.async false

/-! ## The end of an event -/

section

variable {s x : State}

theorem State.flush_eq (x : State) : x.flush = { x with raised := [], ports := x.flush.ports } := rfl

theorem State.announce_eq (x : State) (base : List PlateRecord) :
    x.announce base = { x with raised := [], ports := (x.announce base).ports } := rfl

theorem State.portsNoticed_of_ports (hp : x.ports = s.ports) : s.portsNoticed x := by
  intro k
  rw [hp]
  exact ⟨⟨rfl, rfl, rfl, rfl, rfl, rfl, rfl⟩, rfl⟩

theorem State.portsNoticed_flush (hp : x.ports = s.ports) : s.portsNoticed x.flush := by
  intro k
  rw [← hp]
  exact x.portsNoticed_finish [] k

theorem State.portsNoticed_announce (hp : x.ports = s.ports) (base : List PlateRecord) :
    s.portsNoticed (x.announce base) := by
  intro k
  rw [← hp]
  exact x.portsNoticed_finish _ k

theorem State.offered_flush (hp : x.ports = s.ports) : s.offered x.flush (otherNotices x.raised) := by
  intro k
  rw [← hp]
  exact x.offered_finish [] k

theorem State.offered_flush_of (hp : x.ports = s.ports) {ns : List Notice} (hr : otherNotices x.raised = ns) :
    s.offered x.flush ns := hr ▸ State.offered_flush hp

theorem State.offered_announce (hp : x.ports = s.ports) (base : List PlateRecord) :
    s.offered (x.announce base) (registerNotices base x.plates ++ otherNotices x.raised) := by
  intro k
  rw [← hp]
  exact x.offered_finish _ k

theorem State.announced_flush (hp : x.ports = s.ports) {n : Notice} (hn : n ∈ x.raised) : s.announced x.flush n :=
  ⟨_, mem_otherNotices.mpr hn, State.offered_flush hp⟩

theorem State.announced_announce (hp : x.ports = s.ports) (base : List PlateRecord) {n : Notice} (hn : n ∈ x.raised) :
    s.announced (x.announce base) n :=
  ⟨_, List.mem_append_right _ (mem_otherNotices.mpr hn), State.offered_announce hp base⟩

/-- A single notice is offered alone. -/
theorem otherNotices_singleton (n : Notice) : otherNotices [n] = [n] := by
  cases n <;> rfl

end

/-! ## Notices raised stay raised -/

section

variable (s : State) {n : Notice}


variable {s}

theorem State.mem_lampNotice (h : n ∈ s.raised) (old : LampState) (cause : LampCause) :
    n ∈ (s.lampNotice old cause).raised := by
  simp [State.lampNotice, h]

theorem State.mem_lampWarm (h : n ∈ s.raised) (cause : LampCause) : n ∈ (s.lampWarm cause).raised := by
  exact State.mem_lampNotice (by simpa using h) _ _

theorem State.mem_lampSwitchOn (h : n ∈ s.raised) : n ∈ s.lampSwitchOn.raised := by
  unfold State.lampSwitchOn
  split
  · exact State.mem_lampWarm h _
  · exact h

theorem State.mem_lampRestart (h : n ∈ s.raised) : n ∈ s.lampRestart.raised := State.mem_lampWarm h _

theorem State.mem_lampSwitchOff (h : n ∈ s.raised) (cause : LampCause) : n ∈ (s.lampSwitchOff cause).raised := by
  unfold State.lampSwitchOff
  split
  · simpa using h
  · exact State.mem_lampNotice (by simpa using h) _ _

theorem State.mem_changeCell (h : n ∈ s.raised) (c : CellRef) (f : CellRecord → CellRecord)
    (g : PlateRecord → PlateRecord) : n ∈ (s.changeCell c f g).raised := by
  have hq : n ∈ (s.changeCellQuiet c f g).raised := by simpa using h
  unfold State.changeCell
  dsimp only
  split
  · exact State.mem_lampSwitchOn hq
  · exact hq

theorem State.mem_calibNotice (h : n ∈ s.raised) (kind : Option CalKind) (result : CalResult)
    (flat : Option (Nat × Nat × Nat)) (reached : Option (Nat × Nat)) :
    n ∈ (s.calibNotice kind result flat reached).raised := by
  simp [State.calibNotice, h]

theorem State.mem_failCalibration (h : n ∈ s.raised) (reason : CalResult) :
    n ∈ (s.failCalibration reason).raised := by
  unfold State.failCalibration
  split
  · exact h
  · exact State.mem_calibNotice (by simpa using h) _ _ _ _

theorem State.mem_attemptEnded (h : n ∈ s.raised) (op : CalOp) : n ∈ (s.attemptEnded op).raised := by
  unfold State.attemptEnded State.darkComplete
  repeat' split
  · simpa using h
  · exact State.mem_calibNotice (by simpa using h) _ _ _ _
  · simpa using h
  · simpa using h
  · exact State.mem_failCalibration h _
  · exact State.mem_failCalibration h _

theorem State.mem_pollAttempt (h : n ∈ s.raised) : n ∈ s.pollAttempt.raised := by
  unfold State.pollAttempt
  repeat' split
  · exact h
  · exact State.mem_attemptEnded h _
  · exact h

theorem State.mem_pollCal (h : n ∈ s.raised) : n ∈ s.pollCal.raised := by
  simpa [State.pollCal] using State.mem_pollAttempt h

theorem State.mem_sendMove (h : n ∈ s.raised) (c : CellRef) (handling : Handling) :
    n ∈ (s.sendMove c handling).raised := by
  simp [State.sendMove, h]

theorem State.mem_claim (h : n ∈ s.raised) (r : PlateRecord) (c : CellRef) (k : SlotNo) :
    n ∈ (s.claim r c k).raised := by
  exact State.mem_sendMove (by simpa using h) _ _

theorem State.mem_abandonTry (h : n ∈ s.raised) : n ∈ s.abandonTry.raised := by
  unfold State.abandonTry
  split
  · exact h
  · dsimp only
    simp only [State.clearCsq_frame, State.returnSlot_frame]
    refine State.mem_changeCell ?_ _ _ _
    repeat' split
    all_goals simpa using h

theorem State.mem_leaveCapture (h : n ∈ s.raised) : n ∈ s.leaveCapture.raised := by
  unfold State.leaveCapture
  repeat' split
  · exact State.mem_abandonTry h
  all_goals simpa using h

theorem State.mem_endTry (h : n ∈ s.raised) (c : TryContext) (outcome : LastOutcome) :
    n ∈ (s.endTry c outcome).raised := by
  unfold State.endTry
  repeat' split
  · simpa using State.mem_changeCell h _ _ _
  · simpa using State.mem_changeCell h _ _ _
  · simpa using h

theorem State.mem_handOver (h : n ∈ s.raised) (c : TryContext) : n ∈ (s.handOver c).raised := by
  simpa [State.handOver] using State.mem_changeCell h _ _ _

theorem State.mem_nextTrigger (h : n ∈ s.raised) (c : TryContext) : n ∈ (s.nextTrigger c).raised := by
  unfold State.nextTrigger
  split
  · exact State.mem_endTry h _ _
  · simpa using h

theorem State.mem_acceptExposure (h : n ∈ s.raised) (c : TryContext) : n ∈ (s.acceptExposure c).raised := by
  unfold State.acceptExposure State.decideExtension
  dsimp only
  repeat' split
  · exact State.mem_handOver h _
  · exact State.mem_nextTrigger (by simpa using h) _
  · exact State.mem_nextTrigger (by simpa using h) _
  · exact State.mem_handOver h _

theorem State.mem_repeatRung (h : n ∈ s.raised) (c : TryContext) : n ∈ (s.repeatRung c).raised := by
  unfold State.repeatRung
  split
  · exact State.mem_endTry h _ _
  · exact State.mem_nextTrigger (by simpa using h) _

theorem State.mem_review (h : n ∈ s.raised) (c : TryContext) : n ∈ (s.review c).raised := by
  have hq : n ∈ (s.onCsq fun q => { q with state := .review, frameReported := false }).raised := by simpa using h
  unfold State.review
  dsimp only
  generalize (s.onCsq fun q => { q with state := .review, frameReported := false }) = x at hq
  repeat' split
  · exact hq
  · exact State.mem_acceptExposure hq c
  · exact State.mem_repeatRung hq c
  · exact State.mem_endTry hq c _

theorem State.mem_pollMerged (h : n ∈ s.raised) : n ∈ s.pollMerged.raised := by
  unfold State.pollMerged
  repeat' split
  · exact h
  · exact State.mem_review h _
  · exact h

theorem State.mem_pollPaused (h : n ∈ s.raised) : n ∈ s.pollPaused.raised := by
  unfold State.pollPaused
  repeat' split
  case h_2 => exact State.mem_sendMove h _ _
  all_goals simpa using h

theorem State.mem_pollIdle (h : n ∈ s.raised) : n ∈ s.pollIdle.raised := by
  unfold State.pollIdle
  repeat' split
  all_goals simpa using h

theorem State.mem_pollSlot (h : n ∈ s.raised) : n ∈ s.pollSlot.raised := by
  unfold State.pollSlot
  repeat' split
  · simpa using h
  · simpa using h
  · simpa using h
  · exact State.mem_claim h _ _ _
  all_goals exact h

theorem State.mem_pollLamp (h : n ∈ s.raised) : n ∈ s.pollLamp.raised := by
  unfold State.pollLamp
  repeat' split
  · exact h
  · simpa using h
  · exact State.mem_lampSwitchOn h
  all_goals simpa using h

theorem State.mem_pollHold (h : n ∈ s.raised) : n ∈ s.pollHold.raised := by
  unfold State.pollHold
  repeat' split
  all_goals simpa using h

theorem State.mem_pollCsq (h : n ∈ s.raised) : n ∈ s.pollCsq.raised :=
  State.mem_pollLamp (State.mem_pollSlot (State.mem_pollIdle (State.mem_pollPaused (State.mem_pollMerged h))))

theorem State.mem_startStream (h : n ∈ s.raised) (c : CellRef) : n ∈ (s.startStream c).raised := by
  unfold State.startStream
  repeat' split
  · exact h
  · exact State.mem_changeCell (by simpa using h) _ _ _
  · exact h

theorem State.mem_autoStream (h : n ∈ s.raised) : n ∈ s.autoStream.raised := by
  unfold State.autoStream
  repeat' split
  · exact State.mem_startStream h _
  · exact h
  · exact h

theorem State.mem_pollDelivery (h : n ∈ s.raised) : n ∈ s.pollDelivery.raised := by
  simpa [State.pollDelivery] using State.mem_autoStream h

theorem State.mem_pollAll (h : n ∈ s.raised) : n ∈ s.pollAll.raised := by
  simpa [State.pollAll] using State.mem_pollDelivery (State.mem_pollCsq (State.mem_pollCal (by simpa using h)))

theorem State.mem_dropLink (h : n ∈ s.raised) : n ∈ s.dropLink.raised :=
  State.mem_failCalibration (State.mem_leaveCapture (by simpa using h)) _

end

end Sys2Proof.Machine
end

section
/-! PROOFS. The store comes up (R137, R148, R150), seconds and lamp-on minutes are counted (R132, R133, R99), and a
DROPPED link counts IDLEs (R116, R117, R119). -/

namespace Sys2Proof.Machine
-- One proof at a time: under the memory limit of the check there is no room for the stacks of many threads.
set_option Elab.async false

/-! ## The store -/

section

variable {s : State}

/-- A store that becomes READY tells it, and what waits for it starts. -/
theorem State.storeReady_announced (cause : StoreCause) :
    s.announced ((s.storeReady cause).announce s.plates) (.store .ready s.fsc.state cause none none) := by
  refine State.announced_announce (by simp) _ ?_
  have hraised : (Notice.store .ready s.fsc.state cause none none)
      ∈ ((s.onFsc fun f => { f with state := .ready }).raise (.store .ready s.fsc.state cause none none)).raised := by
    simp
  have hpolled := State.mem_pollDelivery (State.mem_pollSlot (State.mem_pollIdle hraised))
  simpa [State.storeReady] using hpolled

theorem State.storeReady_ready (cause : StoreCause) : (s.storeReady cause).fsc.state = .ready := by
  simp [State.storeReady]

theorem State.tablesKept_storeReady (cause : StoreCause) (base : List PlateRecord) :
    s.tablesKept ((s.storeReady cause).announce base) := by
  simp [State.tablesKept, State.storeReady]

/-- A failed bring-up or relock changes the store's state and reason, and tells it. -/
theorem State.storeFault_flush (reason : FaultReason) :
    s.portsNoticed (s.storeFault reason).flush
      ∧ (s.quiet → s.offered (s.storeFault reason).flush [.store .fault s.fsc.state (.fault reason) none none])
      ∧ (s.storeFault reason).flush
          = { s with raised := [], ports := (s.storeFault reason).flush.ports,
                     fsc := { s.fsc with state := .fault, reason := some reason } } := by
  refine ⟨State.portsNoticed_flush rfl, fun hq => ?_, rfl⟩
  have h := State.offered_flush (s := s) (x := s.storeFault reason) rfl
  have hraised : (s.storeFault reason).raised = [.store .fault s.fsc.state (.fault reason) none none] := by
    simp [State.storeFault, hq]
  rwa [hraised, otherNotices_singleton] at h

theorem State.exec_bringUpPass {n : Nat} (h : s.fsc.state = .training) :
    exec (.bringUpPass n) s
      = if Config.storeBytes ≤ n then .next ((s.storeReady .bringUp).announce s.plates)
        else .next (s.storeFault .size).flush := by
  change execBringUpPass n s = _
  unfold execBringUpPass
  rw [h]

end

/-- Settles O4: each result of bring-up and relock, by the store state that it finds. -/
theorem storeComesUp : Obligations.StoreComesUp := by
  intro s
  have ready (cause : StoreCause) {old : StoreState} (h : s.fsc.state = old) :
      let t := (s.storeReady cause).announce s.plates
      t.fsc.state = .ready ∧ s.tablesKept t ∧ s.portsNoticed t
        ∧ (s.quiet → s.announced t (.store .ready old cause none none)) :=
    ⟨State.storeReady_ready cause, State.tablesKept_storeReady cause _, State.portsNoticed_announce (by simp) _,
      fun _ => h ▸ State.storeReady_announced cause⟩
  refine ⟨fun h => ?_, fun n h hn => ?_, fun n h hn => ?_, fun h => ?_, fun h => ?_, fun h => ?_⟩
  · change execColdResetEnd s = _
    unfold execColdResetEnd
    rw [h]
    rfl
  · exact ⟨_, (State.exec_bringUpPass h).trans (if_pos hn), ready _ h⟩
  · exact ⟨_, (State.exec_bringUpPass h).trans (if_neg (Nat.not_le.mpr hn)), h ▸ State.storeFault_flush .size⟩
  · refine ⟨(s.storeFault .training).flush, ?_, h ▸ State.storeFault_flush .training⟩
    change execBringUpFail s = _
    unfold execBringUpFail
    rw [h]
  · refine ⟨(s.storeReady .relock).announce s.plates, ?_, ready _ h⟩
    change execRelockPass s = _
    unfold execRelockPass
    rw [h]
  · refine ⟨(s.storeFault .relock).flush, ?_, h ▸ State.storeFault_flush .relock⟩
    change execRelockFail s = _
    unfold execRelockFail
    rw [h]

/-! ## Seconds and minutes -/

section

variable {s : State}

theorem State.exec_secondTick : exec .secondTick s
    = if s.minuteDue then .next s.minuteEvent
      else .next (s.onTbu fun t =>
        { t with clock := t.clock + 1, lampSeconds := if s.ltc.lamp.lit then t.lampSeconds + 1 else t.lampSeconds }) := rfl

theorem State.exec_lampOnMinute : exec .lampOnMinute s = if s.minuteDue then .next s.minuteEvent else .next s := rfl

/-- A calibration that ages: one in VALID or STALE, below the counter's end. -/
def CalRecord.ages (r : CalRecord) : Bool := (r.state == .valid || r.state == .stale) && r.age < 65535

/-- A VALID calibration whose age reaches its life. -/
abbrev CalRecord.expires (r : CalRecord) : Prop := r.ages = true ∧ r.state = .valid ∧ r.life ≤ r.age + 1

theorem CalRecord.ages_iff (r : CalRecord) :
    ((r.state = .valid ∨ r.state = .stale) ∧ r.age < 65535) ↔ r.ages = true := by
  simp [CalRecord.ages]

/-- The minute's own effect: the age, and STALE with its notice where the life is reached (R99, R103). -/
theorem State.ageCalibration_eq (x : State) :
    x.ageCalibration
      = { x with
          raised := x.raised ++ if x.cal.record.expires then [.calib .stale none .none none none] else []
          cal := { x.cal with record := { x.cal.record with
            age := if x.cal.record.ages then x.cal.record.age + 1 else x.cal.record.age
            state := if x.cal.record.expires then .stale else x.cal.record.state } } } := by
  unfold State.ageCalibration
  dsimp only
  simp only [CalRecord.ages_iff]
  by_cases h : x.cal.record.ages = true
  · by_cases he : x.cal.record.state = .valid ∧ x.cal.record.life ≤ x.cal.record.age + 1
    · have hx : x.cal.record.expires := ⟨h, he⟩
      rw [if_pos h, if_pos he, if_pos hx, if_pos hx, if_pos h]
      rfl
    · have hx : ¬ x.cal.record.expires := fun hx => he hx.2
      rw [if_pos h, if_neg he, if_neg hx, if_neg hx, if_pos h, List.append_nil]
      rfl
  · have hx : ¬ x.cal.record.expires := fun hx => h hx.1
    rw [if_neg h, if_neg hx, if_neg hx, if_neg h, List.append_nil]

/-- The sixtieth lamp-on second: the clock and the counters move, and the calibration ages (R133, R99). -/
theorem State.minuteEvent_flush :
    s.portsNoticed s.minuteEvent
      ∧ (s.quiet → s.offered s.minuteEvent
          (if s.cal.record.expires then [.calib .stale none .none none none] else []))
      ∧ s.minuteEvent = { s with
          raised := []
          ports := s.minuteEvent.ports
          tbu := { s.tbu with clock := s.tbu.clock + 1, lampSeconds := 0, lampMinutes := s.tbu.lampMinutes + 1 }
          cal := { s.cal with record := { s.cal.record with
            age := if s.cal.record.ages then s.cal.record.age + 1 else s.cal.record.age
            state := if s.cal.record.expires then .stale else s.cal.record.state } } } := by
  have hminute : s.minuteEvent
      = ((s.onTbu fun t => { t with clock := t.clock + 1, lampSeconds := 0, lampMinutes := t.lampMinutes + 1 }
          ).ageCalibration).flush := rfl
  rw [State.ageCalibration_eq] at hminute
  rw [hminute]
  refine ⟨State.portsNoticed_flush rfl, fun hq => ?_, rfl⟩
  have notices (b : Prop) [Decidable b] (n : Notice) :
      otherNotices (s.raised ++ if b then [n] else []) = if b then [n] else [] := by
    rw [hq, List.nil_append]
    split
    · exact otherNotices_singleton n
    · exact otherNotices_nil
  exact State.offered_flush_of rfl (notices _ _)

end

/-- Settles O16: the lamp's light and the seconds counted decide which of the two events a second is. -/
theorem secondsAndMinutesCount : Obligations.SecondsAndMinutesCount := by
  intro s
  have hlit : s.ltc.lamp.lit = true ↔ s.ltc.lamp = .warming ∨ s.ltc.lamp = .steady ∨ s.ltc.lamp = .drifting :=
    LampState.lit_eq_true _
  refine ⟨fun h => ?_, fun h hn => ?_, fun h hn => ?_⟩
  · have hdark : s.ltc.lamp.lit = false := Bool.eq_false_iff.mpr (mt hlit.mp h)
    rw [State.exec_secondTick, if_neg (by simp [State.minuteDue, hdark]), hdark]
    rfl
  · have hl := hlit.mpr h
    rw [State.exec_secondTick, if_neg (by simp [State.minuteDue, hn]), hl]
    rfl
  · have hdue : s.minuteDue = true := by simp [State.minuteDue, hlit.mpr h, hn]
    exact ⟨⟨_, (State.exec_secondTick).trans (if_pos hdue), State.minuteEvent_flush⟩,
      ⟨_, (State.exec_lampOnMinute).trans (if_pos hdue), State.minuteEvent_flush⟩⟩

/-! ## A DROPPED link -/

section

variable {s : State}

/-- What ends an IDLE's event moves rows of the queue at most, of all that the receiver holds. -/
theorem State.arbitrate_idleRun (x : State) : x.arbitrate.plr.idleRun = x.plr.idleRun := by
  rw [State.arbitrate_plr]

/-- The state that an IDLE's event ends in. -/
def State.idleEnded (s x : State) : State := (x.pollIdle.pollSlot.arbitrate).announce s.plates

theorem State.idleEnded_plr (x : State) :
    (s.idleEnded x).plr.idleRun = x.plr.idleRun ∧ (s.idleEnded x).plr.link = x.plr.link
      ∧ (s.idleEnded x).plr.faultCount = x.plr.faultCount ∧ (s.idleEnded x).plr.tagCounter = x.plr.tagCounter := by
  simp [State.idleEnded, State.arbitrate_idleRun]

theorem State.tablesKept_idleEnded {x : State} (h : s.tablesKept x) : s.tablesKept (s.idleEnded x) := by
  simpa [State.tablesKept, State.idleEnded] using h

theorem State.tablesKept_onPlr (f : Plr → Plr) : s.tablesKept (s.onPlr f) :=
  ⟨rfl, rfl, rfl, rfl, rfl, rfl, rfl, fun _ => rfl⟩

theorem State.portsNoticed_idleEnded {x : State} (hp : x.ports = s.ports) : s.portsNoticed (s.idleEnded x) :=
  State.portsNoticed_announce (by simpa using hp) _

theorem State.exec_uplinkIdle_dropped (h : s.plr.link = .dropped) (check : BitVec 16) :
    exec (.uplinkIdle check) s = .next (s.idleEnded (s.idleWhileDropped (idleGood check))) := by
  change execUplinkIdle check s = _
  unfold execUplinkIdle
  rw [if_pos h]
  rfl

/-- Every unit but an IDLE ends the run of IDLEs of a DROPPED link, and changes nothing else (R116). -/
theorem State.exec_unit_dropped (h : s.plr.link = .dropped) {i : Instr}
    (hi : (∃ tag c, i = .frameStart tag c) ∨ (∃ x b c, i = .uplinkRow x b c) ∨ (∃ n c, i = .frameEnd n c)
      ∨ ∃ b, i = .unknownUnit b) : exec i s = .next s.breakIdleRun := by
  rcases hi with ⟨tag, c, rfl⟩ | ⟨x, b, c, rfl⟩ | ⟨n, c, rfl⟩ | ⟨b, rfl⟩
  · exact if_pos h
  · exact if_pos h
  · exact if_pos h
  · exact if_pos h

end

/-- Settles O25: an IDLE counts, is the last of the run, or ends it; another unit ends it. -/
theorem droppedLinkCountsIdles : Obligations.DroppedLinkCountsIdles := by
  intro s h
  refine ⟨fun check hc hn => ?_, fun check hc hn => ?_, fun check hc => ?_, fun i hi => State.exec_unit_dropped h hi⟩
  · have hgood : idleGood check = true := by simpa [idleGood] using hc
    have hidle : s.idleWhileDropped (idleGood check) = s.onPlr fun p => { p with idleRun := p.idleRun + 1 } := by
      rw [hgood]
      exact (if_pos rfl).trans (if_neg (Nat.not_le.mpr hn))
    rw [State.exec_uplinkIdle_dropped h, hidle]
    obtain ⟨hrun, hlink, hcount, -⟩ := State.idleEnded_plr (s := s) (s.onPlr fun p => { p with idleRun := p.idleRun + 1 })
    exact ⟨_, rfl, hrun, hlink.trans h, hcount, State.tablesKept_idleEnded (State.tablesKept_onPlr _), State.portsNoticed_idleEnded rfl⟩
  · have hgood : idleGood check = true := by simpa [idleGood] using hc
    have hidle : s.idleWhileDropped (idleGood check) = s.recoverLink := by
      rw [hgood]
      exact (if_pos rfl).trans (if_pos hn)
    rw [State.exec_uplinkIdle_dropped h, hidle]
    obtain ⟨hrun, hlink, hcount, htag⟩ := State.idleEnded_plr (s := s) s.recoverLink
    refine ⟨_, rfl, hrun, hlink, hcount, htag, State.tablesKept_idleEnded ⟨rfl, rfl, rfl, rfl, rfl, rfl, rfl, fun _ => rfl⟩,
      State.portsNoticed_idleEnded rfl, fun _ => ?_⟩
    refine State.announced_announce (by simp) _ ?_
    simpa using State.mem_pollSlot (State.mem_pollIdle (s := s.recoverLink) (by simp [State.recoverLink]))
  · have hbad : idleGood check = false := by simpa [idleGood] using hc
    have hidle : s.idleWhileDropped (idleGood check) = s.breakIdleRun := by
      rw [hbad]
      rfl
    rw [State.exec_uplinkIdle_dropped h, hidle]
    obtain ⟨hrun, hlink, hcount, -⟩ := State.idleEnded_plr (s := s) s.breakIdleRun
    exact ⟨_, rfl, hrun, hlink.trans h, hcount, State.tablesKept_idleEnded (State.tablesKept_onPlr _), State.portsNoticed_idleEnded rfl⟩

end Sys2Proof.Machine
end

section
/-! PROOFS. The station ports' own events: bad frames, frames that are no request, breaks, PACE and the ends of frames
sent (R166 to R168, R171 to R174). -/

namespace Sys2Proof.Machine
-- One proof at a time: under the memory limit of the check there is no room for the stacks of many threads.
set_option Elab.async false

/-- What an operation on a port does to the state is what it does to that port. -/
theorem State.onPort_congr {s : State} {k : PortNo} {f g : Port → Port} (h : f (s.ports.get k) = g (s.ports.get k)) :
    s.onPort k f = s.onPort k g := by
  unfold State.onPort
  rw [h]

theorem State.onPort_get_self (s : State) (k : PortNo) (f : Port → Port) :
    (s.onPort k f).ports.get k = f (s.ports.get k) := by
  simp

theorem State.onPort_get_ne (s : State) {k j : PortNo} (f : Port → Port) (h : j ≠ k) :
    (s.onPort k f).ports.get j = s.ports.get j := by
  simp [setAt_get_ne _ _ (Ne.symm h)]

/-! ## Bad frames and other frames -/

/-- The characters of one bad frame leave a framer in HUNT in HUNT, with that one result (R166). -/
theorem Framer.receive_badFrameCharacters {cs : List Character} (h : badFrameCharacters cs = true) :
    Framer.hunt.receive cs = (.hunt, [.bad]) := by
  obtain ⟨hbad, hrest⟩ : (Framer.hunt.receive cs).2 = [.bad] ∧ (Framer.hunt.receive cs.dropLast).2 = [] := by
    simpa [badFrameCharacters] using h
  cases cs using List.reverseRecOn with
  | nil => cases hbad
  | append_singleton front c =>
    rw [List.dropLast_concat] at hrest
    rw [Framer.receive_append, hrest, Framer.receive_cons] at hbad ⊢
    have hlast : ((Framer.hunt.receive front).1.take c).2 ≠ none := by
      intro hnone
      rw [hnone] at hbad
      cases hbad
    rw [Framer.take_ends_in_hunt _ _ hlast] at hbad ⊢
    exact Prod.ext rfl hbad

theorem State.exec_badFrame {s : State} (h : s.fsc.state ≠ .cold) (k : PortNo) (cs : List Character) :
    exec (.badFrame k cs) s = .next (s.onPort k fun p => p.receive cs) := by
  refine if_neg ?_
  simpa [State.portsHeld] using h

theorem State.exec_nonRequestFrame {s : State} (h : s.fsc.state ≠ .cold) (k : PortNo) (kind : Byte) (body : List Byte) :
    exec (.nonRequestFrame k kind body) s
      = .next (s.onPort k fun p => (p.frameTaken.refuse (echoTag body) (.raw kind) .field).pump) := by
  refine if_neg ?_
  simpa [State.portsHeld] using h

/-- Settles O27: the framer's results, the refusal of a frame that is no request, and the break, each on its port. -/
theorem badFramesAndBreaks : Obligations.BadFramesAndBreaks := by
  refine ⟨fun s k hcold => ⟨fun cs hcs hhunt => ?_, fun cs => ⟨_, State.exec_badFrame hcold k cs, ?_⟩,
    fun kind body => ?_⟩, fun s k => ?_⟩
  · rw [State.exec_badFrame hcold]
    refine congrArg _ (State.onPort_congr ?_)
    simp only [Port.receive, hhunt, Framer.receive_badFrameCharacters hcs]
    simp [← hhunt]
  · refine State.onPort_congr ?_
    simp [Port.receive]
  · refine ⟨_, State.exec_nonRequestFrame hcold k kind body, rfl, fun j hj => State.onPort_get_ne s _ hj, ?_⟩
    rw [State.onPort_get_self]
    generalize s.ports.get k = p
    obtain ⟨line, answers, notices, hpump⟩ := (p.frameTaken.refuse (echoTag body) (.raw kind) .field).pump_eq
    refine ⟨?_, ?_, fun hfew => ?_, fun hmany => ?_⟩
    · rw [hpump]
      exact Port.answerAside_outstanding _ _ _ _
    · rw [hpump]
      rcases p.frameTaken.answerAside_eq (echoTag body) (.raw kind) (Reply.plain .field) with ⟨-, h⟩ | ⟨-, h⟩ <;>
        exact congrArg Port.framer h
    · rcases p.frameTaken.answerAside_eq (echoTag body) (.raw kind) (Reply.plain .field) with ⟨hlen, -⟩ | ⟨-, h⟩
      · exact absurd hfew (Nat.not_lt.mpr hlen)
      · refine ⟨?_, Port.pump_holdsAnswer (.inr ?_)⟩
        · have hflag : (p.frameTaken.refuse (echoTag body) (.raw kind) .field).badFrame = p.badFrame := by
            rw [Port.refuse, h]
            rfl
          rw [hpump]
          exact hflag
        · rw [Port.refuse, h]
          refine List.mem_append_right _ (List.mem_singleton.mpr ?_)
          cases body <;> rfl
    · rcases p.frameTaken.answerAside_eq (echoTag body) (.raw kind) (Reply.plain .field) with ⟨-, h⟩ | ⟨hlen, -⟩
      · rw [hpump]
        exact congrArg Port.badFrame h
      · exact absurd hmany (Nat.not_le.mpr hlen)
  · refine ⟨_, rfl, rfl, fun j hj => State.onPort_get_ne s _ hj, ?_, fun a hline hown => ?_, fun hline => ?_⟩
    · rw [State.onPort_get_self]
      rfl
    · rw [State.onPort_get_self]
      simp [Port.broken, Port.stillOutstanding, hline, hown]
    · rw [State.onPort_get_self]
      cases h : (s.ports.get k).line with
      | answer a => simp [Port.broken, Port.stillOutstanding, h, hline a h]
      | _ => simp [Port.broken, Port.stillOutstanding, h]

/-! ## What a line sends next -/

/-- What a line that becomes free sends: the oldest answer; else the oldest notice, while PACE is not held and the gate
is OPEN; else nothing (R168, R172). -/
theorem Port.pump_answer {p : Port} {a : Answer} {rest : List Answer} (hl : p.line = .idle) (ha : p.answers = a :: rest) :
    p.pump = { p with line := .answer a, answers := rest } := by
  simp [Port.pump, hl, ha]

theorem Port.pump_notice {p : Port} {n : Byte × Notice} {rest : List (Byte × Notice)} (hl : p.line = .idle)
    (ha : p.answers = []) (hp : p.pace = false) (hg : p.gate = .opened) (hn : p.notices = n :: rest) :
    p.pump = { p with line := .notice n.1 n.2, notices := rest } := by
  simp [Port.pump, hl, ha, hp, hg, hn]

theorem Port.pump_nothing {p : Port} (hl : p.line = .idle) (ha : p.answers = [])
    (h : p.pace = true ∨ p.gate = .shut ∨ p.notices = []) : p.pump = p := by
  rcases h with h | h | h <;> simp [Port.pump, hl, ha, h]

theorem Port.pump_busy {p : Port} (hl : p.line ≠ .idle) : p.pump = p := by
  unfold Port.pump
  split
  · rename_i h
    exact absurd h hl
  · rfl

theorem NoticeFilter.passes_iff (f : NoticeFilter) (n : Notice) :
    f.passes n = true ↔ n.kind ∈ f.kinds ∧ ∀ key, n.plateKey? = some key → (key ^^^ f.keyCode) &&& f.keyMask = 0 := by
  unfold NoticeFilter.passes
  cases h : n.plateKey? <;> simp

theorem Port.restartOrdered_iff (p : Port) (a : Answer) :
    p.restartOrdered a = true
      ↔ a.forOutstanding = true ∧ p.outstanding ≠ none ∧ a.kind = .request .warmRestart ∧ a.code = .done := by
  simp [Port.restartOrdered, and_assoc, Option.isSome_iff_ne_none]

section

variable {s : State} {k : PortNo}

theorem State.exec_noticeSent {n : Byte} {x : Notice} (h : (s.ports.get k).line = .notice n x) :
    exec (.noticeSent k) s = .next (s.onPort k fun p => Port.pump { p with line := .idle }) := by
  change execNoticeSent k s = _
  unfold execNoticeSent
  rw [h]

theorem State.exec_answerSent {a : Answer} (h : (s.ports.get k).line = .answer a) :
    exec (.answerSent k) s
      = if (s.ports.get k).restartOrdered a then .next (s.onPort k fun p => p.answered a).resume
        else .next (s.onPort k fun p => (p.answered a).pump) := by
  change execAnswerSent k s = _
  unfold execAnswerSent
  rw [h]

end

/-- Settles O28: what an offer does, by filter, gate and room, and what each end of a frame sends next. -/
theorem linesSendAnswersThenNotices : Obligations.LinesSendAnswersThenNotices := by
  refine ⟨fun p n => ?_, fun s k => ?_⟩
  · have hpasses := NoticeFilter.passes_iff p.filter n
    refine ⟨fun h => ?_, fun hp hg hl => Port.offer_queued (hpasses.mpr hp) hg hl,
      fun hp hg hl => Port.offer_dropped (hpasses.mpr hp) hg hl⟩
    exact Port.offer_discarded (h.imp_left fun hp => Bool.eq_false_iff.mpr (mt hpasses.mp hp))
  · have next {f g : Port → Port} (h : f (s.ports.get k) = g (s.ports.get k)) :
        (.next (s.onPort k f) : Result) = .next (s.onPort k g) := congrArg _ (State.onPort_congr h)
    have sent {a : Answer} (hl : (s.ports.get k).line = .answer a)
        (hr : ¬ (a.forOutstanding = true ∧ (s.ports.get k).outstanding ≠ none ∧ a.kind = .request .warmRestart
          ∧ a.code = .done)) :
        exec (.answerSent k) s = .next (s.onPort k fun p => (p.answered a).pump) :=
      (State.exec_answerSent hl).trans (if_neg (mt (Port.restartOrdered_iff _ a).mp hr))
    refine ⟨rfl, fun n rest hl ha hg hn => ?_, fun h => ?_, fun n x a rest hl ha => ?_,
      fun n x m rest hl ha hp hg hn => ?_, fun n x hl ha h => ?_, fun a b rest hl hr ha => ?_,
      fun a m rest hl hr ha hp hg hn => ?_, fun a hl hr ha h => ?_, fun a hl hr => ?_⟩
    · exact next (Port.pump_notice (p := { s.ports.get k with pace := false }) hl ha rfl hg hn)
    · refine next (f := fun p => Port.pump { p with pace := false }) ?_
      by_cases hl : (s.ports.get k).line = .idle
      · obtain ⟨ha, h⟩ := h.resolve_left fun hne => hne hl
        exact Port.pump_nothing hl ha (.inr h)
      · exact Port.pump_busy hl
    · rw [State.exec_noticeSent hl]
      exact next (Port.pump_answer (p := { s.ports.get k with line := .idle }) rfl ha)
    · rw [State.exec_noticeSent hl]
      exact next (Port.pump_notice (p := { s.ports.get k with line := .idle }) rfl ha hp hg hn)
    · rw [State.exec_noticeSent hl]
      exact next (Port.pump_nothing (p := { s.ports.get k with line := .idle }) rfl ha h)
    · rw [sent hl hr]
      exact next (Port.pump_answer (p := (s.ports.get k).answered a) rfl ha)
    · rw [sent hl hr]
      exact next (Port.pump_notice (p := (s.ports.get k).answered a) rfl ha hp hg hn)
    · rw [sent hl hr]
      exact next (Port.pump_nothing (p := (s.ports.get k).answered a) rfl ha h)
    · have h := (State.exec_answerSent hl).trans (if_pos ((Port.restartOrdered_iff _ a).mpr hr))
      exact ⟨⟨_, h⟩, h⟩

end Sys2Proof.Machine
end

section
/-! SUPPORT. The register as a table of records: what a record's key finds after each change, and the notices that the
register gives of each change (R4). -/

namespace Sys2Proof.Machine
-- One proof at a time: under the memory limit of the check there is no room for the stacks of many threads.
set_option Elab.async false

/-! ## What a key finds -/

section

variable {s : State} {key other : PlateKey} {r : PlateRecord}

theorem State.mem_of_plate? (h : s.plate? key = some r) : r ∈ s.plates := List.mem_of_find?_eq_some h

theorem State.plate?_of_mem (hn : (s.plates.map (·.key)).Nodup) (hr : r ∈ s.plates) : s.plate? r.key = some r :=
  baseOf_self hn hr

/-- A record is changed where it stands. -/
theorem State.plate?_onPlate (s : State) (key : PlateKey) {f : PlateRecord → PlateRecord} (hf : ∀ x, (f x).key = x.key)
    (other : PlateKey) :
    (s.onPlate key f).plate? other = (s.plate? other).map fun x => if other = key then f x else x := by
  unfold State.plate? State.onPlate State.onPlates
  dsimp only
  rw [List.find?_map]
  have hcomp : ((fun r : PlateRecord => r.key == other) ∘ fun r => if r.key = key then f r else r)
      = fun r => r.key == other := by
    funext x
    simp only [Function.comp]
    split <;> simp [hf]
  rw [hcomp]
  cases hx : s.plates.find? fun r => r.key == other with
  | none => rfl
  | some x =>
    have hkey : x.key = other := by simpa using List.find?_some hx
    simp [hkey]

theorem State.plate?_onPlate_self (s : State) {f : PlateRecord → PlateRecord} (hf : ∀ x, (f x).key = x.key)
    (hr : s.plate? key = some r) : (s.onPlate key f).plate? key = some (f r) := by
  rw [State.plate?_onPlate s key hf, hr]
  simp

theorem State.plate?_onPlate_ne (s : State) {f : PlateRecord → PlateRecord} (hf : ∀ x, (f x).key = x.key)
    (h : other ≠ key) : (s.onPlate key f).plate? other = s.plate? other := by
  rw [State.plate?_onPlate s key hf]
  simp [h]

theorem State.plate?_removePlate_self (s : State) (key : PlateKey) : (s.removePlate key).plate? key = none := by
  unfold State.plate? State.removePlate State.onPlates
  simp

theorem State.plate?_removePlate_ne (s : State) (h : other ≠ key) : (s.removePlate key).plate? other = s.plate? other := by
  unfold State.plate? State.removePlate State.onPlates
  dsimp only
  rw [List.find?_filter]
  congr 1
  funext x
  by_cases hx : x.key = other
  · simp [hx, h]
  · simp [hx]

end

/-! ## The register's notices (R4) -/

section

variable {base : List PlateRecord} {r : PlateRecord} {key : PlateKey}

/-- A record that stands as it was gives no notice. -/
theorem recordNotices_same (h : baseOf base r.key = some r) : cellNotices base r = [] ∧ plateNotices base r = [] := by
  refine ⟨?_, by simp [plateNotices, h]⟩
  simp only [cellNotices, h]
  split
  · rfl
  · refine List.filterMap_eq_nil_iff.mpr fun p _ => ?_
    cases r.cell? p.1 p.2 <;> simp [CellRecord.changed]

/-- What a record's own notice shows, where the state stands: a change of the seat or of the hold reasons. -/
theorem plateNotices_of_state {old : PlateRecord} (h : baseOf base r.key = some old) (hs : old.state = r.state) :
    plateNotices base r
      = if old.seated ≠ r.seated ∨ old.holds ≠ r.holds then
          r.notice r.state false :: (if r.state = .captured ∧ old.seated = false then unloadNotice r else [])
        else [] := by
  simp only [plateNotices, h]
  rw [if_pos hs]

theorem plateNotices_of_unshown {old : PlateRecord} (h : baseOf base r.key = some old) (hs : old.state = r.state)
    (hseat : old.seated = r.seated) (hholds : old.holds = r.holds) : plateNotices base r = [] := by
  rw [plateNotices_of_state h hs]
  simp [hseat, hholds]

theorem plateNotices_new (h : baseOf base r.key = none) : plateNotices base r = [r.notice r.state false] := by
  simp [plateNotices, h]

theorem cellNotices_new (h : baseOf base r.key = none) : cellNotices base r = [] := by
  simp [cellNotices, h]

theorem flatMap_cellNotices_same {now : List PlateRecord} (h : ∀ r ∈ now, baseOf base r.key = some r) :
    now.flatMap (cellNotices base) = [] := List.flatMap_eq_nil_iff.mpr fun r hr => (recordNotices_same (h r hr)).1

theorem flatMap_plateNotices_same {now : List PlateRecord} (h : ∀ r ∈ now, baseOf base r.key = some r) :
    now.flatMap (plateNotices base) = [] := List.flatMap_eq_nil_iff.mpr fun r hr => (recordNotices_same (h r hr)).2

theorem removalNotices_of_keys {now : List PlateRecord} (h : ∀ r ∈ base, ∃ x ∈ now, x.key = r.key) :
    removalNotices base now = [] := by
  unfold removalNotices
  rw [List.map_eq_nil_iff, List.filter_eq_nil_iff]
  intro r hr
  obtain ⟨x, hx, hk⟩ := h r hr
  simp only [Bool.not_eq_true, Bool.not_eq_false']
  exact List.any_eq_true.mpr ⟨x, hx, by simp [hk]⟩

/-- A record added to the register gives its notice alone. -/
theorem registerNotices_append (hn : (base.map (·.key)).Nodup) (hr : baseOf base r.key = none) :
    registerNotices base (base ++ [r]) = [r.notice r.state false] := by
  have hsame : ∀ x ∈ base, baseOf base x.key = some x := fun x hx => baseOf_self hn hx
  unfold registerNotices
  rw [List.flatMap_append, List.flatMap_append, flatMap_cellNotices_same hsame, flatMap_plateNotices_same hsame,
    removalNotices_of_keys fun x hx => ⟨x, List.mem_append_left _ hx, rfl⟩]
  simp [cellNotices_new hr, plateNotices_new hr]

theorem filter_key_of_nodup (hn : (base.map (·.key)).Nodup) (hr : baseOf base key = some r) :
    base.filter (fun x => x.key == key) = [r] := by
  have hkey : r.key = key := by simpa using List.find?_some hr
  have hlen : (base.filter fun x => x.key == key).length ≤ 1 := by
    rw [← List.countP_eq_length_filter]
    have hcount : base.countP (fun x => x.key == key) = (base.map (·.key)).count key := by
      rw [List.count, List.countP_map]
      rfl
    rw [hcount]
    exact List.nodup_iff_count_le_one.mp hn key
  have hmem : r ∈ base.filter fun x => x.key == key :=
    List.mem_filter.mpr ⟨List.mem_of_find?_eq_some hr, by simp [hkey]⟩
  cases hl : base.filter fun x => x.key == key with
  | nil => rw [hl] at hmem; cases hmem
  | cons x xs =>
    rw [hl] at hmem hlen
    obtain rfl : xs = [] := List.eq_nil_of_length_eq_zero (by simp at hlen; simpa using hlen)
    rw [List.mem_singleton.mp hmem]

/-- A record removed from the register gives its notice with the removed mark. -/
theorem registerNotices_filter (hn : (base.map (·.key)).Nodup) (hr : baseOf base key = some r) :
    registerNotices base (base.filter fun x => x.key != key) = [r.notice r.state true] := by
  have hsame : ∀ x ∈ base.filter fun x => x.key != key, baseOf base x.key = some x :=
    fun x hx => baseOf_self hn (List.mem_filter.mp hx).1
  have hremoved : (base.filter fun r => !(base.filter fun x => x.key != key).any fun x => x.key == r.key)
      = base.filter fun x => x.key == key := by
    refine List.filter_congr fun x hx => ?_
    by_cases hk : x.key = key
    · simp only [hk, beq_self_eq_true, Bool.not_eq_true']
      rw [List.any_eq_false]
      intro y hy
      have hne := (List.mem_filter.mp hy).2
      simpa using hne
    · have hany : ((base.filter fun x => x.key != key).any fun y => y.key == x.key) = true :=
        List.any_eq_true.mpr ⟨x, List.mem_filter.mpr ⟨hx, by simpa using hk⟩, by simp⟩
      simp [hany, hk]
  unfold registerNotices removalNotices
  rw [flatMap_cellNotices_same hsame, flatMap_plateNotices_same hsame, hremoved, filter_key_of_nodup hn hr]
  rfl

theorem flatMap_changed {α : Type} {g : PlateRecord → List α} {f : PlateRecord → PlateRecord}
    (hn : (base.map (·.key)).Nodup) (hr : baseOf base key = some r)
    (hsame : ∀ x ∈ base, x.key ≠ key → g x = []) :
    (base.map fun x => if x.key = key then f x else x).flatMap g = g (f r) := by
  induction base with
  | nil => cases hr
  | cons x xs ih =>
    obtain ⟨hx, hxs⟩ := List.nodup_cons.mp hn
    rw [List.map_cons, List.flatMap_cons]
    by_cases hk : x.key = key
    · obtain rfl : x = r := by simpa [baseOf, hk] using hr
      have hrest : (xs.map fun y => if y.key = key then f y else y).flatMap g = [] := by
        refine List.flatMap_eq_nil_iff.mpr fun y hy => ?_
        obtain ⟨z, hz, rfl⟩ := List.mem_map.mp hy
        have hne : z.key ≠ key := fun e => hx (List.mem_map.mpr ⟨z, hz, e.trans hk.symm⟩)
        rw [if_neg hne]
        exact hsame z (List.mem_cons_of_mem _ hz) hne
      rw [if_pos hk, hrest, List.append_nil]
    · rw [if_neg hk, hsame x List.mem_cons_self hk, List.nil_append]
      exact ih hxs (by simpa [baseOf, hk] using hr) fun y hy => hsame y (List.mem_cons_of_mem _ hy)

/-- A record changed where it stands gives the notices of its cells and its own. -/
theorem registerNotices_changed {f : PlateRecord → PlateRecord} (hf : ∀ x, (f x).key = x.key)
    (hn : (base.map (·.key)).Nodup) (hr : baseOf base key = some r) :
    registerNotices base (base.map fun x => if x.key = key then f x else x)
      = cellNotices base (f r) ++ plateNotices base (f r) := by
  have hsame (x : PlateRecord) (hx : x ∈ base) := recordNotices_same (baseOf_self hn hx)
  have hkeys : ∀ x ∈ base, ∃ y ∈ base.map fun x => if x.key = key then f x else x, y.key = x.key := fun x hx => by
    refine ⟨_, List.mem_map.mpr ⟨x, hx, rfl⟩, ?_⟩
    split
    · exact hf x
    · rfl
  unfold registerNotices
  rw [flatMap_changed hn hr fun x hx _ => (hsame x hx).1, flatMap_changed hn hr fun x hx _ => (hsame x hx).2,
    removalNotices_of_keys hkeys, List.append_nil]

/-- Cells that stand as they were give no notice. -/
theorem cellNotices_of_cells {old : PlateRecord} (h : baseOf base r.key = some old) (hc : r.cells = old.cells) :
    cellNotices base r = [] := by
  have hcell (i j : Nat) : r.cell? i j = old.cell? i j := by simp [PlateRecord.cell?, hc]
  simp only [cellNotices, h]
  split
  · rfl
  · refine List.filterMap_eq_nil_iff.mpr fun p _ => ?_
    rw [hcell]
    cases old.cell? p.1 p.2 <;> simp [CellRecord.changed]

end

/-! ## Requests that change the register -/

/-- A request that is taken, by a block of the register that leaves the ports alone: what its block leaves, and what
the ports are offered. -/
theorem State.exec_of_serve {s t : State} {i : Instr} {q : Src} {kind : RequestKind}
    {handle : State → State × Reply} {r : Reply} (hs : s.takes q kind) (he : exec i s = s.serve q kind handle)
    (h : handle (s.taken q kind) = (t, r)) (hp : t.ports = (s.taken q kind).ports) :
    ∃ u, exec i s = .next u ∧ s.served u q kind r ∧ u = { t with raised := [], ports := u.ports }
      ∧ s.offered u (registerNotices s.plates t.plates ++ otherNotices t.raised) := by
  have hplates : (s.request q kind handle).plates = t.plates := by
    rw [State.request_of_takes hs, State.hand_eq h]
    rfl
  obtain ⟨hserved, heq⟩ := State.served_of_takes (registerNotices s.plates t.plates) hs h hp
  refine ⟨(s.request q kind handle).announce s.plates, he, ?_, ?_, ?_⟩
  · rw [State.announce, hplates]
    exact hserved
  · rw [State.announce, hplates]
    exact heq
  · rw [State.announce, hplates]
    exact State.offered_of_takes _ hs h hp

end Sys2Proof.Machine
end

section
/-! PROOFS. ENROL, RETIRE, MARK and SET_FIELD (R3, R4, R6, R13, R16, R31): when each is refused, what each changes, and
the notices that it gives. -/

namespace Sys2Proof.Machine
-- One proof at a time: under the memory limit of the check there is no room for the stacks of many threads.
set_option Elab.async false

/-! ## ENROL -/

theorem mem_gridCells {columns rows i j : Nat} : (i, j) ∈ gridCells columns rows ↔ i < columns ∧ j < rows := by
  simp [gridCells, and_comm]

theorem gridCells_length (columns rows : Nat) : (gridCells columns rows).length = columns * rows := by
  simp [gridCells, List.length_flatMap, Nat.mul_comm]

/-- Each place of a new record's grid holds a fresh cell. -/
theorem PlateRecord.cell?_enrolled (key : PlateKey) (p : ProfileNo) (h : Handling) (e : Emulsion) {c r : Nat}
    (now : Seconds) {i j : Nat} (hi : i < c) (hj : j < r) :
    (PlateRecord.enrolled key p h e c r now).cell? i j = some (CellRecord.fresh i j) := by
  unfold PlateRecord.cell? PlateRecord.enrolled
  dsimp only
  rw [List.find?_map]
  cases hx : (gridCells c r).find? ((fun x : CellRecord => x.column == i && x.row == j) ∘ fun p => CellRecord.fresh p.1 p.2) with
  | none =>
    have hno := List.find?_eq_none.mp hx (i, j) (mem_gridCells.mpr ⟨hi, hj⟩)
    simp [CellRecord.fresh] at hno
  | some x =>
    obtain ⟨h1, h2⟩ : x.1 = i ∧ x.2 = j := by simpa [CellRecord.fresh] using List.find?_some hx
    simp [h1, h2]

theorem enrolRecord?_eq_some (key : PlateKey) (p : ProfileNo) (h : Handling) (e : Emulsion) {c r : Nat}
    (hc : within 1 6 c) (hr : within 1 6 r) (now : Seconds) :
    enrolRecord? (some key) (some p.val) (.given h) (.given e) (some c) (some r) now
      = some (PlateRecord.enrolled key p h e c r now) := by
  have hgrid {n : Nat} (hn : within 1 6 n) : gridSize? n = some n := if_pos hn
  simp [enrolRecord?, profileNo?_val, hgrid hc, hgrid hr]

section

variable {s : State} {x : PlateRecord}

theorem State.handleEnrol_of_used (h : s.plate? x.key ≠ none) :
    s.handleEnrol (some x) = (s, Reply.plain .duplicate) := if_pos (Option.isSome_iff_ne_none.mpr h)

theorem State.handleEnrol_of_full (h : s.plate? x.key = none) (hl : 24 ≤ s.plates.length) :
    s.handleEnrol (some x) = (s, Reply.plain .full) :=
  (if_neg (by simp [h])).trans (if_pos hl)

theorem State.handleEnrol_of_free (h : s.plate? x.key = none) (hl : s.plates.length < 24) :
    s.handleEnrol (some x) = (s.onPlates fun ps => ps ++ [x], Reply.done false) :=
  (if_neg (by simp [h])).trans (if_neg (Nat.not_le.mpr hl))

end

/-- Settles O29: a free key in a register with room gives the record, and else nothing changes. -/
theorem enrolAddsRecord : Obligations.EnrolAddsRecord := by
  intro s q key p h e c r hs hc hr i
  have hrecord := enrolRecord?_eq_some key p h e hc hr s.tbu.clock
  have hx : exec i s = s.serve q .enrol fun x => x.handleEnrol (some (PlateRecord.enrolled key p h e c r s.tbu.clock)) := by
    rw [← hrecord]
    rfl
  refine ⟨fun hfree hl => ?_, fun hused => State.answeredOnly_of_serve hs hx (State.handleEnrol_of_used hused),
    fun hfree hl => State.answeredOnly_of_serve hs hx (State.handleEnrol_of_full hfree hl)⟩
  obtain ⟨t, hexec, hserved, ht, hoff⟩ := State.exec_of_serve hs hx
    (State.handleEnrol_of_free (s := s.taken q .enrol) hfree hl) rfl
  have hplates : t.plates = s.plates ++ [PlateRecord.enrolled key p h e c r s.tbu.clock] := congrArg State.plates ht
  refine ⟨t, hexec, hserved, ?_, fun hq hlaw => ?_, PlateRecord.enrolled key p h e c r s.tbu.clock, hplates, rfl, rfl,
    rfl, rfl, rfl, rfl, rfl, rfl, rfl, rfl, rfl, rfl, rfl, rfl, ?_, fun a b ha hb => ?_⟩
  · rw [hplates]
    exact ht
  · have hnotices := registerNotices_append hlaw.2.1 (r := PlateRecord.enrolled key p h e c r s.tbu.clock) hfree
    have hraised : s.raised = [] := hq
    have hoff : s.offered t (registerNotices s.plates (s.plates ++ [PlateRecord.enrolled key p h e c r s.tbu.clock])
        ++ otherNotices s.raised) := hoff
    rw [hnotices, hraised, otherNotices_nil, List.append_nil] at hoff
    exact hoff
  · simp [PlateRecord.enrolled, gridCells_length]
  · exact PlateRecord.cell?_enrolled key p h e _ ha hb

/-! ## RETIRE and MARK -/

section

variable {s : State} {key : PlateKey} {r : PlateRecord}

/-- A request that names a record of the register is its handler's. -/
theorem State.withPlate_some (h : s.plate? key = some r) (f : PlateRecord → State × Reply) :
    s.withPlate (some key) f = f r := by
  simp [State.withPlate, h]

theorem State.handleRetire_of_completed (h : r.state = .done ∨ r.state = .faulted) :
    s.handleRetire r = (s.removePlate r.key, Reply.done false) := by
  unfold State.handleRetire
  rcases h with h | h <;> rw [h]

theorem State.handleRetire_of_open (hd : r.state ≠ .done) (hf : r.state ≠ .faulted) :
    s.handleRetire r = (s, Reply.plain .state) := by
  unfold State.handleRetire
  split
  · exact absurd ‹_› hd
  · exact absurd ‹_› hf
  · rfl

variable {h : Arg Handling} {e : Arg Emulsion}

theorem markFields_iff : markFields h e = true ↔ h ≠ .outside ∧ e ≠ .outside ∧ (h ≠ .missing ∨ e ≠ .missing) := by
  cases h <;> cases e <;> simp [markFields]

theorem State.handleMark_of_fields (hfields : markFields h e = false) :
    s.handleMark h e r = (s, Reply.plain .field) := if_pos hfields

theorem State.handleMark_of_seated (hfields : markFields h e = true) (hs : r.seated = true) :
    s.handleMark h e r = (s, Reply.plain .state) :=
  (if_neg (by simp [hfields])).trans (if_pos (.inl hs))

theorem State.handleMark_of_unseated (hfields : markFields h e = true) (hs : r.seated = false) (hw : r.state ≠ .withdrawn) :
    s.handleMark h e r
      = ((s.onPlate r.key fun x => x.marked h e).raise (r.notice r.state false), Reply.done false) :=
  (if_neg (by simp [hfields])).trans (if_neg (by simp [hs, hw]))

/-- A mark shows in no notice that the register gives of itself: MARK raises its own (R4; log 25). -/
theorem registerNotices_marked (hn : (s.plates.map (·.key)).Nodup) (hr : s.plate? key = some r) :
    registerNotices s.plates (s.onPlate key fun x => x.marked h e).plates = [] := by
  have hkey : r.key = key := State.key_of_plate? hr
  have hbase : baseOf s.plates (r.marked h e).key = some r := by
    rw [show (r.marked h e).key = key from hkey]
    exact hr
  refine (registerNotices_changed (f := fun x => x.marked h e) (fun _ => rfl) hn hr).trans ?_
  rw [cellNotices_of_cells hbase rfl, plateNotices_of_unshown hbase rfl rfl rfl]
  rfl

end

/-- Settles O35: RETIRE takes a completed record out; MARK replaces what it is given, where it may. -/
theorem retireAndMark : Obligations.RetireAndMark := by
  intro s q key r hr
  have hkey : r.key = key := State.key_of_plate? hr
  have named (kind : RequestKind) (f : PlateRecord → State × Reply) :
      (s.taken q kind).withPlate (some key) f = f r :=
    State.withPlate_some (s := s.taken q kind) hr f
  refine ⟨fun hs hstate => ?_, fun hs hd hf => ?_, fun hs hseat hw h e h1 h2 h3 => ?_, fun hs hseat v => ?_, fun hs => ?_⟩
  · have hhandle := (named .retire (s.taken q .retire).handleRetire).trans (State.handleRetire_of_completed hstate)
    obtain ⟨t, hexec, hserved, ht, hoff⟩ := State.exec_of_serve (i := .retire q (some key)) hs rfl hhandle rfl
    refine ⟨t, hexec, hserved, fun hq hlaw => ?_, hkey ▸ ht⟩
    have hnotices := registerNotices_filter hlaw.2.1 hr
    have hraised : s.raised = [] := hq
    simpa [State.removePlate, State.onPlates, hkey, hnotices, hraised, PlateRecord.notice] using hoff
  · exact State.answeredOnly_of_serve hs rfl ((named _ _).trans (State.handleRetire_of_open hd hf))
  · have hhandle := (named .mark ((s.taken q .mark).handleMark h e)).trans
      (State.handleMark_of_unseated (markFields_iff.mpr ⟨h1, h2, h3⟩) hseat hw)
    obtain ⟨t, hexec, hserved, ht, hoff⟩ := State.exec_of_serve (i := .mark q (some key) h e) hs rfl hhandle rfl
    have hplates : t.plates = (s.onPlate key fun x => x.marked h e).plates := by
      rw [ht, hkey]
      rfl
    refine ⟨t, hexec, hserved, fun hq hlaw => ?_, ?_, fun other => ?_⟩
    · have hnotices := registerNotices_marked (h := h) (e := e) hlaw.2.1 hr
      have hraised : s.raised = [] := hq
      have hoff : s.offered t (registerNotices s.plates (s.onPlate r.key fun x => x.marked h e).plates
        ++ otherNotices (s.raised ++ [r.notice r.state false])) := hoff
      rw [hkey, hnotices, hraised, List.nil_append, List.nil_append, otherNotices_singleton, PlateRecord.notice, hkey] at hoff
      exact hoff
    · rw [hplates, ← hkey]
      exact ht
    · have hfound : t.plate? other = (s.onPlate key fun x => x.marked h e).plate? other := by
        simp only [State.plate?, hplates]
      rw [hfound, State.plate?_onPlate s key (f := fun x => x.marked h e) (fun _ => rfl)]
      congr 1
      funext x
      cases h <;> cases e <;> rfl
  · exact State.answeredOnly_of_serve hs rfl ((named _ _).trans (State.handleMark_of_seated rfl hseat))
  · exact State.answeredOnly_of_serve hs rfl ((named _ _).trans (State.handleMark_of_fields rfl))

/-! ## SET_FIELD -/

section

variable {s : State} {w h : Nat}

/-- No plate is seated, no slot held and no calibration runs (R31). -/
abbrev State.fieldFree (s : State) : Prop :=
  (∀ r ∈ s.plates, r.seated = false) ∧ (∀ k : SlotNo, s.fsc.held.get k = false) ∧ s.cal.op = none

theorem State.handleSetField_of_busy (hb : ¬ s.fieldFree) : s.handleSetField (some w) (some h) = (s, Reply.plain .busy) := by
  unfold State.handleSetField
  dsimp only
  split_ifs with h1 h2 h3 h4
  · rfl
  · rfl
  · rfl
  all_goals
    refine absurd ⟨fun r hr => ?_, fun k => ?_, ?_⟩ hb
    · simpa [State.anySeated] using (List.any_eq_false.mp (Bool.eq_false_iff.mpr h1)) r hr
    · simpa using (List.any_eq_false.mp (Bool.eq_false_iff.mpr h2)) k (List.mem_finRange k)
    · simpa [State.calibrating] using h3

theorem State.handleSetField_of_free (hf : s.fieldFree) :
    s.handleSetField (some w) (some h)
      = if givenField w h = s.geometry then (s, Reply.done ((givenField w h).width != w || (givenField w h).height != h))
        else ({ s with geometry := givenField w h }.calibrationNone,
          Reply.done ((givenField w h).width != w || (givenField w h).height != h)) := by
  obtain ⟨hseat, hheld, hop⟩ := hf
  have h1 : s.anySeated = false := List.any_eq_false.mpr fun r hr => by simp [hseat r hr]
  have h2 : ((List.finRange 7).any fun k => s.fsc.held.get k) = false :=
    List.any_eq_false.mpr fun k _ => by simp [hheld k]
  have h3 : s.calibrating = false := by simp [State.calibrating, hop]
  unfold State.handleSetField
  simp only [h1, h2, h3, Bool.false_eq_true, if_false]

/-- No calibration is left, and no warm-up reference under a lit lamp that loses its m_ref (R31, R125; log 51). -/
theorem State.calibrationNone_eq (x : State) :
    x.calibrationNone
      = { x with
          raised := x.raised ++ [.calib .none none .none none none]
          ltc := { x.ltc with warmRef :=
            if x.cal.record.mRef ≠ none ∧ (x.ltc.lamp = .warming ∨ x.ltc.lamp = .steady ∨ x.ltc.lamp = .drifting) then none
            else x.ltc.warmRef }
          cal := { x.cal with record := x.cal.record.withoutDark .none } } := by
  have hcond : (x.cal.record.mRef.isSome = true ∧ x.ltc.lamp.lit = true)
      ↔ x.cal.record.mRef ≠ none ∧ (x.ltc.lamp = .warming ∨ x.ltc.lamp = .steady ∨ x.ltc.lamp = .drifting) := by
    rw [LampState.lit_eq_true, Option.isSome_iff_ne_none]
  unfold State.calibrationNone
  simp only [hcond]
  split_ifs <;> rfl

end

/-- Settles O38: a free device takes a new geometry, and with it no calibration. -/
theorem setFieldSetsGeometry : Obligations.SetFieldSetsGeometry := by
  intro s q w h hs g clamped free
  have hg : givenField w h = g := rfl
  have handle (hf : free) := State.handleSetField_of_free (s := s.taken q .setField) (w := w) (h := h) hf
  refine ⟨fun hf hne => ?_, fun hf heq => ?_, fun hb => ?_⟩
  · have hhandle := (handle hf).trans (if_neg hne)
    obtain ⟨t, hexec, hserved, ht, -⟩ := State.exec_of_serveQuiet (i := .setField q (some w) (some h)) hs rfl hhandle
      (by simp)
    rw [State.calibrationNone_eq] at ht
    exact ⟨t, hexec, hserved, ht⟩
  · exact State.answeredOnly_of_serveQuiet hs rfl ((handle hf).trans (if_pos heq))
  · exact State.answeredOnly_of_serveQuiet hs rfl (State.handleSetField_of_busy hb)

end Sys2Proof.Machine
end

section
/-! SUPPORT. What the blocks test at the end of an event, case by case: the tests of the sequencer in each of its
states, and that a try in its middle, with no calibration running, leaves nothing to start (R42, R47, R57). -/

namespace Sys2Proof.Machine
-- One proof at a time: under the memory limit of the check there is no room for the stacks of many threads.
set_option Elab.async false

section

variable {s : State}

/-! ## The sequencer's tests in other states than theirs -/

theorem State.pollMerged_of_state (h : ¬ (s.csq.state = .readout ∧ s.csq.frameReported = true)) : s.pollMerged = s := by
  unfold State.pollMerged
  split
  · rfl
  · rw [if_neg fun hx => h ⟨hx.1, hx.2.1⟩]

theorem State.pollPaused_of_state (h : ∀ p, s.csq.state ≠ .paused p) : s.pollPaused = s := by
  unfold State.pollPaused
  split
  · exact absurd ‹_› (h _)
  · rfl

theorem State.pollIdle_of_state (h : s.csq.state ≠ .idle) : s.pollIdle = s := by
  unfold State.pollIdle
  split
  · exact absurd ‹_› h
  · rfl

theorem State.pollSlot_of_state (h : s.csq.state ≠ .awaitSlot) : s.pollSlot = s := by
  unfold State.pollSlot
  split
  · exact absurd ‹_› h
  · rfl

theorem State.pollLamp_of_state (h : s.csq.state ≠ .awaitLamp) : s.pollLamp = s := by
  unfold State.pollLamp
  split
  · exact absurd ‹_› h
  · rfl

/-- The states in which the sequencer waits for an event of its own, not for the end of another block's. -/
abbrev State.inTry (s : State) : Prop :=
  s.csq.state = .moving ∨ s.csq.state = .settling ∨ s.csq.state = .exposing
    ∨ (s.csq.state = .readout ∧ s.csq.frameReported = false)

theorem State.inTry.ne_of {x : CsqState} (h : s.inTry) (h1 : x ≠ .moving) (h2 : x ≠ .settling) (h3 : x ≠ .exposing)
    (h4 : x ≠ .readout) : s.csq.state ≠ x := by
  rcases h with h | h | h | ⟨h, -⟩ <;> rw [h] <;> exact Ne.symm ‹_›

theorem State.inTry.not_reported (h : s.inTry) : ¬ (s.csq.state = .readout ∧ s.csq.frameReported = true) := by
  rintro ⟨hr, hf⟩
  rcases h with h | h | h | ⟨-, h⟩
  · rw [hr] at h; cases h
  · rw [hr] at h; cases h
  · rw [hr] at h; cases h
  · rw [hf] at h; cases h

theorem State.inTry.pollPaused (h : s.inTry) : s.pollPaused = s :=
  State.pollPaused_of_state fun _ => h.ne_of CsqState.noConfusion CsqState.noConfusion CsqState.noConfusion
    CsqState.noConfusion

theorem State.inTry.pollIdle (h : s.inTry) : s.pollIdle = s :=
  State.pollIdle_of_state (h.ne_of CsqState.noConfusion CsqState.noConfusion CsqState.noConfusion CsqState.noConfusion)

theorem State.inTry.pollSlot (h : s.inTry) : s.pollSlot = s :=
  State.pollSlot_of_state (h.ne_of CsqState.noConfusion CsqState.noConfusion CsqState.noConfusion CsqState.noConfusion)

theorem State.inTry.pollLamp (h : s.inTry) : s.pollLamp = s :=
  State.pollLamp_of_state (h.ne_of CsqState.noConfusion CsqState.noConfusion CsqState.noConfusion CsqState.noConfusion)

theorem State.inTry.pollHold (h : s.inTry) : s.pollHold = s := by
  have h1 : s.csq.state ≠ .awaitSlot :=
    h.ne_of CsqState.noConfusion CsqState.noConfusion CsqState.noConfusion CsqState.noConfusion
  have h2 : s.csq.state ≠ .awaitLamp :=
    h.ne_of CsqState.noConfusion CsqState.noConfusion CsqState.noConfusion CsqState.noConfusion
  unfold State.pollHold
  split
  · rfl
  · split
    · split
      · exact absurd ‹_› h1
      · exact absurd ‹_› h2
      · rfl
    · rfl

/-- In the middle of a try the sequencer's tests start nothing. -/
theorem State.inTry.pollCsq (h : s.inTry) : s.pollCsq = s := by
  unfold State.pollCsq
  rw [State.pollMerged_of_state h.not_reported, h.pollPaused, h.pollIdle, h.pollSlot, h.pollLamp]

/-- With no calibration running the calibration's tests start nothing. -/
theorem State.pollCal_of_noOp (h : s.cal.op = none) : s.pollCal = s := by
  have h1 : s.pollAttempt = s := by
    unfold State.pollAttempt
    rw [h]
  unfold State.pollCal
  rw [h1]
  unfold State.pollAttemptTrigger
  rw [h]

/-- In the middle of a try with no calibration running, the end of an event starts a stream and an access at most. -/
theorem State.midTry.pollAll (h : s.midTry) : s.pollAll = s.takeDiscards.pollDelivery.arbitrate := by
  obtain ⟨htry, hop⟩ := h
  have htry' : s.takeDiscards.inTry := by simpa [State.inTry] using htry
  have hop' : s.takeDiscards.cal.op = none := by simpa using hop
  unfold State.pollAll
  rw [State.pollCal_of_noOp hop', htry'.pollCsq]

/-! ## A move, a lamp and a trigger -/

/-- Under a hold reason the sequencer pauses (R47). -/
theorem State.pollLamp_held {c : TryContext} {r : PlateRecord} (hs : s.csq.state = .awaitLamp) (hc : s.csq.ctx = some c)
    (hr : s.plate? c.cell.key = some r) (hh : r.holds.any = true) : s.pollLamp = s.setCsq (.paused .trigger) := by
  simp [State.pollLamp, hs, hc, hr, hh]

/-- Without one it asks for a lamp that is OFF (R47, R122). -/
theorem State.pollLamp_off {c : TryContext} {r : PlateRecord} (hs : s.csq.state = .awaitLamp) (hc : s.csq.ctx = some c)
    (hr : s.plate? c.cell.key = some r) (hh : r.holds.any = false) (hl : s.ltc.lamp = .off) :
    s.pollLamp = s.lampSwitchOn := by
  simp [State.pollLamp, hs, hc, hr, hh, hl]

/-- It waits for a lamp that is lit and not STEADY, for its slot's clear and for the link (R47, R48). -/
theorem State.pollLamp_waits {c : TryContext} {r : PlateRecord} (hs : s.csq.state = .awaitLamp) (hc : s.csq.ctx = some c)
    (hr : s.plate? c.cell.key = some r) (hh : r.holds.any = false) (hl : s.ltc.lamp ≠ .off)
    (hw : s.ltc.lamp ≠ .steady ∨ c.clearComplete = false ∨ s.canTrigger = false) : s.pollLamp = s := by
  have hno : ¬ (s.ltc.lamp = .steady ∧ c.clearComplete = true ∧ s.canTrigger = true
      ∧ (s.work c.slot).list.length < Config.maxExposures) := by
    rintro ⟨h1, h2, h3, -⟩
    rcases hw with hw | hw | hw
    · exact hw h1
    · rw [h2] at hw; cases hw
    · rw [h3] at hw; cases hw
  simp only [State.pollLamp, hs, hc, hr, hh, hl]
  rw [if_neg Bool.false_ne_true, if_neg not_false, if_neg hno]

/-- Under a STEADY lamp, its slot clear and the link free, it triggers (R47, R48). -/
theorem State.pollLamp_triggers {c : TryContext} {r : PlateRecord} (hs : s.csq.state = .awaitLamp)
    (hc : s.csq.ctx = some c) (hr : s.plate? c.cell.key = some r) (hh : r.holds.any = false)
    (hl : s.ltc.lamp = .steady) (hd : c.clearComplete = true) (ht : s.canTrigger = true)
    (hn : (s.work c.slot).list.length < 16) : s.pollLamp = s.triggerTry c := by
  have hall : s.ltc.lamp = .steady ∧ c.clearComplete = true ∧ s.canTrigger = true
      ∧ (s.work c.slot).list.length < Config.maxExposures := ⟨hl, hd, ht, hn⟩
  have hoff : ¬ s.ltc.lamp = .off := by rw [hl]; exact LampState.noConfusion
  simp only [State.pollLamp, hs, hc, hr, hh]
  rw [if_neg Bool.false_ne_true, if_neg hoff, if_pos hall]

/-- An OFF lamp that is switched on warms up at the level set (R122, R123). -/
theorem State.lampSwitchOn_of_off (h : s.ltc.lamp = .off) : s.lampSwitchOn = s.lampWarm .switchOn := by
  unfold State.lampSwitchOn
  rw [h]

theorem State.lampSwitchOn_of_on (h : s.ltc.lamp ≠ .off) : s.lampSwitchOn = s := by
  unfold State.lampSwitchOn
  split
  · exact absurd ‹_› h
  · rfl

end

end Sys2Proof.Machine
end

section
/-! PROOFS. The end of a move and of a settle dwell (R37, R44 to R47): the reports that are refused, the dwell, and what
AWAIT_LAMP does at the event that enters it. -/

namespace Sys2Proof.Machine
-- One proof at a time: under the memory limit of the check there is no room for the stacks of many threads.
set_option Elab.async false

section

variable {s : State}

/-! ## What the tests of AWAIT_LAMP leave alone -/

theorem State.pollLamp_moveTimers (s : State) :
    s.pollLamp.tbu.timers.move = s.tbu.timers.move ∧ s.pollLamp.tbu.timers.settle = s.tbu.timers.settle := by
  unfold State.pollLamp State.lampSwitchOn
  repeat' split
  all_goals exact ⟨rfl, rfl⟩

/-- The trigger of a try: the state, the tag, the downlink and the exposure list (R48). -/
theorem State.triggerTry_sent (s : State) (c : TryContext) :
    (s.triggerTry c).csq.state = .exposing ∧ (s.triggerTry c).plr.awaitedTag = some (s.plr.tagCounter + 1)
      ∧ (s.triggerTry c).plr.downlink = some { tag := s.plr.tagCounter + 1, time := c.nominal, lamp := .steady }
      ∧ ((s.triggerTry c).work c.slot).list.length = (s.work c.slot).list.length + 1 := by
  refine ⟨rfl, rfl, rfl, ?_⟩
  have hlist : ((s.triggerTry c).work c.slot).list
      = (s.work c.slot).list ++
          [{ ordinal := (s.work c.slot).list.length, rung := c.rung, time := c.nominal,
             monitor := 0, outcome := .pending, torn := none }] := by
    simp [State.triggerTry, State.work, State.onWork, State.sendTrigger, State.lampExposureStart, State.setCsq]
  rw [hlist, List.length_append, List.length_singleton]

/-! ## The dwell -/

theorem effectiveDwell_eq (h : Handling) (d : Nat) :
    effectiveDwell h d = if h = .fragile then min (2 * d) 5000 else d := by
  cases h <;> rfl

theorem State.handlingOf_of_plate {c : CellRef} {r : PlateRecord} (h : s.plate? c.key = some r) :
    s.handlingOf c = r.handling := by
  simp [State.handlingOf, h]

/-- The move's timer is stopped and its record ARRIVED (R44). -/
def State.arrived (s : State) (m : MoveRecord) : State :=
  (s.onTimers fun t => { t with move := none }).onCsq fun q => { q with move := some (m.ended .arrived) }

theorem State.arrive_eq (s : State) (m : MoveRecord) :
    s.arrive m = ((s.arrived m).enterSettling (s.handlingOf m.cell)).pollLamp := rfl

/-- A dwell that is not 0 is waited for (R46). -/
theorem State.enterSettling_of_pos {h : Handling} (hd : 0 < s.settings.settleDwell) :
    s.enterSettling h = (s.setCsq .settling).onTimers fun t =>
      { t with settle := some (effectiveDwell h s.settings.settleDwell * 1000) } := by
  have hne : effectiveDwell h s.settings.settleDwell ≠ 0 := by
    rw [effectiveDwell_eq]
    split <;> omega
  exact if_neg hne

theorem State.enterSettling_of_zero {h : Handling} (hd : s.settings.settleDwell = 0) :
    s.enterSettling h = s.setCsq .awaitLamp := by
  have hzero : effectiveDwell h s.settings.settleDwell = 0 := by
    rw [hd]
    cases h <;> rfl
  exact if_pos hzero

theorem State.arrive_of_pos {m : MoveRecord} (hd : 0 < s.settings.settleDwell) :
    s.arrive m = { s with
      csq := { s.csq with state := .settling, move := some { m with status := .arrived } }
      tbu := { s.tbu with timers := { s.tbu.timers with
        move := none
        settle := some (effectiveDwell (s.handlingOf m.cell) s.settings.settleDwell * 1000) } } } := by
  rw [State.arrive_eq, State.enterSettling_of_pos (s := s.arrived m) hd]
  exact State.pollLamp_of_state (s := ((s.arrived m).setCsq .settling).onTimers _) CsqState.noConfusion

theorem State.arrive_of_zero {m : MoveRecord} (hd : s.settings.settleDwell = 0) :
    s.arrive m = ((s.arrived m).setCsq .awaitLamp).pollLamp := by
  rw [State.arrive_eq, State.enterSettling_of_zero (s := s.arrived m) hd]

/-! ## AT_CELL's answers -/

variable {m : MoveRecord} {key : PlateKey} {c y n : Nat}

theorem State.handleAtCell_noMove (h : s.csq.move = none) :
    s.handleAtCell (some key) (some c) (some y) (some n) = (s, Reply.plain .state) := by
  simp [State.handleAtCell, h, State.answer]

theorem State.handleAtCell_late (h : s.csq.move = some m)
    (hl : n ≠ m.number.toNat ∨ m.status = .expired ∨ m.status = .faulted ∨ m.status = .abandoned) :
    s.handleAtCell (some key) (some c) (some y) (some n) = (s, Reply.plain .late) := by
  simp only [State.handleAtCell, h]
  by_cases hn : n ≠ m.number.toNat
  · exact if_pos hn
  · rw [if_neg hn]
    rcases hl.resolve_left hn with h | h | h <;> rw [h] <;> rfl

theorem State.handleAtCell_again (h : s.csq.move = some m) (hs : m.status = .arrived) :
    s.handleAtCell (some key) (some c) (some y) (some m.number.toNat) = (s, Reply.plain .done) := by
  simp [State.handleAtCell, h, hs, State.answer]

theorem State.handleAtCell_elsewhere (h : s.csq.move = some m) (hs : m.status = .moving)
    (hc : key ≠ m.cell.key ∨ c ≠ m.cell.column ∨ y ≠ m.cell.row) :
    s.handleAtCell (some key) (some c) (some y) (some m.number.toNat) = (s, Reply.plain .field) := by
  have hne : m.cell ≠ ⟨key, c, y⟩ := by
    intro e
    rcases hc with hc | hc | hc <;> exact hc (by rw [e])
  simp [State.handleAtCell, h, hs, hne, State.answer]

theorem State.handleAtCell_there (h : s.csq.move = some m) (hs : m.status = .moving) :
    s.handleAtCell (some m.cell.key) (some m.cell.column) (some m.cell.row) (some m.number.toNat)
      = (s.arrive m, Reply.done false) := by
  simp [State.handleAtCell, h, hs]

/-! ## A move that fails -/

theorem State.handleMoveFault_there (h : s.csq.move = some m) (hs : m.status = .moving) :
    s.handleMoveFault (some m.cell.key) (some m.number.toNat) = (s.failMove .faulted, Reply.done false) := by
  simp [State.handleMoveFault, h, hs]

theorem State.handleMoveFault_late (h : s.csq.move = some m) (hl : n ≠ m.number.toNat ∨ m.status ≠ .moving) :
    s.handleMoveFault (some key) (some n) = (s, Reply.plain .late) := by
  simp only [State.handleMoveFault, h]
  exact if_pos hl

theorem State.handleMoveFault_elsewhere (h : s.csq.move = some m) (hs : m.status = .moving) (hk : key ≠ m.cell.key) :
    s.handleMoveFault (some key) (some m.number.toNat) = (s, Reply.plain .field) := by
  simp [State.handleMoveFault, h, hs, Ne.symm hk, State.answer]

/-- What every record of the register becomes, found by its key. -/
theorem State.plate?_map {f : PlateRecord → PlateRecord} (hf : ∀ x, (f x).key = x.key) (key : PlateKey) :
    (s.onPlates fun ps => ps.map f).plate? key = (s.plate? key).map f := by
  unfold State.plate? State.onPlates
  dsimp only
  rw [List.find?_map]
  congr 2
  funext x
  simp [hf]

/-- A failed move pauses the sequencer with its try kept, and MOVE joins the seated record's hold reasons (R45). -/
theorem State.failMove_plate? (s : State) (status : MoveStatus) (key : PlateKey) :
    (s.failMove status).plate? key = (s.plate? key).map fun r =>
      if r.seated then { r with holds := { r.holds with move := true } } else r := by
  refine State.plate?_map (s := (s.onTimers fun t => { t with move := none }).onCsq fun q =>
    { q with state := .paused .move, move := q.move.map fun m => m.ended status }) (fun x => ?_) key
  split <;> rfl

end

section

variable {s : State} {q : Src} {m : MoveRecord} {c : TryContext} {r : PlateRecord}

/-- AT_CELL for the present move, as its sender writes it. -/
abbrev MoveRecord.atCell (m : MoveRecord) (q : Src) : Instr :=
  .atCell q (some m.cell.key) (some m.cell.column) (some m.cell.row) (some m.number.toNat)

/-- AT_CELL for the present move is served by its arrival. -/
theorem State.exec_atCell (hs : s.takes q .atCell) (hm : s.csq.move = some m) (hst : m.status = .moving) :
    ∃ t, exec (m.atCell q) s = .next t ∧ s.served t q .atCell (Reply.done false)
      ∧ t = { (s.taken q .atCell).arrive m with raised := [], ports := t.ports } := by
  obtain ⟨t, hexec, hserved, ht, -⟩ := State.exec_of_serve (i := m.atCell q) hs rfl
    (State.handleAtCell_there (s := s.taken q .atCell) hm hst) (by simp)
  exact ⟨t, hexec, hserved, ht⟩

/-- What AWAIT_LAMP does where the sequencer enters it, by the hold reasons, the lamp and the clear (R47). -/
theorem State.pollLamp_entered {x : State} (hxs : x.csq.state = .awaitLamp) (hxc : x.csq.ctx = some c)
    (hxr : x.plate? c.cell.key = some r) :
    (r.holds.any = true → x.pollLamp.csq.state = .paused .trigger ∧ x.pollLamp.ltc = x.ltc ∧ x.pollLamp.plr = x.plr)
      ∧ (r.holds.any = false → x.ltc.lamp = .off →
          x.pollLamp.csq.state = .awaitLamp ∧ x.pollLamp.ltc.lamp = .warming ∧ x.pollLamp.plr = x.plr)
      ∧ (r.holds.any = false → x.ltc.lamp ≠ .off → (x.ltc.lamp ≠ .steady ∨ c.clearComplete = false) →
          x.pollLamp.csq.state = .awaitLamp ∧ x.pollLamp.ltc = x.ltc ∧ x.pollLamp.plr = x.plr)
      ∧ (r.holds.any = false → x.ltc.lamp = .steady → c.clearComplete = true → x.canTrigger = true →
          (x.work c.slot).list.length < 16 →
          x.pollLamp.csq.state = .exposing ∧ x.pollLamp.plr.awaitedTag = some (x.plr.tagCounter + 1)
            ∧ x.pollLamp.plr.downlink = some { tag := x.plr.tagCounter + 1, time := c.nominal, lamp := .steady }
            ∧ (x.pollLamp.work c.slot).list.length = (x.work c.slot).list.length + 1) := by
  refine ⟨fun hh => ?_, fun hh hl => ?_, fun hh hl hw => ?_, fun hh hl hcl htr hn => ?_⟩
  · rw [State.pollLamp_held hxs hxc hxr hh]
    exact ⟨rfl, rfl, rfl⟩
  · rw [State.pollLamp_off hxs hxc hxr hh hl, State.lampSwitchOn_of_off hl]
    exact ⟨hxs, rfl, rfl⟩
  · rw [State.pollLamp_waits hxs hxc hxr hh hl (hw.imp id .inl)]
    exact ⟨hxs, rfl, rfl⟩
  · rw [State.pollLamp_triggers hxs hxc hxr hh hl hcl htr hn]
    exact State.triggerTry_sent x c

/-- A dwell that is not 0 is waited for. -/
theorem State.exec_atCell_settles (hs : s.takes q .atCell) (hm : s.csq.move = some m) (hst : m.status = .moving)
    (hr : s.plate? m.cell.key = some r) (hd : 0 < s.settings.settleDwell) :
    ∃ t, exec (m.atCell q) s = .next t ∧ s.served t q .atCell (Reply.done false)
      ∧ t = { s with
                raised := []
                ports := t.ports
                csq := { s.csq with state := .settling, move := some { m with status := .arrived } }
                tbu := { s.tbu with timers := { s.tbu.timers with
                  move := none
                  settle := some (1000 * (if r.handling = .fragile then min (2 * s.settings.settleDwell) 5000
                    else s.settings.settleDwell)) } } } := by
  obtain ⟨t, hexec, hserved, ht⟩ := State.exec_atCell hs hm hst
  rw [State.arrive_of_pos (s := s.taken q .atCell) hd, effectiveDwell_eq,
    State.handlingOf_of_plate (s := s.taken q .atCell) hr, Nat.mul_comm] at ht
  exact ⟨t, hexec, hserved, ht⟩

/-- The state that a dwell of 0 leads to, before AWAIT_LAMP's test. -/
def State.arrivedAtLamp (s : State) (m : MoveRecord) : State := (s.arrived m).setCsq .awaitLamp

theorem State.arrivedAtLamp_eq (s : State) (m : MoveRecord) :
    s.arrivedAtLamp m = { s with
      csq := { s.csq with state := .awaitLamp, move := some { m with status := .arrived } }
      tbu := { s.tbu with timers := { s.tbu.timers with move := none } } } := rfl

/-- A dwell of 0 takes the sequencer to AWAIT_LAMP at the event of AT_CELL. -/
theorem State.exec_atCell_awaits (hs : s.takes q .atCell) (hm : s.csq.move = some m) (hst : m.status = .moving)
    (hd : s.settings.settleDwell = 0) :
    ∃ t, exec (m.atCell q) s = .next t ∧ s.served t q .atCell (Reply.done false)
      ∧ t = { ((s.taken q .atCell).arrivedAtLamp m).pollLamp with raised := [], ports := t.ports } := by
  obtain ⟨t, hexec, hserved, ht⟩ := State.exec_atCell hs hm hst
  rw [State.arrive_of_zero (s := s.taken q .atCell) hd] at ht
  exact ⟨t, hexec, hserved, ht⟩

/-- What a failed move leaves (R45). -/
def State.moveFailed (s t : State) (status : MoveStatus) : Prop :=
  t.csq = { s.csq with state := .paused .move, move := s.csq.move.map fun m => { m with status := status } }
    ∧ t.tbu = { s.tbu with timers := { s.tbu.timers with move := none } }
    ∧ (∀ key, t.plate? key = (s.plate? key).map fun r =>
        if r.seated then { r with holds := { r.holds with move := true } } else r)
    ∧ t = { s with raised := [], plates := t.plates, csq := t.csq, tbu := t.tbu, ports := t.ports }

theorem State.exec_moveTimerExpiry {p : Nat} (hp : s.tbu.timers.move = some p) :
    ∃ t, exec .moveTimerExpiry s = .next t ∧ s.moveFailed t .expired ∧ s.portsNoticed t := by
  have hexec : exec .moveTimerExpiry s = .next ((s.failMove .expired).announce s.plates) := by
    change execMoveTimerExpiry s = _
    unfold execMoveTimerExpiry
    rw [hp]
  exact ⟨_, hexec, ⟨rfl, rfl, State.failMove_plate? s .expired, rfl⟩, State.portsNoticed_announce (by rfl) _⟩

theorem State.failMove_eq (x : State) (status : MoveStatus) :
    x.failMove status = { x with
      plates := (x.failMove status).plates
      csq := { x.csq with state := .paused .move, move := x.csq.move.map fun m => { m with status := status } }
      tbu := { x.tbu with timers := { x.tbu.timers with move := none } } } := rfl

theorem State.exec_moveFault (hs : s.takes q .moveFault) (hm : s.csq.move = some m) (hst : m.status = .moving) :
    ∃ t, exec (.moveFault q (some m.cell.key) (some m.number.toNat)) s = .next t
      ∧ s.moveFailed t .faulted ∧ s.served t q .moveFault (Reply.done false) := by
  obtain ⟨t, hexec, hserved, ht, -⟩ := State.exec_of_serve
    (i := .moveFault q (some m.cell.key) (some m.number.toNat)) hs rfl
    (State.handleMoveFault_there (s := s.taken q .moveFault) hm hst) (by rfl)
  refine ⟨t, hexec, ?_, hserved⟩
  rw [State.failMove_eq] at ht
  have hfound := State.failMove_plate? (s.taken q .moveFault) .faulted
  unfold State.plate? at hfound
  generalize ((s.taken q .moveFault).failMove .faulted).plates = plates at ht hfound
  generalize t.ports = ports at ht
  subst ht
  exact ⟨rfl, rfl, hfound, rfl⟩

end

/-- Settles O40: AT_CELL by the move that it reports and the dwell, and the two ways in which a move fails. -/
theorem movesEnd : Obligations.MovesEnd := by
  refine ⟨fun s q hs => ⟨fun m r hm hst hr hd => State.exec_atCell_settles hs hm hst hr hd,
    fun m c r hm hst hc hcell hr hd => ?_, fun key c y n hm => ?_,
    fun m hm => ⟨fun key c y n h => ?_, fun key c y h => ?_, fun key c y h hne => ?_⟩⟩,
    fun s => ⟨fun p hp => State.exec_moveTimerExpiry hp,
      fun q m hs hm => ⟨fun hst => State.exec_moveFault hs hm hst, fun key n h => ?_, fun key hst hne => ?_⟩⟩⟩
  · obtain ⟨t, hexec, hserved, ht⟩ := State.exec_atCell_awaits hs hm hst hd
    have hx := State.arrivedAtLamp_eq (s.taken q .atCell) m
    generalize (s.taken q .atCell).arrivedAtLamp m = x at ht hx
    have hxr : x.plate? c.cell.key = some r := by
      rw [hx, hcell]
      exact hr
    obtain ⟨hmove, hsettle⟩ := State.pollLamp_moveTimers x
    obtain ⟨h1, h2, h3, h4⟩ := State.pollLamp_entered (c := c) (by rw [hx]) (by rw [hx]; exact hc) hxr
    have hltc : x.ltc = s.ltc := by simp [hx]
    have hplr : x.plr = s.plr := by simp [hx]
    have hwork : x.work c.slot = s.work c.slot := by simp [State.work, hx]
    have htrigger : x.canTrigger = s.canTrigger := by simp [State.canTrigger, hplr]
    rw [hltc, hplr] at h1 h2 h3
    rw [hltc, hplr, hwork, htrigger] at h4
    refine ⟨t, hexec, hserved, ?_⟩
    rw [ht]
    refine ⟨?_, hmove.trans (by rw [hx]), hsettle.trans (by rw [hx]; rfl), ?_, ?_, h1, h2, h3, h4⟩
    · simp [hx]
    · simp [hx]
    · simp [State.tablesKept, hx]
  · exact State.answeredOnly_of_serve hs rfl (State.handleAtCell_noMove (s := s.taken q .atCell) hm)
  · exact State.answeredOnly_of_serve hs rfl (State.handleAtCell_late (s := s.taken q .atCell) hm h)
  · exact State.answeredOnly_of_serve hs rfl (State.handleAtCell_again (s := s.taken q .atCell) hm h)
  · exact State.answeredOnly_of_serve hs rfl (State.handleAtCell_elsewhere (s := s.taken q .atCell) hm h hne)
  · exact State.answeredOnly_of_serve hs rfl (State.handleMoveFault_late (s := s.taken q .moveFault) hm h)
  · exact State.answeredOnly_of_serve hs rfl (State.handleMoveFault_elsewhere (s := s.taken q .moveFault) hm hst hne)

/-! ## The end of the settle dwell -/

/-- Settles O17: the dwell's end is AWAIT_LAMP, tested at that event. -/
theorem settleExpiryEntersAwaitLamp : Obligations.SettleExpiryEntersAwaitLamp := by
  intro s p c r hp hst hc hr
  have hexec : exec .settleTimerExpiry s
      = .next ((s.onTimers fun t => { t with settle := none }).setCsq .awaitLamp).pollLamp.flush := by
    change execSettleTimerExpiry s = _
    unfold execSettleTimerExpiry
    rw [hp]
    exact if_pos hst
  have hx : (s.onTimers fun t => { t with settle := none }).setCsq .awaitLamp = { s with
      csq := { s.csq with state := .awaitLamp }
      tbu := { s.tbu with timers := { s.tbu.timers with settle := none } } } := rfl
  generalize (s.onTimers fun t => { t with settle := none }).setCsq .awaitLamp = x at hexec hx
  obtain ⟨-, hsettle⟩ := State.pollLamp_moveTimers x
  obtain ⟨h1, h2, h3, h4⟩ := State.pollLamp_entered (x := x) (c := c) (r := r) (by rw [hx]) (by rw [hx]; exact hc)
    (by rw [hx]; exact hr)
  have hltc : x.ltc = s.ltc := by rw [hx]
  have hplr : x.plr = s.plr := by rw [hx]
  have hwork : x.work c.slot = s.work c.slot := by simp [State.work, hx]
  have htrigger : x.canTrigger = s.canTrigger := by simp [State.canTrigger, hplr]
  rw [hltc, hplr] at h1 h2 h3
  rw [hltc, hplr, hwork, htrigger] at h4
  refine ⟨_, hexec, hsettle.trans (by rw [hx]), ?_, ?_, State.portsNoticed_flush (by simp [hx]), h1, h2,
    fun hh hl hs => h3 hh hl (.inl hs), h4⟩
  · simp [hx]
  · simp [State.tablesKept, hx]

end Sys2Proof.Machine
end

section
/-! PROOFS. HOLD and FREE (R14, R15, R57), and the start of a calibration (R89, R90, R93, R103, R105). -/

namespace Sys2Proof.Machine
-- One proof at a time: under the memory limit of the check there is no room for the stacks of many threads.
set_option Elab.async false

/-- Where a list holds at most one element with a property, two of its elements with it are the same. -/
theorem eq_of_countP_le_one {α : Type} {p : α → Bool} {l : List α} (h : l.countP p ≤ 1) {a b : α} (ha : a ∈ l)
    (hb : b ∈ l) (hpa : p a = true) (hpb : p b = true) : a = b := by
  rw [List.countP_eq_length_filter] at h
  have h1 : a ∈ l.filter p := List.mem_filter.mpr ⟨ha, hpa⟩
  have h2 : b ∈ l.filter p := List.mem_filter.mpr ⟨hb, hpb⟩
  cases hl : l.filter p with
  | nil => rw [hl] at h1; cases h1
  | cons y ys =>
    rw [hl] at h h1 h2
    obtain rfl : ys = [] := List.eq_nil_of_length_eq_zero (by simp at h; simpa using h)
    rw [List.mem_singleton.mp h1, List.mem_singleton.mp h2]

/-! ## HOLD -/

section

variable {s : State} {key : PlateKey} {r : PlateRecord}

/-- A record's seat is the register's one seat (R1). -/
theorem State.seated?_of_plate (h : s.registerLaw) (hr : s.plate? key = some r) (hs : r.seated = true) :
    s.seated? = some r := by
  obtain ⟨-, -, hseat⟩ := h
  have hmem := State.mem_of_plate? hr
  unfold State.seated?
  cases hf : s.plates.find? fun r => r.seated with
  | none => exact absurd hs (by simpa using List.find?_eq_none.mp hf r hmem)
  | some x =>
    have hx : x.seated = true := by simpa using List.find?_some hf
    rw [eq_of_countP_le_one hseat (List.mem_of_find?_eq_some hf) hmem hx hs]

theorem State.seated?_of_unseated (h : ∀ x ∈ s.plates, x.seated = false) : s.seated? = none :=
  List.find?_eq_none.mpr fun x hx => by simp [h x hx]

/-- The record with CONSOLE among its hold reasons. -/
def PlateRecord.held (r : PlateRecord) : PlateRecord := { r with holds := { r.holds with console := true } }

theorem State.handleHold_eq (hw : r.state ≠ .withdrawn) :
    s.handleHold r = ((s.onPlate r.key PlateRecord.held).pollHold, Reply.done false) := if_neg hw

/-- What a hold reason does to the sequencer: it pauses where it waits to claim or to trigger (R42, R47). -/
theorem State.pollHold_eq (x : State) : x.pollHold = { x with csq := x.pollHold.csq } := by
  unfold State.pollHold
  repeat' split
  all_goals rfl

theorem State.pollHold_claim (hs : s.seated? = some r) (hh : r.holds.any = true) (hq : s.csq.state = .awaitSlot) :
    s.pollHold = s.setCsq (.paused .claim) := by
  simp [State.pollHold, hs, hh, hq]

theorem State.pollHold_trigger (hs : s.seated? = some r) (hh : r.holds.any = true) (hq : s.csq.state = .awaitLamp) :
    s.pollHold = s.setCsq (.paused .trigger) := by
  simp [State.pollHold, hs, hh, hq]

theorem State.pollHold_elsewhere (h1 : s.csq.state ≠ .awaitSlot) (h2 : s.csq.state ≠ .awaitLamp) : s.pollHold = s := by
  unfold State.pollHold
  split
  · rfl
  · split
    · split
      · exact absurd ‹_› h1
      · exact absurd ‹_› h2
      · rfl
    · rfl

theorem registerNotices_held (hn : (s.plates.map (·.key)).Nodup) (hr : s.plate? key = some r) :
    registerNotices s.plates (s.onPlate key PlateRecord.held).plates
      = if r.holds.console then []
        else [.plate key r.state r.seated { r.holds with console := true } r.kept r.failed false] := by
  have hkey : r.key = key := State.key_of_plate? hr
  have hbase : baseOf s.plates r.held.key = some r := by
    rw [show r.held.key = key from hkey]
    exact hr
  refine (registerNotices_changed (f := PlateRecord.held) (fun _ => rfl) hn hr).trans ?_
  rw [cellNotices_of_cells hbase rfl, plateNotices_of_state hbase rfl, List.nil_append]
  cases hc : r.holds.console with
  | true =>
    simp [PlateRecord.held, ← hc]
  | false =>
    have hne : r.holds ≠ r.held.holds := fun e => by
      have := congrArg Holds.console e
      rw [hc] at this
      cases this
    have hunload : (if r.held.state = .captured ∧ r.seated = false then unloadNotice r.held else []) = [] := by
      split
      · rename_i h
        simp [unloadNotice, PlateRecord.held, h.2]
      · rfl
    rw [if_pos (.inr hne), hunload, PlateRecord.notice]
    simp [PlateRecord.held, hkey]

/-- HOLD of a record that is not WITHDRAWN. -/
theorem State.exec_hold {q : Src} (hs : s.takes q .hold) (hlaw : s.registerLaw) (hr : s.plate? key = some r)
    (hw : r.state ≠ .withdrawn) :
    ∃ t, exec (.hold q (some key)) s = .next t ∧ s.served t q .hold (Reply.done false)
      ∧ (∀ other, t.plate? other = (s.plate? other).map fun x =>
          if other = key then { x with holds := { x.holds with console := true } } else x)
      ∧ (r.seated = true → s.csq.state = .awaitSlot → t.csq = { s.csq with state := .paused .claim })
      ∧ (r.seated = true → s.csq.state = .awaitLamp → t.csq = { s.csq with state := .paused .trigger })
      ∧ (s.csq.state ≠ .awaitSlot → s.csq.state ≠ .awaitLamp → t.csq = s.csq)
      ∧ (s.quiet → s.offered t (if r.holds.console then [] else
          [.plate key r.state r.seated { r.holds with console := true } r.kept r.failed false]))
      ∧ t = { s with raised := [], ports := t.ports, plates := t.plates, csq := t.csq } := by
  have hkey : r.key = key := State.key_of_plate? hr
  have hhandle : (s.taken q .hold).withPlate (some key) (s.taken q .hold).handleHold
      = (((s.taken q .hold).onPlate key PlateRecord.held).pollHold, Reply.done false) := by
    rw [State.withPlate_some (s := s.taken q .hold) hr, State.handleHold_eq hw, hkey]
  obtain ⟨t, hexec, hserved, ht, hoff⟩ := State.exec_of_serve (i := .hold q (some key)) hs rfl hhandle (by simp)
  have hseat (hseat : r.seated = true) : ((s.taken q .hold).onPlate key PlateRecord.held).seated? = some r.held := by
    have hlaw' : (s.onPlate key PlateRecord.held).registerLaw :=
      (withins_onPlate s key (f := PlateRecord.held) fun _ => ⟨⟨rfl, rfl, rfl, rfl, id⟩, le_rfl⟩).reworks.registerLaw hlaw
    exact State.seated?_of_plate hlaw' (State.plate?_onPlate_self s (f := PlateRecord.held) (fun _ => rfl) hr) hseat
  have hany : r.held.holds.any = true := by simp [PlateRecord.held, Holds.any]
  have hclaim (h : r.seated = true) (hq : s.csq.state = .awaitSlot) :=
    congrArg State.csq (State.pollHold_claim (s := (s.taken q .hold).onPlate key PlateRecord.held) (hseat h) hany hq)
  have htrigger (h : r.seated = true) (hq : s.csq.state = .awaitLamp) :=
    congrArg State.csq (State.pollHold_trigger (s := (s.taken q .hold).onPlate key PlateRecord.held) (hseat h) hany hq)
  have helse (h1 : s.csq.state ≠ .awaitSlot) (h2 : s.csq.state ≠ .awaitLamp) := congrArg State.csq
    (State.pollHold_elsewhere (s := (s.taken q .hold).onPlate key PlateRecord.held) h1 h2)
  rw [State.pollHold_eq] at ht hoff
  generalize ((s.taken q .hold).onPlate key PlateRecord.held).pollHold.csq = csq at ht hclaim htrigger helse
  have hplates : t.plates = (s.onPlate key PlateRecord.held).plates := by
    rw [ht]
    rfl
  have hcsq : t.csq = csq := by rw [ht]
  refine ⟨t, hexec, hserved, fun other => ?_, fun h hq => hcsq.trans (hclaim h hq), fun h hq => hcsq.trans (htrigger h hq),
    fun h1 h2 => hcsq.trans (helse h1 h2), fun hq => ?_, ?_⟩
  · have hfound : t.plate? other = (s.onPlate key PlateRecord.held).plate? other := by
      simp only [State.plate?, hplates]
    rw [hfound, State.plate?_onPlate s key (f := PlateRecord.held) fun _ => rfl]
    rfl
  · have hraised : s.raised = [] := hq
    have hoff : s.offered t (registerNotices s.plates (s.onPlate key PlateRecord.held).plates
      ++ otherNotices s.raised) := hoff
    rw [hraised, otherNotices_nil, List.append_nil, registerNotices_held hlaw.2.1 hr] at hoff
    exact hoff
  · generalize t.ports = ports at ht
    subst ht
    rfl

end

/-! ## What a claim does to the register -/

section

variable {s : State} {key : PlateKey} {r : PlateRecord} {p : Nat × Nat} {k : SlotNo}

theorem State.pollSlot_cases (s : State) :
    s.pollSlot = s ∨ s.pollSlot = s.setCsq .idle ∨ s.pollSlot = s.setCsq (.paused .claim)
      ∨ ∃ r p k, s.capturable? = some r ∧ r.nextCell? = some p ∧ s.freeSlot? = some k
          ∧ s.pollSlot = s.claim r ⟨r.key, p.1, p.2⟩ k := by
  unfold State.pollSlot
  repeat' split
  all_goals first
    | exact .inl rfl
    | exact .inr (.inl rfl)
    | exact .inr (.inr (.inl rfl))
    | exact .inr (.inr (.inr ⟨_, _, _, ‹_›, ‹_›, ‹_›, rfl⟩))

theorem State.capturable?_spec (h : s.capturable? = some r) :
    r ∈ s.plates ∧ r.seated = true ∧ r.state = .active ∧ r.hasPending = true := by
  have hp := List.find?_some h
  simp only [Bool.and_eq_true, beq_iff_eq] at hp
  exact ⟨List.mem_of_find?_eq_some h, hp.1.1, hp.1.2, hp.2⟩

/-- The cell that is captured next is PENDING (R17). -/
theorem PlateRecord.nextCell?_spec (h : r.nextCell? = some p) : ∃ c, r.cell? p.1 p.2 = some c ∧ c.state = .pending := by
  have hp := List.find?_some h
  split at hp
  · rename_i c hc
    exact ⟨c, hc, by simpa using hp⟩
  · cases hp

/-- A cell made EXPOSING leaves an ACTIVE plate ACTIVE (R9). -/
theorem PlateRecord.settled_exposing (hs : r.state = .active) {c : CellRecord} (hc : r.cell? p.1 p.2 = some c)
    {f : CellRecord → CellRecord} (hf : (f c).state = .exposing) (now : Seconds) :
    (r.onCell p.1 p.2 f).settled now = r.onCell p.1 p.2 f := by
  have hplace := PlateRecord.place_of_cell? hc
  have hmem : f c ∈ (r.onCell p.1 p.2 f).cells := by
    refine List.mem_map.mpr ⟨c, List.mem_of_find?_eq_some hc, ?_⟩
    rw [if_pos hplace]
  have hover : (r.onCell p.1 p.2 f).captureOver = false := by
    unfold PlateRecord.captureOver
    rw [List.all_eq_false]
    exact ⟨f c, hmem, by simp [hf]⟩
  have hactive : (r.onCell p.1 p.2 f).state = .active := hs
  have hrecaptured : (r.onCell p.1 p.2 f).recaptured = r.onCell p.1 p.2 f := by
    unfold PlateRecord.recaptured
    rw [hactive]
    simp [hover]
  unfold PlateRecord.settled PlateRecord.completed
  rw [hrecaptured, if_neg]
  rintro ⟨h, -⟩
  rw [hactive] at h
  cases h

/-- What a key finds after a claim: the record of the cell claimed, with that cell changed, and every other record. -/
theorem State.plate?_claim (c : CellRef) (other : PlateKey) :
    (s.claim r c k).plate? other = (s.plate? other).map fun x =>
      if other = c.key then (x.onCell c.column c.row fun y => { y with state := .exposing, slot := some k }).settled s.tbu.clock
      else x := by
  have hplates : (s.claim r c k).plates
      = (s.changeCellQuiet c (fun y => { y with state := .exposing, slot := some k }) id).plates := by
    simp [State.claim, State.changeCellQuiet, State.claimSlot, State.onPlate]
  have hfound : (s.claim r c k).plate? other
      = (s.changeCellQuiet c (fun y => { y with state := .exposing, slot := some k }) id).plate? other := by
    simp only [State.plate?, hplates]
  rw [hfound]
  exact State.plate?_onPlate s c.key
    (f := fun x => (id (x.onCell c.column c.row fun y => { y with state := .exposing, slot := some k })).settled s.tbu.clock)
    (fun x => (PlateRecord.sameCells_settled _ _).key) other

/-- A test for a claim leaves of a record its state, its seat and its hold reasons. -/
theorem State.plate?_pollSlot (hlaw : s.registerLaw) (hr : s.plate? key = some r) :
    ∃ x, s.pollSlot.plate? key = some x ∧ x.state = r.state ∧ x.seated = r.seated ∧ x.holds = r.holds := by
  rcases s.pollSlot_cases with h | h | h | ⟨r', p, k, hr', hp, -, h⟩
  · exact ⟨r, by rw [h]; exact hr, rfl, rfl, rfl⟩
  · exact ⟨r, by rw [h]; exact hr, rfl, rfl, rfl⟩
  · exact ⟨r, by rw [h]; exact hr, rfl, rfl, rfl⟩
  · rw [h, State.plate?_claim, hr, Option.map_some]
    split
    · rename_i hcell
      have hkey : key = r'.key := hcell
      obtain ⟨hmem, -, hactive, -⟩ := State.capturable?_spec hr'
      obtain rfl : r' = r := by
        have hfound := State.plate?_of_mem hlaw.2.1 hmem
        rw [← hkey, hr] at hfound
        exact (Option.some.inj hfound).symm
      obtain ⟨c, hc, -⟩ := PlateRecord.nextCell?_spec hp
      rw [PlateRecord.settled_exposing hactive hc rfl]
      exact ⟨_, rfl, rfl, rfl, rfl⟩
    · exact ⟨r, rfl, rfl, rfl, rfl⟩

end

/-! ## FREE -/

section

variable {s : State} {key : PlateKey} {r : PlateRecord}

/-- The record without hold reasons. -/
def PlateRecord.freed (r : PlateRecord) : PlateRecord :=
  { r with holds := { console := false, move := false, lamp := false } }

/-- What FREE has done before the sequencer's tests: the hold reasons, and a FAILED lamp that LAMP was among. -/
def State.freed (s : State) (r : PlateRecord) : State :=
  if r.holds.lamp ∧ s.ltc.lamp = .failed then (s.onPlate r.key PlateRecord.freed).lampRestart
  else s.onPlate r.key PlateRecord.freed

theorem State.handleFree_eq (hw : r.state ≠ .withdrawn) :
    s.handleFree r = ((s.freed r).pollPaused.pollSlot.pollLamp.arbitrate, Reply.done false) := if_neg hw

theorem State.freed_frame (s : State) (r : PlateRecord) :
    (s.freed r).plates = (s.onPlate r.key PlateRecord.freed).plates ∧ (s.freed r).csq = s.csq
      ∧ (s.freed r).settings = s.settings ∧ (s.freed r).tbu.clock = s.tbu.clock ∧ (s.freed r).ports = s.ports
      ∧ s.tablesKept (s.freed r) := by
  unfold State.freed
  split <;> simp [State.tablesKept]

/-- A FAILED lamp that LAMP was among the reasons for warms up again (R57, R123). -/
theorem State.freed_lamp (hl : r.holds.lamp = true) (hf : s.ltc.lamp = .failed) :
    (s.freed r).ltc.lamp = .warming ∧ (s.freed r).ltc.drive = s.settings.lampLevel
      ∧ (s.freed r).tbu.timers.warmUp ≠ none := by
  unfold State.freed
  rw [if_pos ⟨hl, hf⟩]
  exact ⟨rfl, rfl, Option.some_ne_none _⟩

theorem State.freed_lamp_ne_steady (h : s.ltc.lamp ≠ .steady) : (s.freed r).ltc.lamp ≠ .steady := by
  unfold State.freed
  split
  · exact LampState.noConfusion
  · exact h

theorem State.pollPaused_cases (s : State) :
    s.pollPaused = s ∨ (∃ x, s.pollPaused = s.setCsq x) ∨ ∃ c h, s.pollPaused = s.sendMove c h := by
  unfold State.pollPaused
  repeat' split
  all_goals first
    | exact .inl rfl
    | exact .inr (.inl ⟨_, rfl⟩)
    | exact .inr (.inr ⟨_, _, rfl⟩)

theorem State.pollPaused_lamp (s : State) : s.pollPaused.plates = s.plates ∧ s.pollPaused.ltc = s.ltc
    ∧ s.pollPaused.tbu.timers.warmUp = s.tbu.timers.warmUp := by
  rcases s.pollPaused_cases with h | ⟨x, h⟩ | ⟨c, a, h⟩ <;> rw [h] <;> exact ⟨rfl, rfl, rfl⟩

theorem State.pollSlot_lamp (s : State) : s.pollSlot.ltc = s.ltc
    ∧ s.pollSlot.tbu.timers.warmUp = s.tbu.timers.warmUp := by
  rcases s.pollSlot_cases with h | h | h | ⟨r, p, k, -, -, -, h⟩ <;> rw [h] <;> exact ⟨rfl, rfl⟩

/-- A lamp that is neither OFF nor STEADY leaves AWAIT_LAMP's test to wait or to pause. -/
theorem State.pollLamp_cases_of_lamp (hoff : s.ltc.lamp ≠ .off) (hs : s.ltc.lamp ≠ .steady) :
    s.pollLamp = s ∨ s.pollLamp = s.setCsq (.paused .trigger) := by
  unfold State.pollLamp
  split
  · split
    · exact .inl rfl
    · split_ifs with h1 h2
      · exact .inr rfl
      · exact absurd h2.1 hs
      · exact .inl rfl
  · exact .inl rfl

theorem State.pollPaused_move {c : TryContext} (hs : s.seated? = some r) (hh : r.holds.any = false)
    (hq : s.csq.state = .paused .move) (hc : s.csq.ctx = some c) :
    s.pollPaused = s.sendMove c.cell (s.handlingOf c.cell) := by
  simp [State.pollPaused, hs, hh, hq, hc]

theorem State.pollPaused_trigger {c : TryContext} (hs : s.seated? = some r) (hh : r.holds.any = false)
    (hq : s.csq.state = .paused .trigger) (hc : s.csq.ctx = some c) : s.pollPaused = s.setCsq .awaitLamp := by
  simp [State.pollPaused, hs, hh, hq, hc]

/-- A move sent from the pause under the resume point MOVE: the tests that follow leave the move under way (R57). -/
theorem State.freeMoves {x : State} {c : TryContext} (hs : x.seated? = some r) (hh : r.holds.any = false)
    (hq : x.csq.state = .paused .move) (hc : x.csq.ctx = some c) :
    x.pollPaused.pollSlot.pollLamp = x.sendMove c.cell (x.handlingOf c.cell) := by
  have hmoving : (x.sendMove c.cell (x.handlingOf c.cell)).inTry := .inl rfl
  rw [State.pollPaused_move hs hh hq hc, hmoving.pollSlot, hmoving.pollLamp]

/-- A trigger that was paused waits for the lamp under any lamp but a STEADY one (R47, R57). -/
theorem State.freeTriggers {x : State} {c : TryContext} (hs : x.seated? = some r) (hh : r.holds.any = false)
    (hq : x.csq.state = .paused .trigger) (hc : x.csq.ctx = some c) (hp : x.plate? c.cell.key = some r)
    (hl : x.ltc.lamp ≠ .steady) :
    x.pollPaused.pollSlot.pollLamp.csq = { x.csq with state := .awaitLamp } := by
  have hslot : (x.setCsq .awaitLamp).pollSlot = x.setCsq .awaitLamp := State.pollSlot_of_state CsqState.noConfusion
  rw [State.pollPaused_trigger hs hh hq hc, hslot]
  by_cases hoff : x.ltc.lamp = .off
  · rw [State.pollLamp_off (s := x.setCsq .awaitLamp) rfl hc hp hh hoff]
    simp [State.setCsq, State.onCsq]
  · rw [State.pollLamp_waits (s := x.setCsq .awaitLamp) rfl hc hp hh hoff (.inl hl)]
    rfl

/-- The event of FREE, for a record that is not WITHDRAWN. -/
theorem State.exec_free {q : Src} (hs : s.takes q .free) (hr : s.plate? key = some r) (hw : r.state ≠ .withdrawn) :
    ∃ t, exec (.free q (some key)) s = .next t ∧ s.served t q .free (Reply.done false)
      ∧ t = { ((s.taken q .free).freed r).pollPaused.pollSlot.pollLamp.arbitrate with raised := [], ports := t.ports }
      ∧ ∀ n ∈ ((s.taken q .free).freed r).pollPaused.pollSlot.pollLamp.raised, s.announced t n := by
  have hhandle : (s.taken q .free).withPlate (some key) (s.taken q .free).handleFree
      = (((s.taken q .free).freed r).pollPaused.pollSlot.pollLamp.arbitrate, Reply.done false) := by
    rw [State.withPlate_some (s := s.taken q .free) hr, State.handleFree_eq hw]
  obtain ⟨t, hexec, hserved, ht, hoff⟩ := State.exec_of_serve (i := .free q (some key)) hs rfl hhandle
    (by simp [State.freed_frame])
  refine ⟨t, hexec, hserved, ht, fun n hn => ⟨_, List.mem_append_right _ (mem_otherNotices.mpr ?_), hoff⟩⟩
  simpa using hn

/-- What a freed register finds. -/
theorem State.freed_plate? (hr : s.plate? key = some r) : (s.freed r).plate? key = some r.freed := by
  obtain ⟨hplates, -⟩ := s.freed_frame r
  have hkey : r.key = key := State.key_of_plate? hr
  have hfound : (s.freed r).plate? key = (s.onPlate key PlateRecord.freed).plate? key := by
    simp only [State.plate?, hplates, hkey]
  rw [hfound, State.plate?_onPlate_self s (f := PlateRecord.freed) (fun _ => rfl) hr]

theorem State.freed_registerLaw (hlaw : s.registerLaw) : (s.freed r).registerLaw := by
  obtain ⟨hplates, -⟩ := s.freed_frame r
  unfold State.registerLaw
  rw [hplates]
  exact (withins_onPlate s r.key (f := PlateRecord.freed) fun _ => ⟨⟨rfl, rfl, rfl, rfl, id⟩, le_rfl⟩).reworks.registerLaw hlaw

end

/-- FREE of a record that is not WITHDRAWN: the hold reasons, the lamp, and where the sequencer was paused for it. -/
theorem State.free_effects {s : State} {q : Src} {key : PlateKey} {r : PlateRecord} (hs : s.takes q .free)
    (hlaw : s.registerLaw) (hr : s.plate? key = some r) (hw : r.state ≠ .withdrawn) :
    ∃ t x, exec (.free q (some key)) s = .next t ∧ s.served t q .free (Reply.done false) ∧ s.tablesKept t
      ∧ t.plate? key = some x ∧ x.holds = { console := false, move := false, lamp := false }
      ∧ x.state = r.state ∧ x.seated = r.seated
      ∧ (r.holds.lamp = true → s.ltc.lamp = .failed →
          t.ltc.lamp = .warming ∧ t.ltc.drive = s.settings.lampLevel ∧ t.tbu.timers.warmUp ≠ none)
      ∧ (r.seated = true → s.csq.state = .paused .move → ∀ c, s.csq.ctx = some c →
          t.csq.state = .moving ∧ t.csq.ctx = some c ∧ t.csq.moveCounter = s.csq.moveCounter + 1
            ∧ t.csq.move = some { number := s.csq.moveCounter + 1, cell := c.cell, status := .moving }
            ∧ t.tbu.timers.move = some (s.settings.moveTimeout * 1000000)
            ∧ (c.cell.key = key → s.quiet → s.announced t (.moveTo c.cell r.handling (s.csq.moveCounter + 1))))
      ∧ (r.seated = true → s.csq.state = .paused .trigger → s.ltc.lamp ≠ .steady →
          ∀ c, s.csq.ctx = some c → c.cell.key = key → t.csq = { s.csq with state := .awaitLamp }) := by
  obtain ⟨t, hexec, hserved, ht, hann⟩ := State.exec_free hs hr hw
  have hframe := (s.taken q .free).freed_frame r
  have hfound := State.freed_plate? (s := s.taken q .free) hr
  have hlaw' := State.freed_registerLaw (s := s.taken q .free) (r := r) hlaw
  have hlamp := State.freed_lamp (s := s.taken q .free) (r := r)
  have hsteady := State.freed_lamp_ne_steady (s := s.taken q .free) (r := r)
  generalize (s.taken q .free).freed r = x at ht hann hframe hfound hlaw' hlamp hsteady
  obtain ⟨-, hcsq, hsettings, -, -, htables⟩ := hframe
  have hcsq : x.csq = s.csq := hcsq
  have hsettings : x.settings = s.settings := hsettings
  obtain ⟨hplates, hltc, hwarm⟩ := x.pollPaused_lamp
  obtain ⟨hltc', hwarm'⟩ := x.pollPaused.pollSlot_lamp
  have hfound' : x.pollPaused.plate? key = some r.freed := by simpa only [State.plate?, hplates] using hfound
  have hlaw'' : x.pollPaused.registerLaw := by
    unfold State.registerLaw
    rw [hplates]
    exact hlaw'
  obtain ⟨y, hy, hystate, hyseated, hyholds⟩ := State.plate?_pollSlot hlaw'' hfound'
  have hseat (h : r.seated = true) : x.seated? = some r.freed := State.seated?_of_plate hlaw' hfound h
  refine ⟨t, y, hexec, hserved, ?_, ?_, hyholds, hystate, hyseated, fun hl hf => ?_, fun hseated hq c hc => ?_,
    fun hseated hq hl c hc hcell => ?_⟩
  · rw [ht]
    simpa [State.tablesKept] using htables
  · rw [ht]
    simpa [State.plate?] using hy
  · obtain ⟨h1, h2, h3⟩ := hlamp hl hf
    have hon : x.pollPaused.pollSlot.ltc.lamp = .warming := by rw [hltc', hltc, h1]
    have hkept : x.pollPaused.pollSlot.pollLamp.ltc = x.ltc
        ∧ x.pollPaused.pollSlot.pollLamp.tbu.timers.warmUp = x.tbu.timers.warmUp := by
      rcases State.pollLamp_cases_of_lamp (s := x.pollPaused.pollSlot) (by rw [hon]; exact LampState.noConfusion)
        (by rw [hon]; exact LampState.noConfusion) with h | h <;>
        rw [h] <;> exact ⟨hltc'.trans hltc, hwarm'.trans hwarm⟩
    rw [ht]
    simp only [State.arbitrate_frame]
    rw [hkept.1, hkept.2]
    exact ⟨h1, h2, h3⟩
  · have hmoves := State.freeMoves (hseat hseated) rfl (by rw [hcsq, hq]) (by rw [hcsq, hc])
    rw [hmoves] at ht hann
    have htcsq : t.csq = { s.csq with
        state := .moving
        moveCounter := s.csq.moveCounter + 1
        move := some { number := s.csq.moveCounter + 1, cell := c.cell, status := .moving } } := by
      rw [ht, ← hcsq]
      simp only [State.arbitrate_frame]
      rfl
    have httbu : t.tbu.timers.move = some (s.settings.moveTimeout * 1000000) := by
      rw [ht, ← hsettings]
      simp only [State.arbitrate_frame]
      rfl
    refine ⟨by rw [htcsq], by rw [htcsq]; exact hc, by rw [htcsq], by rw [htcsq], httbu, fun hcell hquiet => hann _ ?_⟩
    have hhandling : x.handlingOf c.cell = r.handling := by
      rw [State.handlingOf_of_plate (s := x) (r := r.freed) (by rw [hcell]; exact hfound)]
      rfl
    simp [State.sendMove, State.onCsq, State.onTimers, State.raise, hcsq, hhandling]
  · have htriggers := State.freeTriggers (hseat hseated) rfl (by rw [hcsq, hq]) (by rw [hcsq, hc])
      (by rw [hcell]; exact hfound) (hsteady hl)
    rw [ht]
    simp only [State.arbitrate_frame]
    rw [htriggers, hcsq]

/-- Settles O36: HOLD by the sequencer's test of the hold reasons, FREE by the tests that let it go on. -/
theorem holdsAreAddedAndRemoved : Obligations.HoldsAreAddedAndRemoved := by
  refine ⟨fun s q key r hs hlaw hr => ⟨fun hw => State.exec_hold hs hlaw hr hw, fun hw => ?_⟩,
    fun s q key r hs hlaw hr hw => State.free_effects hs hlaw hr hw⟩
  refine State.answeredOnly_of_serve hs rfl ?_
  rw [State.withPlate_some (s := s.taken q .hold) hr]
  exact if_pos hw

end Sys2Proof.Machine
end

section
/-! PROOFS. The start of a calibration: its refusals, a dark's first trigger, a flat's lamp (R89, R90, R93, R103, R105,
R123). -/

namespace Sys2Proof.Machine
-- One proof at a time: under the memory limit of the check there is no room for the stacks of many threads.
set_option Elab.async false

section

variable {s : State} {q : Src}

/-! ## The refusals -/

/-- What a calibration wants of the register and the link before it starts (R89). -/
abbrev State.clearForCalibration (s : State) : Prop :=
  (∀ r ∈ s.plates, r.seated = false)
    ∧ (∀ r ∈ s.plates, ∀ c ∈ r.cells, c.state ≠ .exposing ∧ c.state ≠ .finalizing) ∧ s.plr.link ≠ .dropped

theorem State.anySeated_eq_false : s.anySeated = false ↔ ∀ r ∈ s.plates, r.seated = false := by
  simp [State.anySeated]

theorem State.anyCaptured_eq_false : s.anyCell (fun c => c == .exposing || c == .finalizing) = false
    ↔ ∀ r ∈ s.plates, ∀ c ∈ r.cells, c.state ≠ .exposing ∧ c.state ≠ .finalizing := by
  simp [State.anyCell]

theorem State.calibrateRefusal?_notReady (h : s.fsc.state ≠ .ready) : s.calibrateRefusal? = some .notReady := if_pos h

theorem State.calibrateRefusal?_none (hr : s.fsc.state = .ready) (ho : s.cal.op = none) (hc : s.clearForCalibration) :
    s.calibrateRefusal? = none := by
  obtain ⟨hseat, hcell, hlink⟩ := hc
  rw [← State.anySeated_eq_false] at hseat
  rw [← State.anyCaptured_eq_false] at hcell
  simp [State.calibrateRefusal?, State.calibrating, hr, ho, hseat, hcell, hlink]

theorem State.calibrateRefusal?_busy (hr : s.fsc.state = .ready) (h : s.cal.op ≠ none ∨ ¬ s.clearForCalibration) :
    s.calibrateRefusal? = some .busy := by
  unfold State.calibrateRefusal?
  rw [if_neg (not_not.mpr hr)]
  split_ifs with h1 h2 h3 h4 <;> first | rfl | skip
  refine absurd ⟨State.anySeated_eq_false.mp (by simpa using h2), State.anyCaptured_eq_false.mp (by simpa using h3), h4⟩
    (h.resolve_left ?_)
  simpa [State.calibrating] using h1

theorem State.handleCalibrateDark_refused {a : AnswerCode} {tRef : Option Nat} (h : s.calibrateRefusal? = some a) :
    s.handleCalibrateDark true tRef none = (s, Reply.plain a) := by
  simp [State.handleCalibrateDark, h, State.answer]

/-! ## CALIBRATE DARK -/

/-- The least and the longest exposure time (R24, R89). -/
theorem clampTime_eq (t : Nat) : clampTime t = max 50 (min 8000000 t) := rfl

/-- The reference time of a dark: the one given, clamped, or the record's (R90). -/
def State.darkTime (s : State) (tRef : Option Nat) : Nat :=
  match tRef with
  | some t => max 50 (min 8000000 t)
  | none => s.cal.record.tRef

theorem State.handleCalibrateDark_started {tRef : Option Nat} (h : s.calibrateRefusal? = none) :
    s.handleCalibrateDark true tRef none = (s.startDark (s.darkTime tRef),
      { code := .started, clamped := tRef.isSome && s.darkTime tRef != tRef.getD 0, data := .none }) := by
  cases tRef <;> simp [State.handleCalibrateDark, h, State.darkTime, Reply.started, clampTime_eq]

/-- Switching the lamp off leaves it dark, whatever it was, and raises a notice where it was lit or FAILED (R128). -/
theorem State.lampSwitchOff_eq (s : State) (cause : LampCause) :
    s.lampSwitchOff cause = { s.lampDark with raised := (s.lampSwitchOff cause).raised } := by
  unfold State.lampSwitchOff
  split <;> rfl

/-- The dark that is begun, before its first trigger: no calibration is left (R90). -/
def State.darkBegun (s : State) (tRef : Nat) : State :=
  ((s.onCal fun c =>
    { record := { c.record.withoutDark .none with tRef := tRef }
      op := some (CalOp.initial .dark .frames none)
      tally := List.replicate s.geometry.height 0 }).calibNotice (some .dark) .started none none).lampSwitchOff .offRequest

theorem State.darkBegun_eq (s : State) (tRef : Nat) : s.darkBegun tRef = { s.lampDark with
    raised := (s.darkBegun tRef).raised
    cal := {
      record := { s.cal.record.withoutDark .none with tRef := tRef }
      op := some (CalOp.initial .dark .frames none)
      tally := List.replicate s.geometry.height 0 } } := by
  unfold State.darkBegun
  rw [State.lampSwitchOff_eq]
  rfl

theorem State.mem_darkBegun (s : State) (tRef : Nat) :
    Notice.calib .none (some .dark) .started none none ∈ (s.darkBegun tRef).raised :=
  State.mem_lampSwitchOff (by simp [State.calibNotice, State.raise, State.onCal, CalRecord.withoutDark,
    CalRecord.withoutFlat]) _

/-- A dark has no lamp requirement: its first frame is triggered at the event that begins it (R90, R105). -/
theorem State.startDark_eq {tRef : Nat} (hl : s.plr.link ≠ .dropped) (ha : s.plr.awaitedTag = none) :
    s.startDark tRef = (s.darkBegun tRef).triggerAttempt (CalOp.initial .dark .frames none) := by
  have hbegun := s.darkBegun_eq tRef
  change (s.darkBegun tRef).pollAttemptTrigger = _
  generalize s.darkBegun tRef = x at hbegun
  have hop : x.cal.op = some (CalOp.initial .dark .frames none) := by rw [hbegun]
  have htrigger : x.canTrigger = true := by
    rw [hbegun]
    simp [State.canTrigger, hl, ha]
  unfold State.pollAttemptTrigger
  rw [hop]
  exact if_pos ⟨.inr rfl, rfl, .inl rfl, htrigger⟩

/-- What a dark's start leaves (R90, R105). -/
theorem State.startDark_state {tRef : Nat} (hl : s.plr.link ≠ .dropped) (ha : s.plr.awaitedTag = none) :
    s.startDark tRef = { s with
      raised := (s.startDark tRef).raised
      cal := {
        record := { s.cal.record.withoutDark .none with tRef := tRef }
        op := some { CalOp.initial .dark .frames none with inFlight := true }
        tally := List.replicate s.geometry.height 0 }
      ltc := s.lampDark.ltc
      tbu := { s.tbu with timers := { s.lampDark.tbu.timers with
        frame := some (tRef + s.settings.readoutAllowance * 1000) } }
      plr := (s.sendTrigger (.calib 0) tRef .none .release).plr } := by
  rw [State.startDark_eq hl ha, State.darkBegun_eq]
  rfl

theorem State.mem_startDark {tRef : Nat} (hl : s.plr.link ≠ .dropped) (ha : s.plr.awaitedTag = none) :
    Notice.calib .none (some .dark) .started none none ∈ (s.startDark tRef).raised := by
  rw [State.startDark_eq hl ha]
  exact s.mem_darkBegun tRef

/-! ## CALIBRATE FLAT -/

/-- The lamp level of a flat: the one given, clamped, or the setting (R93). -/
def State.flatLevel (s : State) (lampLevel : Option Nat) : Nat :=
  match lampLevel with
  | some l => min 1023 l
  | none => s.settings.lampLevel

theorem clampSetting_lampLevel (l : Nat) : clampSetting .lampLevel l = min 1023 l := Nat.zero_max (min 1023 l)

theorem State.handleCalibrateFlat_started {lampLevel : Option Nat} (h : s.calibrateRefusal? = none)
    (h1 : s.cal.record.state ≠ .none) (h2 : s.cal.record.state ≠ .lost) :
    s.handleCalibrateFlat true none lampLevel = (s.startFlat (s.flatLevel lampLevel),
      { code := .started, clamped := lampLevel.isSome && s.flatLevel lampLevel != lampLevel.getD 0, data := .none }) := by
  cases lampLevel <;>
    simp [State.handleCalibrateFlat, h, h1, h2, State.flatLevel, Reply.started, clampSetting_lampLevel]

theorem State.handleCalibrateFlat_noDark {lampLevel : Option Nat} (h : s.calibrateRefusal? = none)
    (h1 : s.cal.record.state = .none ∨ s.cal.record.state = .lost) :
    s.handleCalibrateFlat true none lampLevel = (s, Reply.plain .state) := by
  simp [State.handleCalibrateFlat, h, h1, State.answer]

/-- What a flat's start leaves: the lamp warms up at the flat's level, and a flat stops the idle timer (R93, R123). -/
theorem State.startFlat_state (s : State) (level : Nat) :
    s.startFlat level = { s with
      raised := (s.startFlat level).raised
      settings := { s.settings with lampLevel := level }
      cal := {
        record := s.cal.record.withoutFlat .darkOnly
        op := some (CalOp.initial .flat .lampWait (some level))
        tally := List.replicate s.geometry.height 0 }
      ltc := { s.ltc with
        lamp := .warming, phase := some .timed, drive := level, warmRef := none, run := 0, last := none,
        steadyThroughout := false }
      tbu := { s.tbu with timers := { s.tbu.timers with
        warmUp := some (s.settings.warmUpTime * 1000000), check := none, idle := none } } } := rfl

theorem State.mem_startFlat (s : State) (level : Nat) :
    Notice.calib .darkOnly (some .flat) .started none none ∈ (s.startFlat level).raised :=
  State.mem_lampRestart (by simp [State.calibNotice, State.raise, State.onCal, CalRecord.withoutFlat])

end

/-- Settles O41: a dark's first trigger and a flat's lamp, at the event of their start. -/
theorem calibrationsStart : Obligations.CalibrationsStart := by
  refine ⟨fun s q tRef hs => ?_, fun s q lampLevel hs hready hop hseat hcell hlink => ?_⟩
  · refine ⟨fun hready hop hclear ha => ?_, fun hready => ?_, fun hready hbusy => ?_⟩
    · obtain ⟨t, hexec, hserved, ht, hoff⟩ := State.exec_of_serveQuiet (i := .calibrateDark q true tRef none) hs rfl
        (State.handleCalibrateDark_started (s := s.taken q .calibrate)
          (State.calibrateRefusal?_none (s := s.taken q .calibrate) hready hop hclear))
        (by rw [State.startDark_state (s := s.taken q .calibrate) hclear.2.2 ha])
      have hmem := State.mem_startDark (s := s.taken q .calibrate) (tRef := s.darkTime tRef) hclear.2.2 ha
      rw [State.startDark_state (s := s.taken q .calibrate) hclear.2.2 ha] at ht
      refine ⟨t, { CalOp.initial .dark .frames none with inFlight := true }, hexec, hserved, ?_⟩
      generalize t.ports = ports at ht
      refine ⟨?_, ?_, ?_, rfl, rfl, rfl, rfl, ?_, ?_, ?_, ?_, ?_, ?_, ?_, ?_, fun _ => ⟨_, mem_otherNotices.mpr hmem, hoff⟩⟩
      all_goals
        subst ht
        rfl
    · exact State.answeredOnly_of_serveQuiet hs rfl
        (State.handleCalibrateDark_refused (State.calibrateRefusal?_notReady (s := s.taken q .calibrate) hready))
    · exact State.answeredOnly_of_serveQuiet hs rfl
        (State.handleCalibrateDark_refused (State.calibrateRefusal?_busy (s := s.taken q .calibrate) hready hbusy))
  · have hnone := State.calibrateRefusal?_none (s := s.taken q .calibrate) hready hop ⟨hseat, hcell, hlink⟩
    refine ⟨fun h1 h2 => ?_, fun h => ?_⟩
    · obtain ⟨t, hexec, hserved, ht, hoff⟩ := State.exec_of_serveQuiet (i := .calibrateFlat q true none lampLevel) hs rfl
        (State.handleCalibrateFlat_started (s := s.taken q .calibrate) hnone h1 h2) rfl
      have hmem := (s.taken q .calibrate).mem_startFlat (s.flatLevel lampLevel)
      rw [State.startFlat_state] at ht
      refine ⟨t, CalOp.initial .flat .lampWait (some (s.flatLevel lampLevel)), hexec, hserved, ?_⟩
      refine ⟨?_, ?_, ?_, rfl, rfl, rfl, ?_, ?_, ?_, ?_, ?_, ?_, ?_, fun _ => ⟨_, mem_otherNotices.mpr hmem, hoff⟩⟩
      all_goals
        generalize t.ports = ports at ht
        subst ht
        rfl
    · exact State.answeredOnly_of_serveQuiet hs rfl (State.handleCalibrateFlat_noDark (s := s.taken q .calibrate) hnone h)

end Sys2Proof.Machine
end

section
/-! PROOFS. READ_FAULT, READ_STATUS with what it reports, and the requests about the clock and the ports (R120, R132,
R171 to R175). -/

namespace Sys2Proof.Machine
-- One proof at a time: under the memory limit of the check there is no room for the stacks of many threads.
set_option Elab.async false

/-! ## Requests that change their own port -/

section

variable {s t : State} {q : Src} {kind : RequestKind} {handle : State → State × Reply} {r : Reply} {g : Port → Port}

/-- The ports after a request that is taken by a block that changes its own port. -/
theorem State.request_port_of_own (hs : s.takes q kind) (h : handle (s.taken q kind) = (t, r))
    (hp : t.ports = ((s.taken q kind).onPort q.port g).ports) (k : PortNo) :
    (s.request q kind handle).ports.get k
      = if k = q.port then (g ((s.ports.get k).frameTaken.take q.tag kind)).reply q.tag kind r else s.ports.get k := by
  have hreq : (s.request q kind handle) = t.onPort q.port fun p => p.reply q.tag kind r := by
    rw [State.request_of_takes hs, State.hand_eq h]
  have hown : (s.taken q kind).ports.get q.port = (s.ports.get q.port).frameTaken.take q.tag kind := by
    rw [State.taken, State.onPort_get_self, State.frameTaken_port, if_pos rfl]
  rw [hreq]
  by_cases hk : k = q.port
  · subst hk
    rw [if_pos rfl, State.onPort_get_self, hp, State.onPort_get_self, hown]
  · rw [if_neg hk, State.onPort_get_ne _ _ hk, hp, State.onPort_get_ne _ _ hk, State.taken, State.onPort_get_ne _ _ hk,
      State.frameTaken_port, if_neg hk]

/-- A request taken by a block that changes its own port, whose outstanding request it keeps: the answer, the setup of
the ports, and what an event without notices leaves of the overrun flag. -/
theorem State.exec_of_own {i : Instr} (hs : s.takes q kind) (he : exec i s = s.serveQuiet q kind handle)
    (h : handle (s.taken q kind) = (t, r)) (hp : t.ports = ((s.taken q kind).onPort q.port g).ports)
    (hg : ∀ p, (g p).outstanding = p.outstanding) :
    ∃ u, exec i s = .next u ∧ u.answers q kind r ∧ u = { t with raised := [], ports := u.ports }
      ∧ (g ((s.ports.get q.port).frameTaken.take q.tag kind)).sameSetup (u.ports.get q.port)
      ∧ (t.raised = [] → (u.ports.get q.port).overrun
          = (g ((s.ports.get q.port).frameTaken.take q.tag kind)).overrun)
      ∧ ∀ k, k ≠ q.port → (s.ports.get k).sameSetup (u.ports.get k)
          ∧ (u.ports.get k).outstanding = (s.ports.get k).outstanding := by
  have hport := State.request_port_of_own hs h hp
  have hown := hport q.port
  rw [if_pos rfl] at hown
  have hraised : (s.request q kind handle).raised = t.raised := by
    rw [State.request_of_takes hs, State.hand_eq h]
    rfl
  have hnoticed := State.portsNoticed_finish (s.request q kind handle) []
  refine ⟨(s.request q kind handle).flush, he, ⟨?_, ?_⟩, ?_, ?_, fun hr => ?_, fun k hk => ?_⟩
  · refine ((hnoticed q.port).2.trans ?_)
    rw [hown]
    exact hg _
  · refine State.finish_holdsAnswer (.inr ?_)
    rw [hown]
    simp [Port.reply]
  · rw [State.request_of_takes hs, State.hand_eq h]
    rfl
  · have hsetup := (hnoticed q.port).1
    rw [hown] at hsetup
    exact hsetup
  · rw [State.flush, State.finish_port, hraised, hr, otherNotices_nil, List.append_nil, List.foldl_nil,
      Port.pump_overrun, hown]
    rfl
  · have hsetup := hnoticed k
    rw [hport k, if_neg hk] at hsetup
    exact hsetup

end

/-! ## What READ_STATUS reports -/

section

variable {s : State} {q : Src}

theorem Vector.toList_eq_map_get {α : Type} {n : Nat} (v : Vector α n) : v.toList = (List.finRange n).map v.get := by
  refine List.ext_getElem (by simp) fun i h1 h2 => ?_
  simp [Vector.get]

/-- The first element of a list with a property, where one element has it alone. -/
theorem find?_eq_some_of_only {α β : Type} {l : List α} {f : α → β} {p : β → Bool} {a : α} (ha : a ∈ l)
    (hp : p (f a) = true) (honly : ∀ b ∈ l, p (f b) = true → b = a) : (l.map f).find? p = some (f a) := by
  cases hf : (l.map f).find? p with
  | none => exact absurd hp (by simpa using List.find?_eq_none.mp hf (f a) (List.mem_map_of_mem ha))
  | some y =>
    obtain ⟨b, hb, rfl⟩ := List.mem_map.mp (List.mem_of_find?_eq_some hf)
    rw [honly b hb (by simpa using List.find?_some hf)]

theorem find?_map_eq_none {α β : Type} {l : List α} {f : α → β} {p : β → Bool} (h : ∀ a ∈ l, p (f a) = false) :
    (l.map f).find? p = none := by
  refine List.find?_eq_none.mpr fun y hy => ?_
  obtain ⟨a, ha, rfl⟩ := List.mem_map.mp hy
  simp [h a ha]

/-- The time left on a timer lies within its preset (R175; log 3). -/
theorem timerShown_timerLeft (timer : Option Nat) (ask : Nat) : timerShown timer (timerLeft timer ask) := by
  cases timer with
  | none => trivial
  | some preset => exact Nat.lt_succ_iff.mp (Nat.mod_lt _ preset.succ_pos)

theorem State.reported_ports : s.reported q.port .ports ((s.taken q .readStatus).statusReport .ports) := by
  change (s.taken q .readStatus).ports.toList.map Port.report = _
  rw [Vector.toList_eq_map_get, List.map_map]
  refine List.map_congr_left fun k _ => ?_
  rw [Function.comp_apply]
  by_cases hk : k = q.port
  · subst hk
    rw [State.taken, State.onPort_get_self, State.frameTaken_port, if_pos rfl]
    simp [Port.report, Port.take, Port.frameTaken]
  · rw [State.taken, State.onPort_get_ne _ _ hk, State.frameTaken_port, if_neg hk]
    simp [Port.report, hk]

theorem State.reported_sequencer (s : State) (k : PortNo) : s.reported k .sequencer (.sequencer s.sequencerReport) := by
  refine ⟨rfl, rfl, fun h => ?_, fun c h => ?_⟩ <;> simp [State.sequencerReport, h]

theorem WorkRecord.inTry_iff (w : WorkRecord) : w.inTry = true ↔ w.state = .clearing ∨ w.state = .accumulating := by
  simp [WorkRecord.inTry]

theorem State.reported_merge (s : State) (k : PortNo) : s.reported k .merge (.merge s.mergeReport) := by
  have hrecords : s.mge.work.toList = (List.finRange 7).map s.work := Vector.toList_eq_map_get _
  unfold State.reported State.mergeReport
  dsimp only
  rw [hrecords]
  refine ⟨by simp, rfl, fun k h => ?_, fun h => ?_, fun k h => ?_, fun h => ?_⟩
  · rw [find?_eq_some_of_only (List.mem_finRange k) (by simp [h.1]) fun j _ hj => h.2 j (by simpa using hj)]
    rfl
  · rw [find?_map_eq_none fun k _ => by simp [h k]]
    rfl
  · rw [find?_eq_some_of_only (List.mem_finRange k) ((WorkRecord.inTry_iff _).mpr h.1)
      fun j _ hj => h.2 j ((WorkRecord.inTry_iff _).mp hj)]
    rfl
  · rw [find?_map_eq_none fun k _ => Bool.eq_false_iff.mpr fun hk => h k ((WorkRecord.inTry_iff _).mp hk)]
    rfl

theorem State.reported_lamp (s : State) (k : PortNo) : s.reported k .lamp (.lamp s.lampReport) := by
  refine ⟨timerShown_timerLeft _ _, timerShown_timerLeft _ _, ?_⟩
  unfold State.lampReport
  congr 1
  cases s.cal.record.mRef <;> cases s.ltc.warmRef <;> rfl

theorem State.reported_time (s : State) (k : PortNo) : s.reported k .time (.time s.timeReport) := by
  refine ⟨rfl, rfl, rfl, ?_⟩
  simp [State.timeReport, timerShown_timerLeft]

theorem State.reported_store (s : State) (k : PortNo) : s.reported k .store (.store s.fsc.report) := by
  change s.fsc.report = _
  unfold Fsc.report
  congr 1
  exact Vector.toList_eq_map_get _

/-- A stream waits on READY where its line is low, the link free and a unit of it next (R157). -/
theorem Dlt.waitsOnReady_iff (d : Dlt) (t : Stream) :
    d.waitsOnReady t = true ↔ d.ready = false ∧ d.link = none ∧ t.nextUnit? ≠ none := by
  cases hr : d.ready <;> cases hl : d.link <;> cases hn : t.nextUnit? <;> simp [Dlt.waitsOnReady, hr, hl, hn]

theorem State.reported_delivery (s : State) (k : PortNo) : s.reported k .delivery (.delivery s.deliveryReport) := by
  refine ⟨rfl, rfl, rfl, fun h => by simp [State.deliveryReport, h], fun z h =>
    ⟨{ cell := z.cell, cut := z.cut, phase := z.phase, nextRow := z.nextRow, buffer := z.buffer.state,
       waitsOnReady := s.dlt.waitsOnReady z }, by simp [State.deliveryReport, h],
    rfl, rfl, rfl, rfl, ?_, ?_, ?_, fun hr => ?_, fun hr hl hn => (s.dlt.waitsOnReady_iff z).mpr ⟨hr, hl, hn⟩⟩⟩
  · cases z.buffer <;> simp [RowBuffer.state]
  · cases z.buffer <;> simp [RowBuffer.state]
  · cases z.buffer <;> simp [RowBuffer.state]
  · refine Bool.eq_false_iff.mpr fun hw => ?_
    obtain ⟨h', -⟩ := (s.dlt.waitsOnReady_iff z).mp hw
    rw [hr] at h'
    cases h'

/-- What READ_STATUS reports of each section (R175). -/
theorem State.reported_statusReport (x : StatusSection) :
    s.reported q.port x ((s.taken q .readStatus).statusReport x) :=
  match x with
  | .ports => State.reported_ports
  | .sequencer => State.reported_sequencer s q.port
  | .merge => State.reported_merge s q.port
  | .link => rfl
  | .lamp => State.reported_lamp s q.port
  | .time => State.reported_time s q.port
  | .store => State.reported_store s q.port
  | .delivery => State.reported_delivery s q.port

end

/-! ## The requests -/

section

variable {s : State} {q : Src}

/-- READ_STATUS clears the asking port's flags (R175). -/
def Port.flagsCleared (p : Port) : Port := { p with badFrame := false, overrun := false }

theorem State.exec_readStatus (hs : s.takes q .readStatus) (x : StatusSection) :
    ∃ t report, exec (.readStatus q (.given x)) s = .next t
      ∧ t.answers q .readStatus (Reply.withData (.status (s.ports.get q.port).role (s.ports.get q.port).badFrame
          (s.ports.get q.port).overrun s.fsc.state report))
      ∧ s.reported q.port x report ∧ (t.ports.get q.port).badFrame = false
      ∧ (s.raised = [] → (t.ports.get q.port).overrun = false)
      ∧ t = { s with raised := [], freeCount := t.freeCount, ports := t.ports }
      ∧ ∀ k, k ≠ q.port → (s.ports.get k).sameSetup (t.ports.get k)
          ∧ (t.ports.get k).outstanding = (s.ports.get k).outstanding := by
  have hown : (s.taken q .readStatus).ports.get q.port = (s.ports.get q.port).frameTaken.take q.tag .readStatus := by
    rw [State.taken, State.onPort_get_self, State.frameTaken_port, if_pos rfl]
  have hhandle : (s.taken q .readStatus).handleReadStatus q.port (.given x)
      = ({ (s.taken q .readStatus) with freeCount := s.freeCount + sectionAsks x }.onPort q.port Port.flagsCleared,
        Reply.withData (.status (s.ports.get q.port).role (s.ports.get q.port).badFrame (s.ports.get q.port).overrun
          s.fsc.state ((s.taken q .readStatus).statusReport x))) := by
    unfold State.handleReadStatus
    dsimp only
    rw [hown]
    rfl
  obtain ⟨t, hexec, hans, ht, hsetup, hover, hothers⟩ := State.exec_of_own (i := .readStatus q (.given x))
    (g := Port.flagsCleared) hs rfl hhandle rfl fun _ => rfl
  refine ⟨t, _, hexec, hans, State.reported_statusReport x, hsetup.2.2.2.2.2.2, fun hr => hover hr, ?_, hothers⟩
  generalize t.ports = ports at ht
  subst ht
  rfl

theorem State.exec_readFault (hs : s.takes q .readFault) :
    ∃ t, exec (.readFault q) s = .next t
      ∧ s.served t q .readFault (Reply.withData (.fault s.plr.capture s.plr.faultCount s.plr.link))
      ∧ t = { s with raised := [], ports := t.ports, plr := { s.plr with capture := none } } := by
  obtain ⟨t, hexec, hserved, ht, -⟩ := State.exec_of_serveQuiet (i := .readFault q) hs rfl rfl rfl
  exact ⟨t, hexec, hserved, ht⟩

theorem State.exec_setClock (hs : s.takes q .setClock) (v : Seconds) :
    ∃ t, exec (.setClock q (some v)) s = .next t ∧ s.served t q .setClock (Reply.done false)
      ∧ t = { s with raised := [], ports := t.ports, tbu := { s.tbu with clock := v } } := by
  obtain ⟨t, hexec, hserved, ht, -⟩ := State.exec_of_serveQuiet (i := .setClock q (some v)) hs rfl rfl rfl
  exact ⟨t, hexec, hserved, ht⟩

/-- The kinds of a filter are those given, where each is one that exists. -/
theorem kindSet?_some (ks : List NoticeKind) :
    kindSet? (ks.map some) = some (allNoticeKinds.filter fun k => (ks.map some).contains (some k)) :=
  if_neg (by simp)

theorem mem_kindSet (ks : List NoticeKind) (k : NoticeKind) :
    k ∈ allNoticeKinds.filter (fun k => (ks.map some).contains (some k)) ↔ k ∈ ks := by
  have hall : k ∈ allNoticeKinds := by cases k <;> decide
  simp [hall]

theorem State.exec_setFilter (hs : s.takes q .setFilter) (ks : List NoticeKind) (code mask : PlateKey) :
    ∃ t, exec (.setFilter q (some (ks.map some)) (some code) (some mask)) s = .next t
      ∧ t.answers q .setFilter (Reply.done false) ∧ t = { s with raised := [], ports := t.ports }
      ∧ (t.ports.get q.port).filter.keyCode = code ∧ (t.ports.get q.port).filter.keyMask = mask
      ∧ (∀ k, k ∈ (t.ports.get q.port).filter.kinds ↔ k ∈ ks)
      ∧ ({ (s.ports.get q.port).frameTaken with filter := (t.ports.get q.port).filter }).sameSetup (t.ports.get q.port)
      ∧ ∀ k, k ≠ q.port → (s.ports.get k).sameSetup (t.ports.get k)
          ∧ (t.ports.get k).outstanding = (s.ports.get k).outstanding := by
  have hhandle : (s.taken q .setFilter).handleSetFilter q.port (some (ks.map some)) (some code) (some mask)
      = ((s.taken q .setFilter).onPort q.port fun p => { p with filter := {
          kinds := allNoticeKinds.filter fun k => (ks.map some).contains (some k), keyCode := code, keyMask := mask } },
        Reply.done false) := by
    unfold State.handleSetFilter
    rw [Option.bind_some, kindSet?_some]
  obtain ⟨t, hexec, hans, ht, hsetup, -, hothers⟩ := State.exec_of_own
    (i := .setFilter q (some (ks.map some)) (some code) (some mask)) hs rfl hhandle rfl fun _ => rfl
  obtain ⟨hrole, hrate, hframer, hgate, hfilter, hpace, hbad⟩ := hsetup
  refine ⟨t, hexec, hans, ht, ?_, ?_, fun k => ?_, ⟨hrole, hrate, hframer, hgate, rfl, hpace, hbad⟩, hothers⟩
  · rw [hfilter]
  · rw [hfilter]
  · rw [hfilter]
    exact mem_kindSet ks k

theorem State.exec_resume (hs : s.takes q .resume) :
    ∃ t, exec (.resume q) s = .next t ∧ t.answers q .resume (Reply.done false)
      ∧ t = { s with raised := [], ports := t.ports }
      ∧ ({ (s.ports.get q.port).frameTaken with gate := .opened }).sameSetup (t.ports.get q.port)
      ∧ ∀ k, k ≠ q.port → (s.ports.get k).sameSetup (t.ports.get k)
          ∧ (t.ports.get k).outstanding = (s.ports.get k).outstanding := by
  obtain ⟨t, hexec, hans, ht, hsetup, -, hothers⟩ := State.exec_of_own (i := .resume q)
    (g := fun p => { p with gate := .opened }) hs rfl rfl rfl fun _ => rfl
  exact ⟨t, hexec, hans, ht, hsetup, hothers⟩

end

/-- Settles O43: the reports by the sections, the others by what each does to its own port or to the clock. -/
theorem readsAndPortRequests : Obligations.ReadsAndPortRequests := by
  refine ⟨fun s q => ⟨fun hs => State.exec_readFault hs, fun hs x => State.exec_readStatus hs x, fun hs x hx => ?_⟩,
    fun s q => ⟨fun hs v => State.exec_setClock hs v, fun hs ks code mask => State.exec_setFilter hs ks code mask,
      fun hs => State.exec_resume hs, fun hs => State.answeredOnly_of_serveQuiet hs rfl rfl⟩⟩
  rcases hx with rfl | rfl <;> exact State.answeredOnly_of_serveQuiet hs rfl rfl

end Sys2Proof.Machine
end

section
/-! PROOFS. Every request is answered at its event: taken, refused, or served beside the outstanding one by a RETAINING
store (R147, R150, R167). -/

namespace Sys2Proof.Machine
-- One proof at a time: under the memory limit of the check there is no room for the stacks of many threads.
set_option Elab.async false

section

variable {s t : State} {i : Instr} {q : Src} {kind : RequestKind} {handle : State → State × Reply}

/-- A request ends its event with notices, after its port has judged it. -/
theorem exec_request_finish (h : requestOf? i = some (q, kind)) (s : State) :
    ∃ ns, exec i s = .next ((s.request q kind (handlerOf s.tbu.clock i)).finish ns) := by
  rw [exec_request h]
  split
  · exact ⟨_, rfl⟩
  · exact ⟨_, rfl⟩

/-! ## A request that is taken -/

theorem State.taken_port_own : (s.taken q kind).ports.get q.port = (s.ports.get q.port).frameTaken.take q.tag kind := by
  rw [State.taken, State.onPort_get_self, State.frameTaken_port, if_pos rfl]

/-- A block that leaves the queues of the ports alone leaves its port the answer it gives (R167). -/
theorem State.hand_answers (hs : s.takes q kind) (hh : SamePorts (s.taken q kind) (handle (s.taken q kind)).1)
    (ns : List Notice) : ((s.request q kind handle).finish ns).answers q kind (handle (s.taken q kind)).2 := by
  have hreq := State.hand_eq (s := s.frameTaken q.port) (q := q) (kind := kind) (handle := handle) rfl
  rw [← State.request_of_takes hs] at hreq
  have hsame := hh q.port
  rw [State.taken_port_own] at hsame
  have hport : (s.request q kind handle).ports.get q.port
      = ((handle (s.taken q kind)).1.ports.get q.port).reply q.tag kind (handle (s.taken q kind)).2 := by
    rw [hreq, State.onPort_get_self]
  refine ⟨?_, State.finish_holdsAnswer (.inr ?_)⟩
  · rw [(State.portsNoticed_finish _ ns q.port).2, hport]
    exact hsame.outstanding
  · rw [hport]
    simp [Port.reply]

/-! ## A request that is refused -/

/-- A port with another framer, other answers and another bad-frame flag: no notice is offered to these. -/
def Port.besides (p : Port) (f : Framer) (a : List Answer) (b : Bool) : Port :=
  { p with framer := f, answers := a, badFrame := b }

theorem Port.offer_besides (p : Port) (f : Framer) (a : List Answer) (b : Bool) (n : Notice) :
    (p.besides f a b).offer n = (p.offer n).besides f a b := by
  unfold Port.offer Port.besides
  repeat' split
  all_goals first | rfl | simp_all

theorem Port.offers_besides (p : Port) (f : Framer) (a : List Answer) (b : Bool) (ns : List Notice) :
    ns.foldl Port.offer (p.besides f a b) = (ns.foldl Port.offer p).besides f a b := by
  induction ns generalizing p with
  | nil => rfl
  | cons n ns ih => rw [List.foldl_cons, Port.offer_besides, ih, List.foldl_cons]

/-- An answer beside the outstanding one changes the answers, or sets the bad-frame flag (R167). -/
theorem Port.refuse_frameTaken (p : Port) (tag : Byte) (kind : EchoKind) (code : AnswerCode) :
    ∃ a b, p.frameTaken.refuse tag kind code = p.besides .hunt a b := by
  unfold Port.refuse Port.answerAside
  split
  · exact ⟨_, _, rfl⟩
  · exact ⟨_, _, rfl⟩

/-- Fewer than 3 answers leave room for one beside the outstanding one (R167). -/
theorem Port.answerAside_of_room {p : Port} (h : p.answers.length < 3) (tag : Byte) (kind : EchoKind) (r : Reply) :
    p.answerAside tag kind r = { p with answers := p.answers ++
      [{ tag := tag, kind := kind, code := r.code, clamped := r.clamped, data := r.data, forOutstanding := false }] } :=
  if_neg (Nat.not_le.mpr h)

theorem Port.answerAside_of_full {p : Port} (h : 3 ≤ p.answers.length) (tag : Byte) (kind : EchoKind) (r : Reply) :
    p.answerAside tag kind r = { p with badFrame := true } := if_pos h

/-- A refusal's answer is plain. -/
abbrev Port.refused (p : Port) (q : Src) (kind : RequestKind) (code : AnswerCode) : Prop :=
  p.holdsAnswer
    { tag := q.tag, kind := .request kind, code := code, clamped := false, data := .none, forOutstanding := false }

/-- The port that refuses, and its answer. -/
theorem State.refuse_refused {code : AnswerCode} (h : (s.ports.get q.port).answers.length < 3) (ns : List Notice) :
    (((s.refuse q kind code).finish ns).ports.get q.port).refused q kind code := by
  refine State.finish_holdsAnswer (.inr ?_)
  rw [State.refuse, State.onPort_get_self, Port.refuse, Port.answerAside_of_room h]
  simp [Reply.plain]

/-- A refusal touches its port's answers and framer alone, where there is room for its answer. -/
theorem State.refuse_noticed {code : AnswerCode} (h : (s.ports.get q.port).answers.length < 3) (ns : List Notice) :
    s.portsNoticed ((s.refuse q kind code).finish ns) := by
  intro k
  have hnoticed := State.portsNoticed_finish (s.refuse q kind code) ns k
  by_cases hk : k = q.port
  · subst hk
    rw [State.refuse, State.onPort_get_self, Port.refuse, Port.answerAside_of_room h] at hnoticed
    exact hnoticed
  · rw [State.refuse, State.onPort_get_ne _ _ hk] at hnoticed
    exact hnoticed

/-- What the notices of an event do to the ports they do also after a refusal (R171). -/
theorem State.offered_refused {x : State} {code : AnswerCode} (hx : x.ports = (s.frameTaken q.port).ports)
    (ns : List Notice) : s.offered ((x.refuse q kind code).finish ns) (ns ++ otherNotices x.raised) := by
  intro k
  have hoffered := State.offered_finish (x.refuse q kind code) ns k
  by_cases hk : k = q.port
  · subst hk
    obtain ⟨a, b, hbesides⟩ := Port.refuse_frameTaken (s.ports.get q.port) q.tag (.request kind) code
    rw [State.refuse, State.onPort_get_self, hx, State.frameTaken_port, if_pos rfl, hbesides, Port.offers_besides] at hoffered
    exact hoffered
  · rw [State.refuse, State.onPort_get_ne _ _ hk, hx, State.frameTaken_port, if_neg hk] at hoffered
    exact hoffered

/-! ## What the port judges -/

/-- A request of a port with one outstanding is answered BUSY (R167 row 3). -/
theorem State.request_busy (hc : s.fsc.state ≠ .cold) (hr : s.fsc.state ≠ .retaining)
    (ho : (s.ports.get q.port).outstanding ≠ none) : s.request q kind handle = (s.frameTaken q.port).refuse q kind .busy := by
  have hf : (s.frameTaken q.port).fsc = s.fsc := rfl
  have ho : ((s.frameTaken q.port).ports.get q.port).outstanding.isSome = true := by
    rw [State.frameTaken_outstanding]
    exact Option.isSome_iff_ne_none.mpr ho
  unfold State.request State.judgeRequest
  rw [hf]
  cases hst : s.fsc.state with
  | cold => exact absurd hst hc
  | retaining => exact absurd hst hr
  | _ => exact if_pos ho

/-- A request outside its port's role is answered ROLE (R167 row 4). -/
theorem State.request_role (hc : s.fsc.state ≠ .cold) (hr : s.fsc.state ≠ .retaining)
    (ho : (s.ports.get q.port).outstanding = none) (hp : permits (s.ports.get q.port).role kind = false) :
    s.request q kind handle = (s.frameTaken q.port).refuse q kind .role := by
  have hf : (s.frameTaken q.port).fsc = s.fsc := rfl
  have ho : ¬ ((s.frameTaken q.port).ports.get q.port).outstanding.isSome = true := by
    rw [State.frameTaken_outstanding, ho]
    exact Bool.false_ne_true
  have hp : ¬ permits ((s.frameTaken q.port).ports.get q.port).role kind = true := by
    rw [State.frameTaken_role, hp]
    exact Bool.false_ne_true
  unfold State.request State.judgeRequest
  rw [hf]
  cases hst : s.fsc.state with
  | cold => exact absurd hst hc
  | retaining => exact absurd hst hr
  | _ => exact (if_neg ho).trans (if_neg hp)

/-- A request to a RETAINING store wakes it, and is refused but for a READ_STATUS of a port with none outstanding (R147,
R167 row 2). -/
theorem State.request_retaining (hr : s.fsc.state = .retaining)
    (h : kind ≠ .readStatus ∨ (s.ports.get q.port).outstanding ≠ none) :
    s.request q kind handle = ((s.frameTaken q.port).wake q.port).refuse q kind
      (if (s.ports.get q.port).outstanding = none then .notReady else .busy) := by
  have hf : (s.frameTaken q.port).fsc = s.fsc := rfl
  unfold State.request State.judgeRequest
  rw [hf, hr]
  dsimp only
  rw [State.frameTaken_outstanding]
  cases ho : (s.ports.get q.port).outstanding with
  | some a => rfl
  | none => exact if_neg (h.resolve_right (not_not.mpr ho))

theorem State.request_retaining_status (hr : s.fsc.state = .retaining) (ho : (s.ports.get q.port).outstanding = none) :
    s.request q .readStatus handle = ((s.frameTaken q.port).wake q.port).handAside q .readStatus handle := by
  have hf : (s.frameTaken q.port).fsc = s.fsc := rfl
  unfold State.request State.judgeRequest
  rw [hf, hr]
  dsimp only
  rw [State.frameTaken_outstanding, ho]
  rfl

end

section

variable {s : State} {i : Instr} {q : Src} {kind : RequestKind}

/-- A request that a port refuses ends its event with its answer alone. -/
theorem State.exec_refused {code : AnswerCode} (hi : requestOf? i = some (q, kind))
    (h : s.request q kind (handlerOf s.tbu.clock i) = (s.frameTaken q.port).refuse q kind code)
    (hlen : (s.ports.get q.port).answers.length < 3) (hq : s.quiet) :
    ∃ t, exec i s = .next t ∧ t = { s with ports := t.ports } ∧ (s.frameTaken q.port).portsNoticed t
      ∧ (t.ports.get q.port).refused q kind code := by
  obtain ⟨ns, hexec⟩ := exec_request_finish hi s
  rw [h] at hexec
  have hroom : ((s.frameTaken q.port).ports.get q.port).answers.length < 3 := by
    rw [State.frameTaken_port, if_pos rfl]
    exact hlen
  refine ⟨_, hexec, ?_, State.refuse_noticed hroom ns, State.refuse_refused hroom ns⟩
  have hq : s.raised = [] := hq
  generalize hports : (((s.frameTaken q.port).refuse q kind code).finish ns).ports = ports
  have heq : ((s.frameTaken q.port).refuse q kind code).finish ns
      = { s with raised := [], ports := (((s.frameTaken q.port).refuse q kind code).finish ns).ports } := rfl
  rw [heq, hports, ← hq]

/-- A RETAINING store is woken by a request that it refuses (R147, R150). -/
theorem State.exec_woken (hi : requestOf? i = some (q, kind)) (hr : s.fsc.state = .retaining)
    (h : kind ≠ .readStatus ∨ (s.ports.get q.port).outstanding ≠ none) :
    ∃ t, exec i s = .next t ∧ t = { s with raised := [], ports := t.ports, fsc := { s.fsc with state := .waking } }
      ∧ s.announced t (.store .waking .retaining .wake none (some q.port))
      ∧ ((s.ports.get q.port).answers.length < 3 → (t.ports.get q.port).refused q kind
          (if (s.ports.get q.port).outstanding = none then .notReady else .busy)) := by
  obtain ⟨ns, hexec⟩ := exec_request_finish hi s
  rw [State.request_retaining hr h] at hexec
  refine ⟨_, hexec, ?_, ⟨_, List.mem_append_right _ (mem_otherNotices.mpr ?_),
    State.offered_refused (x := (s.frameTaken q.port).wake q.port) rfl ns⟩,
    fun hlen => State.refuse_refused ?_ ns⟩
  · rfl
  · simp [State.wake, State.raise, State.onFsc]
  · change ((s.frameTaken q.port).ports.get q.port).answers.length < 3
    rw [State.frameTaken_port, if_pos rfl]
    exact hlen

theorem State.handleReadStatus_fsc (s : State) (k : PortNo) (x : Arg StatusSection) :
    (s.handleReadStatus k x).1.fsc = s.fsc := by
  unfold State.handleReadStatus
  split <;> rfl

/-- READ_STATUS is served by a RETAINING store, which it wakes, beside the outstanding request (R147). -/
theorem State.exec_statusAside (hi : requestOf? i = some (q, .readStatus)) (hr : s.fsc.state = .retaining)
    (ho : (s.ports.get q.port).outstanding = none) :
    ∃ t, exec i s = .next t ∧ t.fsc = { s.fsc with state := .waking } ∧ (t.ports.get q.port).outstanding = none
      ∧ ((s.ports.get q.port).answers.length < 3 → ∃ r : Reply, (t.ports.get q.port).holdsAnswer
          { tag := q.tag, kind := .request .readStatus, code := r.code, clamped := r.clamped, data := r.data,
            forOutstanding := false })
      ∧ (3 ≤ (s.ports.get q.port).answers.length → (t.ports.get q.port).badFrame = true) := by
  obtain ⟨ns, hexec⟩ := exec_request_finish hi s
  rw [State.request_retaining_status hr ho] at hexec
  have hfsc : (handlerOf s.tbu.clock i ((s.frameTaken q.port).wake q.port)).1.fsc = { s.fsc with state := .waking } := by
    cases i <;> cases hi
    exact State.handleReadStatus_fsc _ _ _
  have hsame := samePorts_handler s.tbu.clock i ((s.frameTaken q.port).wake q.port) q.port
  have hown : ((s.frameTaken q.port).wake q.port).ports.get q.port = (s.ports.get q.port).frameTaken := by
    change (s.frameTaken q.port).ports.get q.port = _
    rw [State.frameTaken_port, if_pos rfl]
  rw [hown] at hsame
  generalize hx : handlerOf s.tbu.clock i ((s.frameTaken q.port).wake q.port) = x at hfsc hsame
  have hport : (((s.frameTaken q.port).wake q.port).handAside q .readStatus (handlerOf s.tbu.clock i)).ports.get q.port
      = (x.1.ports.get q.port).answerAside q.tag (.request .readStatus) x.2 := by
    rw [State.handAside, hx, State.onPort_get_self]
  have hlen : (x.1.ports.get q.port).answers.length = (s.ports.get q.port).answers.length :=
    congrArg List.length hsame.answers
  have hnoticed := State.portsNoticed_finish
    (((s.frameTaken q.port).wake q.port).handAside q .readStatus (handlerOf s.tbu.clock i)) ns q.port
  rw [hport] at hnoticed
  obtain ⟨⟨-, -, -, -, -, -, hbad⟩, hout⟩ := hnoticed
  refine ⟨_, hexec, ?_, ?_, fun h3 => ⟨x.2, State.finish_holdsAnswer (.inr ?_)⟩, fun h3 => ?_⟩
  · change (((s.frameTaken q.port).wake q.port).handAside q .readStatus (handlerOf s.tbu.clock i)).fsc = _
    rw [State.handAside, hx]
    exact hfsc
  · rw [hout, Port.answerAside_outstanding, hsame.outstanding]
    exact ho
  · rw [hport, Port.answerAside_of_room (by rw [hlen]; exact h3)]
    simp
  · rw [hbad, Port.answerAside_of_full (by rw [hlen]; exact h3)]

end

/-- Settles O48: a request by what its port judges of it. -/
theorem requestsAreAnswered : Obligations.RequestsAreAnswered := by
  refine ⟨fun s i q kind hi hs => ?_, fun s i q kind hi hc hr hlen hq => ⟨fun ho => ?_, fun ho hp => ?_⟩,
    fun s i q kind hi hr => ?_⟩
  · obtain ⟨ns, hexec⟩ := exec_request_finish hi s
    exact ⟨_, _, hexec, State.hand_answers hs (samePorts_handler _ _ _) ns⟩
  · exact State.exec_refused hi (State.request_busy hc hr ho) hlen hq
  · exact State.exec_refused hi (State.request_role hc hr ho hp) hlen hq
  · by_cases h : kind ≠ .readStatus ∨ (s.ports.get q.port).outstanding ≠ none
    · obtain ⟨t, hexec, ht, hann, hrefused⟩ := State.exec_woken hi hr h
      have hfsc : t.fsc = { s.fsc with state := .waking } := by rw [ht]
      refine ⟨t, hexec, hfsc, fun _ _ => hann, fun _ => ⟨?_, hrefused⟩, fun hk ho => ?_⟩
      · rw [hfsc]
        exact ht
      · exact absurd ho (h.resolve_left (not_not.mpr hk))
    · obtain ⟨rfl, ho⟩ : kind = .readStatus ∧ (s.ports.get q.port).outstanding = none := by
        simpa using not_or.mp h
      obtain ⟨t, hexec, hfsc, hout, hroom, hfull⟩ := State.exec_statusAside hi hr ho
      exact ⟨t, hexec, hfsc, fun _ hk => absurd rfl hk, fun h' => absurd h' h, fun _ _ => ⟨hout, hroom, hfull⟩⟩

end Sys2Proof.Machine
end

section
/-! SUPPORT. What a cell's record is found to be after a change of it, by its place (R3, R9). -/

namespace Sys2Proof.Machine
-- One proof at a time: under the memory limit of the check there is no room for the stacks of many threads.
set_option Elab.async false

section

variable {s : State} {r : PlateRecord} {f : CellRecord → CellRecord} {g : PlateRecord → PlateRecord}

/-- A cell of a record that has one changed. -/
theorem PlateRecord.cell?_onCell (hf : InPlace f) (r : PlateRecord) (a b column row : Nat) :
    (r.onCell a b f).cell? column row
      = (r.cell? column row).map fun z => if column = a ∧ row = b then f z else z := by
  unfold PlateRecord.cell? PlateRecord.onCell
  dsimp only
  rw [List.find?_map]
  have hcomp : ((fun c : CellRecord => c.column == column && c.row == row)
      ∘ fun c => if c.column = a ∧ c.row = b then f c else c) = fun c => c.column == column && c.row == row := by
    funext c
    rw [Function.comp_apply]
    split
    · rw [(hf c).1, (hf c).2]
    · rfl
  rw [hcomp]
  cases hfind : r.cells.find? fun c => c.column == column && c.row == row with
  | none => rfl
  | some z =>
    have hz := List.find?_some hfind
    simp only [Bool.and_eq_true, beq_iff_eq] at hz
    rw [Option.map_some, Option.map_some, hz.1, hz.2]

theorem PlateRecord.SameCells.cell? {q : PlateRecord} (h : r.SameCells q) (column row : Nat) :
    q.cell? column row = r.cell? column row := by
  unfold PlateRecord.cell?
  rw [h.cells]

@[simp] theorem PlateRecord.cell?_settled (r : PlateRecord) (now : Seconds) (column row : Nat) :
    (r.settled now).cell? column row = r.cell? column row := (r.sameCells_settled now).cell? column row

/-- What a key finds after a change of a cell. -/
theorem State.plate?_changeCellQuiet (hg : ∀ x : PlateRecord, x.SameCells (g x)) (c : CellRef) (key : PlateKey) :
    (s.changeCellQuiet c f g).plate? key = (s.plate? key).map fun x =>
      if key = c.key then (g (x.onCell c.column c.row f)).settled s.tbu.clock else x :=
  State.plate?_onPlate s c.key (f := fun x => (g (x.onCell c.column c.row f)).settled s.tbu.clock)
    (fun _ => ((hg _).trans (PlateRecord.sameCells_settled _ _)).key) key

theorem State.plate?_changeCell (hg : ∀ x : PlateRecord, x.SameCells (g x)) (c : CellRef) (key : PlateKey) :
    (s.changeCell c f g).plate? key = (s.plate? key).map fun x =>
      if key = c.key then (g (x.onCell c.column c.row f)).settled s.tbu.clock else x := by
  rw [← State.plate?_changeCellQuiet hg]
  unfold State.plate?
  rw [changeCell_plates]

/-- What a reference finds after a change of a cell: that cell changed, every other as it was. -/
theorem State.cell?_changeCell (hf : InPlace f) (hg : ∀ x : PlateRecord, x.SameCells (g x)) (c d : CellRef) :
    (s.changeCell c f g).cell? d = (s.cell? d).map fun z => if d = c then f z else z := by
  unfold State.cell?
  rw [State.plate?_changeCell hg]
  cases hd : s.plate? d.key with
  | none => rfl
  | some x =>
    rw [Option.map_some, Option.bind_some, Option.bind_some]
    by_cases hk : d.key = c.key
    · rw [if_pos hk, PlateRecord.cell?_settled, (hg _).cell?, PlateRecord.cell?_onCell hf]
      congr 1
      funext z
      have hiff : (d.column = c.column ∧ d.row = c.row) ↔ d = c :=
        ⟨fun h => by cases d; cases c; simp_all, fun h => by rw [h]; exact ⟨rfl, rfl⟩⟩
      simp only [hiff]
    · rw [if_neg hk]
      have hne : ¬ d = c := fun e => hk (by rw [e])
      simp [hne]

theorem State.cell?_of_plate {c : CellRef} (hr : s.plate? c.key = some r) : s.cell? c = r.cell? c.column c.row := by
  rw [State.cell?, hr, Option.bind_some]

end

end Sys2Proof.Machine
end

section
/-! PROOFS. The start of a delivery stream by FETCH and by SET_DELIVERY, and what FETCH refuses (R153 to R158). -/

namespace Sys2Proof.Machine
-- One proof at a time: under the memory limit of the check there is no room for the stacks of many threads.
set_option Elab.async false

/-! ## What FETCH and SET_DELIVERY refuse -/

section

variable {s : State} {key : PlateKey} {c y : Nat} {r : PlateRecord} {x : CellRecord}

theorem State.handleFetch_missing {key : Option PlateKey} {column row : Option Nat}
    (h : key = none ∨ column = none ∨ row = none) : s.handleFetch key column row = (s, Reply.plain .field) := by
  rcases h with rfl | rfl | rfl
  · rfl
  · cases key <;> rfl
  · cases key <;> cases column <;> rfl

theorem State.handleFetch_notReady (h : s.fsc.state ≠ .ready) :
    s.handleFetch (some key) (some c) (some y) = (s, Reply.plain .notReady) := if_pos h

theorem State.handleFetch_unknown (h : s.fsc.state = .ready) (hr : s.plate? key = none) :
    s.handleFetch (some key) (some c) (some y) = (s, Reply.plain .unknown) := by
  simp [State.handleFetch, h, hr, State.answer]

theorem State.handleFetch_noCell (h : s.fsc.state = .ready) (hr : s.plate? key = some r) (hc : r.cell? c y = none) :
    s.handleFetch (some key) (some c) (some y) = (s, Reply.plain .field) := by
  simp [State.handleFetch, h, hr, hc, State.answer]

theorem State.handleFetch_auto (h : s.fsc.state = .ready) (hr : s.plate? key = some r) (hc : r.cell? c y = some x)
    (hm : s.dlt.mode = .auto) : s.handleFetch (some key) (some c) (some y) = (s, Reply.plain .state) := by
  simp [State.handleFetch, h, hr, hc, hm, State.answer]

theorem State.handleFetch_busy (h : s.fsc.state = .ready) (hr : s.plate? key = some r) (hc : r.cell? c y = some x)
    (hm : s.dlt.mode = .fetch) (ht : s.dlt.stream ≠ none) :
    s.handleFetch (some key) (some c) (some y) = (s, Reply.plain .busy) := by
  have ht := Option.isSome_iff_ne_none.mpr ht
  simp [State.handleFetch, h, hr, hc, hm, ht, State.answer]

theorem State.handleFetch_notMerged (h : s.fsc.state = .ready) (hr : s.plate? key = some r) (hc : r.cell? c y = some x)
    (hm : s.dlt.mode = .fetch) (ht : s.dlt.stream = none) (hx : x.state ≠ .merged) :
    s.handleFetch (some key) (some c) (some y) = (s, Reply.plain .state) := by
  simp [State.handleFetch, h, hr, hc, hm, ht, hx, State.answer]

theorem State.handleFetch_starts (h : s.fsc.state = .ready) (hr : s.plate? key = some r) (hc : r.cell? c y = some x)
    (hm : s.dlt.mode = .fetch) (ht : s.dlt.stream = none) (hx : x.state = .merged) :
    s.handleFetch (some key) (some c) (some y)
      = ((s.startStream ⟨key, c, y⟩).serveLink.arbitrate, Reply.done false) := by
  simp [State.handleFetch, h, hr, hc, hm, ht, hx]

end

/-! ## The start of a stream -/

section

variable {s : State} {c : CellRef} {r : PlateRecord} {x : CellRecord} {k : SlotNo}

/-- The stream of a cell at its start (R153). -/
def State.newStream (s : State) (c : CellRef) (r : PlateRecord) (x : CellRecord) (k : SlotNo) : Stream :=
  { cell := some c, slot := some k, mirrored := r.emulsion == .down, phase := .start, nextRow := 0, buffer := .empty,
    cut := false, crc := crc32Start, header := s.buildHeader r x (s.work k) }

theorem State.startStream_eq (hr : s.plate? c.key = some r) (hx : r.cell? c.column c.row = some x)
    (hk : x.slot = some k) :
    s.startStream c = ((s.dequeue c).changeCell c (fun y => { y with state := .delivering }) id).onDlt fun d =>
      { d with stream := some (s.newStream c r x k) } := by
  have hcell : s.cell? c = some x := (State.cell?_of_plate hr).trans hx
  unfold State.startStream
  rw [hr, hcell]
  dsimp only
  rw [hk]
  rfl

/-- Nothing is asked of the store before the header (R157). -/
theorem Stream.askRow_of_start {t : Stream} (h : t.phase = .start) (n : Nat) : t.askRow n = t := by
  simp [Stream.askRow, h]

/-- The link after the start of a stream: START on a free one where READY is high (R153, R157). -/
theorem Dlt.sendNext_of_start {d : Dlt} {t : Stream} (hs : d.stream = some t) (hp : t.phase = .start) :
    d.sendNext.stream = some t ∧ d.sendNext.mode = d.mode ∧ d.sendNext.queue = d.queue
      ∧ (d.link = none → d.sendNext.link = if d.ready then some { content := .start, live := true } else none) := by
  have hn : t.nextUnit? = some .start := by simp [Stream.nextUnit?, hp]
  cases hl : d.link with
  | some u => simp [Dlt.sendNext, hl, hs]
  | none => cases hr : d.ready <;> simp [Dlt.sendNext, hl, hs, hr, hn]

/-- What a started stream leaves (R153, R156 to R158). -/
abbrev State.streamStarted (s t : State) (c : CellRef) (r : PlateRecord) (x : CellRecord) (k : SlotNo) : Prop :=
  t.cell? c = some { x with state := .delivering } ∧ t.dlt.queue = s.dlt.queue.filter (fun y => y != c)
    ∧ t.dlt.stream = some (s.newStream c r x k)
    ∧ (s.dlt.link = none → t.dlt.link = if s.dlt.ready then some { content := .start, live := true } else none)
    ∧ s.tablesKept t ∧ t.dlt.mode = s.dlt.mode

theorem State.startStream_started (hr : s.plate? c.key = some r) (hx : r.cell? c.column c.row = some x)
    (hk : x.slot = some k) : s.streamStarted (s.startStream c).serveLink.arbitrate c r x k := by
  have hstart := State.startStream_eq hr hx hk
  have hdlt : (s.startStream c).dlt = { s.dlt with
      queue := s.dlt.queue.filter fun y => y != c, stream := some (s.newStream c r x k) } := by
    rw [hstart]
    simp [State.onDlt, State.dequeue]
  obtain ⟨hstream, hmode, hqueue, hlink⟩ := Dlt.sendNext_of_start (d := (s.startStream c).dlt)
    (t := s.newStream c r x k) (by rw [hdlt]) rfl
  have hserved : (s.startStream c).serveLink.arbitrate.dlt = { (s.startStream c).dlt.sendNext with
      stream := some (s.newStream c r x k) } := by
    simp only [State.arbitrate_frame, State.serveLink, State.onDlt]
    rw [hstream, Option.map_some, Stream.askRow_of_start rfl]
  have hcell : (s.startStream c).serveLink.arbitrate.cell? c = some { x with state := .delivering } := by
    have hplates : (s.startStream c).serveLink.arbitrate.plates
        = ((s.dequeue c).changeCell c (fun y => { y with state := .delivering }) id).plates := by
      rw [hstart]
      simp [State.serveLink, State.onDlt]
    have hfound : (s.dequeue c).cell? c = some x := (State.cell?_of_plate (s := s.dequeue c) hr).trans hx
    rw [State.cell?, State.plate?, hplates]
    refine (State.cell?_changeCell (s := s.dequeue c) (f := fun y => { y with state := .delivering })
      (fun _ => ⟨rfl, rfl⟩) PlateRecord.sameCells_id c c).trans ?_
    rw [hfound, Option.map_some, if_pos rfl]
  refine ⟨hcell, ?_, ?_, fun hl => ?_, ?_, ?_⟩
  · rw [hserved]
    exact hqueue.trans (by rw [hdlt])
  · rw [hserved]
  · rw [hserved]
    refine (hlink (by rw [hdlt]; exact hl)).trans ?_
    rw [hdlt]
  · rw [hstart]
    simp [State.tablesKept, State.serveLink]
  · rw [hserved]
    exact hmode.trans (by rw [hdlt])

/-- The stream of a merged cell at its start, with the header that its record gives (R158). -/
theorem State.newStream_header (hr : s.plate? c.key = some r) (hx : r.cell? c.column c.row = some x) {m : Summary}
    {first final : Seconds} {qceil : Nat} (hm : (s.work k).summary = some m) (hf : (s.work k).firstTrigger = some first)
    (hl : (s.work k).finalizeTime = some final) (hq : (s.work k).qceil = some qceil) :
    (s.newStream c r x k).header =
      { key := c.key, column := if r.emulsion = .down then r.columns - 1 - c.column else c.column
        row := c.row, tryNumber := x.triesUsed, profile := r.profile, handling := r.handling
        emulsion := r.emulsion, width := s.geometry.width, height := s.geometry.height
        exposuresMerged := m.exposuresMerged, extensionUsed := m.extensionUsed, firstTrigger := first
        finalizeTime := final, clipLight := m.clipLight, clipDark := m.clipDark, dead := m.dead
        tornRows := m.tornRows, qceil := qceil, histogram := (s.work k).histogram } := by
  obtain ⟨hcol, hrow⟩ := PlateRecord.place_of_cell? hx
  simp [State.newStream, State.buildHeader, hm, hf, hl, hq, State.key_of_plate? hr, hcol, hrow, deliveredColumn]

end

/-- Settles O45: FETCH by its refusals in order, and both ways in which a stream starts. -/
theorem streamsStart : Obligations.StreamsStart := by
  refine ⟨fun s q hs => ⟨fun key column row h => ?_, fun key c y => ⟨fun h => ?_, fun h hr => ?_, fun r h hr =>
      ⟨fun hc => ?_, fun x hc => ⟨fun hm => ?_, fun hm ht => ?_, fun hm ht hx => ?_⟩⟩⟩⟩,
    fun s q mode hs hmode => ?_, fun s q c r x k hready hstream hr hx hmerged hslot => ?_⟩
  · exact State.answeredOnly_of_serve hs rfl (State.handleFetch_missing h)
  · exact State.answeredOnly_of_serve hs rfl (State.handleFetch_notReady (s := s.taken q .fetch) h)
  · exact State.answeredOnly_of_serve hs rfl (State.handleFetch_unknown (s := s.taken q .fetch) h hr)
  · exact State.answeredOnly_of_serve hs rfl (State.handleFetch_noCell (s := s.taken q .fetch) h hr hc)
  · exact State.answeredOnly_of_serve hs rfl (State.handleFetch_auto (s := s.taken q .fetch) h hr hc hm)
  · exact State.answeredOnly_of_serve hs rfl (State.handleFetch_busy (s := s.taken q .fetch) h hr hc hm ht)
  · exact State.answeredOnly_of_serve hs rfl (State.handleFetch_notMerged (s := s.taken q .fetch) h hr hc hm ht hx)
  · rcases hmode with rfl | rfl <;> exact State.answeredOnly_of_serve hs rfl rfl
  · have hheader (m first final qceil) := State.newStream_header (m := m) (first := first) (final := final)
      (qceil := qceil) (k := k) hr hx
    refine ⟨fun hs hm => ?_, fun hs hm => ?_, fun rest hs hqueue => ?_, fun hs => ?_⟩
    · have hstarted := State.startStream_started (s := s.taken q .fetch) hr hx hslot
      obtain ⟨t, hexec, hserved, ht, -⟩ := State.exec_of_serve
        (i := .fetch q (some c.key) (some c.column) (some c.row)) hs rfl
        (State.handleFetch_starts (s := s.taken q .fetch) hready hr hx hm hstream hmerged)
        (by simp [State.serveLink])
      obtain ⟨hcell, hq, hz, hlink, htables, hmode⟩ := hstarted
      refine ⟨t, hexec, hserved, ?_⟩
      rw [ht]
      exact ⟨⟨hcell, hq, ⟨_, hz, rfl, rfl, rfl, rfl, rfl, rfl, rfl, rfl, hheader⟩, hlink, htables⟩, hmode.trans hm⟩
    · exact State.answeredOnly_of_serve hs rfl (State.handleFetch_auto (s := s.taken q .fetch) hready hr hx hm)
    · have hauto : ((s.taken q .setDelivery).onDlt fun d => { d with mode := .auto }).autoStream
          = ((s.taken q .setDelivery).onDlt fun d => { d with mode := .auto }).startStream c := by
        simp [State.autoStream, State.onDlt, hstream, hqueue, hready]
      have hhandle : (s.taken q .setDelivery).handleSetDelivery (.given .auto)
          = ((((s.taken q .setDelivery).onDlt fun d => { d with mode := .auto }).startStream c).serveLink.arbitrate,
            Reply.done false) := by
        unfold State.handleSetDelivery State.pollDelivery
        dsimp only
        rw [hauto]
      have hstarted := State.startStream_started
        (s := (s.taken q .setDelivery).onDlt fun d => { d with mode := .auto }) hr hx hslot
      obtain ⟨t, hexec, hserved, ht, -⟩ := State.exec_of_serve (i := .setDelivery q (.given .auto)) hs rfl hhandle
        (by simp [State.serveLink])
      obtain ⟨hcell, hq, hz, hlink, htables, hmode⟩ := hstarted
      refine ⟨t, hexec, hserved, ?_⟩
      rw [ht]
      exact ⟨⟨hcell, hq, ⟨_, hz, rfl, rfl, rfl, rfl, rfl, rfl, rfl, rfl, hheader⟩, hlink, htables⟩, hmode⟩
    · obtain ⟨t, hexec, hserved, ht, -⟩ := State.exec_of_serve (i := .setDelivery q (.given .fetch)) hs rfl rfl rfl
      refine ⟨t, hexec, hserved, ?_⟩
      rw [ht]
      exact ⟨rfl, rfl, rfl, rfl, rfl, rfl, rfl, rfl, rfl, fun _ => rfl⟩

end Sys2Proof.Machine
end

section
/-! SUPPORT. What a claim leaves, block by block (R17, R42, R43, R67, R139), the event that makes it, and the notices of
a record whose one cell changes (R4). -/

namespace Sys2Proof.Machine
-- One proof at a time: under the memory limit of the check there is no room for the stacks of many threads.
set_option Elab.async false

/-! ## What a claim leaves -/

section

variable {s : State} {r : PlateRecord} {c : CellRef} {k : SlotNo}

theorem State.claim_fsc : (s.claim r c k).fsc = { s.fsc with
    held := setAt s.fsc.held k true, holders := setAt s.fsc.holders k (some c) } := rfl

theorem State.claim_csq : (s.claim r c k).csq = { s.csq with
    state := .moving, ctx := some (s.freshContext r c k), frameReported := false
    moveCounter := s.csq.moveCounter + 1
    move := some { number := s.csq.moveCounter + 1, cell := c, status := .moving } } := rfl

theorem State.claim_timer : (s.claim r c k).tbu.timers.move = some (s.settings.moveTimeout * 1000000) := rfl

theorem State.claim_raised : (s.claim r c k).raised = s.raised ++ [.moveTo c r.handling (s.csq.moveCounter + 1)] := rfl

/-- A slot's record after a claim: cleared afresh for the cell, or as it was (R67). -/
theorem State.claim_work (j : SlotNo) : (s.claim r c k).work j = if j = k then
    { WorkRecord.freed with
      state := .clearing, owner := some c, satThreshold := (s.profiles.get r.profile).satThreshold
      noiseFloor := (s.profiles.get r.profile).noiseFloor }
    else s.work j := by
  have hwork : (s.claim r c k).mge.work = setAt s.mge.work k { WorkRecord.freed with
      state := .clearing, owner := some c, satThreshold := (s.profiles.get r.profile).satThreshold
      noiseFloor := (s.profiles.get r.profile).noiseFloor } := rfl
  unfold State.work
  rw [hwork]
  by_cases h : j = k
  · rw [if_pos h, h, setAt_get_self]
  · rw [if_neg h, setAt_get_ne _ _ (Ne.symm h)]

/-- The cell that is claimed is EXPOSING in the slot; every other is as it was. -/
theorem State.claim_cell? (d : CellRef) : (s.claim r c k).cell? d
    = (s.cell? d).map fun z => if d = c then { z with state := .exposing, slot := some k } else z := by
  have hplates : (s.claim r c k).plates
      = (s.changeCell c (fun y => { y with state := .exposing, slot := some k }) id).plates := by
    rw [changeCell_plates]
    rfl
  rw [State.cell?, State.plate?, hplates]
  exact State.cell?_changeCell (s := s) (f := fun y => { y with state := .exposing, slot := some k })
    (fun _ => ⟨rfl, rfl⟩) PlateRecord.sameCells_id c d

/-- The free slot that is taken is the lowest one (R139). -/
theorem State.freeSlot?_eq_some_iff : s.freeSlot? = some k
    ↔ s.fsc.held.get k = false ∧ ∀ j : SlotNo, j < k → s.fsc.held.get j = true := by
  unfold State.freeSlot?
  rw [List.find?_eq_some_iff_getElem]
  simp only [Bool.not_eq_true', List.getElem_finRange, Bool.not_eq_false', List.length_finRange]
  constructor
  · rintro ⟨hk, i, hi, rfl, hlow⟩
    exact ⟨hk, fun j hj => by simpa using hlow j.val hj⟩
  · rintro ⟨hk, hlow⟩
    exact ⟨hk, k.val, k.isLt, rfl, fun j hj => by simpa using hlow ⟨j, hj.trans k.isLt⟩ hj⟩

/-- The slot that is taken is free, and no lower one is (R139). -/
theorem State.exists_freeSlot? (h : s.fsc.held.get k = false) : ∃ j, s.freeSlot? = some j := by
  cases hf : s.freeSlot? with
  | some j => exact ⟨j, rfl⟩
  | none => exact absurd h (by simpa using List.find?_eq_none.mp hf k (List.mem_finRange k))

end

/-! ## The event that claims -/

section

variable {s : State} {r : PlateRecord} {p : Nat × Nat} {k : SlotNo}

/-- Where a claim is waited for and all that it needs is there, it is made (R42). -/
theorem State.pollSlot_claims (hq : s.csq.state = .awaitSlot) (hr : s.capturable? = some r)
    (hl : s.plr.link ≠ .dropped) (hh : r.holds.any = false) (ha : s.claimAllowed = true)
    (he : s.anyCell (· == .exposing) = false) (hp : r.nextCell? = some p) (hk : s.freeSlot? = some k) :
    s.pollSlot = s.claim r ⟨r.key, p.1, p.2⟩ k := by
  simp [State.pollSlot, hq, hr, hl, hh, ha, he, hp, hk]

/-- From IDLE the claim is waited for where its conditions hold and no hold reason does (R41). -/
theorem State.pollIdle_waits (hq : s.csq.state = .idle) (hr : s.capturable? = some r) (hs : s.startConditions = true)
    (hh : r.holds.any = false) : s.pollIdle = s.setCsq .awaitSlot := by
  simp [State.pollIdle, hq, hr, hs, hh]

/-- Without a plate to capture nothing begins (R41). -/
theorem State.pollIdle_nothing (hr : s.capturable? = none) : s.pollIdle = s := by
  unfold State.pollIdle
  rw [hr]
  cases s.csq.state <;> rfl

theorem State.capturable?_eq_none : s.capturable? = none
    ↔ ∀ x ∈ s.plates, x.seated = true → x.state = .active → x.hasPending = false := by
  simp [State.capturable?, and_assoc]

/-- A register's one seated record is the one that can be captured (R7, R17). -/
theorem State.capturable?_of_plate (hlaw : s.registerLaw) (hr : r ∈ s.plates) (hs : r.seated = true)
    (ha : r.state = .active) (hp : r.hasPending = true) : s.capturable? = some r := by
  cases hc : s.capturable? with
  | none =>
    have hno := State.capturable?_eq_none.mp hc r hr hs ha
    rw [hp] at hno
    cases hno
  | some x =>
    obtain ⟨hx, hseat, -, -⟩ := State.capturable?_spec hc
    rw [eq_of_countP_le_one hlaw.2.2 hx hr hseat hs]

theorem State.anyExposing_eq_false : s.anyCell (· == .exposing) = false
    ↔ ∀ y ∈ s.plates, ∀ c ∈ y.cells, c.state ≠ .exposing := by
  simp [State.anyCell]

theorem PlateRecord.nextCell?_eq : r.nextCell?
    = (serpentine r.columns r.rows).find? fun p => (r.cell? p.1 p.2).map (·.state) == some .pending := by
  unfold PlateRecord.nextCell?
  congr 1
  funext p
  cases r.cell? p.1 p.2 with
  | none => rfl
  | some c => simp

end

/-! ## The notices of one changed cell -/

section

theorem serpentine_nodup (columns rows : Nat) : (serpentine columns rows).Nodup := by
  unfold serpentine
  refine List.nodup_flatMap.mpr ⟨fun y _ => ?_, ?_⟩
  · have hinj : Function.Injective fun c : Nat => (c, y) := fun a b h => (Prod.ext_iff.mp h).1
    split
    · exact List.nodup_range.map hinj
    · exact (List.nodup_reverse.mpr List.nodup_range).map hinj
  · refine List.nodup_range.imp ?_
    intro a b hab
    refine List.disjoint_left.mpr fun p hp hq => hab ?_
    obtain ⟨_, -, rfl⟩ := List.mem_map.mp hp
    obtain ⟨_, -, h⟩ := List.mem_map.mp hq
    exact (Prod.ext_iff.mp h).2.symm

/-- Of a list without repetitions the one element that gives something. -/
theorem filterMap_of_only {α β : Type} {l : List α} {f : α → Option β} {a : α} {b : β} (hn : l.Nodup) (ha : a ∈ l)
    (hf : f a = some b) (honly : ∀ x ∈ l, x ≠ a → f x = none) : l.filterMap f = [b] := by
  obtain ⟨l1, l2, rfl⟩ := List.append_of_mem ha
  obtain ⟨-, h2, hdisj⟩ := List.nodup_append.mp hn
  have hne1 : ∀ x ∈ l1, x ≠ a := fun x hx e => hdisj x hx a (by simp) e
  have hne2 : ∀ x ∈ l2, x ≠ a := fun x hx e => (List.nodup_cons.mp h2).1 (e ▸ hx)
  rw [List.filterMap_append, List.filterMap_cons, hf,
    List.filterMap_eq_nil_iff.mpr fun x hx => honly x (by simp [hx]) (hne1 x hx),
    List.filterMap_eq_nil_iff.mpr fun x hx => honly x (by simp [hx]) (hne2 x hx), List.nil_append]

variable {base : List PlateRecord} {old new : PlateRecord} {f : CellRecord → CellRecord} {p : Nat × Nat} {x : CellRecord}

/-- A record whose one cell has changed raises that cell's notice alone (R4). -/
theorem cellNotices_one (hbase : baseOf base new.key = some old)
    (hw : ¬ (old.state ≠ .withdrawn ∧ new.state = .withdrawn))
    (hcells : ∀ i j, new.cell? i j = (old.cell? i j).map fun z => if i = p.1 ∧ j = p.2 then f z else z)
    (hp : p ∈ serpentine new.columns new.rows) (hx : old.cell? p.1 p.2 = some x) (hchanged : x.changed (f x) = true) :
    cellNotices base new = [(f x).notice new.key] := by
  unfold cellNotices
  rw [hbase]
  dsimp only
  rw [if_neg hw]
  refine filterMap_of_only (serpentine_nodup _ _) hp ?_ fun y hy hne => ?_
  · rw [hcells, hx]
    simp [hchanged]
  · have hne : ¬ (y.1 = p.1 ∧ y.2 = p.2) := fun h => hne (Prod.ext h.1 h.2)
    rw [hcells]
    cases old.cell? y.1 y.2 with
    | none => rfl
    | some z => simp [hne, CellRecord.changed]

/-- A record that becomes ACTIVE raises its notice (R4). -/
theorem plateNotices_active (hbase : baseOf base new.key = some old) (hn : new.state = .active) (ho : old.state ≠ .active) :
    plateNotices base new = [new.notice .active false] := by
  unfold plateNotices
  rw [hbase]
  dsimp only
  rw [hn, if_neg ho]
  simp

end

end Sys2Proof.Machine
end

section
/-! PROOFS. SEATED, and the claim that it leads to (R7, R17, R42, R43, R122). -/

namespace Sys2Proof.Machine
-- One proof at a time: under the memory limit of the check there is no room for the stacks of many threads.
set_option Elab.async false

/-! ## What a claim's test leaves of a record -/

section

variable {s : State} {key : PlateKey} {r : PlateRecord}

/-- A claim's test changes of a record its cells at most. -/
theorem State.plate?_pollSlot_eq (hlaw : s.registerLaw) (hr : s.plate? key = some r) :
    ∃ cells, s.pollSlot.plate? key = some { r with cells := cells } := by
  rcases s.pollSlot_cases with h | h | h | ⟨r', p, k, hr', hp, -, h⟩
  · exact ⟨r.cells, by rw [h]; exact hr⟩
  · exact ⟨r.cells, by rw [h]; exact hr⟩
  · exact ⟨r.cells, by rw [h]; exact hr⟩
  · rw [h, State.plate?_claim, hr, Option.map_some]
    split
    · rename_i hcell
      have hkey : key = r'.key := hcell
      obtain ⟨hmem, -, hactive, -⟩ := State.capturable?_spec hr'
      obtain rfl : r' = r := by
        have hfound := State.plate?_of_mem hlaw.2.1 hmem
        rw [← hkey, hr] at hfound
        exact (Option.some.inj hfound).symm
      obtain ⟨c, hc, -⟩ := PlateRecord.nextCell?_spec hp
      rw [PlateRecord.settled_exposing hactive hc rfl]
      exact ⟨_, rfl⟩
    · exact ⟨r.cells, rfl⟩

/-- The test in IDLE changes the sequencer's state alone. -/
theorem State.pollIdle_eq (s : State) : s.pollIdle = { s with csq := s.pollIdle.csq } := by
  unfold State.pollIdle
  repeat' split
  all_goals rfl

theorem State.pollIdle_plates (s : State) : s.pollIdle.plates = s.plates := by rw [State.pollIdle_eq]

theorem State.pollIdle_capturable? (s : State) : s.pollIdle.capturable? = s.capturable? := by
  unfold State.capturable?
  rw [State.pollIdle_plates]

/-- A claim's test leaves alone the records of the keys that none can be captured under. -/
theorem State.plate?_pollSlot_ne (h : ∀ x, s.capturable? = some x → x.key ≠ key) :
    s.pollSlot.plate? key = s.plate? key := by
  rcases s.pollSlot_cases with h' | h' | h' | ⟨r', p, k, hr', -, -, h'⟩
  · rw [h']
  · rw [h']
    rfl
  · rw [h']
    rfl
  · have hne : ¬ key = (⟨r'.key, p.1, p.2⟩ : CellRef).key := (h r' hr').symm
    rw [h', State.plate?_claim]
    simp only [if_neg hne, Option.map_id']

end

/-! ## The seat -/

section

variable {s : State} {key : PlateKey} {r : PlateRecord}

/-- The plate of a key becomes ACTIVE with its seat (R7). -/
abbrev PlateRecord.seatActivates (r : PlateRecord) : Prop :=
  (r.state = .enrolled ∨ r.state = .captured) ∧ r.hasPending = true

/-- The register with the plate seated, before the sequencer's tests. -/
def State.seatBegun (s : State) (r : PlateRecord) : State :=
  if (r.seat s.tbu.clock (s.ltc.lamp == .failed)).state = .active then
    (s.onPlate r.key fun y => y.seat s.tbu.clock (s.ltc.lamp == .failed)).lampSwitchOn
  else s.onPlate r.key fun y => y.seat s.tbu.clock (s.ltc.lamp == .failed)

theorem State.seatPlate_eq (s : State) (r : PlateRecord) :
    s.seatPlate r = (s.seatBegun r).pollIdle.pollSlot.arbitrate := rfl

/-- What a seat touches: the register, and the lamp with its timers where it is lit (R7, R122). -/
theorem State.seatBegun_eq (s : State) (r : PlateRecord) : s.seatBegun r = { s with
    raised := (s.seatBegun r).raised
    plates := (s.onPlate r.key fun y => y.seat s.tbu.clock (s.ltc.lamp == .failed)).plates
    ltc := (s.seatBegun r).ltc
    tbu := { s.tbu with timers := (s.seatBegun r).tbu.timers } } := by
  unfold State.seatBegun State.lampSwitchOn
  repeat' split
  all_goals rfl

theorem State.handleSeated_taken (hw : r.state ≠ .withdrawn) (hseat : ∀ x ∈ s.plates, x.seated = false)
    (hmem : r ∈ s.plates) (hop : s.cal.op = none) : s.handleSeated r = (s.seatPlate r, Reply.done false) := by
  have h1 : s.anySeated = false := by simpa [State.anySeated] using hseat
  simp [State.handleSeated, hw, hseat r hmem, h1, State.calibrating, hop]

theorem State.handleSeated_busy (hw : r.state ≠ .withdrawn) (hseat : r.seated = false)
    (h : s.plates.any (fun x => x.seated) = true ∨ s.cal.op ≠ none) : s.handleSeated r = (s, Reply.plain .busy) := by
  unfold State.handleSeated
  rw [if_neg hw, hseat, if_neg Bool.false_ne_true]
  by_cases hany : s.anySeated = true
  · exact if_pos hany
  · rw [if_neg hany]
    exact if_pos (by simpa [State.calibrating] using Option.isSome_iff_ne_none.mpr (h.resolve_left hany))

theorem PlateRecord.seat_state_active (h : r.seatActivates) (now : Seconds) (failed : Bool) :
    (r.seat now failed).state = .active := if_pos h

theorem PlateRecord.seat_state_other (h : ¬ r.seatActivates) (now : Seconds) (failed : Bool) :
    (r.seat now failed).state = r.state := if_neg h

/-- The lamp is lit for an entry to ACTIVE (R122). -/
theorem State.seatBegun_lit (h : r.seatActivates) (hoff : s.ltc.lamp = .off) :
    s.seatBegun r = (s.onPlate r.key fun y => y.seat s.tbu.clock (s.ltc.lamp == .failed)).lampWarm .switchOn := by
  unfold State.seatBegun
  rw [if_pos (PlateRecord.seat_state_active h _ _)]
  exact State.lampSwitchOn_of_off hoff

/-- The plate seated is the only one that can be captured after its seat (R1, R7). -/
theorem State.capturable?_seatBegun {x : PlateRecord} (hseat : ∀ y ∈ s.plates, y.seated = false)
    (h : (s.seatBegun r).capturable? = some x) : x.key = r.key := by
  obtain ⟨hmem, hx, -, -⟩ := State.capturable?_spec h
  rw [State.seatBegun_eq] at hmem
  obtain ⟨y, hy, rfl⟩ := List.mem_map.mp hmem
  by_cases hk : y.key = r.key
  · rw [if_pos hk]
    exact hk
  · rw [if_neg hk, hseat y hy] at hx
    cases hx

end

section

variable {s : State} {q : Src} {key : PlateKey} {r : PlateRecord}

/-- The event of SEATED for a plate that is seated by it. -/
theorem State.exec_seated (hs : s.takes q .seated) (hr : s.plate? key = some r) (hw : r.state ≠ .withdrawn)
    (hseat : ∀ x ∈ s.plates, x.seated = false) (hop : s.cal.op = none) :
    ∃ t, exec (.seated q (some key)) s = .next t ∧ s.served t q .seated (Reply.done false)
      ∧ t = { ((s.taken q .seated).seatBegun r).pollIdle.pollSlot.arbitrate with raised := [], ports := t.ports }
      ∧ s.offered t (registerNotices s.plates ((s.taken q .seated).seatBegun r).pollIdle.pollSlot.plates
          ++ otherNotices ((s.taken q .seated).seatBegun r).pollIdle.pollSlot.raised) := by
  have hhandle : (s.taken q .seated).withPlate (some key) (s.taken q .seated).handleSeated
      = ((s.taken q .seated).seatPlate r, Reply.done false) := by
    rw [State.withPlate_some (s := s.taken q .seated) hr]
    exact State.handleSeated_taken (s := s.taken q .seated) hw hseat (State.mem_of_plate? hr) hop
  obtain ⟨t, hexec, hserved, ht, hoff⟩ := State.exec_of_serve (i := .seated q (some key)) hs rfl hhandle
    (by rw [State.seatPlate_eq, State.seatBegun_eq]; simp)
  rw [State.seatPlate_eq] at ht hoff
  refine ⟨t, hexec, hserved, ht, ?_⟩
  simpa using hoff

/-- The notice of a seat that leaves the plate's state, and UNLOAD for a CAPTURED one (R4). -/
theorem registerNotices_seated (hn : (s.plates.map (·.key)).Nodup) (hr : s.plate? key = some r) (hu : r.seated = false)
    (h : ¬ r.seatActivates) (now : Seconds) (failed : Bool) :
    registerNotices s.plates (s.onPlate key fun y => y.seat now failed).plates
      = .plate key r.state true { r.holds with lamp := r.holds.lamp || failed } r.kept r.failed false
        :: if r.state = .captured then [.unload key] else [] := by
  have hkey : r.key = key := State.key_of_plate? hr
  have hstate := PlateRecord.seat_state_other h now failed
  have hbase : baseOf s.plates (r.seat now failed).key = some r := by
    rw [show (r.seat now failed).key = key from hkey]
    exact hr
  refine (registerNotices_changed (f := fun y => y.seat now failed) (fun _ => rfl) hn hr).trans ?_
  rw [cellNotices_of_cells hbase rfl, plateNotices_of_state hbase hstate.symm, List.nil_append,
    if_pos (.inl (by rw [hu]; exact Bool.false_ne_true)), hstate, hu, PlateRecord.notice]
  have hunload : unloadNotice (r.seat now failed) = [.unload key] := by simp [unloadNotice, PlateRecord.seat, hkey]
  simp only [hunload, and_true]
  rw [← hkey]
  rfl

/-- SEATED for a plate that is seated by it (R7, R122). -/
theorem State.seated_effects (hs : s.takes q .seated) (hlaw : s.registerLaw) (hr : s.plate? key = some r)
    (hw : r.state ≠ .withdrawn) (hseat : ∀ x ∈ s.plates, x.seated = false) (hop : s.cal.op = none) :
    ∃ t x, exec (.seated q (some key)) s = .next t ∧ s.served t q .seated (Reply.done false)
      ∧ t.plate? key = some x ∧ x.seated = true ∧ (r.seatActivates → x.state = .active)
      ∧ (¬ r.seatActivates → x.state = r.state) ∧ x.firstSeat = some (r.firstSeat.getD s.tbu.clock)
      ∧ x.holds = { r.holds with lamp := r.holds.lamp || s.ltc.lamp == .failed }
      ∧ (r.seatActivates → s.ltc.lamp = .off → t.ltc.lamp = .warming ∧ t.ltc.drive = s.settings.lampLevel)
      ∧ (¬ r.seatActivates → r.state ≠ .active → s.csq.state = .idle → s.quiet → s.offered t
          (.plate key r.state true x.holds r.kept r.failed false :: if r.state = .captured then [.unload key] else []))
      ∧ (∀ other, other ≠ key → t.plate? other = s.plate? other) ∧ s.tablesKept t := by
  obtain ⟨t, hexec, hserved, ht, hoff⟩ := State.exec_seated hs hr hw hseat hop
  have hkey : r.key = key := State.key_of_plate? hr
  have hunseated : r.seated = false := hseat r (State.mem_of_plate? hr)
  have hbegun := (s.taken q .seated).seatBegun_eq r
  have hlit := State.seatBegun_lit (s := s.taken q .seated) (r := r)
  have honly (y : PlateRecord) (h : ((s.taken q .seated).seatBegun r).capturable? = some y) : y.key = r.key :=
    State.capturable?_seatBegun (s := s.taken q .seated) hseat h
  have hother : ¬ r.seatActivates → ((s.taken q .seated).seatBegun r).raised = s.raised ∨ r.state = .active := fun h => by
    by_cases ha : r.state = .active
    · exact .inr ha
    · refine .inl ?_
      rw [State.seatBegun, if_neg (by rw [PlateRecord.seat_state_other h]; exact ha)]
      rfl
  generalize (s.taken q .seated).seatBegun r = x at ht hoff hbegun hlit honly hother
  have hplates : x.plates = (s.onPlate key fun y => y.seat s.tbu.clock (s.ltc.lamp == .failed)).plates := by
    rw [hbegun, ← hkey]
    rfl
  have hlaw' : x.registerLaw := by
    unfold State.registerLaw
    rw [hplates]
    exact (RegisterMove.seat key s.tbu.clock (s.ltc.lamp == .failed) rfl (by simpa [State.anySeated] using hseat)).registerLaw
      hlaw
  have hfound (other : PlateKey) : x.pollIdle.plate? other
      = (s.onPlate key fun y => y.seat s.tbu.clock (s.ltc.lamp == .failed)).plate? other := by
    simp only [State.plate?, State.pollIdle_plates, hplates]
  have hself : x.pollIdle.plate? key = some (r.seat s.tbu.clock (s.ltc.lamp == .failed)) := by
    rw [hfound, State.plate?_onPlate_self s (f := fun y => y.seat s.tbu.clock (s.ltc.lamp == .failed)) (fun _ => rfl) hr]
  have hlaw'' : x.pollIdle.registerLaw := by
    unfold State.registerLaw
    rw [State.pollIdle_plates]
    exact hlaw'
  obtain ⟨cells, hcells⟩ := State.plate?_pollSlot_eq hlaw'' hself
  have htplates : t.plates = x.pollIdle.pollSlot.plates := by
    rw [ht]
    simp
  have htfound (other : PlateKey) : t.plate? other = x.pollIdle.pollSlot.plate? other := by
    simp only [State.plate?, htplates]
  refine ⟨t, { r.seat s.tbu.clock (s.ltc.lamp == .failed) with cells := cells }, hexec, hserved,
    (htfound key).trans hcells, rfl,
    fun h => PlateRecord.seat_state_active h s.tbu.clock (s.ltc.lamp == .failed),
    fun h => PlateRecord.seat_state_other h s.tbu.clock (s.ltc.lamp == .failed), rfl, rfl, fun h hoff => ?_, fun h ha hidle hq => ?_, fun other hne => ?_, ?_⟩
  · rw [ht]
    simp only [State.arbitrate_frame, State.pollSlot_frame, State.pollIdle_frame]
    rw [hlit h hoff]
    exact ⟨rfl, rfl⟩
  · have hnone : x.capturable? = none := by
      cases hc : x.capturable? with
      | none => rfl
      | some y =>
        obtain ⟨hmem, -, hactive, -⟩ := State.capturable?_spec hc
        have hy := State.plate?_of_mem hlaw'.2.1 hmem
        rw [honly y hc, hkey] at hy
        have hxself : x.plate? key = some (r.seat s.tbu.clock (s.ltc.lamp == .failed)) := by
          simpa only [State.plate?, State.pollIdle_plates] using hself
        rw [hxself] at hy
        rw [← Option.some.inj hy, PlateRecord.seat_state_other h] at hactive
        exact absurd hactive ha
    have hcsq : x.csq.state = .idle := by
      rw [hbegun]
      exact hidle
    have hq : s.raised = [] := hq
    rw [State.pollIdle_nothing hnone, State.pollSlot_of_state (by rw [hcsq]; exact CsqState.noConfusion), hplates,
      (hother h).resolve_right ha, hq, otherNotices_nil, List.append_nil,
      registerNotices_seated hlaw.2.1 hr hunseated h] at hoff
    exact hoff
  · have hne' (y : PlateRecord) (hy : x.pollIdle.capturable? = some y) : y.key ≠ other := by
      rw [State.pollIdle_capturable?] at hy
      rw [honly y hy, hkey]
      exact hne.symm
    rw [htfound, State.plate?_pollSlot_ne hne', hfound,
      State.plate?_onPlate_ne s (f := fun y => y.seat s.tbu.clock (s.ltc.lamp == .failed)) (fun _ => rfl) hne]
  · have htables : s.tablesKept x := by
      rw [hbegun]
      exact ⟨rfl, rfl, rfl, rfl, rfl, rfl, rfl, fun _ => rfl⟩
    rw [ht]
    simpa [State.tablesKept] using htables

end

/-- Settles O30: the seat by the sequencer's tests that follow it, and the refusals. -/
theorem seatedSeatsPlate : Obligations.SeatedSeatsPlate := by
  intro s q key r hs hlaw hr
  have hwith {a : State × Reply} (h : (s.taken q .seated).handleSeated r = a) :
      (s.taken q .seated).withPlate (some key) (s.taken q .seated).handleSeated = a :=
    (State.withPlate_some (s := s.taken q .seated) hr _).trans h
  refine ⟨fun hw hseat hop => ?_, fun hw => ?_, fun hw hseat => ?_, fun hw hseat h => ?_⟩
  · exact State.seated_effects hs hlaw hr hw (by simpa using hseat) hop
  · exact State.answeredOnly_of_serve hs rfl (hwith (if_pos hw))
  · exact State.answeredOnly_of_serve hs rfl (hwith ((if_neg hw).trans (if_pos hseat)))
  · exact State.answeredOnly_of_serve hs rfl (hwith (State.handleSeated_busy (s := s.taken q .seated) hw hseat h))

/-! ## The claim -/

section

variable {s : State} {q : Src} {key : PlateKey} {r : PlateRecord} {column row : Nat} {x : CellRecord} {k : SlotNo}

/-- The arbiter touches no slot's holder. -/
theorem State.arbitrate_holders (s : State) : s.arbitrate.fsc.holders = s.fsc.holders := by
  unfold State.arbitrate State.grant
  repeat' split
  all_goals rfl

theorem State.onPlate_onPlate (s : State) (key : PlateKey) {f g : PlateRecord → PlateRecord} (hf : ∀ y, (f y).key = y.key) :
    ((s.onPlate key f).onPlate key g).plates = (s.onPlate key (g ∘ f)).plates := by
  simp only [State.onPlate, State.onPlates_plates, List.map_map]
  refine List.map_congr_left fun y _ => ?_
  simp only [Function.comp_apply]
  by_cases h : y.key = key
  · rw [if_pos h, if_pos ((hf y).trans h), if_pos h]
  · rw [if_neg h, if_neg h, if_neg h]

/-- A cell that is found to be PENDING is one of its plate's. -/
theorem PlateRecord.hasPending_of_nextCell? {p : Nat × Nat} (h : r.nextCell? = some p) : r.hasPending = true := by
  obtain ⟨c, hc, hs⟩ := PlateRecord.nextCell?_spec h
  exact List.any_eq_true.mpr ⟨c, List.mem_of_find?_eq_some hc, by simp [hs]⟩

/-- What the claim at a seat needs of the plate and of the device (R17, R41, R42). -/
structure State.ReadyForClaim (s : State) (key : PlateKey) (r : PlateRecord) (column row : Nat) (k : SlotNo) : Prop where
  law : s.registerLaw
  found : s.plate? key = some r
  state : r.state = .enrolled ∨ r.state = .captured
  unseated : ∀ y ∈ s.plates, y.seated = false
  noOp : s.cal.op = none
  idle : s.csq.state = .idle
  valid : s.cal.record.state = .valid
  ready : s.fsc.state = .ready
  link : s.plr.link ≠ .dropped
  lamp : s.ltc.lamp ≠ .failed
  holds : r.holds = { console := false, move := false, lamp := false }
  unexposed : ∀ y ∈ s.plates, ∀ c ∈ y.cells, c.state ≠ .exposing
  next : r.nextCell? = some (column, row)
  free : s.freeSlot? = some k

/-- The plate seated. -/
abbrev State.seatedRecord (s : State) (r : PlateRecord) : PlateRecord := r.seat s.tbu.clock (s.ltc.lamp == .failed)

theorem State.ReadyForClaim.activates (h : s.ReadyForClaim key r column row k) : r.seatActivates :=
  ⟨h.state, PlateRecord.hasPending_of_nextCell? h.next⟩

/-- The sequencer's tests after the seat are the claim. -/
theorem State.ReadyForClaim.claims (h : s.ReadyForClaim key r column row k) :
    (s.seatBegun r).pollIdle.pollSlot
      = ((s.seatBegun r).setCsq .awaitSlot).claim (s.seatedRecord r) ⟨key, column, row⟩ k := by
  have hkey : r.key = key := State.key_of_plate? h.found
  have hactive := PlateRecord.seat_state_active h.activates s.tbu.clock (s.ltc.lamp == .failed)
  have hany : (s.seatedRecord r).holds.any = false := by
    have hlamp : (s.ltc.lamp == .failed) = false := by simpa using h.lamp
    simp [PlateRecord.seat, Holds.any, h.holds, hlamp]
  have hbegun := s.seatBegun_eq r
  generalize s.seatBegun r = y at hbegun
  have hplates : y.plates = (s.onPlate key fun y => y.seat s.tbu.clock (s.ltc.lamp == .failed)).plates := by
    rw [hbegun, hkey]
  have hlaw : y.registerLaw := by
    unfold State.registerLaw
    rw [hplates]
    exact (RegisterMove.seat key s.tbu.clock (s.ltc.lamp == .failed) rfl
      (by simpa [State.anySeated] using h.unseated)).registerLaw h.law
  have hmem : s.seatedRecord r ∈ y.plates := by
    have hfound := State.plate?_onPlate_self s (f := fun y => y.seat s.tbu.clock (s.ltc.lamp == .failed)) (fun _ => rfl)
      h.found
    rw [hplates]
    exact State.mem_of_plate? hfound
  have hcap : y.capturable? = some (s.seatedRecord r) :=
    State.capturable?_of_plate hlaw hmem rfl hactive (PlateRecord.hasPending_of_nextCell? h.next)
  have hexposing : y.anyCell (· == .exposing) = false := by
    refine State.anyExposing_eq_false.mpr fun z hz => ?_
    rw [hplates] at hz
    obtain ⟨w, hw, rfl⟩ := List.mem_map.mp hz
    have hcells : (if w.key = key then w.seat s.tbu.clock (s.ltc.lamp == .failed) else w).cells = w.cells := by
      split <;> rfl
    rw [hcells]
    exact h.unexposed w hw
  have hallowed : y.claimAllowed = true := by
    rw [hbegun]
    simp [State.claimAllowed, h.valid, h.ready]
  have hlink : y.plr.link ≠ .dropped := by
    rw [hbegun]
    exact h.link
  have hstart : y.startConditions = true := by
    simp [State.startConditions, hcap, hallowed, hlink]
  have hidle : y.csq.state = .idle := by
    rw [hbegun]
    exact h.idle
  have hfree : y.freeSlot? = some k := by
    rw [hbegun]
    exact h.free
  rw [State.pollIdle_waits hidle hcap hstart hany,
    State.pollSlot_claims (s := y.setCsq .awaitSlot) rfl hcap hlink hany hallowed hexposing h.next hfree]
  rw [show (s.seatedRecord r).key = key from hkey]

/-- A cell claimed: EXPOSING in the slot (R17). -/
def CellRecord.exposed (k : SlotNo) (z : CellRecord) : CellRecord := { z with state := .exposing, slot := some k }

/-- A plate seated, with its cell claimed. -/
def State.claimedRecord (s : State) (column row : Nat) (k : SlotNo) (y : PlateRecord) : PlateRecord :=
  ((y.seat s.tbu.clock (s.ltc.lamp == .failed)).onCell column row (CellRecord.exposed k)).settled s.tbu.clock

/-- The register after the claim: the plate seated, with the cell EXPOSING in the slot. -/
theorem State.ReadyForClaim.plates (h : s.ReadyForClaim key r column row k) :
    (((s.seatBegun r).setCsq .awaitSlot).claim (s.seatedRecord r) ⟨key, column, row⟩ k).plates
      = (s.onPlate key (s.claimedRecord column row k)).plates := by
  have hkey : r.key = key := State.key_of_plate? h.found
  have hcompose := State.onPlate_onPlate s key (f := fun y => y.seat s.tbu.clock (s.ltc.lamp == .failed))
    (g := fun y => (y.onCell column row (CellRecord.exposed k)).settled s.tbu.clock) fun _ => rfl
  rw [State.seatBegun_eq, hkey]
  exact hcompose

/-- The plate's record after the claim, which leaves it ACTIVE (R9). -/
theorem State.ReadyForClaim.claimedRecord_eq (h : s.ReadyForClaim key r column row k) :
    s.claimedRecord column row k r = (s.seatedRecord r).onCell column row (CellRecord.exposed k) := by
  obtain ⟨c, hc, -⟩ := PlateRecord.nextCell?_spec h.next
  exact PlateRecord.settled_exposing (r := s.seatedRecord r) (p := (column, row)) (f := CellRecord.exposed k)
    (PlateRecord.seat_state_active h.activates s.tbu.clock (s.ltc.lamp == .failed)) hc rfl s.tbu.clock

/-- The notices of the claim's register: the cell's, and that of the entry to ACTIVE (R4). -/
theorem State.ReadyForClaim.notices (h : s.ReadyForClaim key r column row k) (hx : r.cell? column row = some x) :
    registerNotices s.plates
        (((s.seatBegun r).setCsq .awaitSlot).claim (s.seatedRecord r) ⟨key, column, row⟩ k).plates
      = [.cell ⟨key, column, row⟩ .exposing x.triesUsed (some k) x.lastOutcome x.summary,
         .plate key .active true r.holds r.kept r.failed false] := by
  have hkey : r.key = key := State.key_of_plate? h.found
  have hactive : ((s.seatedRecord r).onCell column row (CellRecord.exposed k)).state = .active :=
    PlateRecord.seat_state_active h.activates s.tbu.clock (s.ltc.lamp == .failed)
  have hplace := PlateRecord.place_of_cell? hx
  have hpending : x.state = .pending := by
    obtain ⟨c, hc, hp⟩ := PlateRecord.nextCell?_spec h.next
    rw [hx] at hc
    rw [Option.some.inj hc]
    exact hp
  have hchanged : x.changed (CellRecord.exposed k x) = true := by simp [CellRecord.changed, CellRecord.exposed, hpending]
  have hlamp : (s.ltc.lamp == .failed) = false := by simpa using h.lamp
  have hne : r.state ≠ .active := by rcases h.state with h | h <;> rw [h] <;> exact PlateState.noConfusion
  have hnotices := registerNotices_changed (f := s.claimedRecord column row k)
    (fun y => (PlateRecord.sameCells_settled _ _).key) h.law.2.1 h.found
  rw [h.claimedRecord_eq] at hnotices
  rw [h.plates]
  refine hnotices.trans ?_
  have hbase : baseOf s.plates ((s.seatedRecord r).onCell column row (CellRecord.exposed k)).key = some r := by
    rw [show ((s.seatedRecord r).onCell column row (CellRecord.exposed k)).key = key from hkey]
    exact h.found
  have hw : ((s.seatedRecord r).onCell column row (CellRecord.exposed k)).state ≠ .withdrawn := by
    rw [hactive]
    exact PlateState.noConfusion
  rw [plateNotices_active hbase hactive hne,
    cellNotices_one (p := (column, row)) (f := CellRecord.exposed k) hbase (fun h => hw h.2)
      (PlateRecord.cell?_onCell (f := CellRecord.exposed k) (fun _ => ⟨rfl, rfl⟩) (s.seatedRecord r) column row)
      (List.mem_of_find?_eq_some h.next) hx hchanged]
  simp [CellRecord.notice, CellRecord.exposed, PlateRecord.notice, PlateRecord.onCell, PlateRecord.seat, hkey, hplace.1,
    hplace.2, hlamp, h.holds]

/-- The notices that the claim's other blocks raise: MOVE_TO, and LAMP where the lamp is lit (R43, R131). -/
theorem State.ReadyForClaim.raised (h : s.ReadyForClaim key r column row k) (hq : s.quiet) :
    otherNotices (((s.seatBegun r).setCsq .awaitSlot).claim (s.seatedRecord r) ⟨key, column, row⟩ k).raised
      = .moveTo ⟨key, column, row⟩ r.handling (s.csq.moveCounter + 1)
        :: if s.ltc.lamp = .off then [.lamp .warming .off s.settings.lampLevel none .switchOn] else [] := by
  have hq : s.raised = [] := hq
  have hcounter : ((s.seatBegun r).setCsq .awaitSlot).csq.moveCounter = s.csq.moveCounter := by rw [State.seatBegun_eq]; rfl
  have hactive := PlateRecord.seat_state_active h.activates s.tbu.clock (s.ltc.lamp == .failed)
  rw [State.claim_raised, hcounter]
  change otherNotices ((s.seatBegun r).raised ++ [.moveTo ⟨key, column, row⟩ r.handling (s.csq.moveCounter + 1)]) = _
  by_cases hoff : s.ltc.lamp = .off
  · rw [State.seatBegun_lit h.activates hoff, if_pos hoff]
    have hraised : ((s.onPlate r.key fun y => y.seat s.tbu.clock (s.ltc.lamp == .failed)).lampWarm .switchOn).raised
        = [.lamp .warming .off s.settings.lampLevel none .switchOn] := by
      change s.raised ++ [.lamp .warming s.ltc.lamp s.settings.lampLevel none .switchOn] = _
      rw [hq, hoff, List.nil_append]
    rw [hraised]
    rfl
  · have hraised : (s.seatBegun r).raised = [] := by
      rw [State.seatBegun, if_pos hactive, State.lampSwitchOn_of_on (by exact hoff)]
      exact hq
    rw [hraised, if_neg hoff]
    rfl

end

/-- Settles O31: a seat whose tests end in a claim, and what the claim leaves block by block. -/
theorem claimTakesLowestSlot : Obligations.ClaimTakesLowestSlot := by
  intro s q key r column row x k hs hlaw hr hst hseat hop hidle hvalid hready hlink hlamp hholds hexposing hnext hx hheld
    hlow p ladder c
  have hseat : ∀ y ∈ s.plates, y.seated = false := by simpa using hseat
  have hfree := State.freeSlot?_eq_some_iff.mpr ⟨hheld, hlow⟩
  have hnext : r.nextCell? = some (column, row) := PlateRecord.nextCell?_eq.trans hnext
  have h : (s.taken q .seated).ReadyForClaim key r column row k :=
    ⟨hlaw, hr, hst, hseat, hop, hidle, hvalid, hready, hlink, hlamp, hholds, hexposing, hnext, hfree⟩
  obtain ⟨t, hexec, hserved, ht, hoff⟩ := State.exec_seated hs hr
    (by rcases hst with h | h <;> rw [h] <;> exact PlateState.noConfusion) hseat hop
  have hnotices := h.notices hx
  have hraised (hq : s.quiet) := h.raised hq
  have hbegun := (s.taken q .seated).seatBegun_eq r
  rw [h.claims] at ht hoff
  have hxcell : ((s.taken q .seated).seatBegun r).cell? c = some x := by
    have hfound := State.plate?_onPlate_self s (f := fun y => y.seat s.tbu.clock (s.ltc.lamp == .failed)) (fun _ => rfl) hr
    have hkey : r.key = key := State.key_of_plate? hr
    rw [hbegun, hkey]
    exact (State.cell?_of_plate (c := c) hfound).trans hx
  generalize (s.taken q .seated).seatBegun r = y at ht hoff hnotices hraised hbegun hxcell
  have hfsc : y.fsc = s.fsc := by rw [hbegun]; rfl
  have hcsq : y.csq = s.csq := by rw [hbegun]; rfl
  have htables : s.tablesKept y := by
    rw [hbegun]
    exact ⟨rfl, rfl, rfl, rfl, rfl, rfl, rfl, fun _ => rfl⟩
  have hctx : (y.setCsq .awaitSlot).freshContext ((s.taken q .seated).seatedRecord r) c k
      = { cell := c, slot := k, ladder := ladder, satThreshold := p.satThreshold, noiseFloor := p.noiseFloor,
          extThreshold := p.extThreshold, singleTry := p.singleTry,
          extCap := if r.handling = .fragile then s.settings.fragileCap else 8000000,
          rung := .step ((ladder.head?.map (·.index)).getD 0), repeats := List.replicate ladder.length 0,
          extRepeats := 0, extTaken := false, extTime := 0, clearComplete := false } := by
    have hcap : extensionCap r.handling s.settings.fragileCap
        = if r.handling = .fragile then s.settings.fragileCap else 8000000 := by
      cases r.handling <;> rfl
    rw [← hcap]
    rw [hbegun]
    rfl
  have hown := (State.claim_cell? (s := y.setCsq .awaitSlot) (r := (s.taken q .seated).seatedRecord r) (c := c) (k := k) c)
  have hcell : ((y.setCsq .awaitSlot).claim ((s.taken q .seated).seatedRecord r) c k).cell? c
      = some { x with state := .exposing, slot := some k } := by
    rw [hown, show (y.setCsq .awaitSlot).cell? c = some x from hxcell, Option.map_some, if_pos rfl]
  have hwork := (State.claim_work (s := y.setCsq .awaitSlot) (r := (s.taken q .seated).seatedRecord r) (c := c) (k := k) k)
  rw [if_pos rfl] at hwork
  have hclaimfsc := State.claim_fsc (s := y.setCsq .awaitSlot) (r := (s.taken q .seated).seatedRecord r) (c := c) (k := k)
  have hclaimcsq := State.claim_csq (s := y.setCsq .awaitSlot) (r := (s.taken q .seated).seatedRecord r) (c := c) (k := k)
  have hclaimtimer := State.claim_timer (s := y.setCsq .awaitSlot) (r := (s.taken q .seated).seatedRecord r) (c := c) (k := k)
  have htable : (y.setCsq .awaitSlot).profiles.get ((s.taken q .seated).seatedRecord r).profile = p := by
    rw [hbegun]
    rfl
  have hsettings : y.settings = s.settings := by
    rw [hbegun]
    rfl
  rw [hctx] at hclaimcsq
  rw [htable] at hwork
  have hkept : s.tablesKept ((y.setCsq .awaitSlot).claim ((s.taken q .seated).seatedRecord r) c k) := by
    simpa [State.tablesKept] using htables
  generalize ((y.setCsq .awaitSlot).claim ((s.taken q .seated).seatedRecord r) c k) = z at *
  have htfsc : t.fsc.held = setAt s.fsc.held k true ∧ t.fsc.holders = setAt s.fsc.holders k (some c) := by
    rw [ht]
    simp only [State.arbitrate_frame, State.arbitrate_holders]
    rw [hclaimfsc]
    simp [State.setCsq, State.onCsq, hfsc]
  have htwork : t.work k = z.work k := by
    rw [ht]
    simp [State.work]
  refine ⟨t, _, hexec, hserved, ?_, ?_, ?_, fun j hj => ?_, ?_, ?_, ?_, ?_, ?_, ?_, ?_, rfl, ?_, fun _ hq => ?_, ?_⟩
  · rw [ht]
    simpa [State.cell?, State.plate?] using hcell
  · rw [htfsc.1, setAt_get_self]
  · rw [htfsc.2, setAt_get_self]
  · rw [htfsc.1, htfsc.2, setAt_get_ne _ _ hj.symm, setAt_get_ne _ _ hj.symm]
    exact ⟨rfl, rfl⟩
  · rw [htwork, hwork]
  · rw [htwork, hwork]
  · rw [htwork, hwork]
  · rw [htwork, hwork]
  · rw [htwork, hwork]
    rfl
  · rw [htwork, hwork]
    rfl
  · rw [ht]
    simp only [State.arbitrate_frame]
    rw [hclaimcsq]
    simp [State.setCsq, State.onCsq, hcsq]
  · rw [ht]
    simp only [State.arbitrate_frame]
    rw [hclaimtimer]
    simp [State.setCsq, State.onCsq, hsettings]
  · rw [show registerNotices s.plates z.plates = _ from hnotices, hraised hq] at hoff
    exact hoff
  · rw [ht]
    simpa [State.tablesKept] using hkept

end Sys2Proof.Machine
end

section
/-! SUPPORT. A slot that is returned (R139, R140), a plate's state after a change of one of its cells (R9, R10), and the
claim that such a change may lead to (R17, R42). -/

namespace Sys2Proof.Machine
-- One proof at a time: under the memory limit of the check there is no room for the stacks of many threads.
set_option Elab.async false

/-! ## A slot returned -/

section

variable {s : State} {k : SlotNo}

theorem State.onWork_work (f : WorkRecord → WorkRecord) (j : SlotNo) :
    (s.onWork k f).work j = if j = k then f (s.work k) else s.work j := by
  unfold State.work
  rw [State.onWork_mge]
  by_cases h : j = k
  · rw [if_pos h, h, setAt_get_self]
  · rw [if_neg h, setAt_get_ne _ _ (Ne.symm h)]

/-- The head of the finalization queue alone starts its pass (R74). -/
theorem State.startPass_work_of_not_head {j : SlotNo} (h : s.mge.queue.head? ≠ some j) : s.startPass.work j = s.work j := by
  unfold State.startPass
  cases hq : s.mge.queue with
  | nil => rfl
  | cons i rest =>
    dsimp only
    split
    · rw [State.onWork_work, if_neg]
      rintro rfl
      exact h (by rw [hq]; rfl)
    · rfl

/-- A slot returned is FREE, without a holder, and its work record is at rest (R65, R139). -/
theorem State.returnSlot_freed (s : State) (k : SlotNo) :
    ((s.returnSlot k).work k) = WorkRecord.freed ∧ (s.returnSlot k).fsc.held = setAt s.fsc.held k false
      ∧ (s.returnSlot k).fsc.holders = setAt s.fsc.holders k none := by
  refine ⟨?_, ?_, ?_⟩
  · unfold State.returnSlot
    rw [State.startPass_work_of_not_head]
    · simp [State.work, State.onMge]
    · intro h
      have hmem := List.mem_of_mem_head? h
      simp [State.onMge] at hmem
  · simp [State.returnSlot]
  · simp [State.returnSlot, State.stopAccess]

end

/-! ## The plate's state -/

section

variable {r : PlateRecord} {f : CellRecord → CellRecord} {a b : Nat}

theorem PlateRecord.settled_holds (r : PlateRecord) (now : Seconds) :
    (r.settled now).holds = r.holds ∧ (r.settled now).kept = r.kept ∧ (r.settled now).failed = r.failed := by
  unfold PlateRecord.settled PlateRecord.completed PlateRecord.recaptured
  repeat' split
  all_goals exact ⟨rfl, rfl, rfl⟩

theorem PlateRecord.captureOver_eq_false_of_pending (h : r.hasPending = true) : r.captureOver = false := by
  obtain ⟨c, hc, hp⟩ := List.any_eq_true.mp h
  exact List.all_eq_false.mpr ⟨c, hc, by simp_all⟩

/-- A seated plate with a cell to capture is ACTIVE, from every state in which it takes part (R9). -/
theorem PlateRecord.settled_active (hs : r.seated = true) (hp : r.hasPending = true)
    (hst : r.state = .active ∨ r.state = .enrolled ∨ r.state = .captured) (now : Seconds) :
    (r.settled now).state = .active := by
  have hover := PlateRecord.captureOver_eq_false_of_pending hp
  have hrecaptured : r.recaptured.state = .active := by
    unfold PlateRecord.recaptured
    rcases hst with h | h | h <;> simp [h, hover, hs, hp]
  unfold PlateRecord.settled PlateRecord.completed
  rw [if_neg (by rw [hrecaptured]; rintro ⟨h, -⟩; cases h)]
  exact hrecaptured

theorem PlateRecord.mem_onCell {z : CellRecord} : z ∈ (r.onCell a b f).cells
    ↔ ∃ y ∈ r.cells, (if y.column = a ∧ y.row = b then f y else y) = z := List.mem_map

/-- What holds of the cell changed and of every other holds of all the cells. -/
theorem PlateRecord.forall_onCell {p : CellState → Prop} (hf : ∀ y ∈ r.cells, y.column = a ∧ y.row = b → p (f y).state)
    (ho : ∀ y ∈ r.cells, (y.column, y.row) ≠ (a, b) → p y.state) : ∀ z ∈ (r.onCell a b f).cells, p z.state := by
  intro z hz
  obtain ⟨y, hy, rfl⟩ := PlateRecord.mem_onCell.mp hz
  split
  · exact hf y hy ‹_›
  · rename_i hne
    exact ho y hy fun h => hne ⟨congrArg Prod.fst h, congrArg Prod.snd h⟩

/-- A cell other than the one changed is still among the plate's. -/
theorem PlateRecord.mem_onCell_of_ne {y : CellRecord} (hy : y ∈ r.cells) (hne : ¬ (y.column = a ∧ y.row = b)) :
    y ∈ (r.onCell a b f).cells := PlateRecord.mem_onCell.mpr ⟨y, hy, if_neg hne⟩

/-- The place of a grid is in its serpentine (R17). -/
theorem mem_serpentine {columns rows i j : Nat} : (i, j) ∈ serpentine columns rows ↔ i < columns ∧ j < rows := by
  unfold serpentine
  constructor
  · intro h
    obtain ⟨y, hy, hm⟩ := List.mem_flatMap.mp h
    obtain ⟨x, hx, he⟩ := List.mem_map.mp hm
    obtain ⟨rfl, rfl⟩ := Prod.mk.inj he
    split at hx <;> simp_all
  · rintro ⟨hi, hj⟩
    refine List.mem_flatMap.mpr ⟨j, List.mem_range.mpr hj, List.mem_map.mpr ⟨i, ?_, rfl⟩⟩
    split <;> simp [hi]

/-- Of a whole grid each cell is found by its place (R3). -/
theorem PlateRecord.cell?_of_mem (hg : (r.cells.map fun c => (c.column, c.row)) = gridCells r.columns r.rows)
    {y : CellRecord} (hy : y ∈ r.cells) : r.cell? y.column y.row = some y := by
  cases h : r.cell? y.column y.row with
  | none => exact absurd (List.find?_eq_none.mp h y hy) (by simp)
  | some z =>
    have hz := List.mem_of_find?_eq_some h
    obtain ⟨h1, h2⟩ := PlateRecord.place_of_cell? h
    have hn : (r.cells.map fun c => (c.column, c.row)).Nodup := hg ▸ gridCells_nodup _ _
    have hinj := List.inj_on_of_nodup_map hn hz hy (Prod.ext h1 h2)
    rw [hinj]

/-- A plate with a whole grid and a PENDING cell has one to capture next (R17). -/
theorem PlateRecord.nextCell?_of_pending (hg : (r.cells.map fun c => (c.column, c.row)) = gridCells r.columns r.rows)
    (hp : r.hasPending = true) : ∃ p, r.nextCell? = some p := by
  obtain ⟨y, hy, hpending⟩ := List.any_eq_true.mp hp
  have hcell := PlateRecord.cell?_of_mem hg hy
  have hplace : (y.column, y.row) ∈ gridCells r.columns r.rows := hg ▸ List.mem_map_of_mem hy
  have hserp : (y.column, y.row) ∈ serpentine r.columns r.rows := mem_serpentine.mpr (mem_gridCells.mp hplace)
  cases h : r.nextCell? with
  | some p => exact ⟨p, rfl⟩
  | none =>
    have hno := List.find?_eq_none.mp h _ hserp
    rw [hcell] at hno
    exact absurd hpending hno

end

end Sys2Proof.Machine
end

section
/-! PROOFS. RELEASE: the cell that a verdict settles, its slot, and the claim that may follow at that event (R21, R41,
R42, R139, R162). -/

namespace Sys2Proof.Machine
-- One proof at a time: under the memory limit of the check there is no room for the stacks of many threads.
set_option Elab.async false

/-! ## The claim that may follow -/

section

variable {s w : State} {c : CellRef} {k : SlotNo} {f : CellRecord → CellRecord} {g : PlateRecord → PlateRecord}

/-- A slot is back: FREE, with its work record at rest. -/
abbrev State.slotBack (t : State) (k : SlotNo) : Prop := t.fsc.held.get k = false ∧ (t.work k).state = .free

/-- Before the sequencer's tests at a verdict: one cell changed, and one slot back. -/
structure State.Judged (s w : State) (c : CellRef) (k : SlotNo) (f : CellRecord → CellRecord)
    (g : PlateRecord → PlateRecord) : Prop where
  inPlace : InPlace f
  unexposed : ∀ y, (f y).state ≠ .exposing
  sameCells : ∀ x : PlateRecord, x.SameCells (g x)
  plates : w.plates = (s.changeCell c f g).plates
  held : w.fsc.held = setAt s.fsc.held k false
  freed : (w.work k).state = .free
  valid : w.cal.record = s.cal.record
  store : w.fsc.state = s.fsc.state
  link : w.plr.link = s.plr.link

theorem State.Judged.cell? (h : s.Judged w c k f g) (d : CellRef) :
    w.cell? d = (s.cell? d).map fun z => if d = c then f z else z := by
  have hcell := State.cell?_changeCell (s := s) h.inPlace h.sameCells c d
  rwa [State.cell?, State.plate?, ← h.plates] at hcell

theorem State.Judged.plate? (h : s.Judged w c k f g) (key : PlateKey) :
    w.plate? key = (s.plate? key).map fun x =>
      if key = c.key then (g (x.onCell c.column c.row f)).settled s.tbu.clock else x := by
  have hplate := State.plate?_changeCell (s := s) (f := f) h.sameCells c key
  rwa [State.plate?, ← h.plates] at hplate

theorem State.Judged.slotBack (h : s.Judged w c k f g) : w.slotBack k :=
  ⟨by rw [h.held, setAt_get_self], h.freed⟩

/-- The records keep their keys, their grids and their seats. -/
theorem State.Judged.within (h : s.Judged w c k f g) : Withins s.plates w.plates := by
  rw [h.plates]
  exact withins_changeCell s c h.inPlace (fun y hy => absurd hy (h.unexposed y)) h.sameCells

theorem State.Judged.registerLaw (h : s.Judged w c k f g) (hs : s.registerLaw) : w.registerLaw :=
  h.within.reworks.registerLaw hs

theorem State.Judged.mem_plates (h : s.Judged w c k f g) {x : PlateRecord} (hx : x ∈ w.plates) :
    ∃ y ∈ s.plates, (if y.key = c.key then (g (y.onCell c.column c.row f)).settled s.tbu.clock else y) = x := by
  rw [h.plates, changeCell_plates] at hx
  exact List.mem_map.mp hx

/-- No cell is EXPOSING after a verdict that was not before. -/
theorem State.Judged.noExposing (h : s.Judged w c k f g) (hs : ∀ p ∈ s.plates, ∀ y ∈ p.cells, y.state ≠ .exposing) :
    ∀ p ∈ w.plates, ∀ y ∈ p.cells, y.state ≠ .exposing := by
  intro p hp
  obtain ⟨x, hx, rfl⟩ := h.mem_plates hp
  split
  · have hcells : ((g (x.onCell c.column c.row f)).settled s.tbu.clock).cells = (x.onCell c.column c.row f).cells :=
      ((h.sameCells _).trans (PlateRecord.sameCells_settled _ _)).cells
    rw [hcells]
    exact PlateRecord.forall_onCell (p := fun y => y ≠ .exposing) (fun y _ _ => h.unexposed y) fun y hy _ => hs x hx y hy
  · exact hs x hx

/-- A test for a claim leaves the sequencer's context where no claim is allowed (R42). -/
theorem State.pollSlot_barred (h : ∀ r, w.capturable? = some r → w.plr.link ≠ .dropped → r.holds.any = false →
      w.claimAllowed = true → False) : ∃ q, w.pollSlot = { w with csq := { w.csq with state := q } } := by
  unfold State.pollSlot
  split
  · split
    · exact ⟨_, rfl⟩
    · rename_i r hr
      split_ifs with h1 h2 h3
      · exact ⟨_, rfl⟩
      · exact ⟨_, rfl⟩
      · exact (h r hr h1 (by simpa using h2) h3.1).elim
      · exact ⟨w.csq.state, rfl⟩
  · exact ⟨w.csq.state, rfl⟩

theorem State.pollIdle_barred (w : State) : ∃ q, w.pollIdle = { w with csq := { w.csq with state := q } } := by
  unfold State.pollIdle
  repeat' split
  all_goals exact ⟨_, rfl⟩

/-- What bars a claim: the calibration, the store, the link, or a hold reason of each seated plate (R41, R42). -/
abbrev State.claimBarred (s : State) : Prop :=
  s.cal.record.state ≠ .valid ∨ s.fsc.state ≠ .ready ∨ s.plr.link = .dropped
    ∨ ∀ p ∈ s.plates, p.seated = true → p.holds.any = true

theorem State.claimBarred.noClaim (h : w.claimBarred) {r : PlateRecord} (hr : w.capturable? = some r)
    (hl : w.plr.link ≠ .dropped) (hh : r.holds.any = false) (ha : w.claimAllowed = true) : False := by
  obtain ⟨hmem, hseat, -, -⟩ := State.capturable?_spec hr
  simp only [State.claimAllowed, Bool.and_eq_true, beq_iff_eq] at ha
  rcases h with h | h | h | h
  · exact h ha.1
  · exact h ha.2
  · exact hl h
  · rw [h r hmem hseat] at hh
    cases hh

/-- A verdict lifts no bar. -/
theorem State.Judged.barred (h : s.Judged w c k f g) (hg : ∀ x : PlateRecord, (g x).holds = x.holds) (hs : s.claimBarred) :
    w.claimBarred := by
  rw [State.claimBarred, h.valid, h.store, h.link]
  refine hs.imp_right (Or.imp_right (Or.imp_right fun hs p hp hseat => ?_))
  obtain ⟨x, hx, rfl⟩ := h.mem_plates hp
  by_cases hk : x.key = c.key
  · rw [if_pos hk] at hseat ⊢
    rw [((h.sameCells _).trans (PlateRecord.sameCells_settled _ _)).seated] at hseat
    rw [(PlateRecord.settled_holds _ _).1, hg]
    exact hs x hx hseat
  · rw [if_neg hk] at hseat ⊢
    exact hs x hx hseat

/-- What a claim needs beside a plate to capture (R17, R41, R42). -/
abbrev State.claimAdmitted (s : State) : Prop :=
  s.cal.record.state = .valid ∧ s.fsc.state = .ready ∧ s.plr.link ≠ .dropped ∧ s.gridLaw
    ∧ ∀ p ∈ s.plates, ∀ y ∈ p.cells, y.state ≠ .exposing

theorem State.Judged.admitted (h : s.Judged w c k f g) (hs : s.claimAdmitted) : w.claimAdmitted := by
  obtain ⟨hvalid, hready, hlink, hgrid, hexposing⟩ := hs
  exact ⟨by rw [h.valid, hvalid], by rw [h.store, hready], by rw [h.link]; exact hlink,
    h.within.reworks.gridLaw hgrid, h.noExposing hexposing⟩

/-- The plate that is captured (R7, R17). -/
abbrev State.canCapture (s : State) (p : PlateRecord) : Prop :=
  p ∈ s.plates ∧ p.seated = true ∧ p.holds.any = false ∧ p.state = .active ∧ p.hasPending = true

/-- Where a claim is waited for and nothing bars it, the plate's next cell is claimed in the lowest free slot. -/
theorem State.pollSlot_admitted {p : PlateRecord} (hq : w.csq.state = .awaitSlot) (hs : w.claimAdmitted)
    (hlaw : w.registerLaw) (hp : w.canCapture p) (hk : w.fsc.held.get k = false) :
    ∃ place j, p.nextCell? = some place ∧ w.freeSlot? = some j
      ∧ w.pollSlot = w.claim p ⟨p.key, place.1, place.2⟩ j := by
  obtain ⟨hvalid, hready, hlink, hgrid, hexposing⟩ := hs
  obtain ⟨hmem, hseat, hhold, hactive, hpending⟩ := hp
  obtain ⟨place, hplace⟩ := PlateRecord.nextCell?_of_pending (hgrid p hmem) hpending
  obtain ⟨j, hj⟩ := State.exists_freeSlot? hk
  exact ⟨place, j, hplace, hj, State.pollSlot_claims hq (State.capturable?_of_plate hlaw hmem hseat hactive hpending) hlink
    hhold (by simp [State.claimAllowed, hvalid, hready]) (State.anyExposing_eq_false.mpr hexposing) hplace hj⟩

/-- From IDLE, and from AWAIT_SLOT, the sequencer waits for the claim that nothing bars (R41). -/
theorem State.pollIdle_admitted {p : PlateRecord} (hq : w.csq.state = .idle ∨ w.csq.state = .awaitSlot)
    (hs : w.claimAdmitted) (hlaw : w.registerLaw) (hp : w.canCapture p) :
    w.pollIdle = { w with csq := { w.csq with state := .awaitSlot } } := by
  obtain ⟨hvalid, hready, hlink, -, -⟩ := hs
  obtain ⟨hmem, hseat, hhold, hactive, hpending⟩ := hp
  have hcap := State.capturable?_of_plate hlaw hmem hseat hactive hpending
  rcases hq with hq | hq
  · refine State.pollIdle_waits hq hcap ?_ hhold
    simp [State.startConditions, hcap, State.claimAllowed, hvalid, hready, hlink]
  · rw [State.pollIdle_of_state (by rw [hq]; exact CsqState.noConfusion), ← hq]

/-- What a claim at a verdict on a cell leaves, for the plate of a key (R17, R42, R139, R162). -/
abbrev State.claimedAtVerdict (s t : State) (c : CellRef) (k : SlotNo) (key : PlateKey) : Prop :=
  ∃ ctx, t.csq.ctx = some ctx ∧ t.csq.state = .moving ∧ ctx.cell.key = key
    ∧ (ctx.cell = c ∨ (s.cell? ctx.cell).map (·.state) = some .pending)
    ∧ (t.cell? ctx.cell).map (fun y => (y.state, y.slot)) = some (.exposing, some ctx.slot)
    ∧ t.fsc.held.get ctx.slot = true ∧ t.fsc.holders.get ctx.slot = some ctx.cell
    ∧ (t.work ctx.slot).state = .clearing
    ∧ (ctx.slot = k ∨ s.fsc.held.get ctx.slot = false)
    ∧ (∀ j : SlotNo, j < ctx.slot → j ≠ k ∧ s.fsc.held.get j = true)
    ∧ (ctx.slot ≠ k → t.slotBack k)

/-- The claim at a verdict takes a PENDING cell of the plate, in the lowest slot free after the return. -/
theorem State.Judged.claims (h : s.Judged w c k f g) {p : PlateRecord} {place : Nat × Nat} {j : SlotNo}
    (hlaw : w.registerLaw) (hp : w.canCapture p) (hplace : p.nextCell? = some place) (hj : w.freeSlot? = some j) :
    s.claimedAtVerdict (w.claim p ⟨p.key, place.1, place.2⟩ j) c k p.key
      ∧ (∀ x, w.cell? c = some x → x.state ≠ .pending →
          (w.claim p ⟨p.key, place.1, place.2⟩ j).cell? c = some x)
      ∧ (∀ x, w.cell? c = some x → c ≠ ⟨p.key, place.1, place.2⟩ →
          (w.claim p ⟨p.key, place.1, place.2⟩ j).cell? c = some x) := by
  obtain ⟨y, hy, hpending⟩ := PlateRecord.nextCell?_spec hplace
  have hcell : w.cell? ⟨p.key, place.1, place.2⟩ = some y :=
    (State.cell?_of_plate (State.plate?_of_mem hlaw.2.1 hp.1)).trans hy
  obtain ⟨hfree, hlow⟩ := State.freeSlot?_eq_some_iff.mp hj
  have hother (x : CellRecord) (hx : w.cell? c = some x) (hne : c ≠ ⟨p.key, place.1, place.2⟩) :
      (w.claim p ⟨p.key, place.1, place.2⟩ j).cell? c = some x := by
    rw [State.claim_cell?, hx, Option.map_some, if_neg hne]
  refine ⟨⟨w.freshContext p ⟨p.key, place.1, place.2⟩ j, rfl, rfl, rfl, ?_, ?_, ?_, ?_, ?_, ?_, fun i hi => ?_,
    fun hne => ⟨?_, ?_⟩⟩, fun x hx hstate => hother x hx fun e => ?_, hother⟩
  · by_cases hc : (⟨p.key, place.1, place.2⟩ : CellRef) = c
    · exact .inl hc
    · refine .inr ?_
      rw [h.cell?] at hcell
      simp only [if_neg hc, Option.map_id'] at hcell
      change (s.cell? ⟨p.key, place.1, place.2⟩).map _ = _
      rw [hcell, Option.map_some, hpending]
  · change ((w.claim p ⟨p.key, place.1, place.2⟩ j).cell? ⟨p.key, place.1, place.2⟩).map _ = _
    rw [State.claim_cell?, hcell, Option.map_some, Option.map_some, if_pos rfl]
    rfl
  · change (w.claim p ⟨p.key, place.1, place.2⟩ j).fsc.held.get j = true
    rw [State.claim_fsc, setAt_get_self]
  · change (w.claim p ⟨p.key, place.1, place.2⟩ j).fsc.holders.get j = _
    rw [State.claim_fsc, setAt_get_self]
    rfl
  · change ((w.claim p ⟨p.key, place.1, place.2⟩ j).work j).state = _
    rw [State.claim_work, if_pos rfl]
  · change j = k ∨ s.fsc.held.get j = false
    by_cases hjk : j = k
    · exact .inl hjk
    · rw [h.held, setAt_get_ne _ _ (Ne.symm hjk)] at hfree
      exact .inr hfree
  · have hi : w.fsc.held.get i = true := hlow i hi
    rw [h.held] at hi
    by_cases hik : i = k
    · rw [hik, setAt_get_self] at hi
      cases hi
    · rw [setAt_get_ne _ _ (Ne.symm hik)] at hi
      exact ⟨hik, hi⟩
  · have hne : j ≠ k := hne
    rw [State.claim_fsc, setAt_get_ne _ _ hne]
    exact h.slotBack.1
  · have hne : j ≠ k := hne
    rw [State.claim_work, if_neg (Ne.symm hne)]
    exact h.freed
  · rw [e, hcell] at hx
    exact hstate (Option.some.inj hx ▸ hpending)

/-- A plate of another key that is captured is captured still. -/
theorem State.Judged.canCapture_other (h : s.Judged w c k f g) {p : PlateRecord} (hp : s.canCapture p) (hne : p.key ≠ c.key) :
    w.canCapture p := by
  obtain ⟨hmem, hp⟩ := hp
  refine ⟨?_, hp⟩
  rw [h.plates, changeCell_plates]
  exact List.mem_map.mpr ⟨p, hmem, if_neg hne⟩

/-- The verdict's own plate is captured after it where it is seated, without hold reasons, and has a PENDING cell (R9). -/
theorem State.Judged.canCapture_own (h : s.Judged w c k f g) (hg : ∀ x : PlateRecord, (g x).holds = x.holds
      ∧ (g x).state = x.state) {r : PlateRecord} (hr : s.plate? c.key = some r) (hseat : r.seated = true)
    (hh : r.holds.any = false) (hst : r.state = .active ∨ r.state = .enrolled ∨ r.state = .captured)
    (hp : (r.onCell c.column c.row f).hasPending = true) :
    w.canCapture ((g (r.onCell c.column c.row f)).settled s.tbu.clock) := by
  have hsame := h.sameCells (r.onCell c.column c.row f)
  have hsettled := (hsame.trans (PlateRecord.sameCells_settled _ s.tbu.clock))
  have hpg : (g (r.onCell c.column c.row f)).hasPending = true := by
    unfold PlateRecord.hasPending
    rw [hsame.cells]
    exact hp
  have hfound := h.plate? c.key
  rw [hr, Option.map_some, if_pos rfl] at hfound
  refine ⟨State.mem_of_plate? hfound, hsettled.seated.trans hseat, ?_, ?_, ?_⟩
  · rw [(PlateRecord.settled_holds _ _).1, (hg _).1]
    exact hh
  · exact PlateRecord.settled_active (hsame.seated.trans hseat) hpg (by rw [(hg _).2]; exact hst) _
  · unfold PlateRecord.hasPending
    rw [hsettled.cells]
    exact hp

/-- A plate that is captured and has the cell of the verdict among its own has another cell PENDING (R3). -/
theorem PlateRecord.hasPending_onCell {r : PlateRecord} {x : CellRecord} {a b : Nat}
    (hg : (r.cells.map fun y => (y.column, y.row)) = gridCells r.columns r.rows) (hx : r.cell? a b = some x)
    (hstate : x.state ≠ .pending) (hp : r.hasPending = true) : (r.onCell a b f).hasPending = true := by
  obtain ⟨y, hy, hpending⟩ := List.any_eq_true.mp hp
  refine List.any_eq_true.mpr ⟨y, PlateRecord.mem_onCell_of_ne hy fun ⟨h1, h2⟩ => ?_, hpending⟩
  have hfound := PlateRecord.cell?_of_mem hg hy
  rw [h1, h2, hx] at hfound
  exact hstate (by rw [Option.some.inj hfound]; simpa using hpending)

theorem PlateRecord.hasPending_of_changed {r : PlateRecord} {x : CellRecord} {a b : Nat} (hx : r.cell? a b = some x)
    (hf : (f x).state = .pending) : (r.onCell a b f).hasPending = true := by
  refine List.any_eq_true.mpr ⟨f x, PlateRecord.mem_onCell.mpr ⟨x, List.mem_of_find?_eq_some hx, ?_⟩, by simp [hf]⟩
  rw [if_pos (PlateRecord.place_of_cell? hx)]

end

/-! ## The verdicts -/

section

variable {s : State} {q : Src} {c : CellRef} {r : PlateRecord} {x : CellRecord} {k : SlotNo}

theorem State.withCell_some (hr : s.plate? c.key = some r) (hx : r.cell? c.column c.row = some x)
    (f : PlateRecord → CellRecord → State × Reply) :
    s.withCell (some c.key) (some c.column) (some c.row) true f = f r x := by
  simp [State.withCell, hr, hx]

theorem State.cellRef_eq (hr : s.plate? c.key = some r) (hx : r.cell? c.column c.row = some x) :
    (⟨r.key, x.column, x.row⟩ : CellRef) = c := by
  obtain ⟨h1, h2⟩ := PlateRecord.place_of_cell? hx
  rw [State.key_of_plate? hr, h1, h2]

theorem State.returnCellSlot_some (s : State) (hk : x.slot = some k) : s.returnCellSlot x = s.returnSlot k := by
  simp [State.returnCellSlot, hk]

/-- A cell in a state without a slot. -/
def CellRecord.ended (st : CellState) (y : CellRecord) : CellRecord := { y with state := st, slot := none }

/-- The plate with one more cell kept, and with one more failed (R10). -/
def PlateRecord.oneKept (p : PlateRecord) : PlateRecord := { p with kept := p.kept + 1 }

def PlateRecord.oneFailed (p : PlateRecord) : PlateRecord := { p with failed := p.failed + 1 }

/-- One cell changed and one slot back, whatever the state and the counts are. -/
theorem State.judged_returnSlot (s : State) (c : CellRef) (k : SlotNo) {st : CellState} (hst : st ≠ .exposing)
    {g : PlateRecord → PlateRecord} (hg : ∀ x : PlateRecord, x.SameCells (g x)) :
    s.Judged ((s.changeCell c (CellRecord.ended st) g).returnSlot k) c k (CellRecord.ended st) g := by
  obtain ⟨hfreed, hheld, -⟩ := (s.changeCell c (CellRecord.ended st) g).returnSlot_freed k
  exact ⟨fun _ => ⟨rfl, rfl⟩, fun _ => hst, hg, by simp, by rw [hheld]; simp, by rw [hfreed]; rfl, by simp, by simp, by simp⟩

/-- What the tests before a claim leave of what a verdict has judged. -/
theorem State.Judged.withCsq {w v : State} {f : CellRecord → CellRecord} {g : PlateRecord → PlateRecord}
    (h : s.Judged w c k f g) (csq : Csq) (hv : v = { w with csq := csq }) : s.Judged v c k f g := by
  subst hv
  exact ⟨h.inPlace, h.unexposed, h.sameCells, h.plates, h.held, h.freed, h.valid, h.store, h.link⟩

/-- KEEP's state before the sequencer's tests (R21). -/
def State.kept (s : State) (c : CellRef) (k : SlotNo) : State :=
  (s.changeCell c (CellRecord.ended .kept) PlateRecord.oneKept).returnSlot k

theorem State.handleKeep_delivered (hr : s.plate? c.key = some r) (hx : r.cell? c.column c.row = some x)
    (hk : x.slot = some k) (hst : x.state = .delivered) :
    s.handleKeep r x = ((s.kept c k).pollSlot.arbitrate, Reply.done false) := by
  unfold State.handleKeep State.keepCell
  rw [if_pos hst, State.cellRef_eq hr hx, State.returnCellSlot_some _ hk]
  rfl

/-- The cell state and the counts that a RECAPTURE leaves: PENDING below the try limit, FAILED at it (R21). -/
def State.recaptured (s : State) (c : CellRef) (k : SlotNo) (below : Bool) : State :=
  (if below then (s.changeCell c (CellRecord.ended .pending) id).dequeue c
    else (s.changeCell c (CellRecord.ended .failed) PlateRecord.oneFailed).dequeue c).returnSlot k

theorem State.handleRecapture_taken (hr : s.plate? c.key = some r) (hx : r.cell? c.column c.row = some x)
    (hk : x.slot = some k) (hst : x.state = .merged ∨ x.state = .delivered) :
    s.handleRecapture r x
      = ((s.recaptured c k (decide (x.triesUsed < s.tryLimit r))).pollIdle.pollSlot.arbitrate, Reply.done false) := by
  unfold State.handleRecapture State.recaptureCell
  dsimp only
  rw [if_pos hst, State.cellRef_eq hr hx, State.returnCellSlot_some _ hk]
  unfold State.recaptured
  by_cases h : x.triesUsed < s.tryLimit r
  · simp only [h, if_true, decide_true]
    rfl
  · simp only [h, if_false, decide_false]
    rfl

/-- A test for a claim leaves a cell that is not PENDING (R17). -/
theorem State.pollSlot_cell? {w : State} {y : CellRecord} (hn : (w.plates.map (·.key)).Nodup) (hy : w.cell? c = some y)
    (hp : y.state ≠ .pending) : w.pollSlot.cell? c = some y := by
  rcases w.pollSlot_cases with h | h | h | ⟨p, place, j, hcap, hplace, -, h⟩
  · rw [h]
    exact hy
  · rw [h]
    exact hy
  · rw [h]
    exact hy
  · have hne : ¬ c = ⟨p.key, place.1, place.2⟩ := by
      rintro rfl
      obtain ⟨z, hz, hpending⟩ := PlateRecord.nextCell?_spec hplace
      rw [State.cell?_of_plate (State.plate?_of_mem hn (State.capturable?_spec hcap).1), hz] at hy
      exact hp (Option.some.inj hy ▸ hpending)
    rw [h, State.claim_cell?, hy, Option.map_some, if_neg hne]

/-- What the event's end leaves of the state after the tests, but the notices and the free access. -/
structure State.EndsAs (v t : State) : Prop where
  plates : t.plates = v.plates
  held : t.fsc.held = v.fsc.held
  holders : t.fsc.holders = v.fsc.holders
  work : t.mge = v.mge
  csq : t.csq = v.csq
  dlt : t.dlt = v.dlt
  tables : v.tablesKept t

theorem State.endsAs_of_arbitrate {v t : State} (ht : t = { v.arbitrate with raised := [], ports := t.ports }) :
    v.EndsAs t := by
  generalize t.ports = ports at ht
  subst ht
  exact ⟨by simp, by simp, State.arbitrate_holders v, by simp, by simp, by simp, by simp [State.tablesKept]⟩

theorem State.EndsAs.cell? {v t : State} (h : v.EndsAs t) (d : CellRef) : t.cell? d = v.cell? d := by
  rw [State.cell?, State.cell?, State.plate?, State.plate?, h.plates]

theorem State.EndsAs.slotBack {v t : State} (h : v.EndsAs t) (hv : v.slotBack k) : t.slotBack k := by
  rw [State.slotBack, h.held, State.work, h.work]
  exact hv

theorem State.EndsAs.claimed {v t : State} {key : PlateKey} (h : v.EndsAs t) (hv : s.claimedAtVerdict v c k key) :
    s.claimedAtVerdict t c k key := by
  obtain ⟨ctx, h1, h2, h3, h4, h5, h6, h7, h8, h9, h10, h11⟩ := hv
  exact ⟨ctx, by rw [h.csq, h1], by rw [h.csq, h2], h3, h4, by rw [h.cell?, h5], by rw [h.held, h6],
    by rw [h.holders, h7], by rw [State.work, h.work]; exact h8, h9, h10, fun hne => h.slotBack (h11 hne)⟩

theorem PlateRecord.hasPending_iff : r.hasPending = true ↔ ∃ y ∈ r.cells, y.state = .pending := by
  simp [PlateRecord.hasPending]

/-- KEEP of a DELIVERED cell, and the claim that may follow at that event (R21, R162). -/
theorem State.exec_keep (hs : s.takes q .release) (hlaw : s.registerLaw) (hr : s.plate? c.key = some r)
    (hx : r.cell? c.column c.row = some x) (hk : x.slot = some k) (hst : x.state = .delivered) (hq : c ∉ s.dlt.queue) :
    ∃ t, exec (.releaseKeep q (some c.key) (some c.column) (some c.row) true) s = .next t
      ∧ s.served t q .release (Reply.done false) ∧ t.cell? c = some { x with state := .kept, slot := none }
      ∧ (t.plate? c.key).map (·.kept) = some (r.kept + 1) ∧ c ∉ t.dlt.queue ∧ s.tablesKept t
      ∧ (s.csq.state ≠ .awaitSlot → t.slotBack k ∧ t.csq = s.csq)
      ∧ (s.csq.state = .awaitSlot → s.claimBarred → t.slotBack k ∧ t.csq.ctx = s.csq.ctx)
      ∧ (s.csq.state = .awaitSlot → s.claimAdmitted → ∀ p, s.canCapture p → s.claimedAtVerdict t c k p.key) := by
  have hhandle : (s.taken q .release).withCell (some c.key) (some c.column) (some c.row) true (s.taken q .release).handleKeep
      = (((s.taken q .release).kept c k).pollSlot.arbitrate, Reply.done false) := by
    rw [State.withCell_some (s := s.taken q .release) hr hx]
    exact State.handleKeep_delivered (s := s.taken q .release) hr hx hk hst
  obtain ⟨t, hexec, hserved, ht, -⟩ := State.exec_of_serve
    (i := .releaseKeep q (some c.key) (some c.column) (some c.row) true) hs rfl hhandle (by simp [State.kept])
  have hends := State.endsAs_of_arbitrate ht
  have hjudged := (s.taken q .release).judged_returnSlot c k (st := .kept) CellState.noConfusion
    (g := PlateRecord.oneKept) PlateRecord.sameCells_kept
  have hcsq : ((s.taken q .release).kept c k).csq = s.csq := by simp [State.kept]
  have hdlt : ((s.taken q .release).kept c k).dlt = s.dlt := by simp [State.kept]
  have htables : s.tablesKept ((s.taken q .release).kept c k) := by simp [State.tablesKept, State.kept]
  change (s.taken q .release).Judged ((s.taken q .release).kept c k) c k _ _ at hjudged
  generalize (s.taken q .release).kept c k = w at hends hjudged hcsq hdlt htables
  have hlaw' := hjudged.registerLaw hlaw
  have hcell : w.cell? c = some { x with state := .kept, slot := none } := by
    rw [hjudged.cell?, show (s.taken q .release).cell? c = some x from (State.cell?_of_plate hr).trans hx, Option.map_some,
      if_pos rfl]
    rfl
  have hplate : w.plate? c.key
      = some ((PlateRecord.oneKept (r.onCell c.column c.row (CellRecord.ended .kept))).settled s.tbu.clock) := by
    rw [hjudged.plate?, show (s.taken q .release).plate? c.key = some r from hr, Option.map_some, if_pos rfl]
    rfl
  obtain ⟨cells, hplate'⟩ := State.plate?_pollSlot_eq hlaw' hplate
  refine ⟨t, hexec, hserved, ?_, ?_, ?_, ?_, fun hne => ?_, fun hwait hbar => ?_, fun hwait hadm p hp => ?_⟩
  · rw [hends.cell?]
    exact State.pollSlot_cell? hlaw'.2.1 hcell CellState.noConfusion
  · rw [State.plate?, hends.plates]
    refine (congrArg (Option.map (·.kept)) hplate').trans ?_
    simp [(PlateRecord.settled_holds _ _).2.1, PlateRecord.oneKept, PlateRecord.onCell]
  · rw [hends.dlt]
    simpa [hdlt] using hq
  · have h := hends.tables
    simp only [State.tablesKept, State.pollSlot_frame] at h htables ⊢
    simpa only [h, htables] using htables
  · have hsame : w.pollSlot = w := State.pollSlot_of_state (by rw [hcsq]; exact hne)
    rw [hsame] at hends
    exact ⟨hends.slotBack hjudged.slotBack, by rw [hends.csq, hcsq]⟩
  · have hbar' := hjudged.barred (fun _ => rfl) hbar
    obtain ⟨st, hsame⟩ := State.pollSlot_barred fun _ => hbar'.noClaim
    rw [hsame] at hends
    refine ⟨hends.slotBack hjudged.slotBack, ?_⟩
    rw [hends.csq, hcsq]
  · have hp' : ∃ p', w.canCapture p' ∧ p'.key = p.key := by
      by_cases hkey : p.key = c.key
      · obtain rfl : p = r := by
          have hfound := State.plate?_of_mem hlaw.2.1 hp.1
          rw [hkey, hr] at hfound
          exact (Option.some.inj hfound).symm
        refine ⟨_, hjudged.canCapture_own (fun _ => ⟨rfl, rfl⟩) hr hp.2.1 hp.2.2.1 (.inl hp.2.2.2.1)
          (PlateRecord.hasPending_onCell (hadm.2.2.2.1 p hp.1) hx (by rw [hst]; exact CellState.noConfusion) hp.2.2.2.2), ?_⟩
        exact ((PlateRecord.sameCells_kept _).trans (PlateRecord.sameCells_settled _ _)).key
      · exact ⟨p, hjudged.canCapture_other hp hkey, rfl⟩
    obtain ⟨p', hp', hkey⟩ := hp'
    obtain ⟨place, j, hplace, hj, hclaim⟩ := State.pollSlot_admitted (by rw [hcsq, hwait]) (hjudged.admitted hadm) hlaw' hp'
      hjudged.slotBack.1
    rw [hclaim] at hends
    rw [← hkey]
    exact hends.claimed (hjudged.claims hlaw' hp' hplace hj).1

/-- What a RECAPTURE leaves before the sequencer's tests, for each of its two verdicts. -/
theorem State.judged_recaptured (s : State) (c : CellRef) (k : SlotNo) {st : CellState} (hst : st ≠ .exposing)
    {g : PlateRecord → PlateRecord} (hg : ∀ x : PlateRecord, x.SameCells (g x)) :
    s.Judged (((s.changeCell c (CellRecord.ended st) g).dequeue c).returnSlot k) c k (CellRecord.ended st) g := by
  obtain ⟨hfreed, hheld, -⟩ := ((s.changeCell c (CellRecord.ended st) g).dequeue c).returnSlot_freed k
  exact ⟨fun _ => ⟨rfl, rfl⟩, fun _ => hst, hg, by simp, by rw [hheld]; simp, by rw [hfreed]; rfl, by simp, by simp, by simp⟩

/-- A RECAPTURE that leaves its cell in a state, and its plate with a count of failed cells. -/
theorem State.exec_recapture_to (hs : s.takes q .release) (hlaw : s.registerLaw) (hr : s.plate? c.key = some r)
    (hx : r.cell? c.column c.row = some x) (hnp : x.state ≠ .pending) {st : CellState} (hst : st ≠ .exposing)
    {g : PlateRecord → PlateRecord} (hg : ∀ x : PlateRecord, x.SameCells (g x))
    (hgs : ∀ x : PlateRecord, (g x).holds = x.holds ∧ (g x).state = x.state) {n : Nat}
    (hgf : ∀ x : PlateRecord, (g x).failed = x.failed + n)
    (hhandle : (s.taken q .release).handleRecapture r x = (((((s.taken q .release).changeCell c (CellRecord.ended st)
      g).dequeue c).returnSlot k).pollIdle.pollSlot.arbitrate, Reply.done false)) :
    ∃ t, exec (.releaseRecapture q (some c.key) (some c.column) (some c.row) true) s = .next t
      ∧ s.served t q .release (Reply.done false) ∧ (t.plate? c.key).map (·.failed) = some (r.failed + n)
      ∧ c ∉ t.dlt.queue ∧ s.tablesKept t
      ∧ (¬ (s.csq.state = .idle ∨ s.csq.state = .awaitSlot) →
          t.slotBack k ∧ t.cell? c = some (x.ended st) ∧ t.csq = s.csq)
      ∧ (s.claimBarred → t.slotBack k ∧ t.cell? c = some (x.ended st) ∧ t.csq.ctx = s.csq.ctx)
      ∧ ((s.csq.state = .idle ∨ s.csq.state = .awaitSlot) → s.claimAdmitted → ∀ p, (s.canCapture p ∨ (p = r ∧ st = .pending
            ∧ r.seated = true ∧ r.holds.any = false ∧ (r.state = .active ∨ r.state = .enrolled ∨ r.state = .captured))) →
          s.claimedAtVerdict t c k p.key ∧ (t.csq.ctx.map (·.cell) ≠ some c → t.cell? c = some (x.ended st))) := by
  have hhandle : (s.taken q .release).withCell (some c.key) (some c.column) (some c.row) true
      (s.taken q .release).handleRecapture = (((((s.taken q .release).changeCell c (CellRecord.ended st)
        g).dequeue c).returnSlot k).pollIdle.pollSlot.arbitrate, Reply.done false) := by
    rw [State.withCell_some (s := s.taken q .release) hr hx]
    exact hhandle
  obtain ⟨t, hexec, hserved, ht, -⟩ := State.exec_of_serve
    (i := .releaseRecapture q (some c.key) (some c.column) (some c.row) true) hs rfl hhandle (by simp)
  have hends := State.endsAs_of_arbitrate ht
  have hjudged := (s.taken q .release).judged_recaptured c k hst hg
  have hcsq : ((((s.taken q .release).changeCell c (CellRecord.ended st) g).dequeue c).returnSlot k).csq = s.csq := by simp
  have hqueue : c ∉ ((((s.taken q .release).changeCell c (CellRecord.ended st) g).dequeue c).returnSlot k).dlt.queue := by
    simp [State.dequeue, State.onDlt]
  have htables : s.tablesKept ((((s.taken q .release).changeCell c (CellRecord.ended st) g).dequeue c).returnSlot k) := by
    simp [State.tablesKept]
  generalize (((s.taken q .release).changeCell c (CellRecord.ended st) g).dequeue c).returnSlot k = w
    at hends hjudged hcsq hqueue htables
  obtain ⟨csq, hidle⟩ : ∃ csq, w.pollIdle = { w with csq := csq } := ⟨_, w.pollIdle_eq⟩
  have hjudged' := hjudged.withCsq csq hidle
  have hlaw' := hjudged'.registerLaw hlaw
  have hcell : w.pollIdle.cell? c = some (x.ended st) := by
    rw [hjudged'.cell?, show (s.taken q .release).cell? c = some x from (State.cell?_of_plate hr).trans hx, Option.map_some,
      if_pos rfl]
  have hplate : w.pollIdle.plate? c.key
      = some ((g (r.onCell c.column c.row (CellRecord.ended st))).settled s.tbu.clock) := by
    rw [hjudged'.plate?, show (s.taken q .release).plate? c.key = some r from hr, Option.map_some, if_pos rfl]
    rfl
  obtain ⟨cells, hplate'⟩ := State.plate?_pollSlot_eq hlaw' hplate
  refine ⟨t, hexec, hserved, ?_, ?_, ?_, fun hne => ?_, fun hbar => ?_, fun hwait hadm p hp => ?_⟩
  · rw [State.plate?, hends.plates]
    refine (congrArg (Option.map (·.failed)) hplate').trans ?_
    simp [(PlateRecord.settled_holds _ _).2.2, hgf, PlateRecord.onCell]
  · rw [hends.dlt]
    simpa using hqueue
  · have h := hends.tables
    simp only [State.tablesKept, State.pollSlot_frame, State.pollIdle_frame] at h htables ⊢
    simpa only [h, htables] using htables
  · obtain ⟨h1, h2⟩ := not_or.mp hne
    have hsame : w.pollIdle = w := State.pollIdle_of_state (by rw [hcsq]; exact h1)
    rw [hsame, State.pollSlot_of_state (by rw [hcsq]; exact h2)] at hends
    rw [hsame] at hcell
    exact ⟨hends.slotBack hjudged.slotBack, by rw [hends.cell?, hcell], by rw [hends.csq, hcsq]⟩
  · have hbar' := hjudged'.barred (fun y => (hgs y).1) hbar
    obtain ⟨st', hsame⟩ := State.pollSlot_barred (w := w.pollIdle) fun _ => hbar'.noClaim
    obtain ⟨st'', hsame'⟩ := w.pollIdle_barred
    rw [hsame] at hends
    refine ⟨hends.slotBack hjudged'.slotBack, (hends.cell? c).trans hcell, ?_⟩
    rw [hends.csq, hsame', ← hcsq]
  · have hplates : w.pollIdle.plates = w.plates := State.pollIdle_plates w
    have hp' : ∃ p', w.canCapture p' ∧ p'.key = p.key := by
      have hown {r' : PlateRecord} (hr' : s.plate? c.key = some r') (hseat : r'.seated = true) (hh : r'.holds.any = false)
          (hstate : r'.state = .active ∨ r'.state = .enrolled ∨ r'.state = .captured)
          (hpending : (r'.onCell c.column c.row (CellRecord.ended st)).hasPending = true) :
          ∃ p', w.canCapture p' ∧ p'.key = r'.key :=
        ⟨_, hjudged.canCapture_own hgs hr' hseat hh hstate hpending,
          ((hg _).trans (PlateRecord.sameCells_settled _ _)).key⟩
      rcases hp with hp | ⟨rfl, hpend, hseat, hh, hstate⟩
      · by_cases hkey : p.key = c.key
        · obtain rfl : p = r := by
            have hfound := State.plate?_of_mem hlaw.2.1 hp.1
            rw [hkey, hr] at hfound
            exact (Option.some.inj hfound).symm
          exact hown hr hp.2.1 hp.2.2.1 (.inl hp.2.2.2.1)
            (PlateRecord.hasPending_onCell (hadm.2.2.2.1 p hp.1) hx hnp hp.2.2.2.2)
        · exact ⟨p, hjudged.canCapture_other hp hkey, rfl⟩
      · exact hown hr hseat hh hstate (PlateRecord.hasPending_of_changed hx hpend)
    obtain ⟨p', hp', hkey⟩ := hp'
    have hlaw'' : w.registerLaw := hjudged.registerLaw hlaw
    have hawait := State.pollIdle_admitted (w := w) (by rw [hcsq]; exact hwait) (hjudged.admitted hadm) hlaw'' hp'
    have hpidle : w.pollIdle.canCapture p' := by
      rw [State.canCapture, hplates]
      exact hp'
    obtain ⟨place, j, hplace, hj, hclaim⟩ := State.pollSlot_admitted (w := w.pollIdle) (by rw [hawait])
      (hjudged'.admitted hadm) hlaw' hpidle hjudged'.slotBack.1
    rw [hclaim] at hends
    obtain ⟨hclaimed, -, hother⟩ := hjudged'.claims hlaw' hpidle hplace hj
    rw [← hkey]
    refine ⟨hends.claimed hclaimed, fun hne => ?_⟩
    rw [hends.csq] at hne
    rw [hends.cell?]
    exact hother _ hcell fun e => hne (by rw [e]; rfl)

end

/-- Settles O46: each verdict by the cell that it settles and the sequencer's tests that follow. -/
theorem releaseSettlesCell : Obligations.ReleaseSettlesCell := by
  intro s q c r x hs hlaw hr hx limit keep recapture returned cellIs barred admitted capturing claimed
  have hcapturing (p : PlateRecord) : capturing p ↔ s.canCapture p := by
    simp only [capturing, State.canCapture, PlateRecord.hasPending_iff]
  have hlimit : (s.taken q .release).tryLimit r = limit := rfl
  refine ⟨fun k hk hst hq => ?_, fun hst => ?_, fun k hk hst => ?_, fun h1 h2 => ?_⟩
  · obtain ⟨t, hexec, hserved, hcell, hkept, hqueue, htables, hno, hbar, hclaim⟩ :=
      State.exec_keep hs hlaw hr hx hk hst hq
    exact ⟨t, hexec, hserved, hcell, hkept, hqueue, htables, hno, hbar,
      fun hwait hadm p hp => hclaim hwait hadm p ((hcapturing p).mp hp)⟩
  · refine State.answeredOnly_of_serve hs rfl ?_
    rw [State.withCell_some (s := s.taken q .release) hr hx]
    exact if_neg hst
  · have hhandle := State.handleRecapture_taken (s := s.taken q .release) hr hx hk hst
    have hnp : x.state ≠ .pending := by rcases hst with h | h <;> rw [h] <;> exact CellState.noConfusion
    by_cases hbelow : x.triesUsed < limit
    · rw [hlimit, decide_eq_true hbelow] at hhandle
      obtain ⟨t, hexec, hserved, hfailed, hqueue, htables, hno, hbar, hclaim⟩ := State.exec_recapture_to (k := k) hs hlaw hr
        hx hnp (st := .pending) CellState.noConfusion (g := id) PlateRecord.sameCells_id (fun _ => ⟨rfl, rfl⟩) (n := 0)
        (fun _ => rfl) hhandle
      have hsettled {t : State} (h : t.cell? c = some (x.ended .pending)) :
          (x.triesUsed < limit → cellIs t .pending) ∧ (limit ≤ x.triesUsed → cellIs t .failed) :=
        ⟨fun _ => h, fun h' => absurd hbelow (Nat.not_lt.mpr h')⟩
      refine ⟨t, hexec, hserved, by rw [hfailed, if_pos hbelow]; rfl, hqueue, htables, fun hw => ?_, fun _ hb => ?_,
        fun hw ha p hp => ?_⟩
      · obtain ⟨h1, h2, h3⟩ := hno hw
        exact ⟨h1, hsettled h2, h3⟩
      · obtain ⟨h1, h2, h3⟩ := hbar hb
        exact ⟨h1, hsettled h2, h3⟩
      · obtain ⟨h1, h2⟩ := hclaim hw ha p
          (hp.imp (hcapturing p).mp fun ⟨h1, _, h3, h4, h5⟩ => ⟨h1, rfl, h3, h4, h5⟩)
        exact ⟨h1, fun hne => hsettled (h2 hne)⟩
    · rw [hlimit, decide_eq_false hbelow] at hhandle
      obtain ⟨t, hexec, hserved, hfailed, hqueue, htables, hno, hbar, hclaim⟩ := State.exec_recapture_to (k := k) hs hlaw hr
        hx hnp (st := .failed) CellState.noConfusion (g := PlateRecord.oneFailed) PlateRecord.sameCells_failed
        (fun _ => ⟨rfl, rfl⟩) (n := 1) (fun _ => rfl) hhandle
      have hsettled {t : State} (h : t.cell? c = some (x.ended .failed)) :
          (x.triesUsed < limit → cellIs t .pending) ∧ (limit ≤ x.triesUsed → cellIs t .failed) :=
        ⟨fun h' => absurd h' hbelow, fun _ => h⟩
      refine ⟨t, hexec, hserved, by rw [hfailed, if_neg hbelow], hqueue, htables, fun hw => ?_, fun _ hb => ?_,
        fun hw ha p hp => ?_⟩
      · obtain ⟨h1, h2, h3⟩ := hno hw
        exact ⟨h1, hsettled h2, h3⟩
      · obtain ⟨h1, h2, h3⟩ := hbar hb
        exact ⟨h1, hsettled h2, h3⟩
      · obtain ⟨h1, h2⟩ := hclaim hw ha p (.inl ((hcapturing p).mp (hp.resolve_right fun h => hbelow h.2.1)))
        exact ⟨h1, fun hne => hsettled (h2 hne)⟩
  · refine State.answeredOnly_of_serve hs rfl ?_
    rw [State.withCell_some (s := s.taken q .release) hr hx]
    exact if_neg (not_or.mpr ⟨h1, h2⟩)

end Sys2Proof.Machine
end

section
/-! PROOFS. A verdict and its plate: CAPTURED, DONE, FAULTED, or captured anew (R9, R10, R21). -/

namespace Sys2Proof.Machine
-- One proof at a time: under the memory limit of the check there is no room for the stacks of many threads.
set_option Elab.async false

section

variable {r : PlateRecord} {now : Seconds}

theorem PlateRecord.captureOver_iff : r.captureOver = true
    ↔ ∀ y ∈ r.cells, y.state ≠ .pending ∧ y.state ≠ .exposing ∧ y.state ≠ .finalizing := by
  simp [PlateRecord.captureOver, and_assoc]

theorem PlateRecord.complete_iff : r.complete = true ↔ ∀ y ∈ r.cells, y.state = .kept ∨ y.state = .failed := by
  simp [PlateRecord.complete]

/-- Nothing is left to capture of a plate whose cells are all settled (R10). -/
theorem PlateRecord.captureOver_of_complete (h : r.complete = true) : r.captureOver = true := by
  refine PlateRecord.captureOver_iff.mpr fun y hy => ?_
  rcases PlateRecord.complete_iff.mp h y hy with h | h <;> rw [h] <;>
    exact ⟨CellState.noConfusion, CellState.noConfusion, CellState.noConfusion⟩

/-- A plate with no cell to capture is CAPTURED (R9). -/
theorem PlateRecord.recaptured_of_over (hst : r.state = .captured ∨ r.state = .active ∨ r.state = .enrolled)
    (h : r.captureOver = true) : r.recaptured = { r with state := .captured } := by
  unfold PlateRecord.recaptured
  rcases hst with hst | hst | hst
  · have hno : r.hasPending = false := by
      cases hp : r.hasPending with
      | false => rfl
      | true => rw [PlateRecord.captureOver_eq_false_of_pending hp] at h; cases h
    rw [hst]
    simp only [hno, Bool.false_eq_true, if_false]
    rw [← hst]
  · simp [hst, h]
  · simp [hst, h]

/-- A plate with every cell KEPT or FAILED is complete, through CAPTURED (R10). -/
theorem PlateRecord.settled_of_complete (hst : r.state = .captured ∨ r.state = .active ∨ r.state = .enrolled)
    (h : r.complete = true) :
    r.settled now = { r with state := if r.failed = 0 then .done else .faulted, completion := some now } := by
  unfold PlateRecord.settled PlateRecord.completed
  rw [PlateRecord.recaptured_of_over hst (PlateRecord.captureOver_of_complete h)]
  exact if_pos ⟨rfl, h⟩

/-- A plate with no cell to capture, but some to release, is CAPTURED (R9). -/
theorem PlateRecord.settled_of_over (hst : r.state = .captured ∨ r.state = .active ∨ r.state = .enrolled)
    (h : r.captureOver = true) (hc : r.complete = false) : (r.settled now).state = .captured := by
  unfold PlateRecord.settled PlateRecord.completed
  rw [PlateRecord.recaptured_of_over hst h, if_neg]
  rintro ⟨-, hcomplete⟩
  have hcomplete : r.complete = true := hcomplete
  rw [hc] at hcomplete
  cases hcomplete

/-- A CAPTURED plate with a cell to capture is ACTIVE again where it is seated, else ENROLLED (R9). -/
theorem PlateRecord.settled_of_recaptured (hst : r.state = .captured) (hp : r.hasPending = true) :
    (r.settled now).state = if r.seated then .active else .enrolled := by
  have hrecaptured : r.recaptured = { r with state := if r.seated then .active else .enrolled } := by
    unfold PlateRecord.recaptured
    rw [hst]
    exact if_pos hp
  unfold PlateRecord.settled PlateRecord.completed
  rw [hrecaptured, if_neg]
  rintro ⟨h, -⟩
  cases hs : r.seated <;> simp [hs] at h

end

section

variable {s : State} {q : Src} {c : CellRef} {r : PlateRecord} {x : CellRecord} {k : SlotNo}

theorem State.midTry.waits (h : s.midTry) : s.csq.state ≠ .idle ∧ s.csq.state ≠ .awaitSlot := by
  obtain ⟨h | h | h | ⟨h, -⟩, -⟩ := h <;> rw [h] <;> exact ⟨CsqState.noConfusion, CsqState.noConfusion⟩

/-- The plate after a KEEP under which nothing is claimed. -/
theorem State.exec_keep_plate (hs : s.takes q .release) (hr : s.plate? c.key = some r)
    (hx : r.cell? c.column c.row = some x) (hk : x.slot = some k) (hst : x.state = .delivered) (hmid : s.midTry) :
    ∃ t, exec (.releaseKeep q (some c.key) (some c.column) (some c.row) true) s = .next t
      ∧ t.plate? c.key = some ((PlateRecord.oneKept (r.onCell c.column c.row (CellRecord.ended .kept))).settled
          s.tbu.clock) := by
  have hhandle : (s.taken q .release).withCell (some c.key) (some c.column) (some c.row) true (s.taken q .release).handleKeep
      = (((s.taken q .release).kept c k).pollSlot.arbitrate, Reply.done false) := by
    rw [State.withCell_some (s := s.taken q .release) hr hx]
    exact State.handleKeep_delivered (s := s.taken q .release) hr hx hk hst
  have hcsq : ((s.taken q .release).kept c k).csq = s.csq := by simp [State.kept]
  rw [State.pollSlot_of_state (by rw [hcsq]; exact hmid.waits.2)] at hhandle
  obtain ⟨t, hexec, -, ht, -⟩ := State.exec_of_serve
    (i := .releaseKeep q (some c.key) (some c.column) (some c.row) true) hs rfl hhandle (by simp [State.kept])
  have hjudged := (s.taken q .release).judged_returnSlot c k (st := .kept) CellState.noConfusion
    (g := PlateRecord.oneKept) PlateRecord.sameCells_kept
  have hplate := hjudged.plate? c.key
  rw [show (s.taken q .release).plate? c.key = some r from hr, Option.map_some, if_pos rfl] at hplate
  refine ⟨t, hexec, ?_⟩
  rw [State.plate?, (State.endsAs_of_arbitrate ht).plates]
  exact hplate

/-- The plate after a RECAPTURE under which nothing is claimed. -/
theorem State.exec_recapture_plate (hs : s.takes q .release) (hr : s.plate? c.key = some r)
    (hx : r.cell? c.column c.row = some x) (hk : x.slot = some k) (hst : x.state = .merged ∨ x.state = .delivered)
    (hmid : s.midTry) :
    ∃ t, exec (.releaseRecapture q (some c.key) (some c.column) (some c.row) true) s = .next t
      ∧ (x.triesUsed < s.tryLimit r → t.plate? c.key
          = some ((r.onCell c.column c.row (CellRecord.ended .pending)).settled s.tbu.clock))
      ∧ (s.tryLimit r ≤ x.triesUsed → t.plate? c.key
          = some ((PlateRecord.oneFailed (r.onCell c.column c.row (CellRecord.ended .failed))).settled s.tbu.clock)) := by
  have hhandle : (s.taken q .release).withCell (some c.key) (some c.column) (some c.row) true
      (s.taken q .release).handleRecapture = (((s.taken q .release).recaptured c k
        (decide (x.triesUsed < s.tryLimit r))).pollIdle.pollSlot.arbitrate, Reply.done false) := by
    rw [State.withCell_some (s := s.taken q .release) hr hx]
    exact State.handleRecapture_taken (s := s.taken q .release) hr hx hk hst
  have hcsq (b : Bool) : ((s.taken q .release).recaptured c k b).csq = s.csq := by
    unfold State.recaptured
    split <;> simp
  rw [State.pollIdle_of_state (by rw [hcsq]; exact hmid.waits.1),
    State.pollSlot_of_state (by rw [hcsq]; exact hmid.waits.2)] at hhandle
  have hports (b : Bool) : ((s.taken q .release).recaptured c k b).ports = (s.taken q .release).ports := by
    unfold State.recaptured
    split <;> simp
  obtain ⟨t, hexec, -, ht, -⟩ := State.exec_of_serve
    (i := .releaseRecapture q (some c.key) (some c.column) (some c.row) true) hs rfl hhandle (by simp [hports])
  have hends := State.endsAs_of_arbitrate ht
  have hfound : (s.taken q .release).plate? c.key = some r := hr
  refine ⟨t, hexec, fun h => ?_, fun h => ?_⟩
  · have hplate := ((s.taken q .release).judged_recaptured c k (st := .pending) CellState.noConfusion (g := id)
      PlateRecord.sameCells_id).plate? c.key
    rw [hfound, Option.map_some, if_pos rfl] at hplate
    rw [decide_eq_true h] at hends
    rw [State.plate?, hends.plates]
    exact hplate
  · have hplate := ((s.taken q .release).judged_recaptured c k (st := .failed) CellState.noConfusion
      (g := PlateRecord.oneFailed) PlateRecord.sameCells_failed).plate? c.key
    rw [hfound, Option.map_some, if_pos rfl] at hplate
    rw [decide_eq_false (Nat.not_lt.mpr h)] at hends
    rw [State.plate?, hends.plates]
    exact hplate

/-- A cell among the others of its plate has its own place. -/
theorem PlateRecord.complete_onCell_iff {a b : Nat} {st : CellState} (hst : st = .kept ∨ st = .failed) :
    (r.onCell a b (CellRecord.ended st)).complete = true
      ↔ ∀ z ∈ r.cells, (z.column, z.row) ≠ (a, b) → z.state = .kept ∨ z.state = .failed := by
  rw [PlateRecord.complete_iff]
  refine ⟨fun h z hz hne => ?_, fun h => PlateRecord.forall_onCell (p := fun y => y = .kept ∨ y = .failed)
    (fun _ _ _ => hst) h⟩
  exact h z (PlateRecord.mem_onCell_of_ne hz fun ⟨h1, h2⟩ => hne (Prod.ext h1 h2))

theorem PlateRecord.captureOver_onCell {a b : Nat} {st : CellState}
    (hst : st ≠ .pending ∧ st ≠ .exposing ∧ st ≠ .finalizing)
    (h : ∀ z ∈ r.cells, (z.column, z.row) ≠ (a, b) →
      z.state ≠ .pending ∧ z.state ≠ .exposing ∧ z.state ≠ .finalizing) :
    (r.onCell a b (CellRecord.ended st)).captureOver = true :=
  PlateRecord.captureOver_iff.mpr (PlateRecord.forall_onCell
    (p := fun y => y ≠ .pending ∧ y ≠ .exposing ∧ y ≠ .finalizing) (fun _ _ _ => hst) h)

end

/-- Settles O47: the plate after each verdict, by what its other cells are. -/
theorem verdictCompletesPlate : Obligations.VerdictCompletesPlate := by
  intro s q c r x k hs hlaw hgrid hr hx hk hmid limit others ended finished
  have hlimit : s.tryLimit r = limit := rfl
  refine ⟨fun hst hcap hothers => ?_, fun hst hlim hstate hothers => ?_, fun hst hlim hstate hothers hnot => ?_,
    fun hst hlim hcap => ?_⟩
  · obtain ⟨t, hexec, hplate⟩ := State.exec_keep_plate hs hr hx hk hst hmid
    have hcomplete : (PlateRecord.oneKept (r.onCell c.column c.row (CellRecord.ended .kept))).complete = true :=
      (PlateRecord.complete_onCell_iff (.inl rfl)).mpr hothers
    rw [PlateRecord.settled_of_complete (r := PlateRecord.oneKept (r.onCell c.column c.row (CellRecord.ended .kept))) (.inl hcap) hcomplete] at hplate
    exact ⟨t, hexec, _, hplate, rfl, rfl, rfl, rfl⟩
  · obtain ⟨t, hexec, -, hplate⟩ := State.exec_recapture_plate hs hr hx hk hst hmid
    have hplate := hplate hlim
    have hcomplete : (PlateRecord.oneFailed (r.onCell c.column c.row (CellRecord.ended .failed))).complete = true :=
      (PlateRecord.complete_onCell_iff (.inr rfl)).mpr hothers
    rw [PlateRecord.settled_of_complete (r := PlateRecord.oneFailed (r.onCell c.column c.row (CellRecord.ended .failed))) hstate hcomplete] at hplate
    exact ⟨t, hexec, _, hplate, rfl, rfl, rfl, rfl⟩
  · obtain ⟨t, hexec, -, hplate⟩ := State.exec_recapture_plate hs hr hx hk hst hmid
    have hover : (PlateRecord.oneFailed (r.onCell c.column c.row (CellRecord.ended .failed))).captureOver = true :=
      PlateRecord.captureOver_onCell ⟨CellState.noConfusion, CellState.noConfusion, CellState.noConfusion⟩ hothers
    have hcomplete : (PlateRecord.oneFailed (r.onCell c.column c.row (CellRecord.ended .failed))).complete = false :=
      Bool.eq_false_iff.mpr fun h => hnot ((PlateRecord.complete_onCell_iff (.inr rfl)).mp h)
    refine ⟨t, hexec, ?_⟩
    rw [hplate hlim, Option.map_some,
      PlateRecord.settled_of_over (r := PlateRecord.oneFailed (r.onCell c.column c.row (CellRecord.ended .failed))) (.inr hstate) hover hcomplete]
  · obtain ⟨t, hexec, hplate, -⟩ := State.exec_recapture_plate hs hr hx hk hst hmid
    have hpending : (r.onCell c.column c.row (CellRecord.ended .pending)).hasPending = true :=
      PlateRecord.hasPending_of_changed hx rfl
    refine ⟨t, hexec, ?_⟩
    rw [hplate hlim, Option.map_some,
      PlateRecord.settled_of_recaptured (r := r.onCell c.column c.row (CellRecord.ended .pending)) hcap hpending]
    rfl

end Sys2Proof.Machine
end

section
/-! PROOFS. UNSEATED: the try abandoned with the work of its state, and the plate unseated (R8, R20, R59, R118). -/

namespace Sys2Proof.Machine
-- One proof at a time: under the memory limit of the check there is no room for the stacks of many threads.
set_option Elab.async false

/-! ## A try abandoned -/

section

variable {s : State} {c : TryContext}

/-- The work that a try's state had under way is stopped (R59). -/
def State.tryStopped (s : State) : State :=
  match s.csq.state with
  | .moving =>
    (s.onTimers fun t => { t with move := none }).onCsq fun q =>
      { q with move := q.move.map fun m => m.ended .abandoned }
  | .settling => s.onTimers fun t => { t with settle := none }
  | .exposing => s.discardWindow.cancelWait
  | .readout => s.cancelWait
  | _ => s

theorem State.abandonTry_eq (hc : s.csq.ctx = some c) : s.abandonTry
    = ((s.tryStopped.changeCell c.cell CellRecord.abandon id).returnSlot c.slot).clearCsq := by
  unfold State.abandonTry
  rw [hc]
  rfl

theorem State.tryStopped_eq (s : State) : s.tryStopped = { s with
    csq := s.tryStopped.csq, ltc := s.tryStopped.ltc, plr := s.tryStopped.plr, tbu := s.tryStopped.tbu } := by
  unfold State.tryStopped
  split <;> rfl

theorem State.tryStopped_clock (s : State) : s.tryStopped.tbu.clock = s.tbu.clock := by
  unfold State.tryStopped
  split <;> rfl

/-- The timers of a move, a dwell and a frame are not the lamp's. -/
theorem State.changeCell_timers (s : State) (d : CellRef) (f : CellRecord → CellRecord) (g : PlateRecord → PlateRecord) :
    (s.changeCell d f g).tbu.timers.move = s.tbu.timers.move
      ∧ (s.changeCell d f g).tbu.timers.settle = s.tbu.timers.settle
      ∧ (s.changeCell d f g).tbu.timers.frame = s.tbu.timers.frame := by
  unfold State.changeCell State.lampSwitchOn
  dsimp only
  repeat' split
  all_goals exact ⟨rfl, rfl, rfl⟩

/-- A slot's return takes the rows that wait for it alone from the link (R140). -/
theorem State.returnSlot_plr (s : State) (k : SlotNo) :
    (s.returnSlot k).plr = { s.plr with queue := s.plr.queue.filter fun r => !r.isFor k } := by
  simp [State.returnSlot, State.stopAccess, State.onPlr]

/-- What an abandoned try leaves of the register, the sequencer and its slot (R20, R59, R65). -/
theorem State.abandonTry_state (hc : s.csq.ctx = some c) :
    s.abandonTry.csq = { s.tryStopped.csq with state := .idle, ctx := none, frameReported := false }
      ∧ s.abandonTry.plates = (s.changeCell c.cell CellRecord.abandon id).plates
      ∧ s.abandonTry.fsc.held.get c.slot = false ∧ s.abandonTry.fsc.holders.get c.slot = none
      ∧ (s.abandonTry.work c.slot).state = .free := by
  obtain ⟨hwork, hheld, hholders⟩ := (s.tryStopped.changeCell c.cell CellRecord.abandon id).returnSlot_freed c.slot
  rw [State.abandonTry_eq hc]
  refine ⟨by simp [State.clearCsq, State.onCsq], ?_, ?_, ?_, ?_⟩
  · simp only [State.clearCsq_frame, State.returnSlot_frame]
    rw [changeCell_plates, changeCell_plates, State.tryStopped_eq]
    simp only [State.changeCellQuiet, State.tryStopped_clock]
    rfl
  · simp only [State.clearCsq_frame]
    rw [hheld, setAt_get_self]
  · simp only [State.clearCsq_frame]
    rw [hholders, setAt_get_self]
  · rw [State.work]
    simp only [State.clearCsq_frame]
    exact congrArg WorkRecord.state hwork

/-- What an abandoned try leaves of the timers, the window and the link (R59, R118). -/
theorem State.abandonTry_stopped (hc : s.csq.ctx = some c) :
    s.abandonTry.tbu.timers.move = s.tryStopped.tbu.timers.move
      ∧ s.abandonTry.tbu.timers.settle = s.tryStopped.tbu.timers.settle
      ∧ s.abandonTry.tbu.timers.frame = s.tryStopped.tbu.timers.frame
      ∧ s.abandonTry.ltc.windowOpen = s.tryStopped.ltc.windowOpen
      ∧ s.abandonTry.plr = { s.tryStopped.plr with queue := s.tryStopped.plr.queue.filter fun r => !r.isFor c.slot } := by
  obtain ⟨hmove, hsettle, hframe⟩ := s.tryStopped.changeCell_timers c.cell CellRecord.abandon id
  rw [State.abandonTry_eq hc]
  simp only [State.clearCsq_frame, State.returnSlot_frame]
  refine ⟨hmove, hsettle, hframe, ?_, ?_⟩
  · simp
  · rw [State.returnSlot_plr]
    simp

/-- The plate of an abandoned try's cell (R9, R20). -/
theorem State.abandonTry_plate? (hc : s.csq.ctx = some c) (key : PlateKey) :
    s.abandonTry.plate? key = (s.plate? key).map fun x =>
      if key = c.cell.key then (x.onCell c.cell.column c.cell.row CellRecord.abandon).settled s.tbu.clock else x := by
  have hplate := State.plate?_changeCell (s := s) (f := CellRecord.abandon) PlateRecord.sameCells_id c.cell key
  rw [State.plate?, (State.abandonTry_state hc).2.1]
  exact hplate

theorem State.abandonTry_cell? (hc : s.csq.ctx = some c) (d : CellRef) :
    s.abandonTry.cell? d = (s.cell? d).map fun z => if d = c.cell then z.abandon else z := by
  have hcell := State.cell?_changeCell (s := s) (f := CellRecord.abandon) InPlace.abandon PlateRecord.sameCells_id c.cell d
  rw [State.cell?, State.plate?, (State.abandonTry_state hc).2.1]
  exact hcell

/-- A cancelled wait: nothing is awaited, no row waits, an open frame is discarded, and the tag of a frame that has not
begun is the cancelled one (R118). -/
theorem State.cancelWait_plr (s : State) :
    s.cancelWait.plr.awaitedTag = none ∧ s.cancelWait.plr.queue = [] ∧ s.cancelWait.plr.endPending = false
      ∧ s.cancelWait.tbu.timers.frame = none
      ∧ (s.plr.reception = .receiving →
          s.cancelWait.plr.reception = .discarding ∧ s.cancelWait.plr.cancelledTag = s.plr.cancelledTag)
      ∧ (s.plr.reception ≠ .receiving → s.cancelWait.plr.reception = s.plr.reception
          ∧ ∀ tag, s.plr.awaitedTag = some tag → s.cancelWait.plr.cancelledTag = some tag) := by
  refine ⟨rfl, rfl, rfl, rfl, fun h => ⟨?_, ?_⟩, fun h => ⟨?_, fun tag ht => ?_⟩⟩ <;>
    simp [State.cancelWait, State.onPlr, State.onTimers, *]

/-- The arbiter lets no row join the queue. -/
theorem State.arbitrate_queue_nil (h : s.plr.queue = []) : s.arbitrate.plr.queue = [] := by
  unfold State.arbitrate State.grant Plr.takeFor
  dsimp only
  repeat' split
  all_goals simp [State.onFsc, State.onPlr, h]

end

/-! ## UNSEATED -/

section

variable {s : State} {q : Src} {key : PlateKey} {r : PlateRecord}

/-- An unseated plate with a cell to capture that is ENROLLED is as it was (R9). -/
theorem PlateRecord.settled_of_enrolled {r : PlateRecord} (hs : r.state = .enrolled) (hp : r.hasPending = true)
    (hseat : r.seated = false) (now : Seconds) : r.settled now = r := by
  have hover := PlateRecord.captureOver_eq_false_of_pending hp
  have hrecaptured : r.recaptured = r := by
    unfold PlateRecord.recaptured
    simp [hs, hover, hseat]
  unfold PlateRecord.settled PlateRecord.completed
  rw [hrecaptured, if_neg]
  rw [hs]
  rintro ⟨h, -⟩
  cases h

theorem PlateRecord.hasPending_of_abandon {r : PlateRecord} {a b : Nat} (h : r.cell? a b ≠ none) :
    (r.onCell a b CellRecord.abandon).hasPending = true := by
  obtain ⟨x, hx⟩ := Option.ne_none_iff_exists'.mp h
  exact PlateRecord.hasPending_of_changed hx rfl

/-- The register with the plate unseated, before its try is abandoned. -/
abbrev State.unseatBegun (s : State) (key : PlateKey) : State := s.onPlate key PlateRecord.unseat

theorem State.handleUnseated_eq (hseat : r.seated = true) (hw : r.state ≠ .withdrawn) :
    s.handleUnseated r = (((s.unseatBegun r.key).leaveCaptureOf r.key).arbitrate, Reply.done false) := by
  unfold State.handleUnseated
  rw [if_neg (by rw [hseat]; exact Bool.noConfusion), if_neg hw]

theorem State.leaveCaptureOf_try {c : TryContext} (hc : s.csq.ctx = some c) (hk : c.cell.key = key) :
    s.leaveCaptureOf key = s.abandonTry := by
  unfold State.leaveCaptureOf State.leaveCapture
  rw [hc]
  exact if_pos hk

theorem State.leaveCaptureOf_noTry (hc : s.csq.ctx = none) :
    ∃ st, s.leaveCaptureOf key = { s with csq := { s.csq with state := st } } := by
  unfold State.leaveCaptureOf State.leaveCapture
  rw [hc]
  dsimp only
  split
  · exact ⟨_, rfl⟩
  · exact ⟨_, rfl⟩
  · exact ⟨s.csq.state, rfl⟩

/-- The event of UNSEATED for a seated plate that is not WITHDRAWN. -/
theorem State.exec_unseated (hs : s.takes q .unseated) (hr : s.plate? key = some r) (hseat : r.seated = true)
    (hw : r.state ≠ .withdrawn) :
    ∃ t, exec (.unseated q (some key)) s = .next t ∧ s.served t q .unseated (Reply.done false)
      ∧ t = { (((s.taken q .unseated).unseatBegun key).leaveCaptureOf key).arbitrate with raised := [], ports := t.ports } := by
  have hkey : r.key = key := State.key_of_plate? hr
  have hhandle : (s.taken q .unseated).withPlate (some key) (s.taken q .unseated).handleUnseated
      = ((((s.taken q .unseated).unseatBegun key).leaveCaptureOf key).arbitrate, Reply.done false) := by
    rw [State.withPlate_some (s := s.taken q .unseated) hr, State.handleUnseated_eq hseat hw, hkey]
  obtain ⟨t, hexec, hserved, ht, -⟩ := State.exec_of_serve (i := .unseated q (some key)) hs rfl hhandle
    (by simp)
  exact ⟨t, hexec, hserved, ht⟩

theorem State.unseatBegun_plate? (s : State) (key other : PlateKey) :
    (s.unseatBegun key).plate? other = (s.plate? other).map fun x => if other = key then x.unseat else x :=
  State.plate?_onPlate s key (f := PlateRecord.unseat) (fun _ => rfl) other

theorem State.unseatBegun_cell? (s : State) (key : PlateKey) (d : CellRef) :
    (s.unseatBegun key).cell? d = s.cell? d := by
  rw [State.cell?, State.unseatBegun_plate?, State.cell?]
  cases s.plate? d.key with
  | none => rfl
  | some x =>
    rw [Option.map_some, Option.bind_some, Option.bind_some]
    split <;> rfl

/-- What the work of a state stopped leaves, state by state (R59, R118). -/
theorem State.tryStopped_of_state (s : State) :
    (s.csq.state = .moving → s.tryStopped.tbu.timers.move = none
        ∧ s.tryStopped.csq.move = s.csq.move.map fun m => { m with status := .abandoned })
      ∧ (s.csq.state = .settling → s.tryStopped.tbu.timers.settle = none)
      ∧ (s.csq.state = .exposing → s.tryStopped.ltc.windowOpen = false)
      ∧ (s.csq.state = .exposing ∨ s.csq.state = .readout →
          s.tryStopped.plr = s.cancelWait.plr ∧ s.tryStopped.tbu.timers.frame = none) := by
  unfold State.tryStopped
  refine ⟨fun h => ?_, fun h => ?_, fun h => ?_, fun h => ?_⟩
  · rw [h]
    exact ⟨rfl, rfl⟩
  · rw [h]
    rfl
  · rw [h]
    rfl
  · rcases h with h | h <;> rw [h] <;> exact ⟨rfl, rfl⟩

/-- UNSEATED of the plate whose cell is captured. -/
theorem State.unseated_try {c : TryContext} (hs : s.takes q .unseated) (hr : s.plate? key = some r)
    (hseat : r.seated = true) (hactive : r.state = .active) (hc : s.csq.ctx = some c) (hk : c.cell.key = key)
    (hcell : s.cell? c.cell ≠ none) :
    ∃ t x, exec (.unseated q (some key)) s = .next t ∧ s.served t q .unseated (Reply.done false)
      ∧ t.plate? key = some x ∧ x.seated = false ∧ x.state = .enrolled
      ∧ x.holds = { r.holds with move := false, lamp := false } ∧ t.csq.ctx = none ∧ t.csq.state = .idle
      ∧ t.cell? c.cell = (s.cell? c.cell).map CellRecord.abandon
      ∧ t.fsc.held.get c.slot = false ∧ (t.work c.slot).state = .free
      ∧ (s.csq.state = .moving → t.tbu.timers.move = none
          ∧ t.csq.move = s.csq.move.map fun m => { m with status := .abandoned })
      ∧ (s.csq.state = .settling → t.tbu.timers.settle = none)
      ∧ (s.csq.state = .exposing → t.ltc.windowOpen = false)
      ∧ ((s.csq.state = .exposing ∨ s.csq.state = .readout) →
          t.plr.awaitedTag = none ∧ t.plr.queue = [] ∧ t.plr.endPending = false ∧ t.tbu.timers.frame = none
            ∧ t.plr.faultCount = s.plr.faultCount
            ∧ (s.plr.reception = .receiving → t.plr.reception = .discarding ∧ t.plr.cancelledTag = s.plr.cancelledTag)
            ∧ (s.plr.reception ≠ .receiving → t.plr.reception = s.plr.reception
                ∧ ∀ tag, s.plr.awaitedTag = some tag → t.plr.cancelledTag = some tag))
      ∧ (∀ other, other ≠ key → t.plate? other = s.plate? other) ∧ s.tablesKept t := by
  obtain ⟨t, hexec, hserved, ht⟩ := State.exec_unseated hs hr hseat (by rw [hactive]; exact PlateState.noConfusion)
  have hplate (other : PlateKey) := (s.taken q .unseated).unseatBegun_plate? key other
  have hfound (d : CellRef) := (s.taken q .unseated).unseatBegun_cell? key d
  have hcsq : ((s.taken q .unseated).unseatBegun key).csq = s.csq := rfl
  have hplr : ((s.taken q .unseated).unseatBegun key).plr = s.plr := rfl
  have hclock : ((s.taken q .unseated).unseatBegun key).tbu.clock = s.tbu.clock := rfl
  have htables : s.tablesKept ((s.taken q .unseated).unseatBegun key) := ⟨rfl, rfl, rfl, rfl, rfl, rfl, rfl, fun _ => rfl⟩
  generalize (s.taken q .unseated).unseatBegun key = y at ht hplate hfound hcsq hplr hclock htables
  have hc : y.csq.ctx = some c := by rw [hcsq, hc]
  rw [State.leaveCaptureOf_try hc hk] at ht
  obtain ⟨hcsq', hplates', hheld, hholder, hwork⟩ := State.abandonTry_state hc
  obtain ⟨hmove, hsettle, hframe, hwindow, hplr'⟩ := State.abandonTry_stopped hc
  obtain ⟨hs1, hs2, hs3, hs4⟩ := y.tryStopped_of_state
  rw [hcsq] at hs1 hs2 hs3 hs4
  have hends := State.endsAs_of_arbitrate ht
  have hplate' (other : PlateKey) : t.plate? other = y.abandonTry.plate? other := by
    rw [State.plate?, hends.plates, State.plate?]
  have hpending : (r.unseat.onCell c.cell.column c.cell.row CellRecord.abandon).hasPending = true := by
    refine PlateRecord.hasPending_of_abandon ?_
    rw [State.cell?_of_plate (by rw [hk]; exact hr)] at hcell
    exact hcell
  have hself : t.plate? key = some (r.unseat.onCell c.cell.column c.cell.row CellRecord.abandon) := by
    have hr' : y.plate? key = some r.unseat := by
      rw [hplate, show (s.taken q .unseated).plate? key = some r from hr, Option.map_some, if_pos rfl]
    rw [hplate', State.abandonTry_plate? hc, hr', Option.map_some, if_pos hk.symm,
      PlateRecord.settled_of_enrolled (if_pos hactive) hpending rfl]
  have htplr : t.plr = { y.abandonTry.plr with queue := t.plr.queue } := by
    rw [ht]
    simp only
    rw [State.arbitrate_plr]
  have httimers : t.tbu = y.abandonTry.tbu ∧ t.ltc = y.abandonTry.ltc := by
    rw [ht]
    simp
  refine ⟨t, _, hexec, hserved, hself, rfl, if_pos hactive, rfl, ?_, ?_, ?_, ?_, ?_, fun h => ⟨?_, ?_⟩, fun h => ?_, fun h => ?_,
    fun h => ?_, fun other hne => ?_, ?_⟩
  · rw [hends.csq, hcsq']
  · rw [hends.csq, hcsq']
  · rw [hends.cell?, State.abandonTry_cell? hc, hfound]
    simp only [if_true]
    rfl
  · rw [hends.held, hheld]
  · rw [State.work, hends.work]
    exact hwork
  · rw [httimers.1, hmove, (hs1 h).1]
  · rw [hends.csq, hcsq']
    exact (hs1 h).2
  · rw [httimers.1, hsettle, hs2 h]
  · rw [httimers.2, hwindow, hs3 h]
  · obtain ⟨hstopped, hframe'⟩ := hs4 h
    obtain ⟨h1, h2, h3, -, h5, h6⟩ := y.cancelWait_plr
    rw [hstopped] at hplr'
    rw [hplr] at h5 h6
    refine ⟨?_, ?_, ?_, by rw [httimers.1, hframe, hframe'], ?_, fun hrec => ?_, fun hrec => ?_⟩
    · rw [htplr, hplr']
      exact h1
    · rw [ht]
      refine State.arbitrate_queue_nil ?_
      rw [hplr', h2]
      rfl
    · rw [htplr, hplr']
      exact h3
    · rw [htplr, hplr', ← hplr]
      rfl
    · rw [htplr, hplr']
      exact h5 hrec
    · rw [htplr, hplr']
      exact h6 hrec
  · rw [hplate', State.abandonTry_plate? hc, hplate, Option.map_map]
    have hne' : ¬ other = c.cell.key := by rw [hk]; exact hne
    simp only [Function.comp_def, if_neg hne, if_neg hne', Option.map_id']
    rfl
  · rw [ht]
    simpa [State.tablesKept] using htables

/-- UNSEATED of a plate without a try. -/
theorem State.unseated_quiet (hs : s.takes q .unseated) (hr : s.plate? key = some r)
    (hseat : r.seated = true) (hw : r.state ≠ .withdrawn) (hc : s.csq.ctx = none) :
    ∃ t x, exec (.unseated q (some key)) s = .next t ∧ s.served t q .unseated (Reply.done false)
      ∧ t.plate? key = some x ∧ x.seated = false ∧ x.state = (if r.state = .active then .enrolled else r.state)
      ∧ x.holds = { r.holds with move := false, lamp := false } ∧ x.cells = r.cells
      ∧ (∀ other, other ≠ key → t.plate? other = s.plate? other) ∧ s.tablesKept t := by
  obtain ⟨t, hexec, hserved, ht⟩ := State.exec_unseated hs hr hseat hw
  have hplate (other : PlateKey) := (s.taken q .unseated).unseatBegun_plate? key other
  obtain ⟨st, hleft⟩ := State.leaveCaptureOf_noTry (s := (s.taken q .unseated).unseatBegun key) (key := key) hc
  rw [hleft] at ht
  have hends := State.endsAs_of_arbitrate ht
  have hplate' (other : PlateKey) : t.plate? other = ((s.taken q .unseated).unseatBegun key).plate? other := by
    rw [State.plate?, hends.plates]
    rfl
  refine ⟨t, r.unseat, hexec, hserved, ?_, rfl, rfl, rfl, rfl, fun other hne => ?_, ?_⟩
  · rw [hplate', hplate, show (s.taken q .unseated).plate? key = some r from hr, Option.map_some, if_pos rfl]
  · rw [hplate', hplate]
    simp only [if_neg hne, Option.map_id']
    rfl
  · rw [ht]
    simp [State.tablesKept]

end

/-- Settles O33: UNSEATED with a try, without one, and of a WITHDRAWN plate. -/
theorem unseatedUnseatsPlate : Obligations.UnseatedUnseatsPlate := by
  intro s q key r hs hlaw hr hseat
  have hkey : r.key = key := State.key_of_plate? hr
  refine ⟨fun hactive c hc hk hcell => State.unseated_try hs hr hseat hactive hc hk hcell,
    fun hw hc => State.unseated_quiet hs hr hseat hw hc, fun hw => ?_⟩
  have hhandle : (s.taken q .unseated).withPlate (some key) (s.taken q .unseated).handleUnseated
      = ((s.taken q .unseated).removePlate key, Reply.done false) := by
    rw [State.withPlate_some (s := s.taken q .unseated) hr]
    unfold State.handleUnseated
    rw [if_neg (by rw [hseat]; exact Bool.noConfusion), if_pos hw, hkey]
  obtain ⟨t, hexec, hserved, ht, -⟩ := State.exec_of_serve (i := .unseated q (some key)) hs rfl hhandle rfl
  refine ⟨t, hexec, hserved, ?_, ?_⟩
  · rw [ht]
    exact State.plate?_removePlate_self (s.taken q .unseated) key
  · generalize t.ports = ports at ht
    subst ht
    rfl

end Sys2Proof.Machine
end

section
/-! PROOFS. WITHDRAW: the plate's slots, passes, stream and place in the delivery queue, and its record (R11, R12, R65,
R140, R160). -/

namespace Sys2Proof.Machine
-- One proof at a time: under the memory limit of the check there is no room for the stacks of many threads.
set_option Elab.async false

/-! ## The slots of a plate -/

section

variable {s : State} {k : SlotNo}

/-- A slot is FREE, without a holder, with its work record at rest and without a pass (R65, R139, R140). -/
structure State.SlotAtRest (s : State) (k : SlotNo) : Prop where
  held : s.fsc.held.get k = false
  holder : s.fsc.holders.get k = none
  work : (s.work k).state = .free
  queue : k ∉ s.mge.queue

theorem State.returnSlot_queue (s : State) (k : SlotNo) :
    (s.returnSlot k).mge.queue = s.mge.queue.filter fun j => j != k := by
  simp [State.returnSlot, State.onMge]

/-- The return of another slot leaves a work record, but for the pass that it lets start (R74). -/
theorem State.returnSlot_work_free {j : SlotNo} (hw : (s.work j).state = .free) (hq : j ∉ s.mge.queue) :
    ((s.returnSlot k).work j).state = .free := by
  by_cases hjk : j = k
  · rw [hjk, (s.returnSlot_freed k).1]
    rfl
  · unfold State.returnSlot
    rw [State.startPass_work_of_not_head]
    · simpa [State.work, State.onMge, setAt_get_ne _ _ (Ne.symm hjk)] using hw
    · intro h
      have hmem := List.mem_of_mem_head? h
      simp [State.onMge] at hmem
      exact hq hmem.1

theorem State.returnSlot_atRest (s : State) (k : SlotNo) : (s.returnSlot k).SlotAtRest k := by
  obtain ⟨hwork, hheld, hholders⟩ := s.returnSlot_freed k
  exact ⟨by rw [hheld, setAt_get_self], by rw [hholders, setAt_get_self], by rw [hwork]; rfl,
    by rw [State.returnSlot_queue]; simp⟩

/-- A slot at rest stays so when another is returned. -/
theorem State.SlotAtRest.returnSlot (h : s.SlotAtRest k) (j : SlotNo) : (s.returnSlot j).SlotAtRest k := by
  obtain ⟨hwork, hheld, hholders⟩ := s.returnSlot_freed j
  refine ⟨?_, ?_, State.returnSlot_work_free h.work h.queue, ?_⟩
  · rw [hheld, setAt_get]
    split
    · rfl
    · exact h.held
  · rw [hholders, setAt_get]
    split
    · rfl
    · exact h.holder
  · rw [State.returnSlot_queue]
    simp [h.queue]

theorem State.SlotAtRest.returnSlots (h : s.SlotAtRest k) (ks : List SlotNo) : (s.returnSlots ks).SlotAtRest k := by
  induction ks generalizing s with
  | nil => exact h
  | cons j ks ih => exact ih (h.returnSlot j)

/-- Every slot that is returned is at rest. -/
theorem State.returnSlots_atRest {ks : List SlotNo} (hk : k ∈ ks) (s : State) : (s.returnSlots ks).SlotAtRest k := by
  induction ks generalizing s with
  | nil => cases hk
  | cons j ks ih =>
    by_cases hj : k = j
    · subst hj
      exact (s.returnSlot_atRest k).returnSlots ks
    · exact ih ((List.mem_cons.mp hk).resolve_left hj) _

theorem State.SlotAtRest.congr {t : State} (h : s.SlotAtRest k) (hheld : t.fsc.held = s.fsc.held)
    (hholders : t.fsc.holders = s.fsc.holders) (hmge : t.mge = s.mge) : t.SlotAtRest k :=
  ⟨by rw [hheld, h.held], by rw [hholders, h.holder], by rw [State.work, hmge]; exact h.work, by rw [hmge]; exact h.queue⟩

end

/-! ## The delivery of a plate's cells -/

section

variable {s : State} {key : PlateKey}

/-- No cell of a plate waits for delivery or is named by the stream. -/
structure State.Undelivered (s : State) (key : PlateKey) : Prop where
  queue : ∀ c ∈ s.dlt.queue, c.key ≠ key
  stream : ∀ x c, s.dlt.stream = some x → x.cell = some c → c.key ≠ key

/-- The stream that is left of a plate's names no cell (R160). -/
theorem State.cutPlateStream_stream {x : Stream} {c : CellRef} (hx : (s.cutPlateStream key).dlt.stream = some x)
    (hc : x.cell = some c) : c.key ≠ key := by
  unfold State.cutPlateStream at hx
  split at hx
  · rename_i d hd
    split at hx
    · simp only [State.stopAccess, State.onFsc, State.onDlt, Dlt.cutStream] at hx
      split at hx
      · rename_i hnone
        rw [hnone] at hd
        cases hd
      · split at hx
        · cases hx
          cases hc
        · cases hx
    · rename_i hne
      rw [hx, Option.bind_some, hc] at hd
      rw [Option.some.inj hd]
      exact hne
  · rename_i hd
    rw [hx, Option.bind_some, hc] at hd
    cases hd

theorem State.cutPlateStream_queue (s : State) (key : PlateKey) : (s.cutPlateStream key).dlt.queue = s.dlt.queue := by
  have hcut (d : Dlt) : d.cutStream.queue = d.queue := by
    unfold Dlt.cutStream
    repeat' split
    all_goals rfl
  unfold State.cutPlateStream
  repeat' split
  · exact hcut _
  · rfl
  · rfl

theorem State.returnSlots_dlt (s : State) (ks : List SlotNo) : (s.returnSlots ks).dlt = s.dlt := by simp

/-- What WITHDRAW undoes of a plate leaves nothing of it to deliver. -/
theorem State.undoPlate_undelivered (s : State) (key : PlateKey) : (s.undoPlate key).Undelivered key := by
  have hdlt : (s.undoPlate key).dlt = { (s.cutPlateStream key).dlt with
      queue := (s.cutPlateStream key).dlt.queue.filter fun c => c.key != key } := by
    unfold State.undoPlate
    dsimp only
    split
    · rfl
    · rw [State.returnSlots_dlt]
      rfl
  refine ⟨fun c hc => ?_, fun x c hx hc => ?_⟩
  · rw [hdlt] at hc
    simpa using (List.mem_filter.mp hc).2
  · rw [hdlt] at hx
    exact State.cutPlateStream_stream hx hc

/-- The slots of a plate that WITHDRAW undoes are at rest. -/
theorem State.undoPlate_atRest {r : PlateRecord} {k : SlotNo} (hr : s.plate? key = some r) (hk : k ∈ r.slots) :
    (s.undoPlate key).SlotAtRest k := by
  unfold State.undoPlate
  dsimp only
  rw [hr]
  exact State.returnSlots_atRest hk _

theorem State.SlotAtRest.undoPlate {k : SlotNo} (h : s.SlotAtRest k) (key : PlateKey) : (s.undoPlate key).SlotAtRest k := by
  have hcut : ((s.cutPlateStream key).onDlt fun d =>
      { d with queue := d.queue.filter fun c => c.key != key }).SlotAtRest k := by
    refine h.congr (by simp) ?_ (by simp)
    unfold State.cutPlateStream
    repeat' split
    all_goals rfl
  unfold State.undoPlate
  dsimp only
  split
  · exact hcut
  · exact hcut.returnSlots _

/-- The start of a stream takes its cell from the queue's head. -/
theorem State.startStream_dlt (s : State) (c : CellRef) :
    (s.startStream c).dlt = s.dlt ∨ ∃ x, x.cell = some c ∧ (s.startStream c).dlt = { s.dlt with
      queue := s.dlt.queue.filter (fun y => y != c), stream := some x } := by
  unfold State.startStream
  split
  · split
    · exact .inl rfl
    · rename_i r x _ _ _ k _
      refine .inr ⟨s.newStream c r x k, rfl, ?_⟩
      simp only [State.onDlt, State.changeCell_frame, State.dequeue]
      rfl
  · exact .inl rfl

/-- The stream that AUTO starts is of a cell that waits for delivery. -/
theorem State.Undelivered.pollDelivery (h : s.Undelivered key) : s.pollDelivery.Undelivered key := by
  have hauto : s.autoStream.Undelivered key := by
    unfold State.autoStream
    split
    · rename_i c rest _ _ hq
      split
      · rcases s.startStream_dlt c with hd | ⟨x, hx, hd⟩
        · exact ⟨by rw [hd]; exact h.queue, by rw [hd]; exact h.stream⟩
        · refine ⟨fun d hd' => ?_, fun y d hy hd' => ?_⟩
          · rw [hd] at hd'
            exact h.queue d (List.mem_filter.mp hd').1
          · rw [hd] at hy
            rw [← Option.some.inj hy, hx] at hd'
            rw [← Option.some.inj hd']
            exact h.queue c (by rw [hq]; exact List.mem_cons_self ..)
      · exact h
    · exact h
  have hsend (d : Dlt) : d.sendNext.queue = d.queue ∧ d.sendNext.stream = d.stream := by
    unfold Dlt.sendNext
    repeat' split
    all_goals exact ⟨rfl, rfl⟩
  have hask (t : Stream) (n : Nat) : (t.askRow n).cell = t.cell := by
    unfold Stream.askRow
    split <;> rfl
  have hqueue : s.pollDelivery.dlt.queue = s.autoStream.dlt.queue := (hsend _).1
  have hstream : s.pollDelivery.dlt.stream = s.autoStream.dlt.stream.map fun t => t.askRow s.autoStream.geometry.height :=
    congrArg (Option.map _) (hsend _).2
  refine ⟨by rw [hqueue]; exact hauto.queue, fun x c hx hc => ?_⟩
  rw [hstream] at hx
  obtain ⟨y, hy, rfl⟩ := Option.map_eq_some_iff.mp hx
  rw [hask] at hc
  exact hauto.stream y c hy hc

/-- What AUTO starts leaves the plates of the cells that do not wait for delivery. -/
theorem State.Undelivered.pollDelivery_plate? (h : s.Undelivered key) : s.pollDelivery.plate? key = s.plate? key := by
  have hauto : s.autoStream.plate? key = s.plate? key := by
    unfold State.autoStream
    split
    · rename_i c rest _ _ hq
      split
      · have hne : ¬ key = c.key := fun e => h.queue c (by rw [hq]; exact List.mem_cons_self ..) e.symm
        unfold State.startStream
        split
        · split
          · rfl
          · have hplate := State.plate?_changeCell (s := s.dequeue c) (f := fun y => { y with state := .delivering })
              PlateRecord.sameCells_id c key
            simp only [if_neg hne, Option.map_id'] at hplate
            exact hplate
        · rfl
      · rfl
    · rfl
  rw [← hauto]
  rfl

end

/-! ## WITHDRAW -/

section

variable {s : State} {q : Src} {key : PlateKey} {r : PlateRecord}

/-- What WITHDRAW has done before the sequencer's and the delivery's tests. -/
def State.withdrawBegun (s : State) (key : PlateKey) (seated : Bool) : State :=
  if seated then ((s.leaveCaptureOf key).undoPlate key).onPlate key PlateRecord.withdrawn
  else (s.undoPlate key).removePlate key

/-- The event of WITHDRAW for a plate that is not WITHDRAWN. -/
theorem State.exec_withdraw (hs : s.takes q .withdraw) (hr : s.plate? key = some r) (hw : r.state ≠ .withdrawn) :
    ∃ t, exec (.withdraw q (some key)) s = .next t ∧ s.served t q .withdraw (Reply.done false)
      ∧ t = { ((s.taken q .withdraw).withdrawBegun key r.seated).pollSlot.pollDelivery.arbitrate with
          raised := [], ports := t.ports } := by
  have hkey : r.key = key := State.key_of_plate? hr
  have hhandle : (s.taken q .withdraw).withPlate (some key) (s.taken q .withdraw).handleWithdraw
      = (((s.taken q .withdraw).withdrawBegun key r.seated).pollSlot.pollDelivery.arbitrate, Reply.done false) := by
    rw [State.withPlate_some (s := s.taken q .withdraw) hr]
    unfold State.handleWithdraw State.withdrawBegun
    rw [if_neg hw, hkey]
  obtain ⟨t, hexec, hserved, ht, -⟩ := State.exec_of_serve (i := .withdraw q (some key)) hs rfl hhandle
    (by unfold State.withdrawBegun; split <;> simp [State.removePlate])
  exact ⟨t, hexec, hserved, ht⟩

theorem State.withdrawBegun_undelivered (s : State) (key : PlateKey) (seated : Bool) :
    (s.withdrawBegun key seated).Undelivered key := by
  unfold State.withdrawBegun
  split
  · exact ⟨((s.leaveCaptureOf key).undoPlate_undelivered key).queue, ((s.leaveCaptureOf key).undoPlate_undelivered key).stream⟩
  · exact ⟨(s.undoPlate_undelivered key).queue, (s.undoPlate_undelivered key).stream⟩

theorem State.withdrawBegun_tables (s : State) (key : PlateKey) (seated : Bool) :
    s.tablesKept (s.withdrawBegun key seated) := by
  unfold State.withdrawBegun
  split <;> simp [State.tablesKept, State.removePlate]

/-- A plate that is withdrawn is not captured. -/
theorem State.withdrawBegun_capturable? {seated : Bool} {x : PlateRecord}
    (h : (s.withdrawBegun key seated).capturable? = some x) : x.key ≠ key := by
  obtain ⟨hmem, -, hactive, -⟩ := State.capturable?_spec h
  unfold State.withdrawBegun at hmem
  split at hmem
  · obtain ⟨y, -, rfl⟩ := List.mem_map.mp hmem
    intro hk
    by_cases hy : y.key = key
    · rw [if_pos hy] at hactive
      cases hactive
    · rw [if_neg hy] at hk
      exact hy hk
  · have hmem := (List.mem_filter.mp hmem).2
    simpa using hmem

/-- The tests that follow leave the plate as WITHDRAW has left it. -/
theorem State.withdrawBegun_plate? (s : State) (key : PlateKey) (seated : Bool) :
    (s.withdrawBegun key seated).pollSlot.pollDelivery.plate? key = (s.withdrawBegun key seated).plate? key := by
  have hun : (s.withdrawBegun key seated).pollSlot.Undelivered key := by
    have h := s.withdrawBegun_undelivered key seated
    exact ⟨by simpa using h.queue, by simpa using h.stream⟩
  rw [hun.pollDelivery_plate?, State.plate?_pollSlot_ne fun _ => State.withdrawBegun_capturable?]

theorem State.withdrawBegun_seated {x : PlateRecord} (hx : (s.leaveCaptureOf key).plate? key = some x) :
    (s.withdrawBegun key true).plate? key = some x.withdrawn := by
  have hfound : ((s.leaveCaptureOf key).undoPlate key).plate? key = some x := by
    simpa [State.plate?] using hx
  exact State.plate?_onPlate_self _ (f := PlateRecord.withdrawn) (fun _ => rfl) hfound

/-- A try of another plate, or none, leaves the register at WITHDRAW. -/
theorem State.leaveCaptureOf_elsewhere (h : ∀ c, s.csq.ctx = some c → c.cell.key ≠ key) :
    (s.leaveCaptureOf key).plates = s.plates := by
  cases hc : s.csq.ctx with
  | none =>
    obtain ⟨st, hleft⟩ := State.leaveCaptureOf_noTry (key := key) hc
    rw [hleft]
  | some c =>
    unfold State.leaveCaptureOf
    rw [hc]
    exact congrArg State.plates (if_neg (h c hc))

/-- The cells that WITHDRAW loses are those that are not at rest (R12). -/
theorem CellRecord.withdrawn_eq (y : CellRecord) : (if y.state.withdrawLoses then y.abandon else y)
    = if y.state = .pending ∨ y.state = .kept ∨ y.state = .failed then y
      else { y with state := .pending, slot := none, lastOutcome := .abandoned } := by
  cases h : y.state <;> simp [CellState.withdrawLoses, CellRecord.abandon]

theorem PlateRecord.withdrawn_cells (x : PlateRecord) : x.withdrawn.cells = x.cells.map fun y =>
    if y.state = .pending ∨ y.state = .kept ∨ y.state = .failed then y
    else { y with state := .pending, slot := none, lastOutcome := .abandoned } :=
  List.map_congr_left fun y _ => y.withdrawn_eq

theorem PlateRecord.cell?_withdrawn (x : PlateRecord) (a b : Nat) :
    x.withdrawn.cell? a b = (x.cell? a b).map fun y => if y.state.withdrawLoses then y.abandon else y := by
  unfold PlateRecord.cell? PlateRecord.withdrawn
  dsimp only
  rw [List.find?_map]
  congr 2
  funext y
  rw [Function.comp_apply]
  split <;> rfl

/-- The slots that WITHDRAW's own steps leave at rest are at rest after the event (R65, R140). -/
theorem State.SlotAtRest.withdrawn {x : State} {k : SlotNo} (h : x.SlotAtRest k) (hq : x.csq.state ≠ .awaitSlot) :
    x.pollSlot.pollDelivery.SlotAtRest k := by
  rw [State.pollSlot_of_state hq]
  exact h.congr (by simp) (by simp) (by simp)

theorem PlateRecord.mem_slots {k : SlotNo} {a b : Nat} {y : CellRecord} (hy : r.cell? a b = some y) (hk : y.slot = some k) :
    k ∈ r.slots :=
  List.mem_filterMap.mpr ⟨y, List.mem_of_find?_eq_some hy, hk⟩

theorem State.abandonTry_atRest {c : TryContext} (hc : s.csq.ctx = some c) : s.abandonTry.SlotAtRest c.slot := by
  rw [State.abandonTry_eq hc]
  exact (State.returnSlot_atRest _ _).congr rfl rfl rfl

theorem State.leaveCaptureOf_state (h : s.csq.state ≠ .awaitSlot) : (s.leaveCaptureOf key).csq.state ≠ .awaitSlot := by
  cases hc : s.csq.ctx with
  | none =>
    unfold State.leaveCaptureOf State.leaveCapture
    rw [hc]
    dsimp only
    split
    · exact CsqState.noConfusion
    · exact CsqState.noConfusion
    · exact h
  | some c =>
    by_cases hk : c.cell.key = key
    · rw [State.leaveCaptureOf_try hc hk, (State.abandonTry_state hc).1]
      exact CsqState.noConfusion
    · unfold State.leaveCaptureOf
      rw [hc]
      dsimp only
      rw [if_neg hk]
      exact h

/-- Every slot of the plate's cells is at rest before the tests (R65, R140). -/
theorem State.withdrawBegun_atRest (hr : s.plate? key = some r)
    (hctx : ∀ x, s.csq.ctx = some x → x.cell.key = key → (s.cell? x.cell).bind (·.slot) = some x.slot) {c : CellRef}
    {y : CellRecord} {k : SlotNo} (hc : c.key = key) (hy : s.cell? c = some y) (hk : y.slot = some k) :
    (s.withdrawBegun key r.seated).SlotAtRest k := by
  have hyr : r.cell? c.column c.row = some y := by
    rw [← hy, State.cell?_of_plate (by rw [hc]; exact hr)]
  unfold State.withdrawBegun
  split
  · refine State.SlotAtRest.congr (s := (s.leaveCaptureOf key).undoPlate key) ?_ rfl rfl rfl
    by_cases htry : ∃ x, s.csq.ctx = some x ∧ x.cell.key = key
    · obtain ⟨x, hx, hxk⟩ := htry
      rw [State.leaveCaptureOf_try hx hxk]
      by_cases hcx : c = x.cell
      · have hslot := hctx x hx hxk
        rw [← hcx, hy, Option.bind_some, hk] at hslot
        rw [Option.some.inj hslot]
        exact (State.abandonTry_atRest hx).undoPlate key
      · have hplate : s.abandonTry.plate? key
            = some ((r.onCell x.cell.column x.cell.row CellRecord.abandon).settled s.tbu.clock) := by
          rw [State.abandonTry_plate? hx, hr, Option.map_some, if_pos hxk.symm]
        have hcell : s.abandonTry.cell? c = some y := by
          rw [State.abandonTry_cell? hx, hy, Option.map_some, if_neg hcx]
        rw [State.cell?_of_plate (by rw [hc]; exact hplate)] at hcell
        exact State.undoPlate_atRest hplate (PlateRecord.mem_slots hcell hk)
    · have hplates : (s.leaveCaptureOf key).plates = s.plates :=
        State.leaveCaptureOf_elsewhere fun x hx hxk => htry ⟨x, hx, hxk⟩
      refine State.undoPlate_atRest (r := r) ?_ (PlateRecord.mem_slots hyr hk)
      rw [State.plate?, hplates]
      exact hr
  · exact (State.undoPlate_atRest hr (PlateRecord.mem_slots hyr hk)).congr rfl rfl rfl

/-- A seated plate after its own try: WITHDRAWN, with the try's cell abandoned (R12, R20). -/
theorem State.withdrawBegun_try {c : TryContext} (hr : s.plate? key = some r) (hc : s.csq.ctx = some c)
    (hk : c.cell.key = key) : (s.withdrawBegun key true).plate? key
      = some ((r.onCell c.cell.column c.cell.row CellRecord.abandon).settled s.tbu.clock).withdrawn := by
  refine State.withdrawBegun_seated ?_
  rw [State.leaveCaptureOf_try hc hk, State.abandonTry_plate? hc, hr, Option.map_some, if_pos hk.symm]

/-- The cells of a plate whose EXPOSING cell was abandoned are those of its own WITHDRAW (R3, R12). -/
theorem PlateRecord.withdrawn_cells_of_try {a b : Nat} {x : CellRecord} {now : Seconds}
    (hg : (r.cells.map fun y => (y.column, y.row)) = gridCells r.columns r.rows) (hx : r.cell? a b = some x)
    (hst : x.state = .exposing) :
    ((r.onCell a b CellRecord.abandon).settled now).withdrawn.cells = r.withdrawn.cells := by
  have hcells := (PlateRecord.sameCells_settled (r.onCell a b CellRecord.abandon) now).cells
  rw [PlateRecord.withdrawn_cells, PlateRecord.withdrawn_cells, hcells]
  change (r.cells.map _).map _ = _
  rw [List.map_map]
  refine List.map_congr_left fun z hz => ?_
  rw [Function.comp_apply]
  split
  · rename_i hplace
    have hfound := PlateRecord.cell?_of_mem hg hz
    rw [hplace.1, hplace.2, hx] at hfound
    obtain rfl := Option.some.inj hfound
    simp [CellRecord.abandon, hst]
  · rfl

end

/-- Settles O34: what WITHDRAW undoes before the tests, which leave it so. -/
theorem withdrawUndoesPlate : Obligations.WithdrawUndoesPlate := by
  intro s q key r hs hlaw hr hw
  obtain ⟨t, hexec, hserved, ht⟩ := State.exec_withdraw hs hr hw
  have hends := State.endsAs_of_arbitrate ht
  have hun : ((s.taken q .withdraw).withdrawBegun key r.seated).pollSlot.pollDelivery.Undelivered key := by
    have h := (s.taken q .withdraw).withdrawBegun_undelivered key r.seated
    exact State.Undelivered.pollDelivery ⟨by simpa using h.queue, by simpa using h.stream⟩
  have hplate : t.plate? key = ((s.taken q .withdraw).withdrawBegun key r.seated).plate? key := by
    rw [State.plate?, hends.plates]
    exact State.withdrawBegun_plate? _ _ _
  refine ⟨t, hexec, hserved, ?_, ?_, fun hseat => ?_, fun hseat helse => ?_, fun hseat c hc hk => ?_,
    fun hq hctx c y k hck hy hyk => ?_, ?_⟩
  · rw [hends.dlt]
    exact hun.queue
  · rw [hends.dlt]
    exact hun.stream
  · rw [hplate, hseat]
    exact State.plate?_removePlate_self _ key
  · have hleft : ((s.taken q .withdraw).leaveCaptureOf key).plate? key = some r := by
      rw [State.plate?, State.leaveCaptureOf_elsewhere (s := s.taken q .withdraw) helse]
      exact hr
    rw [hplate, hseat, State.withdrawBegun_seated hleft]
    exact ⟨_, rfl, rfl, hseat, rfl, rfl, r.withdrawn_cells⟩
  · have htry := State.withdrawBegun_try (s := s.taken q .withdraw) hr hc hk
    have hcsq : ((s.taken q .withdraw).withdrawBegun key true).csq = (s.taken q .withdraw).abandonTry.csq := by
      unfold State.withdrawBegun
      rw [if_pos rfl, State.leaveCaptureOf_try (s := s.taken q .withdraw) hc hk]
      simp
    have hidle := (State.abandonTry_state (s := s.taken q .withdraw) hc).1
    rw [hseat] at hplate hends
    rw [htry] at hplate
    have htcsq : t.csq = (s.taken q .withdraw).abandonTry.csq := by
      rw [hends.csq, ← hcsq, State.pollSlot_of_state (by rw [hcsq, hidle]; exact CsqState.noConfusion)]
      simp
    have hcell : s.cell? c.cell = r.cell? c.cell.column c.cell.row := State.cell?_of_plate (by rw [hk]; exact hr)
    refine ⟨by rw [htcsq, hidle], by rw [htcsq, hidle], by rw [hplate]; rfl, ?_, fun hg hst => ⟨_, hplate, ?_, ?_, rfl, ?_⟩⟩
    · rw [State.cell?_of_plate (by rw [hk]; exact hplate), PlateRecord.cell?_withdrawn, PlateRecord.cell?_settled,
        PlateRecord.cell?_onCell InPlace.abandon, hcell, Option.map_map]
      congr 1
      funext z
      simp [CellRecord.abandon, CellState.withdrawLoses]
    · exact ((PlateRecord.sameCells_settled _ _).seated).trans hseat
    · exact (PlateRecord.settled_holds _ _).1
    · obtain ⟨x, hx, hxst⟩ := Option.map_eq_some_iff.mp hst
      rw [hcell] at hx
      rw [PlateRecord.withdrawn_cells_of_try (hg r (State.mem_of_plate? hr)) hx hxst, PlateRecord.withdrawn_cells]
  · have hrest := State.withdrawBegun_atRest (s := s.taken q .withdraw) hr hctx hck hy hyk
    have hstate : ((s.taken q .withdraw).withdrawBegun key r.seated).csq.state ≠ .awaitSlot := by
      unfold State.withdrawBegun
      split
      · simpa using State.leaveCaptureOf_state (s := s.taken q .withdraw) (key := key) hq
      · simpa [State.removePlate] using hq
    have hrest := (hrest.withdrawn hstate).congr hends.held hends.holders hends.work
    exact ⟨hrest.held, hrest.holder, hrest.work, hrest.queue⟩
  · have htables := (s.taken q .withdraw).withdrawBegun_tables key r.seated
    rw [ht]
    simpa [State.tablesKept] using htables

end Sys2Proof.Machine
end

section
/-! PROOFS. STANDBY: the cells, the calibration and the bytes that it keeps and loses, and what it refuses (R23, R100,
R144, R145). -/

namespace Sys2Proof.Machine
-- One proof at a time: under the memory limit of the check there is no room for the stacks of many threads.
set_option Elab.async false

/-! ## One cell lost -/

section

variable {s : State} {p : CellRef × SlotNo}

/-- The return of another slot leaves a finished work record: only a queued one starts its pass (R74). -/
theorem State.returnSlot_work_coded {j k : SlotNo} (hne : k ≠ j) (hw : (s.work k).state = .coded) :
    (s.returnSlot j).work k = s.work k := by
  have hkept : (((((s.onFsc fun f => { f with held := setAt f.held j false, holders := setAt f.holders j none }).stopAccess
      fun w => w.slot? == some j).onPlr fun p => { p with queue := p.queue.filter fun r => !r.isFor j }).onWork j
      fun _ => WorkRecord.freed).onMge fun m => { m with queue := m.queue.filter fun i => i != j }).work k = s.work k := by
    simp [State.work, State.onMge, setAt_get_ne _ _ hne.symm]
  rw [← hkept] at hw
  unfold State.returnSlot State.startPass
  split
  · exact hkept
  · rename_i i rest _
    split
    · rename_i hqueued
      rw [State.onWork_work, if_neg, hkept]
      rintro rfl
      rw [hw] at hqueued
      cases hqueued
    · exact hkept

theorem State.loseCell_plates (s : State) (p : CellRef × SlotNo) :
    (s.loseCell p).plates = (s.changeCellQuiet p.1 CellRecord.abandon id).plates := by
  simp [State.loseCell]

theorem State.loseCell_plate? (key : PlateKey) : (s.loseCell p).plate? key = (s.plate? key).map fun x =>
    if key = p.1.key then (x.onCell p.1.column p.1.row CellRecord.abandon).settled s.tbu.clock else x := by
  rw [State.plate?, State.loseCell_plates]
  exact State.plate?_changeCellQuiet (s := s) (f := CellRecord.abandon) PlateRecord.sameCells_id p.1 key

theorem State.loseCell_cell? (d : CellRef) : (s.loseCell p).cell? d
    = (s.cell? d).map fun z => if d = p.1 then z.abandon else z := by
  rw [State.cell?, State.plate?, State.loseCell_plates, ← changeCell_plates]
  exact State.cell?_changeCell (s := s) (f := CellRecord.abandon) InPlace.abandon PlateRecord.sameCells_id p.1 d

theorem State.loseCell_queue : (s.loseCell p).dlt.queue = s.dlt.queue.filter fun x => x != p.1 := by
  simp [State.loseCell, State.dequeue, State.onDlt, State.changeCellQuiet, State.onPlate]

/-- A slot is lost with its cell; another keeps its mark, its holder and a finished work record. -/
theorem State.loseCell_slot (k : SlotNo) :
    (k = p.2 → (s.loseCell p).fsc.held.get k = false)
      ∧ (k ≠ p.2 → (s.loseCell p).fsc.held.get k = s.fsc.held.get k
          ∧ (s.loseCell p).fsc.holders.get k = s.fsc.holders.get k
          ∧ ((s.work k).state = .coded → (s.loseCell p).work k = s.work k)) := by
  obtain ⟨-, hheld, hholders⟩ := ((s.changeCellQuiet p.1 CellRecord.abandon id).dequeue p.1).returnSlot_freed p.2
  have hfsc : ((s.changeCellQuiet p.1 CellRecord.abandon id).dequeue p.1).fsc = s.fsc := by
    simp [State.changeCellQuiet, State.onPlate]
  have hwork : ((s.changeCellQuiet p.1 CellRecord.abandon id).dequeue p.1).work k = s.work k := by
    simp [State.work, State.changeCellQuiet, State.onPlate]
  rw [hfsc] at hheld hholders
  refine ⟨fun h => ?_, fun h => ⟨?_, ?_, fun hcoded => ?_⟩⟩
  · unfold State.loseCell
    rw [hheld, h, setAt_get_self]
  · unfold State.loseCell
    rw [hheld, setAt_get_ne _ _ (Ne.symm h)]
  · unfold State.loseCell
    rw [hholders, setAt_get_ne _ _ (Ne.symm h)]
  · unfold State.loseCell
    rw [State.returnSlot_work_coded h (by rw [hwork]; exact hcoded), hwork]

/-- The state of a plate that has lost a cell: what was over is to be captured again (R9, R23). -/
def PlateRecord.lostState (r : PlateRecord) : PlateState :=
  if r.state = .captured ∨ (r.state = .enrolled ∧ r.seated = true) then if r.seated then .active else .enrolled
  else r.state

/-- A plate with a cell to capture settles in that state. -/
theorem PlateRecord.settled_lostState {r : PlateRecord} (hp : r.hasPending = true) (now : Seconds) :
    (r.settled now).state = r.lostState := by
  have hover := PlateRecord.captureOver_eq_false_of_pending hp
  have hrecaptured : r.recaptured.state = r.lostState ∧ r.recaptured.state ≠ .captured := by
    unfold PlateRecord.recaptured PlateRecord.lostState
    cases hst : r.state <;> cases hseat : r.seated <;> simp [hover, hp, hst]
  unfold PlateRecord.settled PlateRecord.completed
  rw [if_neg fun h => hrecaptured.2 h.1]
  exact hrecaptured.1

/-- A second cell lost leaves the state. -/
theorem PlateRecord.lostState_again {r x : PlateRecord} (hseat : x.seated = r.seated) (hst : x.state = r.lostState) :
    x.lostState = r.lostState := by
  unfold PlateRecord.lostState at hst ⊢
  rw [hst, hseat]
  cases r.state <;> cases r.seated <;> rfl

/-- What one cell lost makes of its plate. -/
theorem State.loseCell_own {r : PlateRecord} (hr : s.plate? p.1.key = some r) (hc : s.cell? p.1 ≠ none) :
    ∃ x, (s.loseCell p).plate? p.1.key = some x ∧ x.seated = r.seated ∧ x.state = r.lostState := by
  have hcell : r.cell? p.1.column p.1.row ≠ none := by rwa [State.cell?_of_plate hr] at hc
  exact ⟨(r.onCell p.1.column p.1.row CellRecord.abandon).settled s.tbu.clock,
    by rw [State.loseCell_plate?, hr, Option.map_some, if_pos rfl], (PlateRecord.sameCells_settled _ _).seated,
    PlateRecord.settled_lostState (r := r.onCell p.1.column p.1.row CellRecord.abandon)
      (PlateRecord.hasPending_of_abandon hcell) _⟩

end

/-! ## The cells lost -/

section

variable {s : State} {l : List (CellRef × SlotNo)}

theorem State.loseCells_cell? (d : CellRef) : (l.foldl State.loseCell s).cell? d
    = (s.cell? d).map fun z => if d ∈ l.map (·.1) then z.abandon else z := by
  induction l generalizing s with
  | nil => simp
  | cons p l ih =>
    rw [List.foldl_cons, ih, State.loseCell_cell?, Option.map_map]
    congr 1
    funext z
    rw [Function.comp_apply]
    by_cases hd : d = p.1 <;> by_cases hl : d ∈ l.map (·.1) <;> simp [hd, hl, CellRecord.abandon]

theorem State.loseCells_queue : (l.foldl State.loseCell s).dlt.queue
    = s.dlt.queue.filter fun x => !decide (x ∈ l.map (·.1)) := by
  induction l generalizing s with
  | nil => simp
  | cons p l ih =>
    rw [List.foldl_cons, ih, State.loseCell_queue, List.filter_filter]
    congr 1
    funext x
    by_cases hx : x = p.1 <;> simp [hx]

theorem State.loseCells_slot (k : SlotNo) :
    ((k ∈ l.map (·.2) ∨ s.fsc.held.get k = false) → (l.foldl State.loseCell s).fsc.held.get k = false)
      ∧ (k ∉ l.map (·.2) → (l.foldl State.loseCell s).fsc.held.get k = s.fsc.held.get k
          ∧ (l.foldl State.loseCell s).fsc.holders.get k = s.fsc.holders.get k
          ∧ ((s.work k).state = .coded → (l.foldl State.loseCell s).work k = s.work k)) := by
  induction l generalizing s with
  | nil => exact ⟨fun h => h.resolve_left (by simp), fun _ => ⟨rfl, rfl, fun _ => rfl⟩⟩
  | cons p l ih =>
    obtain ⟨hsame, hother⟩ := State.loseCell_slot (s := s) (p := p) k
    obtain ⟨h1, h2⟩ := ih (s := s.loseCell p)
    rw [List.foldl_cons]
    refine ⟨fun h => h1 ?_, fun h => ?_⟩
    · by_cases hk : k = p.2
      · exact .inr (hsame hk)
      · rw [(hother hk).1]
        refine h.imp_left fun h => ?_
        simpa [hk] using h
    · obtain ⟨hk, hl⟩ : k ≠ p.2 ∧ k ∉ l.map (·.2) := by simpa using h
      obtain ⟨ha, hb, hc⟩ := hother hk
      obtain ⟨ha', hb', hc'⟩ := h2 hl
      refine ⟨ha'.trans ha, hb'.trans hb, fun hw => ?_⟩
      rw [hc' (by rw [hc hw]; exact hw), hc hw]

/-- What the cells lost make of a plate, whose key may be among theirs. -/
theorem State.loseCells_plate? {key : PlateKey} {r : PlateRecord} (hr : s.plate? key = some r)
    (hl : ∀ p ∈ l, s.cell? p.1 ≠ none) :
    ∃ x, (l.foldl State.loseCell s).plate? key = some x ∧ x.seated = r.seated
      ∧ ((∃ p ∈ l, p.1.key = key) → x.state = r.lostState) ∧ ((∀ p ∈ l, p.1.key ≠ key) → x = r) := by
  induction l generalizing s r with
  | nil => exact ⟨r, hr, rfl, fun h => by simp at h, fun _ => rfl⟩
  | cons p l ih =>
    have hcells (d : CellRef) (hd : s.cell? d ≠ none) : (s.loseCell p).cell? d ≠ none := by
      rw [State.loseCell_cell?]
      simpa using hd
    have hl' : ∀ p' ∈ l, (s.loseCell p).cell? p'.1 ≠ none := fun p' hp' => hcells _ (hl p' (List.mem_cons_of_mem _ hp'))
    rw [List.foldl_cons]
    by_cases hk : p.1.key = key
    · subst hk
      obtain ⟨x, hx, hseat, hst⟩ := State.loseCell_own hr (hl p (List.mem_cons_self ..))
      obtain ⟨y, hy, hyseat, hlost, hsame⟩ := ih hx hl'
      refine ⟨y, hy, hyseat.trans hseat, fun _ => ?_, fun h => absurd rfl (h p (List.mem_cons_self ..))⟩
      by_cases hmore : ∃ p' ∈ l, p'.1.key = p.1.key
      · rw [hlost hmore, PlateRecord.lostState_again hseat hst]
      · rw [hsame fun p' hp' he => hmore ⟨p', hp', he⟩, hst]
    · have hx : (s.loseCell p).plate? key = some r := by
        rw [State.loseCell_plate?, hr, Option.map_some, if_neg (Ne.symm hk)]
      obtain ⟨y, hy, hyseat, hlost, hsame⟩ := ih hx hl'
      refine ⟨y, hy, hyseat, fun ⟨p', hp', he⟩ => ?_, fun h => hsame fun p' hp' => h p' (List.mem_cons_of_mem _ hp')⟩
      rcases List.mem_cons.mp hp' with rfl | hp'
      · exact absurd he hk
      · exact hlost ⟨p', hp', he⟩

/-! ## The cells whose slots lie outside a mask -/

variable {mask : List RegionNo}

theorem State.mem_cellsOutside {p : CellRef × SlotNo} : p ∈ s.cellsOutside mask
    ↔ ∃ r ∈ s.plates, ∃ c ∈ r.cells, c.slot = some p.2 ∧ (∀ m ∈ mask, m.val ≠ p.2.val)
        ∧ p.1 = ⟨r.key, c.column, c.row⟩ := by
  unfold State.cellsOutside
  simp only [List.mem_flatMap, List.mem_filterMap]
  constructor
  · rintro ⟨r, hr, c, hc, h⟩
    cases hs : c.slot with
    | none => rw [hs] at h; cases h
    | some k =>
      rw [hs] at h
      dsimp only at h
      split at h
      · cases h
      · rename_i hno
        obtain rfl := Option.some.inj h
        refine ⟨r, hr, c, hc, hs, fun m hm he => hno ?_, rfl⟩
        exact List.any_eq_true.mpr ⟨m, hm, by simpa using he⟩
  · rintro ⟨r, hr, c, hc, hs, hmask, hp⟩
    refine ⟨r, hr, c, hc, ?_⟩
    rw [hs]
    dsimp only
    rw [if_neg]
    · rw [← hp]
    · intro h
      obtain ⟨m, hm, he⟩ := List.any_eq_true.mp h
      exact hmask m hm (by simpa using he)

/-- A cell found whose slot lies outside the mask is among those lost. -/
theorem State.mem_cellsOutside_of_cell {c : CellRef} {x : CellRecord} {k : SlotNo} (hx : s.cell? c = some x)
    (hk : x.slot = some k) (hmask : ∀ m ∈ mask, m.val ≠ k.val) : (c, k) ∈ s.cellsOutside mask := by
  unfold State.cell? at hx
  obtain ⟨r, hr, hrx⟩ := Option.bind_eq_some_iff.mp hx
  obtain ⟨hcol, hrow⟩ := PlateRecord.place_of_cell? hrx
  refine State.mem_cellsOutside.mpr ⟨r, State.mem_of_plate? hr, x, List.mem_of_find?_eq_some hrx, hk, hmask, ?_⟩
  rw [State.key_of_plate? hr, hcol, hrow]

/-- Under the register's laws the cells lost are cells found whose slots lie outside the mask (R1, R3). -/
theorem State.cell_of_mem_cellsOutside {p : CellRef × SlotNo} (hlaw : s.registerLaw) (hgrid : s.gridLaw)
    (hp : p ∈ s.cellsOutside mask) : ∃ x, s.cell? p.1 = some x ∧ x.slot = some p.2 ∧ ∀ m ∈ mask, m.val ≠ p.2.val := by
  obtain ⟨r, hr, c, hc, hs, hmask, he⟩ := State.mem_cellsOutside.mp hp
  refine ⟨c, ?_, hs, hmask⟩
  rw [he, State.cell?_of_plate (State.plate?_of_mem hlaw.2.1 hr)]
  exact PlateRecord.cell?_of_mem (hgrid r hr) hc

end

/-! ## STANDBY -/

section

variable {s : State} {q : Src} {mask : List RegionNo}

theorem CsqState.admitsStandby_eq_false (x : CsqState) :
    x.admitsStandby = false ↔ x ≠ .idle ∧ x ≠ .awaitSlot ∧ x ≠ .paused .claim := by
  cases x with
  | paused p => cases p <;> simp [CsqState.admitsStandby]
  | _ => simp [CsqState.admitsStandby]

theorem State.anyWorked_eq_false : s.anyCell (fun c => c == .exposing || c == .finalizing || c == .delivering) = false
    ↔ ∀ r ∈ s.plates, ∀ c ∈ r.cells, c.state ≠ .exposing ∧ c.state ≠ .finalizing ∧ c.state ≠ .delivering := by
  simp [State.anyCell, and_assoc]

theorem State.standbyRefusal?_notReady (hr : s.fsc.state ≠ .ready) : s.standbyRefusal? = some .notReady := if_pos hr

theorem State.standbyRefusal?_busy (hr : s.fsc.state = .ready)
    (h : (s.csq.state ≠ .idle ∧ s.csq.state ≠ .awaitSlot ∧ s.csq.state ≠ .paused .claim)
      ∨ (∃ r ∈ s.plates, ∃ c ∈ r.cells, c.state = .exposing ∨ c.state = .finalizing ∨ c.state = .delivering)
      ∨ s.cal.op ≠ none) : s.standbyRefusal? = some .busy := by
  unfold State.standbyRefusal?
  rw [if_neg (not_not.mpr hr)]
  split_ifs with h1 h2 h3
  · rfl
  · rfl
  · rfl
  · rcases h with h | ⟨r, hr, c, hc, h⟩ | h
    · exact absurd ((CsqState.admitsStandby_eq_false _).mpr h) h1
    · obtain ⟨ha, hb, hd⟩ := State.anyWorked_eq_false.mp (by simpa using h2) r hr c hc
      rcases h with h | h | h
      · exact absurd h ha
      · exact absurd h hb
      · exact absurd h hd
    · exact absurd (Option.isSome_iff_ne_none.mpr h) h3

theorem State.standbyRefusal?_none (hr : s.fsc.state = .ready) (hq : s.csq.state.admitsStandby = true) (ho : s.cal.op = none)
    (hc : ∀ r ∈ s.plates, ∀ c ∈ r.cells, c.state ≠ .exposing ∧ c.state ≠ .finalizing ∧ c.state ≠ .delivering) :
    s.standbyRefusal? = none := by
  have hany := State.anyWorked_eq_false.mpr hc
  simp [State.standbyRefusal?, hr, hq, hany, State.calibrating, ho]

/-- The mask of regions that exist, in their order. -/
def sortedMask (mask : List RegionNo) : List RegionNo :=
  (List.finRange 8).filter fun r => (mask.map (·.val)).contains r.val

theorem regionMask_some (mask : List RegionNo) : regionMask (some (mask.map (·.val))) = some (sortedMask mask) :=
  if_pos (by simp [List.all_eq_true])

theorem mem_sortedMask {r : RegionNo} : r ∈ sortedMask mask ↔ r ∈ mask := by
  simp only [sortedMask, List.mem_filter, List.mem_finRange, true_and, List.contains_iff_mem, List.mem_map]
  exact ⟨fun ⟨x, hx, he⟩ => Fin.ext he ▸ hx, fun h => ⟨r, h, rfl⟩⟩

theorem regionMask_outside {mask : List Nat} (h : ∃ r ∈ mask, 8 ≤ r) : regionMask (some mask) = none := by
  obtain ⟨r, hr, h8⟩ := h
  exact if_neg fun h => absurd (List.all_eq_true.mp h r hr) (by simpa using h8)

theorem regionMask_inside {mask : List Nat} (h : ∀ r ∈ mask, r < 8) : ∃ m, regionMask (some mask) = some m :=
  ⟨_, if_pos (List.all_eq_true.mpr fun r hr => by simpa using h r hr)⟩

/-- What the STANDBY's plates, slots and works are: those of the cells lost (R23). -/
def State.cellsLost (s : State) (mask : List RegionNo) : State := (s.cellsOutside mask).foldl State.loseCell s

theorem State.standbyCalibration_eq (s : State) (mask : List RegionNo) :
    s.standbyCalibration mask = { s with
      raised := (s.standbyCalibration mask).raised, cal := (s.standbyCalibration mask).cal } := by
  unfold State.standbyCalibration
  split
  · rfl
  · split <;> rfl

/-- The calibration that a STANDBY leaves (R100). -/
theorem State.standbyCalibration_record (s : State) (mask : List RegionNo) :
    (s.standbyCalibration mask).cal.record.state =
        (if 7 ∉ mask ∧ (s.cal.record.state = .darkOnly ∨ s.cal.record.state = .valid ∨ s.cal.record.state = .stale)
          then .lost else s.cal.record.state)
      ∧ (7 ∈ mask → (s.standbyCalibration mask).cal.record = s.cal.record) := by
  unfold State.standbyCalibration
  by_cases h7 : 7 ∈ mask
  · rw [if_pos (List.contains_iff_mem.mpr h7), if_neg fun h => h.1 h7]
    exact ⟨rfl, fun _ => rfl⟩
  · rw [if_neg fun h => h7 (List.contains_iff_mem.mp h)]
    refine ⟨?_, fun h => absurd h h7⟩
    split
    all_goals
      rename_i hst
      simp [hst, h7, State.setCalRecord, State.calibNotice, State.raise, State.onCal, CalRecord.withoutDark,
        CalRecord.withoutFlat]

/-- What STANDBY leaves, block by block (R100, R144, R145). -/
theorem State.standby_eq (s : State) (mask : List RegionNo) :
    s.standby mask = { s.cellsLost mask with
      raised := (s.standby mask).raised
      cal := ((s.cellsLost mask).standbyCalibration mask).cal
      ltc := (s.cellsLost mask).lampDark.ltc
      tbu := (s.cellsLost mask).lampDark.tbu
      fsc := { (s.cellsLost mask).fsc with
        state := .retaining, mask := mask, retain := Vector.ofFn fun r => mask.contains r
        refreshOwed := 0, waiting := [], mem := retainOnly (s.cellsLost mask).fsc.mem mask } } := by
  have h : s.standby mask
      = (((s.cellsLost mask).standbyCalibration mask).lampSwitchOff .offRequest).enterRetention mask := rfl
  rw [h, State.lampSwitchOff_eq, State.standbyCalibration_eq]
  rfl

section

variable {c : CellRef} {x : CellRecord} {k : SlotNo}

/-- A cell whose slot lies outside the mask is lost, with its slot and its place in the queue. -/
theorem State.cellsLost_lost (hx : s.cell? c = some x) (hk : x.slot = some k) (hm : ∀ r ∈ mask, r.val ≠ k.val) :
    (s.cellsLost mask).cell? c = some x.abandon ∧ c ∉ (s.cellsLost mask).dlt.queue
      ∧ (s.cellsLost mask).fsc.held.get k = false := by
  have hmem := State.mem_cellsOutside_of_cell hx hk hm
  have hc : c ∈ (s.cellsOutside mask).map (·.1) := List.mem_map_of_mem hmem
  refine ⟨?_, ?_, (State.loseCells_slot k).1 (.inl (List.mem_map_of_mem hmem))⟩
  · rw [State.cellsLost, State.loseCells_cell?, hx, Option.map_some, if_pos hc]
  · rw [State.cellsLost, State.loseCells_queue]
    exact fun h => by simpa only [hc, decide_true, Bool.not_true, Bool.false_eq_true] using (List.mem_filter.mp h).2

/-- A slot of the mask keeps what it has. -/
theorem State.cellsLost_slot (hm : ∃ r ∈ mask, r.val = k.val) :
    (s.cellsLost mask).fsc.held.get k = s.fsc.held.get k ∧ (s.cellsLost mask).fsc.holders.get k = s.fsc.holders.get k
      ∧ ((s.work k).state = .coded → (s.cellsLost mask).work k = s.work k) := by
  refine (State.loseCells_slot k).2 fun h => ?_
  obtain ⟨p, hp, rfl⟩ := List.mem_map.mp h
  obtain ⟨r, -, y, -, -, hout, -⟩ := State.mem_cellsOutside.mp hp
  obtain ⟨m, hm, he⟩ := hm
  exact hout m hm he

/-- A cell whose slot the mask keeps stays as it is, with its place in the queue. -/
theorem State.cellsLost_kept (hlaw : s.registerLaw) (hgrid : s.gridLaw) (hx : s.cell? c = some x)
    (hk : ∀ k, x.slot = some k → ∃ r ∈ mask, r.val = k.val) :
    (s.cellsLost mask).cell? c = some x ∧ (c ∈ s.dlt.queue → c ∈ (s.cellsLost mask).dlt.queue) := by
  have hc : c ∉ (s.cellsOutside mask).map (·.1) := fun h => by
    obtain ⟨p, hp, rfl⟩ := List.mem_map.mp h
    obtain ⟨y, hy, hslot, hout⟩ := State.cell_of_mem_cellsOutside hlaw hgrid hp
    obtain rfl := Option.some.inj (hx.symm.trans hy)
    obtain ⟨m, hm, he⟩ := hk _ hslot
    exact hout m hm he
  refine ⟨?_, fun h => ?_⟩
  · rw [State.cellsLost, State.loseCells_cell?, hx, Option.map_some, if_neg hc]
  · rw [State.cellsLost, State.loseCells_queue]
    exact List.mem_filter.mpr ⟨h, by simp only [hc, decide_false, Bool.not_false]⟩

/-- A plate changes only with a cell lost, and its state is then that of a plate with a cell to capture. -/
theorem State.cellsLost_plate? {key : PlateKey} {r : PlateRecord} (hlaw : s.registerLaw) (hgrid : s.gridLaw)
    (hr : s.plate? key = some r) :
    let lost : Prop := ∃ x ∈ r.cells, ∃ k, x.slot = some k ∧ ∀ m ∈ mask, m.val ≠ k.val
    (¬ lost → (s.cellsLost mask).plate? key = some r)
      ∧ (lost → ((s.cellsLost mask).plate? key).map (·.state) = some r.lostState) := by
  obtain ⟨y, hy, -, hlost, hsame⟩ := State.loseCells_plate? (l := s.cellsOutside mask) hr fun p hp => by
    obtain ⟨x, hx, -⟩ := State.cell_of_mem_cellsOutside hlaw hgrid hp
    simp [hx]
  refine ⟨fun h => ?_, fun ⟨x, hx, k, hk, hout⟩ => ?_⟩
  · rw [State.cellsLost, hy, hsame]
    rintro p hp rfl
    obtain ⟨r', hr', x, hx, hslot, hout, he⟩ := State.mem_cellsOutside.mp hp
    have hr'' := State.plate?_of_mem hlaw.2.1 hr'
    rw [he] at hr
    obtain rfl := Option.some.inj (hr.symm.trans hr'')
    exact h ⟨x, hx, _, hslot, hout⟩
  · rw [State.cellsLost, hy, Option.map_some,
      hlost ⟨(⟨r.key, x.column, x.row⟩, k), State.mem_cellsOutside.mpr ⟨r, State.mem_of_plate? hr, x, hx, hk, hout, rfl⟩, State.key_of_plate? hr⟩]

end

theorem State.mem_standby (s : State) (mask : List RegionNo) :
    Notice.store .retaining .ready .standby (some mask) none ∈ (s.standby mask).raised := by
  simp [State.standby, State.enterRetention, State.raise]

end

/-- Settles O44: what a STANDBY keeps and loses, and its refusals in the order of R144. -/
theorem standbyRetains : Obligations.StandbyRetains := by
  refine ⟨fun s q hs => ⟨?_, fun mask hout => ?_, fun mask hin => ⟨fun hready => ?_, fun hready hbusy => ?_⟩⟩,
    fun s q mask hs hready hadmit hop hcells => ?_⟩
  · exact State.answeredOnly_of_serve (i := .standby q none) hs rfl rfl
  · refine State.answeredOnly_of_serve (i := .standby q (some mask)) hs rfl ?_
    rw [regionMask_outside hout]
    rfl
  · obtain ⟨m, hm⟩ := regionMask_inside hin
    refine State.answeredOnly_of_serve (i := .standby q (some mask)) hs rfl ?_
    rw [hm, State.handleStandby, State.standbyRefusal?_notReady (s := s.taken q .standby) hready]
    rfl
  · obtain ⟨m, hm⟩ := regionMask_inside hin
    refine State.answeredOnly_of_serve (i := .standby q (some mask)) hs rfl ?_
    rw [hm, State.handleStandby, State.standbyRefusal?_busy (s := s.taken q .standby) hready hbusy]
    rfl
  have hhandle : (s.taken q .standby).handleStandby (regionMask (some (mask.map (·.val))))
      = ((s.taken q .standby).standby (sortedMask mask), Reply.done false) := by
    rw [regionMask_some, State.handleStandby, State.standbyRefusal?_none (s := s.taken q .standby) hready hadmit hop hcells]
  have heq := (s.taken q .standby).standby_eq (sortedMask mask)
  have hframe := State.loseCells_frame (s.taken q .standby) ((s.taken q .standby).cellsOutside (sortedMask mask))
  obtain ⟨-, -, -, hprofiles, hgeometry, hsettings, hcsq, hcal, hltc, htbu, hports, hmem⟩ := hframe
  obtain ⟨t, hexec, hserved, ht, hoff⟩ := State.exec_of_serve (i := .standby q (some (mask.map (·.val)))) hs rfl hhandle
    (by rw [heq]; exact hports)
  have hraised := (s.taken q .standby).mem_standby (sortedMask mask)
  rw [heq] at ht
  have hset : ∀ r : RegionNo, r ∈ sortedMask mask ↔ r ∈ mask := fun r => mem_sortedMask
  have hcontains (r : RegionNo) : (sortedMask mask).contains r = mask.contains r := by
    rw [Bool.eq_iff_iff, List.contains_iff_mem, List.contains_iff_mem, hset]
  have hforall (k : Nat) : (∀ m ∈ sortedMask mask, m.val ≠ k) ↔ ∀ m ∈ mask, m.val ≠ k := by simp only [hset]
  have hexists (k : Nat) : (∃ m ∈ sortedMask mask, m.val = k) ↔ ∃ m ∈ mask, m.val = k := by simp only [hset]
  obtain ⟨hrecord, hkept7⟩ := ((s.taken q .standby).cellsLost (sortedMask mask)).standbyCalibration_record (sortedMask mask)
  simp only [show ((s.taken q .standby).cellsLost (sortedMask mask)).cal = s.cal from hcal, hset] at hrecord hkept7
  refine ⟨t, hexec, hserved, ?_, ?_, ?_, ?_, fun _ => ⟨_, List.mem_append_right _ (mem_otherNotices.mpr ?_), hoff⟩, ?_, ?_, ?_, ?_, ?_,
    ?_, ?_, ?_, ?_, ?_, ?_, ?_, ?_, ?_⟩
  all_goals
    generalize t.ports = ports at ht
    subst ht
  · rfl
  · rfl
  · exact hset
  · intro r
    exact (Vector.getElem_ofFn _).trans (hcontains r)
  · exact hraised
  · rintro r hr a ha
    exact (readByte_retainOnly_kept ⟨r, (hset r).mpr hr, ha.symm⟩).trans (congrArg (readByte · a) hmem)
  · intro c x k hx hk hout
    exact State.cellsLost_lost (s := s.taken q .standby) hx hk ((hforall _).mpr hout)
  · exact hrecord
  · exact hkept7
  · intro k hk
    exact State.cellsLost_slot (s := s.taken q .standby) ((hexists _).mpr hk)
  · change ((s.taken q .standby).cellsLost (sortedMask mask)).dlt.queue.Sublist s.dlt.queue
    rw [State.cellsLost, State.loseCells_queue]
    exact List.filter_sublist
  · intro hlaw hgrid
    refine ⟨fun c x hx hk => ?_, fun key r hr => ?_⟩
    · exact State.cellsLost_kept (s := s.taken q .standby) hlaw hgrid hx fun k hs => (hexists _).mpr (hk k hs)
    · have h := State.cellsLost_plate? (s := s.taken q .standby) (mask := sortedMask mask) hlaw hgrid hr
      simp only [hforall] at h
      exact h
  · rfl
  · rfl
  · exact hprofiles
  · exact hgeometry
  · exact hsettings
  · have hclock := congrArg Tbu.clock htbu
    exact hclock
  · exact hcsq

end Sys2Proof.Machine
end

section
/-! PROOFS. The warm restart: what it keeps, and what it makes of the work under way (R22, R101, R104, R149, R174). -/

namespace Sys2Proof.Machine
-- One proof at a time: under the memory limit of the check there is no room for the stacks of many threads.
set_option Elab.async false

variable {s : State}

/-! ## The ports -/

theorem State.warmRestart_port (s : State) (k : PortNo) : s.warmRestart.ports.get k = (s.ports.get k).restarted := by
  simp [State.warmRestart, Vector.get]
  rfl

/-- What the notices of a restart leave of a port that was restarted: its setup, and no answer. -/
theorem Port.restarted_offered (p : Port) (ns : List Notice) :
    ∃ number notices overrun line, ((ns.foldl Port.offer p.restarted).pump) = { p.restarted with
      noticeNumber := number, notices := notices, overrun := overrun, line := line } := by
  obtain ⟨number, notices, overrun, h⟩ := p.restarted.offers_eq ns
  rw [h]
  unfold Port.pump
  split
  · split
    · rename_i hans
      cases hans
    · split
      · exact ⟨_, _, _, _, rfl⟩
      · split <;> exact ⟨_, _, _, _, rfl⟩
  · exact ⟨_, _, _, _, rfl⟩

/-- Without notices a restarted port stays as it is. -/
theorem Port.restarted_pump (p : Port) : p.restarted.pump = p.restarted := by
  unfold Port.pump
  split
  · split
    · rename_i hans
      cases hans
    · split
      · rfl
      · rfl
  · rfl

/-! ## What may start again -/

/-- The state between the restart and its notices. -/
def State.restartPolled (s : State) : State := s.warmRestart.pollIdle.pollSlot.pollDelivery.arbitrate

theorem State.exec_resetWarm (s : State) :
    exec .resetWarm s = .next (s.restartPolled.announce s.warmRestart.plates) := rfl

theorem State.startStream_keys (s : State) (c : CellRef) :
    (s.startStream c).plates.map (·.key) = s.plates.map (·.key) :=
  Reworks.keys ((withins_startStream s c).imp fun _ _ h => h.toReworked)

/-- What AUTO starts keeps the keys and the mode. -/
theorem State.pollDelivery_keeps (s : State) :
    s.pollDelivery.plates.map (·.key) = s.plates.map (·.key) ∧ s.pollDelivery.dlt.mode = s.dlt.mode := by
  have hauto : s.autoStream.plates.map (·.key) = s.plates.map (·.key) ∧ s.autoStream.dlt.mode = s.dlt.mode := by
    unfold State.autoStream
    repeat' split
    · rename_i c _ _ _ _ _
      refine ⟨s.startStream_keys c, ?_⟩
      rcases s.startStream_dlt c with h | ⟨x, -, h⟩ <;> rw [h]
    · exact ⟨rfl, rfl⟩
    · exact ⟨rfl, rfl⟩
  refine ⟨hauto.1, Eq.trans ?_ hauto.2⟩
  change s.autoStream.dlt.sendNext.mode = s.autoStream.dlt.mode
  unfold Dlt.sendNext
  repeat' split
  all_goals rfl

theorem State.pollSlot_keys (s : State) : s.pollSlot.plates.map (·.key) = s.plates.map (·.key) := by
  obtain h | h | h | ⟨r, p, k, -, -, -, h⟩ := s.pollSlot_cases
  · rw [h]
  · rw [h]
    rfl
  · rw [h]
    rfl
  · rw [h]
    exact (reworks_claim s r _ k).keys

/-- The claim and the stream that may start keep the keys. -/
theorem State.restartPolled_keys (s : State) : s.restartPolled.plates.map (·.key) = s.plates.map (·.key) := by
  have hrestart : s.warmRestart.plates.map (·.key) = s.plates.map (·.key) := by
    change (s.plates.map PlateRecord.restarted).map (·.key) = _
    rw [List.map_map]
    exact List.map_congr_left fun r _ => r.within_restarted.key
  calc s.restartPolled.plates.map (·.key)
      = s.warmRestart.pollIdle.pollSlot.pollDelivery.plates.map (·.key) := by simp [State.restartPolled]
    _ = s.warmRestart.pollIdle.pollSlot.plates.map (·.key) := (State.pollDelivery_keeps _).1
    _ = s.warmRestart.pollIdle.plates.map (·.key) := State.pollSlot_keys _
    _ = s.plates.map (·.key) := by rw [State.pollIdle_plates, hrestart]

/-- Where the calibration is not VALID and no stream is begun by itself, or the store is not READY, nothing starts. -/
abbrev State.StartsNothing (s : State) : Prop :=
  (s.cal.record.state ≠ .valid ∧ s.dlt.mode = .fetch) ∨ s.fsc.state ≠ .ready

theorem StoreState.restarted_ne_ready {x : StoreState} (h : x ≠ .ready) : x.restarted ≠ .ready := by
  cases x <;> simp_all [StoreState.restarted]

/-- Nothing but a refresh starts. -/
theorem State.restartPolled_of_startsNothing (h : s.StartsNothing) : s.restartPolled = s.warmRestart.arbitrate := by
  have hclaim : s.warmRestart.claimAllowed = false := by
    unfold State.claimAllowed
    rcases h with ⟨h, -⟩ | h
    · have : (s.warmRestart.cal.record.state == .valid) = false := by simpa using h
      rw [this, Bool.false_and]
    · have : (s.warmRestart.fsc.state == .ready) = false := beq_eq_false_iff_ne.mpr (StoreState.restarted_ne_ready h)
      rw [this, Bool.and_false]
  have hidle : s.warmRestart.pollIdle = s.warmRestart := by
    unfold State.pollIdle
    split
    · rw [if_neg]
      simp [State.startConditions, hclaim]
    · rfl
  have hslot : s.warmRestart.pollSlot = s.warmRestart := State.pollSlot_of_state nofun
  have hauto : s.warmRestart.autoStream = s.warmRestart := by
    unfold State.autoStream
    split
    · rename_i hmode _ _
      rw [if_neg]
      rcases h with ⟨-, h⟩ | h
      · exact absurd (hmode.symm.trans h) nofun
      · exact StoreState.restarted_ne_ready h
    · rfl
  have hserve : s.warmRestart.serveLink = s.warmRestart := by
    have hnone : s.warmRestart.dlt.sendNext = s.warmRestart.dlt := by
      unfold Dlt.sendNext
      split
      · rename_i hstream
        cases hstream
      · rfl
    unfold State.serveLink State.onDlt
    dsimp only
    rw [hnone]
    rfl
  rw [State.restartPolled, hidle, hslot, State.pollDelivery, hauto, hserve]

/-! ## The tables -/

theorem State.arbitrate_access {a : Access} (h : s.fsc.access = some a) : s.arbitrate.fsc.access = some a := by
  have hgrant : s.grant = s := by
    unfold State.grant
    rw [h]
  unfold State.arbitrate
  rw [hgrant]
  exact h

theorem State.restartPolled_plr (s : State) : s.restartPolled.plr = Plr.cleared s.plr.tagCounter := by
  have h : s.warmRestart.pollIdle.pollSlot.pollDelivery.plr = Plr.cleared s.plr.tagCounter := by
    simp
    rfl
  rw [State.restartPolled, State.arbitrate_plr, State.arbitrate_queue_nil (by rw [h]; rfl), h]
  rfl

theorem State.restartPolled_access {a : Access} (ha : s.fsc.access = some a) (hc : a.work.cls ≠ .refresh) :
    ∃ b, s.restartPolled.fsc.access = some b ∧ b.work = a.work ∧ b.result ≠ .used := by
  have hstop (row : Option StoreRow) : (a.stop row).work = a.work ∧ (a.stop row).result ≠ .used := by
    unfold Access.stop
    split
    · exact ⟨rfl, nofun⟩
    · rename_i h
      exact ⟨rfl, by rw [h]; nofun⟩
  refine ⟨_, State.arbitrate_access ?_, hstop (s.fsc.access.bind fun a => s.storedRow? a.work)⟩
  simp only [State.pollDelivery_frame, State.pollSlot_frame, State.pollIdle_frame]
  change (s.fsc.access.map _) = _
  rw [ha, Option.map_some, if_neg hc]

/-- What the restart keeps in the blocks that it does not clear. -/
theorem State.restartPolled_tables (s : State) :
    s.tablesKept s.restartPolled ∧ s.restartPolled.cal = { s.cal with op := none, tally := List.replicate s.geometry.height 0 }
      ∧ s.restartPolled.fsc.state = s.fsc.state.restarted ∧ s.restartPolled.fsc.reason = s.fsc.reason
      ∧ s.restartPolled.fsc.mask = s.fsc.mask ∧ s.restartPolled.fsc.retain = s.fsc.retain
      ∧ s.restartPolled.fsc.refreshOwed = s.fsc.refreshOwed ∧ s.restartPolled.dlt.mode = s.dlt.mode
      ∧ s.restartPolled.ports = s.warmRestart.ports := by
  have hmode := State.pollDelivery_keeps s.warmRestart.pollIdle.pollSlot
  refine ⟨?_, ?_, ?_, ?_, ?_, ?_, ?_, ?_, ?_⟩
  · simp only [State.restartPolled, State.tablesKept, State.arbitrate_frame, State.pollDelivery_frame,
      State.pollSlot_frame, State.pollIdle_frame]
    exact ⟨rfl, rfl, rfl, rfl, rfl, rfl, rfl, fun _ => rfl⟩
  case refine_8 =>
    simp only [State.restartPolled, State.arbitrate_frame, hmode, State.pollSlot_frame, State.pollIdle_frame]
    rfl
  all_goals
    simp only [State.restartPolled, State.arbitrate_frame, State.pollDelivery_frame, State.pollSlot_frame,
      State.pollIdle_frame]
  all_goals rfl

/-- Settles O5: what the warm restart keeps and clears, block by block and port by port. -/
theorem warmRestartKeepsTables : Obligations.WarmRestartKeepsTables := by
  intro s
  obtain ⟨htables, hcal, hstate, hreason, hmask, hretain, howed, hmode, hports⟩ := s.restartPolled_tables
  have hplr := s.restartPolled_plr
  have hport (k : PortNo) : (s.restartPolled.announce s.warmRestart.plates).ports.get k
      = ((registerNotices s.warmRestart.plates s.restartPolled.plates ++ otherNotices s.restartPolled.raised).foldl
          Port.offer (s.ports.get k).restarted).pump := by
    rw [State.announce, State.finish_port, hports, State.warmRestart_port]
  refine ⟨_, s.exec_resetWarm, htables, ?_, ?_, ?_, ?_, ?_, ?_, ?_, ?_, ?_, ?_, ?_, ?_, ?_, ?_, ?_, ?_, ?_, ?_, ?_, hmode,
    s.restartPolled_keys, hstate.trans ?_, hreason, hmask, hretain, howed, fun a => s.restartPolled_access, ?_, ?_⟩
  case refine_20 => cases s.fsc.state <;> rfl
  case refine_21 =>
    intro hlaw hrest k
    have hplates : s.restartPolled.plates = s.warmRestart.plates := by
      rw [State.restartPolled_of_startsNothing hrest]
      simp
    have hraised : s.restartPolled.raised = [] := by
      rw [State.restartPolled_of_startsNothing hrest]
      simp
      rfl
    have hkeys : (s.warmRestart.plates.map (·.key)).Nodup := by
      rw [← hplates, s.restartPolled_keys]
      exact hlaw.2.1
    rw [hport, hplates, hraised, registerNotices_self hkeys, otherNotices_nil]
    rw [List.append_nil, List.foldl_nil, Port.restarted_pump]
    exact ⟨rfl, rfl, rfl, rfl⟩
  case refine_22 =>
    intro k
    obtain ⟨number, notices, overrun, line, h⟩ := (s.ports.get k).restarted_offered
      (registerNotices s.warmRestart.plates s.restartPolled.plates ++ otherNotices s.restartPolled.raised)
    rw [hport, h]
    refine ⟨rfl, rfl, rfl, rfl, rfl, rfl, fun a ha hout => ?_, fun hnone => ?_, rfl, rfl⟩
    · change (s.ports.get k).stillOutstanding = _
      unfold Port.stillOutstanding
      rw [ha]
      exact if_pos hout
    · change (s.ports.get k).stillOutstanding = _
      unfold Port.stillOutstanding
      split
      · rename_i a ha
        exact if_neg (by simp [hnone a ha])
      · rfl
  all_goals simp [State.announce, State.finish, hcal, hplr, Plr.cleared]

/-! ## The work under way -/

theorem CellRecord.restarted_eq (x : CellRecord) : x.restarted = match x.state with
    | .exposing | .finalizing => { x with state := .pending, slot := none, lastOutcome := .abandoned }
    | .delivering => { x with state := .merged }
    | _ => x := by
  unfold CellRecord.restarted CellRecord.abandon
  cases h : x.state <;> simp [CellState.restartLoses]

theorem InPlace.restarted : InPlace CellRecord.restarted := by
  intro c
  rw [CellRecord.restarted_eq]
  split <;> exact ⟨rfl, rfl⟩

theorem PlateRecord.restarted_cells (r : PlateRecord) : r.restarted.cells = r.cells.map CellRecord.restarted := by
  unfold PlateRecord.restarted
  dsimp only
  split
  · exact (sameCells_recaptured _).cells
  · rfl

theorem State.warmRestart_cell? (c : CellRef) : s.warmRestart.cell? c = (s.cell? c).map CellRecord.restarted := by
  have hplate : s.warmRestart.plate? c.key = (s.plate? c.key).map PlateRecord.restarted := by
    unfold State.plate?
    change (s.plates.map PlateRecord.restarted).find? _ = _
    rw [List.find?_map]
    congr 2
    funext r
    simp [Function.comp, r.within_restarted.key]
  unfold State.cell?
  rw [hplate]
  cases s.plate? c.key with
  | none => rfl
  | some r =>
    change r.restarted.cells.find? _ = (r.cells.find? _).map _
    rw [PlateRecord.restarted_cells, List.find?_map]
    congr 2
    funext x
    simp [Function.comp, (InPlace.restarted x).1, (InPlace.restarted x).2]

theorem State.mem_cells {p : CellRef × CellRecord} : p ∈ s.cells
    ↔ ∃ r ∈ s.plates, p.2 ∈ r.cells ∧ p.1 = ⟨r.key, p.2.column, p.2.row⟩ := by
  simp only [State.cells, List.mem_flatMap, List.mem_map]
  constructor
  · rintro ⟨r, hr, x, hx, rfl⟩
    exact ⟨r, hr, hx, rfl⟩
  · rintro ⟨r, hr, hx, he⟩
    exact ⟨r, hr, p.2, hx, by rw [← he]⟩

theorem State.mem_restartStreams {c : CellRef} : c ∈ s.restartStreams
    ↔ ∃ p ∈ s.cells, p.1 = c ∧ p.2.state = .delivering := by
  simp only [State.restartStreams, List.mem_flatMap, List.mem_filterMap, State.mem_cells]
  constructor
  · rintro ⟨r, hr, x, hx, h⟩
    split at h
    · rename_i hst
      exact ⟨(c, x), ⟨r, hr, hx, (Option.some.inj h).symm⟩, rfl, hst⟩
    · cases h
  · rintro ⟨p, ⟨r, hr, hx, he⟩, rfl, hst⟩
    exact ⟨r, hr, p.2, hx, by rw [if_pos hst, he]⟩

theorem State.mem_restartSlots {p : CellRef × CellRecord} {k : SlotNo} (hp : p ∈ s.cells)
    (hst : p.2.state = .exposing ∨ p.2.state = .finalizing) (hk : p.2.slot = some k) : k ∈ s.restartSlots := by
  obtain ⟨r, hr, hx, -⟩ := State.mem_cells.mp hp
  refine List.mem_flatMap.mpr ⟨r, hr, List.mem_filterMap.mpr ⟨p.2, hx, ?_⟩⟩
  rw [if_pos (by rcases hst with h | h <;> rw [h] <;> rfl), hk]

/-- Places written to one value hold it, and keep it. -/
theorem setAt_foldl_get {α : Type} {n : Nat} (l : List (Fin n)) (v : Vector α n) (x : α) {k : Fin n}
    (h : k ∈ l ∨ v.get k = x) : (l.foldl (fun v j => setAt v j x) v).get k = x := by
  induction l generalizing v with
  | nil => exact h.resolve_left List.not_mem_nil
  | cons j l ih =>
    refine ih _ ?_
    by_cases hk : k = j
    · exact .inr (by rw [hk, setAt_get_self])
    · rw [setAt_get_ne _ _ (Ne.symm hk)]
      exact h.imp_left fun h => (List.mem_cons.mp h).resolve_left hk

theorem State.arbitrate_held (s : State) : s.arbitrate.fsc.held = s.fsc.held := by simp

/-- Settles O6: what the warm restart makes of the cells and of the work on them, where nothing starts again. -/
theorem warmRestartAbandonsWork : Obligations.WarmRestartAbandonsWork := by
  intro s hrest
  have hwork (k : SlotNo) : s.warmRestart.work k = (s.work k).restarted := by
    simp [State.work, State.warmRestart, Vector.get]
    rfl
  refine ⟨_, s.exec_resetWarm, ?_⟩
  rw [State.restartPolled_of_startsNothing hrest]
  have hcell (c : CellRef) : (s.warmRestart.arbitrate.announce s.warmRestart.plates).cell? c = s.warmRestart.cell? c := by
    simp [State.cell?, State.plate?, State.announce, State.finish]
  have hmge (k : SlotNo) : (s.warmRestart.arbitrate.announce s.warmRestart.plates).work k = s.warmRestart.work k := by
    simp [State.work, State.announce, State.finish]
  have hdlt : (s.warmRestart.arbitrate.announce s.warmRestart.plates).dlt = s.warmRestart.dlt := by
    simp [State.announce, State.finish]
  refine ⟨fun c => ?_, ?_, ?_, ?_, ?_, ?_, ⟨s.restartStreams, ?_, fun c => State.mem_restartStreams⟩, fun k hk => ?_,
    fun p hp hst k hk => ⟨?_, ?_⟩, fun k hk => ?_⟩
  · rw [hcell, State.warmRestart_cell?]
    exact congrArg (Option.map · _) (funext CellRecord.restarted_eq)
  case refine_8 =>
    rw [hmge, hwork, WorkRecord.restarted, if_neg hk]
    rfl
  case refine_9 =>
    refine Eq.trans (congrArg (Vector.get · k) (State.arbitrate_held _)) ?_
    exact setAt_foldl_get _ _ _ (.inl (State.mem_restartSlots hp hst hk))
  case refine_10 =>
    refine Eq.trans (congrArg (Vector.get · k) (State.arbitrate_holders _)) ?_
    exact setAt_foldl_get _ _ _ (.inl (State.mem_restartSlots hp hst hk))
  case refine_11 => rw [hmge, hwork, WorkRecord.restarted, if_pos hk]
  all_goals
    simp only [State.announce, State.finish, State.arbitrate_frame]
    rfl

end Sys2Proof.Machine
end

section
/-! PROOFS. The end of an access: the store it frees stays free until the arbiter's grant (R140, R141). -/

namespace Sys2Proof.Machine
-- One proof at a time: under the memory limit of the check there is no room for the stacks of many threads.
set_option Elab.async false

variable {s x : State}

/-! ## A free store stays free -/

theorem State.stopAccess_free (h : s.fsc.access = none) (p : StoreWork → Bool) : (s.stopAccess p).fsc.access = none := by
  rw [stopAccess_of_free h, h]

theorem State.returnSlot_free (h : s.fsc.access = none) (k : SlotNo) : (s.returnSlot k).fsc.access = none := by
  simp [State.returnSlot, State.stopAccess, State.onFsc, State.startPass_frame, h]

theorem State.failCalibration_free (h : s.fsc.access = none) (reason : CalResult) :
    (s.failCalibration reason).fsc.access = none := by
  unfold State.failCalibration
  split
  · exact h
  · simp [State.endCalibration_frame, State.stopAccess, State.onFsc, h]

theorem State.pollCal_free (h : s.fsc.access = none) : s.pollCal.fsc.access = none := by
  have hended (op : CalOp) : (s.attemptEnded op).fsc.access = none := by
    unfold State.attemptEnded
    repeat' split
    all_goals first
      | exact State.failCalibration_free h _
      | simpa using h
  have hattempt : s.pollAttempt.fsc.access = none := by
    unfold State.pollAttempt
    repeat' split
    all_goals first
      | exact hended _
      | exact h
  simpa [State.pollCal] using hattempt

theorem State.endTry_free (h : s.fsc.access = none) (c : TryContext) (o : LastOutcome) :
    (s.endTry c o).fsc.access = none := by
  unfold State.endTry
  repeat' split
  · simpa using h
  · simpa using State.returnSlot_free (by simpa using h) c.slot
  · simpa using h

theorem State.nextTrigger_free (h : s.fsc.access = none) (c : TryContext) : (s.nextTrigger c).fsc.access = none := by
  unfold State.nextTrigger
  split
  · exact State.endTry_free h _ _
  · exact h

theorem State.review_free (h : s.fsc.access = none) (c : TryContext) : (s.review c).fsc.access = none := by
  unfold State.review
  dsimp only
  repeat' split
  · exact h
  · unfold State.acceptExposure
    repeat' split
    · simpa using h
    · exact State.nextTrigger_free (by exact h) _
    · unfold State.decideExtension
      dsimp only
      split
      · exact State.nextTrigger_free (by exact h) _
      · simpa using h
  · unfold State.repeatRung
    split
    · exact State.endTry_free (by exact h) _ _
    · exact State.nextTrigger_free (by exact h) _
  · exact State.endTry_free (by exact h) _ _

theorem State.pollCsq_free (h : s.fsc.access = none) : s.pollCsq.fsc.access = none := by
  have hmerged : s.pollMerged.fsc.access = none := by
    unfold State.pollMerged
    repeat' split
    all_goals first
      | exact State.review_free h _
      | exact h
  simpa [State.pollCsq] using hmerged

/-- Before the arbiter's turn nothing takes the store. -/
theorem State.polled_free (h : s.fsc.access = none) : s.takeDiscards.pollCal.pollCsq.pollDelivery.fsc.access = none := by
  have h := State.pollCsq_free (State.pollCal_free (s := s.takeDiscards) (by simpa using h))
  simpa using h

/-! ## The end of an event that has freed the store -/

/-- What an event leaves that has freed the store, written what it writes, and touched no port. -/
structure State.Granted (s x t : State) : Prop where
  mem : t.fsc.mem = x.fsc.mem
  arbitrated : t.arbitrated
  grants : ∀ b, t.fsc.access = some b → (t.beforeGrant b).grants b
  ports : s.portsNoticed t

theorem State.granted_pollAll (h : x.fsc.access = none) (hp : x.ports = s.ports) (base : List PlateRecord) :
    s.Granted x (x.pollAll.announce base) where
  mem := by simp [State.announce, State.finish]
  arbitrated := State.arbitrated_arbitrate _
  grants b hb := State.grants_arbitrate (State.polled_free h) b hb
  ports := State.portsNoticed_announce (by simpa using hp) base

/-! ## The effect of a used access -/

/-- A work that writes a row or counts one, and is no refresh and no read. -/
def StoreWork.isRowWork : StoreWork → Bool
  | .refresh | .deliver .. => false
  | _ => true

/-- What a used access does at its end. -/
def StoreWork.effect (w : StoreWork) (s : State) : State :=
  match w with
  | .clear k y => s.clearRowDone k y
  | .merge k o y codes => s.mergeDone k o y codes
  | .finalize k y => s.finalRowDone k y
  | .refresh | .deliver .. => s
  | w => s.calibWorkDone w

/-- The command of a row's access ends it, and then the blocks have their turns. -/
theorem State.exec_rowWork {w : StoreWork} {result : AccessResult} (ha : s.fsc.access = some { work := w, result := result })
    (hw : w.isRowWork = true) :
    exec w.command s = .next (((s.accessEnd result w.effect).pollAll).announce s.plates) := by
  cases w
  case refresh => cases hw
  case deliver => cases hw
  case clear => change execClearRowWrite s = _; rw [execClearRowWrite, ha]; rfl
  case merge => change execRowMergeComplete s = _; rw [execRowMergeComplete, ha]; rfl
  case finalize => change execFinalizationRowWrite s = _; rw [execFinalizationRowWrite, ha]; rfl
  all_goals
    change execCalibrationAccumulationRow s = _
    rw [execCalibrationAccumulationRow, ha]
    rfl

/-- A used access writes its row and no other byte, and leaves the store free and the ports alone. -/
theorem StoreWork.effect_store {w : StoreWork} (h : s.fsc.access = none) (hw : w.isRowWork = true) :
    (w.effect s).fsc.access = none ∧ (w.effect s).fsc.mem = (s.writeRow (s.storedRow? w)).fsc.mem
      ∧ (w.effect s).ports = s.ports := by
  have hcalib (hc : w.isCalib = true) : (s.calibWorkDone w).fsc.access = none
      ∧ (s.calibWorkDone w).fsc.mem = (s.writeRow (s.storedRow? w)).fsc.mem ∧ (s.calibWorkDone w).ports = s.ports := by
    have hcore := (aside_calibWorkDone h hc).core
    have hfree : (s.writeRow (s.storedRow? w)).fsc.access = none := by simpa using h
    exact ⟨(congrArg Core.access hcore).trans hfree, congrArg Core.mem hcore, by simp⟩
  cases w
  case refresh => cases hw
  case deliver => cases hw
  case clear k y =>
    refine ⟨by simpa [StoreWork.effect] using h, ?_, by simp [StoreWork.effect]⟩
    rw [State.storedRow?_clear, StoreWork.effect, State.clearRowDone]
    repeat' split
    all_goals simp
  case merge k o y codes =>
    refine ⟨by simpa [StoreWork.effect] using h, ?_, by simp [StoreWork.effect]⟩
    simp [StoreWork.effect, State.mergeDone]
  case finalize k y =>
    refine ⟨by simpa [StoreWork.effect] using h, ?_, by simp [StoreWork.effect]⟩
    rw [State.storedRow?_finalize, StoreWork.effect, State.finalRowDone]
    split <;> simp
  all_goals exact hcalib rfl

/-- The bytes that the end of a row's access leaves: its row where it is used, else the row it was stopped with. -/
theorem State.accessEnd_store {w : StoreWork} {result : AccessResult} (hw : w.isRowWork = true) :
    (s.accessEnd result w.effect).fsc.access = none
      ∧ (s.accessEnd result w.effect).ports = s.ports
      ∧ (result = .used → (s.accessEnd result w.effect).fsc.mem = (s.writeRow (s.storedRow? w)).fsc.mem)
      ∧ ∀ row, result = .unused row → s.accessEnd result w.effect = s.accessDone.writeRow row := by
  cases result with
  | used =>
    obtain ⟨ha, hm, hp⟩ := StoreWork.effect_store (s := s.accessDone) rfl hw
    have hrow : s.accessDone.storedRow? w = s.storedRow? w := rfl
    rw [hrow] at hm
    refine ⟨ha, hp.trans (by simp), fun _ => hm.trans ?_, nofun⟩
    cases s.storedRow? w <;> rfl
  | unused row =>
    refine ⟨?_, by simp, nofun, fun r hr => by cases hr; rfl⟩
    rw [State.accessEnd_unused]
    have hfree : s.accessDone.fsc.access = none := rfl
    simpa using hfree

/-- A read's access ends with its buffer filled, where it is used. -/
def State.readDone (s : State) (k : SlotNo) (y : Nat) (result : AccessResult) : State :=
  if result = .used then s.accessDone.fillBuffer k y else s.accessDone

theorem State.exec_read {k : SlotNo} {y : Nat} {result : AccessResult}
    (ha : s.fsc.access = some { work := .deliver k y, result := result }) :
    exec .deliveryReadComplete s = .next (s.readDone k y result).serveLink.takeDiscards.arbitrate := by
  change execDeliveryReadComplete s = _
  rw [execDeliveryReadComplete, ha]
  rfl

theorem State.readDone_frame (s : State) (k : SlotNo) (y : Nat) (result : AccessResult) :
    (s.readDone k y result).fsc = s.accessDone.fsc ∧ (s.readDone k y result).mge = s.mge
      ∧ (s.readDone k y result).cal = s.cal ∧ (s.readDone k y result).csq = s.csq
      ∧ (s.readDone k y result).ports = s.ports := by
  unfold State.readDone
  split
  · simp
  · simp

/-- Settles O15: the end of each access by its command, and the grant of the freed store. -/
theorem accessesComplete : Obligations.AccessesComplete := by
  intro s a ha hrefresh
  obtain ⟨w, result⟩ := a
  by_cases hw : w.isRowWork = true
  · obtain ⟨hfree, hports, hused, hunused⟩ := State.accessEnd_store (s := s) (result := result) hw
    have hend := State.granted_pollAll (s := s) hfree hports s.plates
    refine ⟨_, State.exec_rowWork ha hw, fun h r hr => ?_, fun h hr => ?_, fun r h _ => ?_, fun h => ?_, fun h hmid => ?_,
      hend.arbitrated, hend.grants, hend.ports⟩
    · refine State.rowWritten_congr (State.rowWritten_writeRow s r) ?_
      rw [hend.mem, hused h, hr]
    · rw [hend.mem, hused h, hr]
      rfl
    · refine State.rowWritten_congr (State.rowWritten_writeRow s r) ?_
      rw [hend.mem, hunused _ h]
      rfl
    · rcases h with h | h
      · rw [hend.mem, hunused _ h]
        rfl
      · cases w with
        | deliver => cases hw
        | _ => cases h
    · cases result with
      | used => exact absurd rfl h
      | unused row =>
        rw [hunused row rfl]
        have hmid' : (s.accessDone.writeRow row).midTry := by simpa [State.midTry] using hmid
        rw [hmid'.pollAll]
        simp [State.announce, State.finish]
  · obtain ⟨k, y, rfl⟩ : ∃ k y, w = .deliver k y := by
      cases w with
      | refresh => exact absurd rfl hrefresh
      | deliver k y => exact ⟨k, y, rfl⟩
      | _ => exact absurd rfl hw
    obtain ⟨hfsc, hmge, hcal, hcsq, hports⟩ := s.readDone_frame k y result
    have hmem : (s.readDone k y result).serveLink.takeDiscards.arbitrate.fsc.mem = s.fsc.mem := by
      simp [hfsc]
    refine ⟨_, State.exec_read ha, fun _ r hr => (by cases hr), fun _ _ => hmem, fun r _ h => absurd rfl h, fun _ => hmem,
      fun _ _ => ⟨?_, ?_, ?_⟩, State.arbitrated_arbitrate _, fun b hb => State.grants_arbitrate ?_ b hb,
      State.portsNoticed_of_ports ?_⟩
    · simp [hmge]
    · simp [hcal]
    · simp [hcsq]
    · simp only [State.takeDiscards_frame, State.serveLink_frame, hfsc]
      rfl
    · simp [hports]

/-! ## Refreshes and reads -/

theorem State.arbitrate_only (s : State) : s.arbitrate = { s with fsc := s.arbitrate.fsc, plr := s.arbitrate.plr } := by
  unfold State.arbitrate State.grant
  dsimp only
  repeat' split
  all_goals rfl

/-- A refresh owed takes a free store at once. -/
theorem State.arbitrate_refresh (hf : s.fsc.access = none) (hr : s.fsc.state = .ready) (ho : 0 < s.fsc.refreshOwed) :
    s.arbitrate.fsc.access = some { work := .refresh, result := .used } := by
  have hprogress : s.inProgress .refresh = false := by simp [State.inProgress, hf]
  have hworks : ∃ rest, s.works = .refresh :: rest := by
    unfold State.works
    rw [hprogress, if_neg Bool.false_ne_true, if_pos ho]
    exact ⟨_, rfl⟩
  obtain ⟨rest, hworks⟩ := hworks
  unfold State.arbitrate State.grant
  rw [hf, hworks]
  dsimp only
  rw [if_pos hr]
  rfl

/-- Settles O7: the refreshes and the reads, from their first word to the grant that follows them. -/
theorem refreshesAndReadsComplete : Obligations.RefreshesAndReadsComplete := by
  refine ⟨fun s => ⟨fun hready => ?_, fun result ha => ?_⟩, fun s k y x ha hx => ?_⟩
  · refine ⟨(s.onFsc fun f => { f with refreshOwed := min 2 (f.refreshOwed + 1) }).arbitrate, ?_, by simp [State.onFsc],
      fun hfree => State.arbitrate_refresh hfree hready ?_, fun hbusy => ?_, by simp [State.onFsc],
      State.arbitrated_arbitrate _, State.arbitrate_only _⟩
    · change execRefreshDue s = _
      rw [execRefreshDue, hready]
    · change 0 < min 2 (s.fsc.refreshOwed + 1)
      omega
    · obtain ⟨a, ha⟩ := Option.ne_none_iff_exists'.mp hbusy
      rw [ha]
      exact State.arbitrate_access ha
  · refine ⟨(s.accessDone.onFsc fun f => { f with refreshOwed := f.refreshOwed - 1 }).arbitrate, ?_, by simp [State.onFsc],
      fun howed hready => State.arbitrate_refresh rfl hready ?_, by simp [State.onFsc], State.arbitrated_arbitrate _,
      fun b hb => State.grants_arbitrate rfl b hb, State.arbitrate_only _⟩
    · change execRefreshComplete s = _
      rw [execRefreshComplete, ha]
      rfl
    · change 0 < s.fsc.refreshOwed - 1
      omega
  · obtain ⟨hfsc, -⟩ := s.readDone_frame k y .used
    have hstream : (s.readDone k y .used).serveLink.dlt.stream
        = some { x with buffer := .full ((s.densityRow k y).map fun q => BitVec.ofNat 16 q) } := by
      change Option.map _ (s.readDone k y .used).dlt.sendNext.stream = _
      have hsend (d : Dlt) : d.sendNext.stream = d.stream := by
        unfold Dlt.sendNext
        repeat' split
        all_goals rfl
      have hfull : (s.readDone k y .used).dlt.stream
          = some { x with buffer := .full ((s.densityRow k y).map fun q => BitVec.ofNat 16 q) } := by
        change Option.map _ s.dlt.stream = _
        rw [hx]
        rfl
      rw [hsend, hfull, Option.map_some, Stream.askRow, if_neg]
      exact fun h => nomatch h.2.1
    have honly : (s.readDone k y .used).serveLink.takeDiscards
        = { s with
            dlt := (s.readDone k y .used).serveLink.takeDiscards.dlt
            fsc := (s.readDone k y .used).serveLink.takeDiscards.fsc
            plr := (s.readDone k y .used).serveLink.takeDiscards.plr } := by
      unfold State.takeDiscards
      split <;> rfl
    refine ⟨_, State.exec_read ha, ?_, by simp [hfsc], by simp [hfsc], ?_⟩
    · simpa using hstream
    · have hgrant := State.arbitrate_only (s.readDone k y .used).serveLink.takeDiscards
      generalize (s.readDone k y .used).serveLink.takeDiscards.arbitrate = t at hgrant ⊢
      generalize (s.readDone k y .used).serveLink.takeDiscards = u at honly hgrant
      rw [hgrant, honly]

end Sys2Proof.Machine
end

section
/-! PROOFS. The rows written by used accesses: merged, cleared, of the calibration's planes, and of density codes (R67 to
R71, R75, R78, R91, R92, R95, R96). -/

namespace Sys2Proof.Machine
-- One proof at a time: under the memory limit of the check there is no room for the stacks of many threads.
set_option Elab.async false

variable {s : State} {w : StoreWork}

/-- The state that a used access of a row leaves. -/
def State.rowEnded (s : State) (w : StoreWork) : State := ((w.effect s.accessDone).pollAll).announce s.plates

theorem State.exec_rowUsed (ha : s.fsc.access = some { work := w, result := .used }) (hw : w.isRowWork = true) :
    exec w.command s = .next (s.rowEnded w) := by
  rw [State.exec_rowWork ha hw, State.accessEnd_used]
  rfl

theorem State.rowEnded_written (hw : w.isRowWork = true) {r : StoreRow} (hr : s.storedRow? w = some r) :
    s.rowWritten (s.rowEnded w) r := by
  obtain ⟨hfree, hmem, hports⟩ := StoreWork.effect_store (s := s.accessDone) rfl hw
  have hrow : s.accessDone.storedRow? w = some r := hr
  refine State.rowWritten_congr (State.rowWritten_writeRow s r) ?_
  have hend := (State.granted_pollAll (s := s) hfree hports s.plates).mem
  rw [State.rowEnded, hend, hmem, hrow]
  rfl

theorem StoreWork.effect_tables (s : State) (w : StoreWork) :
    (w.effect s).profiles = s.profiles ∧ (w.effect s).geometry = s.geometry ∧ (w.effect s).settings = s.settings
      ∧ (w.effect s).tbu.clock = s.tbu.clock ∧ (w.effect s).plr.faultCount = s.plr.faultCount
      ∧ (w.effect s).plr.link = s.plr.link ∧ (w.effect s).ports = s.ports := by
  cases w <;> simp [StoreWork.effect]

theorem State.rowEnded_tables (s : State) (w : StoreWork) :
    (s.rowEnded w).profiles = s.profiles ∧ (s.rowEnded w).geometry = s.geometry ∧ (s.rowEnded w).settings = s.settings
      ∧ (s.rowEnded w).tbu.clock = s.tbu.clock ∧ (s.rowEnded w).plr.faultCount = s.plr.faultCount
      ∧ (s.rowEnded w).plr.link = s.plr.link ∧ s.portsNoticed (s.rowEnded w) := by
  obtain ⟨h1, h2, h3, h4, h5, h6, h7⟩ := StoreWork.effect_tables s.accessDone w
  refine ⟨?_, ?_, ?_, ?_, ?_, ?_, State.portsNoticed_announce (by simp [h7]) _⟩
  all_goals simp [State.rowEnded, State.announce, State.finish, h1, h2, h3, h4, h5, h6]

/-- In the middle of a try what follows the row leaves the records and the sequencer. -/
theorem State.rowEnded_midTry (h : (w.effect s.accessDone).midTry) :
    (s.rowEnded w).mge = (w.effect s.accessDone).mge ∧ (s.rowEnded w).csq = (w.effect s.accessDone).csq := by
  unfold State.rowEnded
  rw [h.pollAll]
  simp [State.announce, State.finish]

/-! ## A merged row -/

theorem recount_recounted (w : WorkRecord) (before after : List Accum) :
    (w.recounted before after).list = w.list := rfl

/-- Settles O8: the merged row, and in the middle of a try its counters. -/
theorem rowMergeWritesItsRow : Obligations.RowMergeWritesItsRow := by
  intro s k o y codes ha
  obtain ⟨h1, h2, h3, h4, h5, h6, h7⟩ := s.rowEnded_tables (.merge k o y codes)
  refine ⟨_, State.exec_rowUsed ha rfl, State.rowEnded_written rfl (State.storedRow?_merge ..), fun hmid => ?_,
    h1, h2, h3, h4, h5, h6, h7⟩
  have hmid' : (s.accessDone.mergeDone k o y codes).midTry := by simpa [State.midTry] using hmid
  have hwork : (s.rowEnded (.merge k o y codes)).work k
      = (s.work k).recounted (s.accumRow k y) (s.mergedRow k o y codes) := by
    rw [State.work, (State.rowEnded_midTry (s := s) (w := .merge k o y codes) hmid').1]
    exact setAt_get_self _ _ _
  rw [hwork]
  exact ⟨rfl, rfl, rfl, rfl, rfl⟩

/-! ## A cleared row -/

theorem State.clearRowDone_work (s : State) (k : SlotNo) (y : Nat) :
    (s.clearRowDone k y).work k = { s.work k with
      rowsCleared := y + 1
      state := if s.geometry.height ≤ y + 1 then .accumulating else (s.work k).state } := by
  unfold State.clearRowDone
  dsimp only
  split
  · repeat' split
    all_goals simp [State.work]
  · simp [State.work]

theorem State.clearRowDone_ctx {c : TryContext} (hc : s.csq.ctx = some c) {k : SlotNo} {y : Nat} (hk : c.slot = k)
    (hlast : s.geometry.height ≤ y + 1) : (s.clearRowDone k y).csq.ctx = some { c with clearComplete := true } := by
  unfold State.clearRowDone
  rw [if_pos hlast, hc]
  dsimp only
  rw [if_pos hk]
  simp [State.onCtx, State.onCsq, hc]

/-- A cleared row reports no frame. -/
theorem State.clearRowDone_midTry (h : s.midTry) (k : SlotNo) (y : Nat) : (s.clearRowDone k y).midTry := by
  have hreported : (s.clearRowDone k y).csq.frameReported = s.csq.frameReported := by
    unfold State.clearRowDone
    repeat' split
    all_goals simp [State.onCtx, State.onCsq]
  simpa [State.midTry, hreported] using h

/-- Settles O9: the cleared row, and in the middle of a try the end of the clear with its last row. -/
theorem clearRowWritesItsRow : Obligations.ClearRowWritesItsRow := by
  intro s k y ha
  obtain ⟨h1, h2, h3, h4, h5, h6, h7⟩ := s.rowEnded_tables (.clear k y)
  obtain ⟨hrow, hkept⟩ := State.rowEnded_written (s := s) (w := .clear k y) rfl (State.storedRow?_clear ..)
  rw [State.clearedStoreRow_length] at hrow hkept
  refine ⟨_, State.exec_rowUsed ha rfl, hrow, hkept, fun hmid => ?_, h1, h2, h3, h4, h5, h6, h7⟩
  have hmid' : (s.accessDone.clearRowDone k y).midTry :=
    State.clearRowDone_midTry (s := s.accessDone) hmid k y
  obtain ⟨hmge, hcsq⟩ := State.rowEnded_midTry (s := s) (w := .clear k y) hmid'
  have hwork : (s.rowEnded (.clear k y)).work k = (s.accessDone.clearRowDone k y).work k := by
    rw [State.work, hmge]
    rfl
  rw [hwork, State.clearRowDone_work]
  refine ⟨rfl, rfl, fun c hc hk hlast => ?_⟩
  rw [hcsq]
  exact State.clearRowDone_ctx (s := s.accessDone) hc hk hlast

/-! ## A row of a calibration plane -/

theorem addedStoreRow_eq (kind : CalKind) (frame y : Nat) (codes : List CameraCode) :
    let sums := if frame = 0 then codes.map (fun c => c.toNat)
      else List.zipWith (fun a c => a + c.toNat) (s.planeRow .sum y) codes
    let p : Plane := if kind = .dark ∧ frame = 3 then .dark else .sum
    let row := if kind = .dark ∧ frame = 3 then sums.map (fun a => (a + 2) / 4) else sums
    s.addedStoreRow kind frame y codes = { addr := planeAddr p s.geometry y, bytes := wordBytes row } := by
  unfold State.addedStoreRow
  dsimp only
  split <;> rfl

/-- The flat gain, its condition said over the integers (R96). -/
theorem flatGain_eq (openLevel o d : Nat) : flatGain openLevel o d = if (o - d : Int) * 4 < openLevel ∨ 4032 ≤ o then 0
    else min 65535 ((2 * (16384 * openLevel) + (o - d)) / (2 * (o - d))) := by
  have hcond : (o * 4 < openLevel + d * 4 ∨ Config.calSaturation ≤ o) ↔ ((o - d : Int) * 4 < openLevel ∨ 4032 ≤ o) := by
    change (_ ∨ 4032 ≤ o) ↔ _
    omega
  unfold flatGain
  exact if_congr hcond rfl rfl

theorem gainStoreRow_eq (op : CalOp) (y : Nat) :
    let open_ := op.openLevel.getD 0
    let gain (o d : Nat) : Nat :=
      if (o - d : Int) * 4 < open_ ∨ 4032 ≤ o then 0
      else min 65535 ((2 * (16384 * open_) + (o - d)) / (2 * (o - d)))
    let row := List.zipWith (fun a d => gain ((a + 2) / 4) d) (s.planeRow .sum y) (s.planeRow .dark y)
    s.gainStoreRow op y = { addr := planeAddr .gain s.geometry y, bytes := wordBytes row } := by
  dsimp only
  unfold State.gainStoreRow State.gains State.flatRow
  rw [List.map_zipWith]
  congr 3
  funext a d
  exact flatGain_eq _ _ _

/-- Settles O10: the row of a plane that each row of a calibration writes. -/
theorem calibrationRowWritesItsPlane : Obligations.CalibrationRowWritesItsPlane := by
  intro s op w y hop ha
  refine ⟨fun frame codes hw => ?_, fun hw => ?_, fun hw => ?_⟩
  · subst hw
    obtain ⟨h1, h2, h3, -⟩ := s.rowEnded_tables (.calibAdd frame y codes)
    have hrow : s.storedRow? (.calibAdd frame y codes) = some (s.addedStoreRow op.kind frame y codes) := by
      simp [State.storedRow?, hop]
    rw [addedStoreRow_eq] at hrow
    obtain ⟨hw, hk⟩ := State.rowEnded_written rfl hrow
    rw [wordBytes_length] at hw hk
    exact ⟨_, State.exec_rowUsed ha rfl, hw, hk, h3, h1, h2⟩
  · subst hw
    obtain ⟨h1, h2, h3, -⟩ := s.rowEnded_tables (.gainRow y)
    have hrow : s.storedRow? (.gainRow y) = some (s.gainStoreRow op y) := by simp [State.storedRow?, hop]
    rw [gainStoreRow_eq] at hrow
    obtain ⟨hw, hk⟩ := State.rowEnded_written rfl hrow
    rw [wordBytes_length] at hw hk
    exact ⟨_, State.exec_rowUsed ha rfl, hw, hk, h3, h1, h2⟩
  · subst hw
    obtain ⟨h1, h2, h3, -⟩ := s.rowEnded_tables (.openRow y)
    obtain ⟨hfree, hmem, hports⟩ := StoreWork.effect_store (s := s.accessDone) (w := .openRow y) rfl rfl
    refine ⟨_, State.exec_rowUsed ha rfl, ?_, h3, h1, h2⟩
    rw [State.rowEnded, (State.granted_pollAll (s := s) hfree hports s.plates).mem, hmem]
    rfl

/-! ## A row of density codes -/

section

variable (ref : References) (list : List Exposure) (qceil : Nat)

/-- The totals of a row of a pass. -/
theorem passTotals_foldl (l : List (Nat × Accum)) (t : PassTotals) :
    l.foldl (fun t p => t.add ref list qceil p.1 p.2) t =
      { codes := (l.map fun p => pixelCode ref list qceil p.1 p.2).reverse ++ t.codes
        histogram := (l.foldl (fun t p => t.add ref list qceil p.1 p.2) t).histogram
        clipLight := t.clipLight + l.countP fun p => pixelCase list p.1 p.2 == .clipLight
        clipDark := t.clipDark + l.countP fun p => pixelCase list p.1 p.2 == .clipDark
        dead := t.dead + l.countP fun p => pixelCase list p.1 p.2 == .dead } := by
  induction l generalizing t with
  | nil => rfl
  | cons p l ih =>
    rw [List.foldl_cons, ih]
    cases hc : pixelCase list p.1 p.2 <;> simp [PassTotals.add, hc] <;> omega

/-- The code of a pixel, its cases said of the accumulation (R78). -/
theorem pixelCode_eq (g : Nat) (a : Accum) : pixelCode ref list qceil g a =
    if g = 0 then 65535
    else if a.hasBest = false ∧ a.seenSaturated = true then 0
    else if a.hasBest = false ∨ monitorOf list a.ordinal = 0 then qceil
    else densityCode (densityNum ref.openLevel (timeOf list a.ordinal) (monitorOf list a.ordinal))
      (densityDen a.best ref.tRef ref.mRef) qceil := by
  by_cases hg : g = 0
  · rw [if_pos hg, pixelCode_of_dead (pixelCase_of_dead hg)]
  rw [if_neg hg]
  cases hb : a.hasBest with
  | false =>
    cases hs : a.seenSaturated with
    | true => rw [pixelCode_of_light (pixelCase_of_light hg hb hs), if_pos ⟨rfl, rfl⟩]
    | false => rw [pixelCode_of_dark (pixelCase_of_dark hg hb hs), if_neg nofun, if_pos (.inl rfl)]
  | true =>
    rw [if_neg nofun]
    by_cases hm : monitorOf list a.ordinal = 0
    · rw [pixelCode_of_dark (pixelCase_of_unmonitored hg hb hm), if_pos (.inr hm)]
    · rw [pixelCode_of_measured (pixelCase_of_measured hg hb hm), if_neg]
      rintro (h | h)
      · cases h
      · exact hm h

end

/-- The codes of a row of a pass, pixel by pixel. -/
theorem State.passTotals_codes (s : State) (k : SlotNo) (y : Nat) : (s.passTotals k y).codes.reverse =
    List.zipWith (fun g a => pixelCode s.references (s.work k).list ((s.work k).qceil.getD 0) g a)
      (s.planeRow .gain y) (s.accumRow k y) := by
  unfold State.passTotals passRow
  rw [passTotals_foldl]
  simp only [List.append_nil, List.reverse_reverse, List.map_zip_eq_zipWith]
  rfl

/-- A row before the last is counted, and nothing else happens. -/
theorem State.finalRowDone_middle (k : SlotNo) {y : Nat} (hlast : y + 1 < s.geometry.height) :
    ∃ f : WorkRecord → WorkRecord, (∀ w, (f w).rowsFinalized = y + 1)
      ∧ s.finalRowDone k y = (s.writeRow (some (s.densityStoreRow k y))).onWork k f := by
  unfold State.finalRowDone
  dsimp only
  rw [if_neg (Nat.not_le.mpr hlast)]
  exact ⟨_, fun w => rfl, rfl⟩

/-- Settles O13: the density codes of the finalized row. -/
theorem finalizationRowWritesItsCodes : Obligations.FinalizationRowWritesItsCodes := by
  intro s k y ha w entry time mean code codes
  obtain ⟨h1, h2, h3, h4, h5, h6, h7⟩ := s.rowEnded_tables (.finalize k y)
  obtain ⟨hrow, hkept⟩ := State.rowEnded_written (s := s) (w := .finalize k y) rfl (State.storedRow?_finalize ..)
  have hcodes : (s.densityStoreRow k y).bytes = wordBytes codes := by
    unfold State.densityStoreRow
    rw [State.passTotals_codes]
    dsimp only
    congr 2
    funext g a
    exact pixelCode_eq _ _ _ g a
  rw [hcodes, wordBytes_length] at hrow hkept
  refine ⟨_, State.exec_rowUsed ha rfl, hrow, hkept, fun hmid hlast => ?_, h1, h2, h3, h4, h5, h6, h7⟩
  obtain ⟨f, hf, hdone⟩ := State.finalRowDone_middle (s := s.accessDone) k hlast
  have hmid' : (s.accessDone.finalRowDone k y).midTry := by
    rw [hdone]
    simpa [State.midTry] using hmid
  have hwork : (s.rowEnded (.finalize k y)).work k = (s.accessDone.finalRowDone k y).work k := by
    rw [State.work, (State.rowEnded_midTry (s := s) (w := .finalize k y) hmid').1]
    rfl
  rw [hwork, hdone, State.onWork_work, if_pos rfl, hf]

end Sys2Proof.Machine
end

section
/-! PROOFS. The end of a finalization pass: the record, its summary and histogram, the cell and its plate (R9, R74, R77,
R82, R83). -/

namespace Sys2Proof.Machine
-- One proof at a time: under the memory limit of the check there is no room for the stacks of many threads.
set_option Elab.async false

/-! ## The totals of a pass -/

section

variable (ref : References) (list : List Exposure) (qceil : Nat)

/-- The histogram of a pass counts in each bin the pixels whose codes fall in it (R83). -/
theorem passHistogram_getD (l : List (Nat × Accum)) (t : PassTotals) {b : Nat} (hb : b < t.histogram.length) :
    (l.foldl (fun t p => t.add ref list qceil p.1 p.2) t).histogram.getD b 0 = t.histogram.getD b 0
      + l.countP fun p => pixelCase list p.1 p.2 != .dead && histogramBin (pixelCode ref list qceil p.1 p.2) == b := by
  induction l generalizing t with
  | nil => rfl
  | cons p l ih =>
    have hadd : (t.add ref list qceil p.1 p.2).histogram
        = addToHistogram t.histogram (pixelCase list p.1 p.2) (pixelCode ref list qceil p.1 p.2) := rfl
    rw [List.foldl_cons, ih (t.add ref list qceil p.1 p.2) (by rw [hadd]; unfold addToHistogram; split <;> simpa using hb),
      hadd, List.countP_cons]
    unfold addToHistogram
    by_cases hc : pixelCase list p.1 p.2 = .dead
    · simp [hc]
    · by_cases hq : histogramBin (pixelCode ref list qceil p.1 p.2) = b
      · subst hq
        simp [hc, List.getD_eq_getElem?_getD, hb]
        omega
      · simp [hc, hq, List.getD_eq_getElem?_getD]

end

theorem passSummary_eq (w : WorkRecord) :
    let counts (o : ExposureOutcome) : Bool := o == .merged || o == .patched
    w.passSummary = { clipLight := w.passClipLight, clipDark := w.passClipDark, dead := w.passDead
                      tornRows := ((w.list.filter fun e => e.outcome == .patched).map fun e => e.torn.getD 0).sum
                      exposuresMerged := w.list.countP fun e => counts e.outcome
                      extensionUsed := w.list.any fun e => counts e.outcome && e.rung == .ext } := by
  dsimp only
  unfold WorkRecord.passSummary mergedEntries
  dsimp only
  congr 1
  · induction w.list with
    | nil => rfl
    | cons e l ih =>
      cases ho : e.outcome <;> simp_all
  · exact (List.countP_eq_length_filter ..).symm
  · exact List.any_filter

/-! ## The end of a pass -/

variable {x : State} {k : SlotNo} {c : CellRef}

/-- The record CODED, its pass out of the queue, and the next begun. -/
def State.passClosed (x : State) (k : SlotNo) : State :=
  ((x.onWork k fun w => w.coded x.tbu.clock).onMge fun m => { m with queue := m.queue.filter fun j => j != k }).startPass

theorem State.passComplete_eq (hc : (x.work k).owner = some c) :
    x.passComplete k = ((x.passClosed k).changeCell c (fun y => { y with
        state := .merged, triesUsed := y.triesUsed + 1, summary := some (x.work k).passSummary
        lastOutcome := .finalized }) id).onDlt fun d => { d with queue := d.queue ++ [c] } := by
  unfold State.passComplete
  dsimp only
  rw [hc]
  rfl

theorem State.passClosed_queue (x : State) (k : SlotNo) :
    (x.passClosed k).mge.queue = x.mge.queue.filter fun j => j != k := by
  simp [State.passClosed, State.onMge]

theorem State.passClosed_work_self (x : State) (k : SlotNo) :
    (x.passClosed k).work k = (x.work k).coded x.tbu.clock := by
  unfold State.passClosed
  rw [State.startPass_work_of_not_head]
  · change (x.onWork k fun w => w.coded x.tbu.clock).work k = _
    rw [State.onWork_work, if_pos rfl]
  · intro h
    have hmem := List.mem_of_mem_head? h
    simp [State.onMge] at hmem

theorem State.passClosed_next {j : SlotNo} {rest : List SlotNo} (hq : x.mge.queue = k :: j :: rest) (hj : j ≠ k)
    (hs : (x.work j).state = .queued) : ((x.passClosed k).work j).state = .running := by
  have hhead : ((x.onWork k fun w => w.coded x.tbu.clock).onMge
      fun m => { m with queue := m.queue.filter fun j => j != k }).mge.queue = j :: rest.filter fun j => j != k := by
    simp [State.onMge, hq, hj]
  have hwork : ((x.onWork k fun w => w.coded x.tbu.clock).onMge
      fun m => { m with queue := m.queue.filter fun j => j != k }).work j = x.work j := by
    change (x.onWork k fun w => w.coded x.tbu.clock).work j = _
    rw [State.onWork_work, if_neg hj]
  unfold State.passClosed State.startPass
  rw [hhead]
  dsimp only
  rw [hwork, if_pos hs, State.onWork_work, if_pos rfl]

/-- The blocks that the end of a pass leaves alone. -/
theorem State.passClosed_frame (x : State) (k : SlotNo) :
    (x.passClosed k).plates = x.plates ∧ (x.passClosed k).csq = x.csq ∧ (x.passClosed k).cal = x.cal
      ∧ (x.passClosed k).dlt = x.dlt ∧ (x.passClosed k).tbu = x.tbu := by
  simp [State.passClosed]

/-- The record of the last row, its totals taken in. -/
def State.lastRow (s : State) (k : SlotNo) (y : Nat) : State :=
  (s.writeRow (some (s.densityStoreRow k y))).onWork k fun w =>
    { w with rowsFinalized := y + 1, histogram := (s.passTotals k y).histogram, passClipLight := (s.passTotals k y).clipLight,
             passClipDark := (s.passTotals k y).clipDark, passDead := (s.passTotals k y).dead }

theorem State.finalRowDone_last {s : State} {y : Nat} (hlast : s.geometry.height ≤ y + 1) (k : SlotNo) :
    s.finalRowDone k y = (s.lastRow k y).passComplete k := if_pos hlast

theorem State.lastRow_work_self (s : State) (k : SlotNo) (y : Nat) : (s.lastRow k y).work k = { s.work k with
    rowsFinalized := y + 1
    histogram := (s.passTotals k y).histogram
    passClipLight := (s.passTotals k y).clipLight
    passClipDark := (s.passTotals k y).clipDark
    passDead := (s.passTotals k y).dead } := by
  unfold State.lastRow
  rw [State.onWork_work, if_pos rfl]
  simp [State.work]

theorem State.lastRow_work_ne {s : State} {j : SlotNo} (hj : j ≠ k) (y : Nat) : (s.lastRow k y).work j = s.work j := by
  unfold State.lastRow
  rw [State.onWork_work, if_neg hj]
  simp [State.work]

/-- The summary of the pass that its last row ends (R82). -/
theorem State.lastRow_summary (s : State) (k : SlotNo) (y : Nat) :
    let w := s.work k
    let pixels := (s.planeRow .gain y).zip (s.accumRow k y)
    let cases (x : PixelCase) : Nat := pixels.countP fun q => pixelCase w.list q.1 q.2 == x
    let counts (o : ExposureOutcome) : Bool := o == .merged || o == .patched
    ((s.lastRow k y).work k).passSummary =
      { clipLight := w.passClipLight + cases .clipLight, clipDark := w.passClipDark + cases .clipDark
        dead := w.passDead + cases .dead
        tornRows := ((w.list.filter fun e => e.outcome == .patched).map fun e => e.torn.getD 0).sum
        exposuresMerged := w.list.countP fun e => counts e.outcome
        extensionUsed := w.list.any fun e => counts e.outcome && e.rung == .ext } := by
  intro w pixels cases counts
  have htotals : s.passTotals k y = _ := passTotals_foldl s.references w.list (w.qceil.getD 0) pixels _
  have hlight := congrArg PassTotals.clipLight htotals
  have hdark := congrArg PassTotals.clipDark htotals
  have hdead := congrArg PassTotals.dead htotals
  rw [passSummary_eq, State.lastRow_work_self]
  dsimp only at hlight hdark hdead ⊢
  rw [hlight, hdark, hdead]

/-- The plate whose last cell to capture is MERGED is CAPTURED, its cell being still to release (R9). -/
theorem PlateRecord.captured_of_merged {r : PlateRecord} {a b : Nat} {f : CellRecord → CellRecord} {x : CellRecord}
    (hf : ∀ z, (f z).state = .merged) (hx : r.cell? a b = some x)
    (hst : r.state = .active ∨ r.state = .enrolled)
    (h : ∀ z ∈ r.cells, (z.column, z.row) ≠ (a, b) → z.state ≠ .pending ∧ z.state ≠ .exposing ∧ z.state ≠ .finalizing)
    (now : Seconds) : ((r.onCell a b f).settled now).state = .captured := by
  refine PlateRecord.settled_of_over (.inr hst) ?_ ?_
  · refine PlateRecord.captureOver_iff.mpr (PlateRecord.forall_onCell
      (p := fun y => y ≠ .pending ∧ y ≠ .exposing ∧ y ≠ .finalizing) (fun z _ _ => ?_) h)
    rw [hf]
    exact ⟨nofun, nofun, nofun⟩
  · rw [← Bool.not_eq_true, PlateRecord.complete_iff]
    intro hall
    have hmem : f x ∈ (r.onCell a b f).cells :=
      PlateRecord.mem_onCell.mpr ⟨x, List.mem_of_find?_eq_some hx, if_pos (PlateRecord.place_of_cell? hx)⟩
    rcases hall _ hmem with h | h <;> rw [hf] at h <;> cases h

/-- In the middle of a try, under FETCH, what follows the last row leaves its cells, its records and the queue. -/
theorem State.rowEnded_fetch {s : State} {w : StoreWork} (h : (w.effect s.accessDone).midTry)
    (hm : (w.effect s.accessDone).dlt.mode = .fetch) :
    (s.rowEnded w).mge = (w.effect s.accessDone).mge ∧ (s.rowEnded w).plates = (w.effect s.accessDone).plates
      ∧ (s.rowEnded w).dlt.queue = (w.effect s.accessDone).dlt.queue := by
  unfold State.rowEnded
  rw [h.pollAll]
  generalize w.effect s.accessDone = x at h hm
  have hauto : x.takeDiscards.autoStream = x.takeDiscards := by
    unfold State.autoStream
    split
    · rename_i hmode _ _
      have hmode : x.dlt.mode = .auto := by simpa using hmode
      rw [hm] at hmode
      cases hmode
    · rfl
  have hqueue : x.takeDiscards.serveLink.dlt.queue = x.dlt.queue := by
    change x.takeDiscards.dlt.sendNext.queue = _
    unfold Dlt.sendNext
    repeat' split
    all_goals simp
  refine ⟨by simp [State.announce, State.finish], ?_, ?_⟩
  · simp [State.announce, State.finish, State.pollDelivery, hauto]
  · simpa [State.announce, State.finish, State.pollDelivery, hauto] using hqueue

/-- What the last row leaves alone. -/
theorem State.lastRow_frame (s : State) (k : SlotNo) (y : Nat) :
    (s.lastRow k y).plates = s.plates ∧ (s.lastRow k y).csq = s.csq ∧ (s.lastRow k y).cal = s.cal
      ∧ (s.lastRow k y).dlt = s.dlt ∧ (s.lastRow k y).tbu = s.tbu ∧ (s.lastRow k y).mge.queue = s.mge.queue := by
  simp [State.lastRow]

/-- The cell of a pass that ends. -/
def CellRecord.finalized (m : Summary) (x : CellRecord) : CellRecord :=
  { x with state := .merged, triesUsed := x.triesUsed + 1, summary := some m, lastOutcome := .finalized }

/-- Settles O14: the last row of a pass, in the middle of a try of another cell and under FETCH. -/
theorem finalizationEnds : Obligations.FinalizationEnds := by
  intro s k y c r x ha hlast hc hlaw hr hx hmid hmode w pixels caseOf codeOf cases counts m
  obtain ⟨h1, h2, h3, h4, -, -, h7⟩ := s.rowEnded_tables (.finalize k y)
  obtain ⟨hplates, hcsq, hcal, hdlt, htbu, hqueue⟩ := s.accessDone.lastRow_frame k y
  obtain ⟨hcplates, hccsq, hccal, hcdlt, hctbu⟩ := (s.accessDone.lastRow k y).passClosed_frame k
  have hself := s.accessDone.lastRow_work_self k y
  have hsummary : ((s.accessDone.lastRow k y).work k).passSummary = m := s.accessDone.lastRow_summary k y
  have hother (j : SlotNo) (hj : j ≠ k) : (s.accessDone.lastRow k y).work j = s.work j :=
    State.lastRow_work_ne (s := s.accessDone) hj y
  have heffect : StoreWork.effect (.finalize k y) s.accessDone
      = (((s.accessDone.lastRow k y).passClosed k).changeCell c (CellRecord.finalized m) id).onDlt
          fun d => { d with queue := d.queue ++ [c] } := by
    rw [← hsummary]
    refine (State.finalRowDone_last (s := s.accessDone) hlast k).trans (State.passComplete_eq ?_)
    rw [hself]
    exact hc
  generalize s.accessDone.lastRow k y = l at *
  have hmid' : (StoreWork.effect (.finalize k y) s.accessDone).midTry := by
    rw [heffect]
    simpa [State.midTry, hccsq, hcsq, hccal, hcal] using hmid
  obtain ⟨hmge, hplates', hdlt'⟩ := State.rowEnded_fetch (s := s) (w := .finalize k y) hmid' (by
    rw [heffect]
    simpa [State.onDlt, hcdlt, hdlt] using hmode)
  rw [heffect] at hmge hplates' hdlt'
  have hwork (j : SlotNo) : (s.rowEnded (.finalize k y)).work j = (l.passClosed k).work j := by
    rw [State.work, hmge]
    simp [State.work]
  have hplate : (s.rowEnded (.finalize k y)).plate? c.key
      = some ((r.onCell c.column c.row (CellRecord.finalized m)).settled s.tbu.clock) := by
    have hr' : (l.passClosed k).plate? c.key = some r := by
      rw [State.plate?, hcplates, hplates]
      exact hr
    rw [State.plate?, hplates']
    change ((l.passClosed k).changeCell c (CellRecord.finalized m) id).plate? c.key = _
    rw [State.plate?_changeCell PlateRecord.sameCells_id, hr', Option.map_some, if_pos rfl, hctbu, htbu]
    rfl
  have hclosed := l.passClosed_work_self k
  rw [hself] at hclosed
  refine ⟨_, State.exec_rowUsed ha rfl, ?_, ?_, fun hlen b hb => ?_, ?_, ?_, ?_, ?_, ?_, ?_, ?_, ?_, ?_,
    fun j rest hq hj hs => ?_, fun hst hall => ?_, h1, h2, h3, h4, h7⟩
  case refine_3 =>
    rw [hwork, hclosed]
    exact passHistogram_getD _ _ _ pixels _ (hb.trans_eq hlen.symm)
  case refine_2 =>
    rw [hwork, l.passClosed_work_self, ← hsummary]
    rfl
  case refine_4 =>
    rw [hwork, hclosed, htbu]
    rfl
  case refine_10 =>
    rw [State.cell?_of_plate hplate, PlateRecord.cell?_settled, PlateRecord.cell?_onCell (f := CellRecord.finalized m) fun _ => ⟨rfl, rfl⟩, hx]
    exact congrArg some (if_pos ⟨rfl, rfl⟩)
  case refine_11 =>
    rw [hdlt']
    simp [State.onDlt, hcdlt, hdlt]
  case refine_12 =>
    rw [hmge]
    simp [l.passClosed_queue, hqueue]
  case refine_13 =>
    rw [hwork]
    exact State.passClosed_next (by rw [hqueue]; exact hq) hj (by rw [hother j hj]; exact hs)
  case refine_14 =>
    rw [hplate, Option.map_some, PlateRecord.captured_of_merged (fun _ => rfl) hx hst hall]
  all_goals
    rw [hwork, hclosed]
    rfl

end Sys2Proof.Machine
end

section
/-! PROOFS. The ends of a calibration: of a frame's attempt, of the open pass and of the gain pass (R91 to R97, R103). -/

namespace Sys2Proof.Machine
-- One proof at a time: under the memory limit of the check there is no room for the stacks of many threads.
set_option Elab.async false

variable {s : State}

/-! ## What the sequencer leaves of the receiver -/

/-- A receiver changed in its queue alone. -/
abbrev Plr.Requeued (p q : Plr) : Prop := q = { p with queue := q.queue }

theorem Plr.Requeued.refl (p : Plr) : p.Requeued p := rfl

theorem State.requeued_returnSlot (s : State) (k : SlotNo) : s.plr.Requeued (s.returnSlot k).plr := by
  rw [State.returnSlot_plr]

theorem State.requeued_endTry (s : State) (c : TryContext) (o : LastOutcome) : s.plr.Requeued (s.endTry c o).plr := by
  unfold State.endTry
  split
  · split
    · simp
    · simpa [State.clearCsq_frame] using State.requeued_returnSlot (s.changeCell c.cell _ _) c.slot
  · simp

theorem State.requeued_nextTrigger (s : State) (c : TryContext) : s.plr.Requeued (s.nextTrigger c).plr := by
  unfold State.nextTrigger
  split
  · exact s.requeued_endTry c _
  · rfl

theorem State.requeued_acceptExposure (s : State) (c : TryContext) : s.plr.Requeued (s.acceptExposure c).plr := by
  unfold State.acceptExposure
  split
  · simp
  · split
    · exact State.requeued_nextTrigger (s.onCtx _) c
    · unfold State.decideExtension
      dsimp only
      split
      · exact State.requeued_nextTrigger (s.onCtx _) c
      · simp

theorem State.requeued_repeatRung (s : State) (c : TryContext) : s.plr.Requeued (s.repeatRung c).plr := by
  unfold State.repeatRung
  split
  · exact s.requeued_endTry c _
  · exact State.requeued_nextTrigger (s.onCtx _) c

theorem State.requeued_review (s : State) (c : TryContext) : s.plr.Requeued (s.review c).plr := by
  unfold State.review
  dsimp only
  generalize hx : (s.onCsq fun q => { q with state := .review, frameReported := false }) = x
  have hplr : s.plr = x.plr := by rw [← hx]; rfl
  rw [hplr]
  split
  · rfl
  · split
    · exact x.requeued_acceptExposure c
    · exact x.requeued_repeatRung c
    · exact x.requeued_endTry c _

theorem State.requeued_pollMerged (s : State) : s.plr.Requeued s.pollMerged.plr := by
  unfold State.pollMerged
  repeat' split
  · rfl
  · exact s.requeued_review _
  · rfl

/-- Where no TRIGGER may leave the sequencer's turn leaves the receiver, but for its queue. -/
theorem State.requeued_pollCsq (h : s.canTrigger = false) : s.plr.Requeued s.pollCsq.plr := by
  have hmerged := s.requeued_pollMerged
  have hbefore : s.pollMerged.pollPaused.pollIdle.pollSlot.plr = s.pollMerged.plr := by simp
  have hlamp (x : State) (hx : x.canTrigger = false) : x.pollLamp.plr = x.plr := by
    unfold State.pollLamp
    split
    · split
      · rfl
      · split
        · rfl
        · split
          · simp
          · rw [if_neg (fun h => by simp [hx] at h)]
    · rfl
  unfold State.pollCsq
  rw [hlamp _ (by rw [State.canTrigger, hbefore, hmerged]; exact h), hbefore]
  exact hmerged

/-- The turns of the sequencer, the delivery and the arbiter leave the calibration, and a TRIGGER that has left. -/
theorem State.turns_cal (x : State) (base : List PlateRecord) :
    (x.pollCsq.pollDelivery.arbitrate.announce base).cal = x.cal
      ∧ (x.canTrigger = false → (x.pollCsq.pollDelivery.arbitrate.announce base).plr.awaitedTag = x.plr.awaitedTag
          ∧ (x.pollCsq.pollDelivery.arbitrate.announce base).plr.downlink = x.plr.downlink) := by
  refine ⟨by simp [State.announce, State.finish], fun h => ?_⟩
  have hplr : (x.pollCsq.pollDelivery.arbitrate.announce base).plr = x.pollCsq.pollDelivery.arbitrate.plr := rfl
  rw [hplr, State.arbitrate_plr]
  simp only [State.pollDelivery_frame]
  rw [State.requeued_pollCsq h]
  exact ⟨rfl, rfl⟩

/-! ## The next attempt -/

/-- An attempt that waits for its TRIGGER, after the turns of the blocks: it leaves under a lamp that allows it. -/
theorem State.attempt_triggers {x : State} {o : CalOp} (hop : x.cal.op = some o) (hphase : o.phase = .frames)
    (hrest : o.inFlight = false) (base : List PlateRecord) :
    let lit : Prop := o.kind = .dark ∨ x.ltc.lamp = .steady
    let t := x.pollAttemptTrigger.pollCsq.pollDelivery.arbitrate.announce base
    t.cal.record = x.cal.record ∧ ∃ v, t.cal.op = some v ∧ v.kind = o.kind ∧ v.phase = .frames ∧ v.frame = o.frame
      ∧ v.repeats = o.repeats ∧ v.means = o.means ∧ v.mFirst = o.mFirst
      ∧ (lit → x.canTrigger = true → v.inFlight = true ∧ v.reported = false
          ∧ t.plr.awaitedTag = some (x.plr.tagCounter + 1)
          ∧ t.plr.downlink = some
              { tag := x.plr.tagCounter + 1, time := x.cal.record.tRef,
                lamp := if o.kind = .dark then .none else .steady })
      ∧ (¬ lit → v.inFlight = false) := by
  intro lit t
  obtain ⟨hcal, hplr⟩ := x.pollAttemptTrigger.turns_cal base
  by_cases hgo : lit ∧ x.canTrigger = true
  · have htrigger : x.pollAttemptTrigger = x.triggerAttempt o := by
      unfold State.pollAttemptTrigger
      rw [hop]
      exact if_pos ⟨.inr hphase, hrest, hgo.1, hgo.2⟩
    have hsent : (x.triggerAttempt o).plr.awaitedTag = some (x.plr.tagCounter + 1)
        ∧ (x.triggerAttempt o).plr.downlink = some
              { tag := x.plr.tagCounter + 1, time := x.cal.record.tRef,
                lamp := if o.kind = .dark then .none else .steady }
        ∧ (x.triggerAttempt o).cal.record = x.cal.record
        ∧ (x.triggerAttempt o).cal.op = some
            { o with phase := .frames, inFlight := true, reported := false, failedTest := false } := by
      unfold State.triggerAttempt
      cases hk : o.kind <;> simp [State.sendTrigger, State.onPlr, State.onTimers, State.onTbu, State.onOp, State.onCal, hop, hk]
    obtain ⟨hawait, hdown, hrecord, hsome⟩ := hsent
    rw [← htrigger] at hawait hdown hrecord hsome
    obtain ⟨hawait', hdown'⟩ := hplr (by simp [State.canTrigger, hawait])
    refine ⟨(congrArg Cal.record hcal).trans hrecord, _, (congrArg Cal.op hcal).trans hsome, rfl, rfl, rfl, rfl, rfl, rfl,
      fun _ _ => ⟨rfl, rfl, hawait'.trans hawait, hdown'.trans hdown⟩, fun hno => absurd hgo.1 hno⟩
  · have hnone : x.pollAttemptTrigger = x := by
      unfold State.pollAttemptTrigger
      rw [hop]
      exact if_neg fun h => hgo ⟨h.2.2.1, h.2.2.2⟩
    rw [hnone] at hcal
    refine ⟨?_, o, ?_, rfl, hphase, rfl, rfl, rfl, rfl, fun h1 h2 => absurd ⟨h1, h2⟩ hgo, fun _ => hrest⟩
    · change (x.pollAttemptTrigger.pollCsq.pollDelivery.arbitrate.announce base).cal.record = _
      rw [hnone, hcal]
    · change (x.pollAttemptTrigger.pollCsq.pollDelivery.arbitrate.announce base).cal.op = _
      rw [hnone, hcal, hop]

/-- Without an operation no attempt waits. -/
theorem State.pollAttemptTrigger_of_noOp {x : State} (h : x.cal.op = none) : x.pollAttemptTrigger = x := by
  unfold State.pollAttemptTrigger
  rw [h]

/-- A calibration that fails is over, leaves its record, and tells its reason with the frame and repeats reached. -/
theorem State.failCalibration_ended {x : State} {op : CalOp} (hop : x.cal.op = some op) (reason : CalResult) :
    (x.failCalibration reason).cal.op = none ∧ (x.failCalibration reason).cal.record = x.cal.record
      ∧ .calib x.cal.record.state (some op.kind) reason none (some (op.frame, op.repeats))
          ∈ (x.failCalibration reason).raised := by
  unfold State.failCalibration
  rw [hop]
  dsimp only
  have hrecord : ((x.cancelWait.discardWindow.stopAccess StoreWork.isCalib).endCalibration op).cal.record
      = x.cal.record := by simp
  have hnone : ((x.cancelWait.discardWindow.stopAccess StoreWork.isCalib).endCalibration op).cal.op = none := by
    unfold State.endCalibration
    cases op.kind <;> simp [State.onCal]
  refine ⟨hnone, hrecord, ?_⟩
  rw [← hrecord]
  simp [State.calibNotice, State.raise]

/-- A notice raised before the turns of the blocks is offered after them. -/
theorem State.turns_announce {x : State} {n : Notice} (hn : n ∈ x.raised) (hp : x.ports = s.ports)
    (base : List PlateRecord) : s.announced (x.pollCsq.pollDelivery.arbitrate.announce base) n :=
  State.announced_announce (by simpa using hp) base (by simpa using State.mem_pollDelivery (State.mem_pollCsq hn))

/-! ## The end of a frame -/

/-- The state in which the calibration finds the last row of its frame. -/
def State.frameRowAdded (s : State) (op : CalOp) (y : Nat) (codes : List CameraCode) : State :=
  (s.accessDone.addCalibRow op.kind op.frame y codes).takeDiscards

theorem State.frameRowAdded_frame (s : State) (op : CalOp) (y : Nat) (codes : List CameraCode) :
    (s.frameRowAdded op y codes).cal = { s.cal with tally := s.cal.tally.set y (op.frame + 1) }
      ∧ (s.frameRowAdded op y codes).geometry = s.geometry ∧ (s.frameRowAdded op y codes).ltc = s.ltc
      ∧ (s.frameRowAdded op y codes).raised = s.raised ∧ (s.frameRowAdded op y codes).ports = s.ports
      ∧ (s.frameRowAdded op y codes).fsc.access = none ∧ s.plr.Requeued (s.frameRowAdded op y codes).plr
      ∧ (s.frameRowAdded op y codes).plr.queue.Sublist s.plr.queue := by
  refine ⟨by simp [State.frameRowAdded]; rfl, by simp [State.frameRowAdded], by simp [State.frameRowAdded],
    by simp [State.frameRowAdded], by simp [State.frameRowAdded], by simp [State.frameRowAdded]; rfl, ?_, ?_⟩
  · unfold State.frameRowAdded State.takeDiscards
    split <;> rfl
  · unfold State.frameRowAdded State.takeDiscards
    split
    · exact List.Sublist.refl _
    · exact List.dropWhile_sublist _

theorem State.frameComplete_iff {x : State} {k : Nat} :
    x.frameComplete k = true ↔ ∀ z < x.geometry.height, x.cal.tally.getD z 0 = k + 1 := by
  simp [State.frameComplete]

/-- Settles O11: the end of a calibration frame by its tallies, its index and its repeats. -/
theorem calibrationFramesEnd : Obligations.CalibrationFramesEnd := by
  intro s op y codes hop hphase hflight hreported ha hqueue tally complete lit tries
  obtain ⟨hcal, hgeo, hltc, hraised, hports, hfree, hplr, hsub⟩ := s.frameRowAdded_frame op y codes
  have htables := (s.rowEnded_tables (.calibAdd op.frame y codes)).2.2.2.2.2.2
  have heffect : StoreWork.effect (.calibAdd op.frame y codes) s.accessDone
      = s.accessDone.addCalibRow op.kind op.frame y codes := by
    change s.accessDone.calibWorkDone (.calibAdd op.frame y codes) = _
    unfold State.calibWorkDone
    rw [show s.accessDone.cal.op = some op from hop]
  have hended : s.rowEnded (.calibAdd op.frame y codes)
      = ((s.frameRowAdded op y codes).pollCal.pollCsq.pollDelivery.arbitrate).announce s.plates := by
    rw [State.rowEnded, heffect]
    rfl
  have hcomplete : (s.frameRowAdded op y codes).frameComplete op.frame = true ↔ complete := by
    rw [State.frameComplete_iff, hgeo, hcal]
  generalize s.frameRowAdded op y codes = x at *
  have hop' : x.cal.op = some op := by rw [hcal]; exact hop
  have hattempt : x.pollAttempt = x.attemptEnded op := by
    unfold State.pollAttempt
    rw [hop']
    refine if_pos ⟨hphase, hflight, hreported, ?_, ?_⟩
    · rw [List.all_eq_true]
      intro z hz
      rw [hqueue z (hsub.subset hz)]
      rfl
    · simp [State.busyWith, hfree]
  rw [State.pollCal, hattempt] at hended
  have hcan : x.canTrigger = s.canTrigger := by
    rw [State.canTrigger, hplr]
    rfl
  have htries {frame repeats : Nat} {o : CalOp} (hx : (x.attemptEnded op) = x.onOp fun _ => o) (hk : o.kind = op.kind)
      (hp : o.phase = .frames) (hf : o.frame = frame) (hrep : o.repeats = repeats) (hmeans : o.means = op.means)
      (hfirst : o.mFirst = op.mFirst) (hrest : o.inFlight = false) :
      tries (s.rowEnded (.calibAdd op.frame y codes)) frame repeats
        ∧ (s.rowEnded (.calibAdd op.frame y codes)).cal.record = s.cal.record := by
    have hxop : (x.onOp fun _ => o).cal.op = some o := by simp [State.onOp, State.onCal, hop']
    obtain ⟨hrecord, v, hv, h1, h2, h3, h4, h5, h6, h7, h8⟩ := State.attempt_triggers hxop hp hrest s.plates
    rw [hended, hx]
    have hplr' : (x.onOp fun _ => o).plr = x.plr := rfl
    have hltc' : (x.onOp fun _ => o).ltc = s.ltc := hltc
    have hrec' : (x.onOp fun _ => o).cal.record = s.cal.record := by rw [← congrArg Cal.record hcal]; rfl
    have hcan' : (x.onOp fun _ => o).canTrigger = s.canTrigger := hcan
    have htag : x.plr.tagCounter = s.plr.tagCounter := by rw [hplr]
    rw [hplr', hltc', hcan', htag, hrec', hk] at h7
    rw [hltc', hk] at h8
    exact ⟨⟨v, hv, h1.trans hk, h2, h3.trans hf, h4.trans hrep, h5.trans hmeans, h6.trans hfirst, h7, h8⟩,
      hrecord.trans hrec'⟩
  have hturns := fun x' : State => (x'.turns_cal s.plates).1
  have hrecord : x.cal.record = s.cal.record := by rw [hcal]
  refine ⟨_, State.exec_rowUsed ha rfl, ?_, htables, fun hc hlt => ?_, fun hc hge hk => ?_, fun hc hge hk => ?_,
    fun hc hlt => ?_, fun hc hge => ?_⟩
  · rw [hended, hturns]
    simp [hcal, tally]
  · have hx : x.attemptEnded op = x.onOp fun o => { o.rest with frame := o.frame + 1, repeats := 0 } := by
      unfold State.attemptEnded
      rw [if_pos (hcomplete.mpr hc), if_pos hlt]
    refine htries (o := { op.rest with frame := op.frame + 1, repeats := 0 }) (hx.trans ?_) rfl hphase rfl rfl rfl rfl rfl
    simp [State.onOp, State.onCal, hop']
  · have hx : x.attemptEnded op = x.darkComplete op := by
      unfold State.attemptEnded
      rw [if_pos (hcomplete.mpr hc), if_neg (Nat.not_lt.mpr hge), hk]
    have hdark : (x.darkComplete op).cal.op = none
        ∧ (x.darkComplete op).cal.record = { s.cal.record with state := .darkOnly, geometry := some s.geometry } := by
      unfold State.darkComplete State.endCalibration
      rw [hk]
      exact ⟨rfl, by rw [← hrecord, ← hgeo]; rfl⟩
    rw [hended, hx, State.pollAttemptTrigger_of_noOp hdark.1, hturns]
    exact hdark
  · have hx : x.attemptEnded op = x.onOp fun o =>
        { o.rest with phase := .openPass, mRef := some (meanOfMeans o.means), passRow := 0 } := by
      unfold State.attemptEnded
      rw [if_pos (hcomplete.mpr hc), if_neg (Nat.not_lt.mpr hge), hk]
    have hopen : (x.attemptEnded op).cal.op = some
        { op.rest with phase := .openPass, mRef := some (meanOfMeans op.means), passRow := 0 } := by
      rw [hx]
      simp [State.onOp, State.onCal, hop']
    have hwaits : (x.attemptEnded op).pollAttemptTrigger = x.attemptEnded op := by
      unfold State.pollAttemptTrigger
      rw [hopen]
      exact if_neg fun h => by rcases h.1 with h | h <;> cases h
    rw [hended, hwaits, hturns]
    refine ⟨?_, _, hopen, rfl, rfl, rfl⟩
    rw [hx, ← hrecord]
    rfl
  · have hx : x.attemptEnded op = x.onOp fun o => { o.rest with repeats := o.repeats + 1 } := by
      unfold State.attemptEnded
      rw [if_neg (fun h => hc (hcomplete.mp h)), if_pos hlt]
    refine htries (o := { op.rest with repeats := op.repeats + 1 }) (hx.trans ?_) rfl hphase rfl rfl rfl rfl rfl
    simp [State.onOp, State.onCal, hop']
  · have hx : x.attemptEnded op = x.failCalibration (if op.failedTest then .lamp else .link) := by
      unfold State.attemptEnded
      rw [if_neg (fun h => hc (hcomplete.mp h)), if_neg (Nat.not_lt.mpr hge)]
    obtain ⟨hnone, hkept, hraise⟩ := State.failCalibration_ended hop' (if op.failedTest then .lamp else .link)
    rw [hrecord] at hkept hraise
    rw [hended, hx, State.pollAttemptTrigger_of_noOp hnone, hturns]
    exact ⟨hnone, hkept, fun _ => State.turns_announce hraise (by simpa using hports) _⟩

/-! ## The passes of a flat -/

/-- A calibration that is in a pass, or over, waits for no attempt. -/
abbrev State.NoAttempt (x : State) : Prop := ∀ o, x.cal.op = some o → o.phase ≠ .frames ∧ o.phase ≠ .lampWait

theorem State.NoAttempt.pollCal {x : State} (h : x.NoAttempt) : x.pollCal = x := by
  have hattempt : x.pollAttempt = x := by
    unfold State.pollAttempt
    split
    · rfl
    · rename_i o ho
      exact if_neg fun hc => (h o ho).1 hc.1
  rw [State.pollCal, hattempt]
  unfold State.pollAttemptTrigger
  split
  · rfl
  · rename_i o ho
    refine if_neg fun hc => ?_
    rcases hc.1 with hc | hc
    · exact (h o ho).2 hc
    · exact (h o ho).1 hc

/-- After a row of a pass the turns of the blocks leave the calibration, and tell what it has told. -/
theorem State.rowEnded_pass {w : StoreWork} (h : (w.effect s.accessDone).NoAttempt) :
    (s.rowEnded w).cal = (w.effect s.accessDone).cal
      ∧ ∀ n ∈ (w.effect s.accessDone).raised, s.announced (s.rowEnded w) n := by
  have hports := (StoreWork.effect_tables s.accessDone w).2.2.2.2.2.2
  have hno : (w.effect s.accessDone).takeDiscards.NoAttempt := by simpa [State.NoAttempt] using h
  have hended : s.rowEnded w
      = ((w.effect s.accessDone).takeDiscards.pollCsq.pollDelivery.arbitrate).announce s.plates := by
    rw [State.rowEnded, State.pollAll, hno.pollCal]
  rw [hended, (State.turns_cal _ s.plates).1]
  exact ⟨by simp, fun n hn => State.turns_announce (by simpa using hn) (by simp [hports]) _⟩

section

variable {op : CalOp} {y : Nat}

/-- The operation after a row of the open pass. -/
theorem State.openRowDone_eq (hop : s.cal.op = some op) : s.openRowDone y =
    if op.passRow + 1 = s.geometry.height
    then (s.onOp fun o => o.addOpenRow (s.flatRow y)).openPassEnded (op.addOpenRow (s.flatRow y))
    else s.onOp fun o => o.addOpenRow (s.flatRow y) := by
  have hsome : (s.onOp fun o => o.addOpenRow (s.flatRow y)).cal.op = some (op.addOpenRow (s.flatRow y)) := by
    simp [State.onOp, State.onCal, hop]
  unfold State.openRowDone
  dsimp only
  rw [hsome]
  rfl

/-- The end of the open pass: SATURATED, DIM, or the gain pass under the mean (R95). -/
theorem State.openPassEnded_cases {x : State} (hop : x.cal.op = some op) :
    (x.geometry.width * x.geometry.height < op.satCount * 100 → x.openPassEnded op = x.failCalibration .saturated)
      ∧ (¬ x.geometry.width * x.geometry.height < op.satCount * 100 →
          (op.netCount = 0 ∨ op.netSum / op.netCount < 256) → x.openPassEnded op = x.failCalibration .dim)
      ∧ (¬ x.geometry.width * x.geometry.height < op.satCount * 100 →
          ¬ (op.netCount = 0 ∨ op.netSum / op.netCount < 256) →
          (x.openPassEnded op).cal = { x.cal with
            op := some { op with phase := .gainPass, openLevel := some (op.netSum / op.netCount), passRow := 0 } }) := by
  have hmin : Config.minOpenLevel = 256 := rfl
  unfold State.openPassEnded
  rw [hmin]
  refine ⟨fun h => if_pos h, fun h hd => ?_, fun h hd => ?_⟩
  · rw [if_neg h, if_pos hd]
  · rw [if_neg h, if_neg hd]
    simp [State.onOp, State.onCal, hop]

/-- The operation after a row of the gain pass. -/
theorem State.gainRowDone_cal (hop : s.cal.op = some op) (hp : op.passRow + 1 ≠ s.geometry.height) :
    let dead := op.deadCount + (s.gains op y).countP (· == 0)
    (s.gainRowDone op y).cal = { s.cal with op := some { op with deadCount := dead, passRow := op.passRow + 1 } } := by
  unfold State.gainRowDone
  simp [State.onOp, State.onCal, hop, hp]

/-- The last row of the gain pass makes the record VALID (R96). -/
theorem State.gainRowDone_last {o m : Nat} (hop : s.cal.op = some op) (hp : op.passRow + 1 = s.geometry.height)
    (ho : op.openLevel = some o) (hm : op.mRef = some m) :
    (s.gainRowDone op y).cal.op = none
      ∧ (s.gainRowDone op y).cal.record = { s.cal.record with
          state := .valid, lampLevel := op.levelHeld, openLevel := some o, mRef := some m
          deadCount := some (op.deadCount + (s.gains op y).countP (· == 0)), flatTime := some s.tbu.clock, age := 0 }
      ∧ .calib .valid (some .flat) .done (some (o, m, op.deadCount + (s.gains op y).countP (· == 0))) none
          ∈ (s.gainRowDone op y).raised := by
  unfold State.gainRowDone
  simp [State.onOp, State.onCal, hop, hp]
  unfold State.flatComplete State.endCalibration
  cases op.kind <;> simp [State.onCal, State.calibNotice, State.raise, ho, hm]

end

/-- Settles O12: the rows of the open pass and of the gain pass, and their ends. -/
theorem calibrationPassesEnd : Obligations.CalibrationPassesEnd := by
  intro s op y hop hheight row h net count sat gains dead saturated dim
  have hgains : s.gains op y = gains := rfl
  refine ⟨fun hphase ha => ?_, fun hphase ha => ?_⟩
  · have hports := (s.rowEnded_tables (.openRow y)).2.2.2.2.2.2
    have heffect : StoreWork.effect (.openRow y) s.accessDone = s.accessDone.openRowDone y := by
      change s.accessDone.calibWorkDone (.openRow y) = _
      unfold State.calibWorkDone
      rw [show s.accessDone.cal.op = some op from hop]
    rw [State.openRowDone_eq (s := s.accessDone) hop] at heffect
    have hbegun : (s.accessDone.onOp fun o => o.addOpenRow (s.accessDone.flatRow y)).cal
        = { s.cal with op := some (op.addOpenRow row) } := by
      simp [State.onOp, State.onCal, hop]
      rfl
    have hgeo : (s.accessDone.onOp fun o => o.addOpenRow (s.accessDone.flatRow y)).geometry = s.geometry := rfl
    generalize (s.accessDone.onOp fun o => o.addOpenRow (s.accessDone.flatRow y)) = x at heffect hbegun hgeo
    obtain ⟨hsat, hdim, hgain⟩ := State.openPassEnded_cases (x := x) (op := op.addOpenRow row)
      (by rw [hbegun])
    have hfail (reason : CalResult) := State.failCalibration_ended (x := x) (op := op.addOpenRow row)
      (by rw [hbegun]) reason
    refine ⟨_, State.exec_rowUsed ha rfl, ?_⟩
    by_cases hlast : op.passRow + 1 = h
    · replace heffect := heffect.trans (if_pos hlast)
      by_cases hfails : saturated ∨ dim
      · have hover : StoreWork.effect (.openRow y) s.accessDone
            = x.failCalibration (if s.geometry.width * h < sat * 100 then .saturated else .dim) := by
          rw [heffect]
          by_cases hs : saturated
          · rw [if_pos hs]
            exact hsat (by rw [hgeo]; exact hs)
          · rw [if_neg hs]
            exact hdim (by rw [hgeo]; exact hs) (hfails.resolve_left hs)
        obtain ⟨hnone, hkept, hraise⟩ := hfail (if s.geometry.width * h < sat * 100 then .saturated else .dim)
        rw [← hover] at hnone hkept hraise
        obtain ⟨hcal, htold⟩ := State.rowEnded_pass (s := s) (w := .openRow y) fun o ho => by rw [hnone] at ho; cases ho
        rw [hbegun] at hkept hraise
        rw [hcal]
        exact ⟨hkept, hports, fun hne => absurd hlast hne, fun _ _ => ⟨hnone, fun _ => htold _ hraise⟩,
          fun _ hs hd => absurd hfails (by tauto)⟩
      · have hs : ¬ saturated := fun h => hfails (.inl h)
        have hd : ¬ dim := fun h => hfails (.inr h)
        have hcal' := hgain (by rw [hgeo]; exact hs) hd
        replace hcal' := (congrArg State.cal heffect).trans hcal'
        rw [hbegun] at hcal'
        obtain ⟨hcal, -⟩ := State.rowEnded_pass (s := s) (w := .openRow y) fun o ho => by
          rw [hcal'] at ho
          cases ho
          exact ⟨nofun, nofun⟩
        rw [hcal, hcal']
        exact ⟨rfl, hports, fun hne => absurd hlast hne, fun _ hf => absurd hf hfails, fun _ _ _ => rfl⟩
    · replace heffect := heffect.trans (if_neg hlast)
      rw [← heffect] at hbegun
      obtain ⟨hcal, -⟩ := State.rowEnded_pass (s := s) (w := .openRow y) fun o ho => by
        rw [hbegun] at ho
        cases ho
        exact ⟨fun h => (by cases hphase.symm.trans h), fun h => (by cases hphase.symm.trans h)⟩
      rw [hcal, hbegun]
      exact ⟨rfl, hports, fun _ => rfl, fun hl => absurd hl hlast, fun hl => absurd hl hlast⟩
  · have hports := (s.rowEnded_tables (.gainRow y)).2.2.2.2.2.2
    have heffect : StoreWork.effect (.gainRow y) s.accessDone = s.accessDone.gainRowDone op y := by
      change s.accessDone.calibWorkDone (.gainRow y) = _
      unfold State.calibWorkDone
      rw [show s.accessDone.cal.op = some op from hop]
    refine ⟨_, State.exec_rowUsed ha rfl, hports, fun hlast => ?_, fun o m hlast ho hm => ?_⟩
    · have hcal' := State.gainRowDone_cal (s := s.accessDone) (y := y) hop hlast
      rw [← heffect] at hcal'
      obtain ⟨hcal, -⟩ := State.rowEnded_pass (s := s) (w := .gainRow y) fun o ho => by
        rw [hcal'] at ho
        cases ho
        exact ⟨fun h => (by cases hphase.symm.trans h), fun h => (by cases hphase.symm.trans h)⟩
      rw [hcal, hcal']
      exact ⟨rfl, rfl⟩
    · obtain ⟨hnone, hrecord, hraise⟩ := State.gainRowDone_last (s := s.accessDone) (y := y) hop hlast ho hm
      rw [← heffect] at hnone hrecord hraise
      obtain ⟨hcal, htold⟩ := State.rowEnded_pass (s := s) (w := .gainRow y) fun o ho => by rw [hnone] at ho; cases ho
      rw [hcal]
      exact ⟨hnone, hrecord, fun _ => htold _ hraise⟩

end Sys2Proof.Machine
end

section
/-! PROOFS. The delivery line: READY, the units of a stream and their bytes, and the end of a stream (R156 to R160). -/

namespace Sys2Proof.Machine
-- One proof at a time: under the memory limit of the check there is no room for the stacks of many threads.
set_option Elab.async false

variable {s : State}

/-! ## The bytes of a unit -/

theorem HeaderRecord.fields_eq (h : HeaderRecord) :
    let flag (b : Bool) : Byte := if b then 1 else 0
    h.fields = leBytes 2 h.key.toNat ++ leBytes 1 h.column ++ leBytes 1 h.row ++ leBytes 1 h.tryNumber
      ++ leBytes 1 h.profile.val ++ [flag (h.handling == .fragile), flag (h.emulsion == .down)]
      ++ leBytes 2 h.width ++ leBytes 2 h.height ++ leBytes 1 h.exposuresMerged ++ [flag h.extensionUsed]
      ++ leBytes 4 h.firstTrigger.toNat ++ leBytes 4 h.finalizeTime.toNat ++ leBytes 4 h.clipLight
      ++ leBytes 4 h.clipDark ++ leBytes 4 h.dead ++ leBytes 4 h.tornRows ++ leBytes 2 h.qceil
      ++ h.histogram.flatMap (leBytes 4) := by
  dsimp only
  unfold HeaderRecord.fields
  simp only [List.append_assoc, List.cons_append, List.nil_append, beq_iff_eq]
  rfl

/-- A header has 299 bytes with its type and check (R156, R158). -/
theorem DeliveryUnit.header_bytes_length {h : HeaderRecord} (hh : h.histogram.length = 64) :
    (DeliveryUnit.header h).bytes.length = 299 := by
  simp [DeliveryUnit.bytes, withCrc16, HeaderRecord.fields, hh, List.length_flatMap]

/-! ## The unit that begins -/

/-- What a stream on a free link under READY begins to send (R157 to R160). -/
abbrev Stream.Begins (x : Stream) (link : Option LinkUnit) : Prop :=
  (x.phase = .start → link = some { content := .start, live := true })
    ∧ (x.phase = .header → link = some { content := .header x.header, live := true })
    ∧ (∀ codes, x.phase = .rows → x.buffer = .full codes → link = some
        { content := .row x.nextRow (if x.mirrored then codes.reverse else codes), live := true })
    ∧ (x.phase = .rows → (∀ codes, x.buffer ≠ .full codes) → link = none)
    ∧ (x.phase = .finish → link = some { content := .finish x.cut x.nextRow x.crc, live := true })

theorem Stream.begins_nextUnit (x : Stream) : x.Begins (x.nextUnit?.map fun u => { content := u, live := true }) := by
  unfold Stream.nextUnit?
  refine ⟨fun h => ?_, fun h => ?_, fun codes h hb => ?_, fun h hb => ?_, fun h => ?_⟩
  · rw [h]
    rfl
  · rw [h]
    rfl
  · rw [h, hb]
    rfl
  · rw [h]
    dsimp only
    split
    · exact absurd ‹_› (hb _)
    · rfl
  · rw [h]
    rfl

/-- The link's turn: a free one takes the stream's next unit under READY, and else stays; the stream stays. -/
theorem Dlt.sendNext_eq (d : Dlt) : d.sendNext = { d with link :=
    match d.link, d.stream with
    | none, some x => if d.ready then x.nextUnit?.map fun u => { content := u, live := true } else none
    | l, _ => l } := by
  obtain ⟨mode, queue, stream, link, ready⟩ := d
  unfold Dlt.sendNext
  cases link with
  | some u => rfl
  | none =>
    cases stream with
    | none => rfl
    | some x =>
      cases ready with
      | false => rfl
      | true =>
        dsimp only
        cases x.nextUnit? <;> rfl

/-- What a stream asks for after a unit: its next row. -/
theorem State.serveLink_dlt (s : State) : s.serveLink.dlt =
    { s.dlt with
      link := s.dlt.sendNext.link
      stream := s.dlt.stream.map fun x => x.askRow s.geometry.height } := by
  change { s.dlt.sendNext with stream := s.dlt.sendNext.stream.map fun x : Stream => x.askRow s.geometry.height } = _
  rw [Dlt.sendNext_eq]

/-- A unit on the line stays. -/
theorem State.serveLink_busy (h : s.dlt.link ≠ none) : s.serveLink.dlt.link = s.dlt.link := by
  rw [State.serveLink_dlt, Dlt.sendNext_eq]
  dsimp only
  split
  · exact absurd ‹_› h
  · rfl

/-- On a free link a stream begins its unit under READY, and none without it. -/
theorem State.serveLink_free {x : Stream} (hl : s.dlt.link = none) (hx : s.dlt.stream = some x) :
    (s.dlt.ready = true → s.serveLink.dlt.link = x.nextUnit?.map fun u => { content := u, live := true })
      ∧ (s.dlt.ready = false → s.serveLink.dlt.link = none) := by
  rw [State.serveLink_dlt, Dlt.sendNext_eq, hl, hx]
  dsimp only
  exact ⟨fun h => by rw [h]; rfl, fun h => by rw [h]; rfl⟩

/-- After the line's turn the arbiter's leaves all but the store and the receiver's queue. -/
theorem State.served_only {v : State} (hv : v = { s with dlt := v.dlt }) :
    v.serveLink.arbitrate = { s with
      dlt := v.serveLink.arbitrate.dlt, fsc := v.serveLink.arbitrate.fsc, plr := v.serveLink.arbitrate.plr } := by
  have hgrant := State.arbitrate_only v.serveLink
  have hserve : v.serveLink = { s with dlt := v.serveLink.dlt } := by
    change { v with dlt := v.serveLink.dlt } = _
    rw [hv]
  generalize v.serveLink.arbitrate = t at hgrant ⊢
  generalize v.serveLink = u at hserve hgrant
  rw [hgrant, hserve]

/-- A unit's end, and the line's turn: the stream as it has moved on, and its next unit. -/
theorem State.unitSent_served {f : Dlt → Dlt} {y : Stream} (hf : f s.dlt = { s.dlt with stream := some y, link := none }) :
    ((s.onDlt f).serveLink.arbitrate).dlt.stream = some (y.askRow s.geometry.height)
      ∧ ((s.onDlt f).serveLink.arbitrate).dlt.queue = s.dlt.queue
      ∧ ((s.onDlt f).serveLink.arbitrate).dlt.mode = s.dlt.mode
      ∧ (s.dlt.ready = true → y.Begins ((s.onDlt f).serveLink.arbitrate).dlt.link)
      ∧ (s.dlt.ready = false → ((s.onDlt f).serveLink.arbitrate).dlt.link = none)
      ∧ ((s.onDlt f).serveLink.arbitrate).fsc.mem = s.fsc.mem
      ∧ (s.onDlt f).serveLink.arbitrate = { s with
          dlt := ((s.onDlt f).serveLink.arbitrate).dlt
          fsc := ((s.onDlt f).serveLink.arbitrate).fsc
          plr := ((s.onDlt f).serveLink.arbitrate).plr } := by
  have hdlt : (s.onDlt f).dlt = { s.dlt with stream := some y, link := none } := hf
  obtain ⟨hready, hnot⟩ := State.serveLink_free (s := s.onDlt f) (x := y) (by rw [hdlt]) (by rw [hdlt])
  rw [hdlt] at hready hnot
  have hserved : (s.onDlt f).serveLink.arbitrate.dlt = (s.onDlt f).serveLink.dlt := by simp
  rw [hserved]
  have hd := (s.onDlt f).serveLink_dlt
  rw [hdlt] at hd
  refine ⟨by rw [hd]; rfl, by rw [hd], by rw [hd], fun h => ?_, hnot, by simp, ?_⟩
  · rw [hready h]
    exact y.begins_nextUnit
  · rw [← hserved]
    exact State.served_only rfl

/-- A unit that is sent to its end frees the line, and moves its stream on. -/
theorem Dlt.unitSent_live {d : Dlt} {x : Stream} {u : DeliveryUnit} (hx : d.stream = some x)
    (hl : d.link = some { content := u, live := true }) (f : Stream → DeliveryUnit → Stream) :
    d.unitSent f = { d with stream := some (f x u), link := none } := by
  unfold Dlt.unitSent
  rw [hl]
  dsimp only
  rw [hx, if_pos rfl]
  rfl

theorem Stream.advance_eq (x : Stream) (p : StreamPhase) :
    x.advance p = { x with phase := if x.cut then x.phase else p } := by
  obtain ⟨_, _, _, _, _, _, cut, _, _⟩ := x
  cases cut <;> rfl

/-! ## The end of a stream -/

/-- A plate that settles becomes no WITHDRAWN one. -/
theorem PlateRecord.withdrawn_of_settled {r : PlateRecord} {now : Seconds} (h : (r.settled now).state = .withdrawn) :
    r.state = .withdrawn := by
  revert h
  unfold PlateRecord.settled PlateRecord.completed PlateRecord.recaptured
  cases hst : r.state <;> intro h <;> revert h <;> (repeat' split) <;> simp_all

/-- Where no stream waits, the end of a stream is followed by none. -/
theorem State.streamEnded_served (hnext : s.dlt.mode = .fetch ∨ s.dlt.queue = []) :
    s.streamEnded.pollDelivery.dlt = { s.dlt with stream := none, link := none }
      ∧ s.streamEnded.pollDelivery.plates = s.streamEnded.plates
      ∧ s.streamEnded.pollDelivery.raised = s.streamEnded.raised := by
  have hdlt : s.streamEnded.dlt = { s.dlt with stream := none, link := none } := by
    unfold State.streamEnded
    dsimp only
    split <;> simp [State.onDlt]
  have hauto : s.streamEnded.autoStream = s.streamEnded := by
    unfold State.autoStream
    rw [hdlt]
    split
    · rename_i hmode _ hqueue
      rcases hnext with h | h
      · rw [show s.dlt.mode = .auto from hmode] at h
        cases h
      · rw [show s.dlt.queue = _ from hqueue] at h
        cases h
    · rfl
  rw [State.pollDelivery, hauto]
  refine ⟨?_, by simp, by simp⟩
  rw [State.serveLink_dlt, Dlt.sendNext_eq, hdlt]
  rfl

/-- The cell of a stream that has been sent. -/
def CellRecord.sent (x : CellRecord) : CellRecord := { x with state := .delivered }

theorem State.streamEnded_cell {x : Stream} {c : CellRef} (hx : s.dlt.stream = some x) (hc : x.cell = some c) :
    s.streamEnded = (s.onDlt fun d => { d with link := none, stream := none }).changeCell c CellRecord.sent id := by
  unfold State.streamEnded
  rw [hx]
  dsimp only [Option.bind_some]
  rw [hc]
  rfl

/-- The notice of the cell that is DELIVERED (R4). -/
theorem State.cellNotices_sent {c : CellRef} {y : CellRecord} (hlaw : s.registerLaw) (hgrid : s.gridLaw)
    (hy : s.cell? c = some y) (hst : y.state = .delivering) :
    .cell c .delivered y.triesUsed y.slot y.lastOutcome y.summary
      ∈ registerNotices s.plates (s.changeCell c CellRecord.sent id).plates := by
  obtain ⟨r, hr, hry⟩ := Option.bind_eq_some_iff.mp hy
  have hmem := State.mem_of_plate? hr
  have hkey := State.key_of_plate? hr
  obtain ⟨hcol, hrow⟩ := PlateRecord.place_of_cell? hry
  have hsame := PlateRecord.sameCells_settled (r.onCell c.column c.row CellRecord.sent) s.tbu.clock
  have hplates : (s.changeCell c CellRecord.sent id).plates = s.plates.map fun x =>
      if x.key = c.key then (x.onCell c.column c.row CellRecord.sent).settled s.tbu.clock else x := by
    rw [changeCell_plates]
    simp [State.changeCellQuiet, State.onPlate, State.onPlates]
  rw [hplates, registerNotices_changed
    (f := fun x : PlateRecord => (x.onCell c.column c.row CellRecord.sent).settled s.tbu.clock)
    (fun x => (PlateRecord.sameCells_settled _ _).key) hlaw.2.1 hr]
  refine List.mem_append_left _ ?_
  rw [cellNotices_one (p := (c.column, c.row)) (f := CellRecord.sent) (old := r) (x := y)]
  · rw [hsame.key]
    simp [CellRecord.notice, CellRecord.sent, PlateRecord.onCell, hcol, hrow, hkey]
  · rw [hsame.key, show (r.onCell c.column c.row CellRecord.sent).key = c.key from hkey]
    exact hr
  · exact fun h => h.1 (PlateRecord.withdrawn_of_settled (r := r.onCell c.column c.row CellRecord.sent) h.2)
  · intro i j
    rw [PlateRecord.cell?_settled]
    exact PlateRecord.cell?_onCell (f := CellRecord.sent) (fun _ => ⟨rfl, rfl⟩) r c.column c.row i j
  · rw [hsame.columns, hsame.rows]
    have hplace : (y.column, y.row) ∈ gridCells r.columns r.rows :=
      hgrid r hmem ▸ List.mem_map_of_mem (List.mem_of_find?_eq_some hry)
    rw [hcol, hrow] at hplace
    exact mem_serpentine.mpr (mem_gridCells.mp hplace)
  · exact hry
  · simp [CellRecord.changed, CellRecord.sent, hst]

/-- Settles O26: READY, each unit's end and bytes, and the end of a stream. -/
theorem streamUnitsAdvance : Obligations.StreamUnitsAdvance := by
  refine ⟨fun h i n codes cut crc => ⟨rfl, ?_, rfl, rfl, DeliveryUnit.header_bytes_length⟩, fun s => ⟨rfl, ?_⟩,
    fun s x hx => ⟨fun hl => ?_, fun h hl => ?_, fun i codes hl => ?_⟩, fun s x cut n crc hx hl hnext => ?_⟩
  · rw [← HeaderRecord.fields_eq]
    rfl
  · refine ⟨(s.onDlt fun d => { d with ready := true }).serveLink.arbitrate, rfl, ?_, fun x u hx hl hu => ?_,
      fun x hx hl => ?_, fun hl => ?_, ?_, by simp [State.onDlt], State.served_only rfl⟩
    · simp [State.serveLink_dlt, Dlt.sendNext_eq, State.onDlt]
    · have hlink := (State.serveLink_free (s := s.onDlt fun d => { d with ready := true }) hl hx).1 rfl
      rw [hu] at hlink
      simpa using hlink
    · have hlink := (State.serveLink_free (s := s.onDlt fun d => { d with ready := true }) hl hx).1 rfl
      have hbegins := x.begins_nextUnit
      rw [← hlink] at hbegins
      simpa using hbegins
    · have hlink := State.serveLink_busy (s := s.onDlt fun d => { d with ready := true }) hl
      simpa using hlink
    · simp [State.serveLink_dlt, Dlt.sendNext_eq, State.onDlt]
  · exact ⟨_, if_pos (by unfold Dlt.onLink; rw [hl]; rfl), State.unitSent_served
      ((Dlt.unitSent_live hx hl _).trans (by rw [Stream.advance_eq]))⟩
  · exact ⟨_, if_pos (by unfold Dlt.onLink; rw [hl]; rfl), State.unitSent_served
      ((Dlt.unitSent_live hx hl _).trans (by rw [Stream.advance_eq]))⟩
  · exact ⟨_, if_pos (by unfold Dlt.onLink; rw [hl]; rfl), State.unitSent_served (Dlt.unitSent_live hx hl _)⟩
  · obtain ⟨hdlt, hplates, hraised⟩ := State.streamEnded_served hnext
    have hexec : exec .endSent s = .next (s.streamEnded.pollDelivery.arbitrate.announce s.plates) :=
      if_pos (by unfold Dlt.sending; rw [hl]; rfl)
    have hends : (s.streamEnded.pollDelivery.arbitrate.announce s.plates).plates = s.streamEnded.plates := by
      simp [State.announce, State.finish, hplates]
    refine ⟨_, hexec, ?_, ?_, State.portsNoticed_announce (by simp) _, fun c hc => ?_,
      fun c y hc hlaw hgrid hy hst _ => ?_, fun hc => ?_⟩
    · simpa [State.announce, State.finish] using hdlt
    · simp [State.announce, State.finish, State.tablesKept]
    · have hcell : (s.streamEnded.pollDelivery.arbitrate.announce s.plates).cell? c = s.streamEnded.cell? c := by
        simp only [State.cell?, State.plate?, hends]
      rw [hcell, State.streamEnded_cell hx hc,
        State.cell?_changeCell (f := CellRecord.sent) (fun _ => ⟨rfl, rfl⟩) PlateRecord.sameCells_id]
      simp only [if_true]
      rfl
    · refine ⟨_, List.mem_append_left _ ?_, State.offered_announce (by simp) s.plates⟩
      have hnotice := State.cellNotices_sent hlaw hgrid hy hst
      have hended : s.streamEnded.pollDelivery.arbitrate.plates = (s.changeCell c CellRecord.sent id).plates := by
        rw [State.arbitrate_frame s.streamEnded.pollDelivery |>.2.2.2.1, hplates, State.streamEnded_cell hx hc,
          changeCell_plates, changeCell_plates]
        rfl
      rw [hended]
      exact hnotice
    · rw [hends]
      unfold State.streamEnded
      rw [hx]
      dsimp only [Option.bind_some]
      rw [hc]
      rfl

end Sys2Proof.Machine
end

section
/-! SUPPORT. What the turns that end an event leave of one cell: the claim that a sequencer at rest may begin, and the
stream that the delivery may (R41, R42, R154). -/

namespace Sys2Proof.Machine
-- One proof at a time: under the memory limit of the check there is no room for the stacks of many threads.
set_option Elab.async false

variable {s : State} {d : CellRef}

/-! ## The delivery's turn -/

/-- A cell that does not wait for delivery stays as it is at the delivery's turn, and its plate keeps its counts. -/
theorem State.pollDelivery_cell? (h : d ∉ s.dlt.queue) : s.pollDelivery.cell? d = s.cell? d := by
  have hauto : s.autoStream.cell? d = s.cell? d := by
    unfold State.autoStream
    split
    · rename_i c rest _ _ hq
      split
      · have hne : ¬ d = c := fun e => h (by rw [hq, e]; exact List.mem_cons_self ..)
        unfold State.startStream
        split
        · split
          · rfl
          · change ((s.dequeue c).changeCell c (fun y => { y with state := .delivering }) id).cell? d = _
            rw [State.cell?_changeCell (f := fun y => { y with state := .delivering }) (fun _ => ⟨rfl, rfl⟩)
              PlateRecord.sameCells_id]
            simp only [if_neg hne, Option.map_id']
            rfl
        · rfl
      · rfl
    · rfl
  exact hauto

/-- The plates at the delivery's turn: one may change in the state of a cell. -/
theorem State.pollDelivery_plate? (s : State) (key : PlateKey) : s.pollDelivery.plate? key = s.plate? key
    ∨ ∃ c : CellRef, s.pollDelivery.plate? key = (s.plate? key).map fun x =>
      if key = c.key then (x.onCell c.column c.row fun y => { y with state := .delivering }).settled s.tbu.clock else x := by
  have hauto : s.autoStream.plate? key = s.plate? key
      ∨ ∃ c : CellRef, s.autoStream.plate? key = (s.plate? key).map fun x =>
        if key = c.key then (x.onCell c.column c.row fun y => { y with state := .delivering }).settled s.tbu.clock
        else x := by
    unfold State.autoStream
    split
    · rename_i c rest _ _ hq
      split
      · unfold State.startStream
        split
        · split
          · exact .inl rfl
          · refine .inr ⟨c, ?_⟩
            change ((s.dequeue c).changeCell c (fun y => { y with state := .delivering }) id).plate? key = _
            rw [State.plate?_changeCell (f := fun y => { y with state := .delivering }) PlateRecord.sameCells_id]
            rfl
        · exact .inl rfl
      · exact .inl rfl
    · exact .inl rfl
  exact hauto

/-- The counts of a plate stay at the delivery's turn. -/
theorem State.pollDelivery_failed (s : State) (key : PlateKey) :
    (s.pollDelivery.plate? key).map (·.failed) = (s.plate? key).map (·.failed) := by
  rcases s.pollDelivery_plate? key with h | ⟨c, h⟩
  · rw [h]
  · rw [h, Option.map_map]
    congr 1
    funext x
    rw [Function.comp_apply]
    split
    · exact (PlateRecord.settled_holds _ _).2.2
    · rfl

/-! ## A sequencer at rest -/

/-- The sequencer's turn after its try, from its pauses on. -/
def State.restTurn (s : State) : State := s.pollPaused.pollIdle.pollSlot.pollLamp

/-- A sequencer at rest may claim another cell, or stays without one. -/
theorem State.restTurn_cases (h : s.csq.state = .idle) : (∃ q : Csq, q.ctx = s.csq.ctx ∧ s.restTurn = { s with csq := q }
      ∧ (q.state = .idle ∨ q.state = .paused .claim ∨ q.state = .awaitSlot) ∧ (s.capturable? = none → q = s.csq))
    ∨ ∃ r p k, s.capturable? = some r ∧ r.nextCell? = some p ∧ s.freeSlot? = some k
        ∧ s.restTurn = (s.setCsq .awaitSlot).claim r ⟨r.key, p.1, p.2⟩ k := by
  have hpaused : s.pollPaused = s := State.pollPaused_of_state fun p hp => by rw [h] at hp; cases hp
  unfold State.restTurn
  rw [hpaused]
  have hidle : s.pollIdle = s ∨ s.pollIdle = s.setCsq (.paused .claim)
      ∨ (s.pollIdle = s.setCsq .awaitSlot ∧ s.capturable? ≠ none) := by
    unfold State.pollIdle
    split
    · rename_i r _ hr
      split
      · split
        · exact .inr (.inl rfl)
        · exact .inr (.inr ⟨rfl, by rw [hr]; exact Option.some_ne_none _⟩)
      · exact .inl rfl
    · exact .inl rfl
  have hnothing (hc : s.capturable? = none) : s.pollIdle = s := State.pollIdle_nothing hc
  rcases hidle with hi | hi | ⟨hi, hc⟩
  · left
    have hslot : s.pollSlot = s := State.pollSlot_of_state (by rw [h]; exact CsqState.noConfusion)
    have hlamp : s.pollLamp = s := State.pollLamp_of_state (by rw [h]; exact CsqState.noConfusion)
    rw [hi, hslot, hlamp]
    exact ⟨s.csq, rfl, rfl, .inl h, fun _ => rfl⟩
  · left
    have hslot : (s.setCsq (.paused .claim)).pollSlot = s.setCsq (.paused .claim) := State.pollSlot_of_state nofun
    have hlamp : (s.setCsq (.paused .claim)).pollLamp = s.setCsq (.paused .claim) := State.pollLamp_of_state nofun
    rw [hi, hslot, hlamp]
    refine ⟨{ s.csq with state := .paused .claim }, rfl, rfl, .inr (.inl rfl), fun hc => ?_⟩
    exact congrArg State.csq (hi.symm.trans (hnothing hc))
  · rw [hi]
    rcases (s.setCsq .awaitSlot).pollSlot_cases with hs | hs | hs | ⟨r, p, k, hr, hp, hk, hs⟩
    · left
      rw [hs, State.pollLamp_of_state (s := s.setCsq .awaitSlot) nofun]
      exact ⟨{ s.csq with state := .awaitSlot }, rfl, rfl, .inr (.inr rfl), fun h => absurd h hc⟩
    · left
      rw [hs, State.pollLamp_of_state (s := (s.setCsq .awaitSlot).setCsq .idle) nofun]
      exact ⟨{ s.csq with state := .idle }, rfl, rfl, .inl rfl, fun h => absurd h hc⟩
    · left
      rw [hs, State.pollLamp_of_state (s := (s.setCsq .awaitSlot).setCsq (.paused .claim)) nofun]
      exact ⟨{ s.csq with state := .paused .claim }, rfl, rfl, .inr (.inl rfl), fun h => absurd h hc⟩
    · right
      refine ⟨r, p, k, hr, hp, hk, ?_⟩
      rw [hs, State.pollLamp_of_state]
      exact CsqState.noConfusion

/-- What that turn leaves of a cell that is not PENDING, of its plate's counts and of the slots that are HELD. -/
theorem State.restTurn_leaves {z : CellRecord} (h : s.csq.state = .idle) (hctx : s.csq.ctx = none)
    (hkeys : (s.plates.map (·.key)).Nodup) (hz : s.cell? d = some z) (hp : z.state ≠ .pending) :
    s.restTurn.cell? d = some z
      ∧ (s.restTurn.plate? d.key).map (·.failed) = (s.plate? d.key).map (·.failed)
      ∧ (∀ c, s.restTurn.csq.ctx = some c → c.cell ≠ d)
      ∧ ∀ k, s.fsc.held.get k = true → s.restTurn.work k = s.work k := by
  obtain ⟨q, hq, hturn, -⟩ | ⟨r, p, k, hr, hnext, hk, hturn⟩ := State.restTurn_cases h
  · rw [hturn]
    refine ⟨hz, rfl, fun c hc => ?_, fun k _ => rfl⟩
    rw [show ({ s with csq := q } : State).csq.ctx = none from hq.trans hctx] at hc
    cases hc
  · have hne : d ≠ ⟨r.key, p.1, p.2⟩ := by
      rintro rfl
      obtain ⟨c, hc, hpending⟩ := PlateRecord.nextCell?_spec hnext
      have hfound := State.plate?_of_mem hkeys (State.capturable?_spec hr).1
      rw [State.cell?_of_plate hfound, hc] at hz
      rw [Option.some.inj hz] at hpending
      exact hp hpending
    rw [hturn]
    refine ⟨?_, ?_, fun c hc => ?_, fun j hj => ?_⟩
    · rw [State.claim_cell?]
      have hz' : (s.setCsq .awaitSlot).cell? d = some z := hz
      rw [hz', Option.map_some, if_neg hne]
    · rw [State.plate?_claim, Option.map_map]
      change (s.plate? d.key).map _ = _
      congr 1
      funext x
      rw [Function.comp_apply]
      split
      · exact (PlateRecord.settled_holds _ _).2.2
      · rfl
    · rw [State.claim_csq] at hc
      rw [← Option.some.inj hc]
      exact hne.symm
    · rw [State.claim_work, if_neg]
      · rfl
      · rintro rfl
        rw [(State.freeSlot?_eq_some_iff.mp hk).1] at hj
        cases hj

/-! ## The end of an event -/

/-- The turns of the delivery and the arbiter, and the notices, after the sequencer's. -/
def State.closed (u : State) (base : List PlateRecord) : State := u.pollDelivery.arbitrate.announce base

theorem State.closed_blocks (u : State) (base : List PlateRecord) :
    (u.closed base).csq = u.csq ∧ (u.closed base).mge = u.mge ∧ (u.closed base).fsc.held = u.fsc.held
      ∧ (u.closed base).plr.awaitedTag = u.plr.awaitedTag ∧ (u.closed base).plr.downlink = u.plr.downlink := by
  have hplr : (u.closed base).plr = u.pollDelivery.arbitrate.plr := rfl
  refine ⟨by simp [State.closed, State.announce, State.finish], by simp [State.closed, State.announce, State.finish],
    by simp [State.closed, State.announce, State.finish], ?_, ?_⟩
  all_goals
    rw [hplr, State.arbitrate_plr]
    simp

theorem State.closed_plate? (u : State) (base : List PlateRecord) (key : PlateKey) :
    (u.closed base).plate? key = u.pollDelivery.plate? key := by
  have h : (u.closed base).plates = u.pollDelivery.plates := by simp [State.closed, State.announce, State.finish]
  simp only [State.plate?, h]

theorem State.closed_cell? {u : State} (base : List PlateRecord) (h : d ∉ u.dlt.queue) :
    (u.closed base).cell? d = u.cell? d := by
  rw [← State.pollDelivery_cell? h]
  simp only [State.cell?, State.closed_plate?]

theorem State.closed_failed (u : State) (base : List PlateRecord) (key : PlateKey) :
    ((u.closed base).plate? key).map (·.failed) = (u.plate? key).map (·.failed) := by
  rw [State.closed_plate?, State.pollDelivery_failed]

end Sys2Proof.Machine
end

section
/-! PROOFS. REVIEW: the next rung, the extension, the repeat, the end of a try and the hand-over (R19, R51 to R56). -/

namespace Sys2Proof.Machine
-- One proof at a time: under the memory limit of the check there is no room for the stacks of many threads.
set_option Elab.async false

variable {s : State} {c : TryContext} {r : PlateRecord} {x : CellRecord}

/-! ## The next trigger -/

/-- A sequencer that waits for the lamp has its turn at the lamp's poll alone. -/
theorem State.restTurn_awaitLamp (h : s.csq.state = .awaitLamp) : s.restTurn = s.pollLamp := by
  have hpaused : s.pollPaused = s := State.pollPaused_of_state fun p hp => by rw [h] at hp; cases hp
  have hidle : s.pollIdle = s := State.pollIdle_of_state (by rw [h]; exact CsqState.noConfusion)
  have hslot : s.pollSlot = s := State.pollSlot_of_state (by rw [h]; exact CsqState.noConfusion)
  rw [State.restTurn, hpaused, hidle, hslot]

/-- The exposure that a TRIGGER adds to its list (R48). -/
def TryContext.exposure (c : TryContext) (n : Nat) : Exposure :=
  { ordinal := n, rung := c.rung, time := c.nominal, monitor := 0, outcome := .pending, torn := none }

theorem State.triggerTry_leaves (s : State) (c : TryContext) :
    (s.triggerTry c).csq = { s.csq with state := .exposing }
      ∧ (s.triggerTry c).plr.awaitedTag = some (s.plr.tagCounter + 1)
      ∧ (s.triggerTry c).plr.downlink = some { tag := s.plr.tagCounter + 1, time := c.nominal, lamp := .steady }
      ∧ ((s.triggerTry c).work c.slot).list = (s.work c.slot).list ++ [c.exposure (s.work c.slot).list.length]
      ∧ (s.triggerTry c).plates = s.plates ∧ (s.triggerTry c).dlt = s.dlt := by
  refine ⟨?_, ?_, ?_, ?_, by simp, by simp⟩
  · simp [State.triggerTry, State.setCsq, State.onCsq, State.sendTrigger]
  · simp [State.triggerTry, State.sendTrigger, State.onPlr]
  · simp [State.triggerTry, State.sendTrigger, State.onPlr]
  · simp [State.triggerTry, State.work, State.onWork, State.onMge, TryContext.exposure]

/-- What a rung that waits for its trigger leaves at the end of the event (R47, R48). -/
theorem State.waits_or_triggers (base : List PlateRecord) (hs : s.csq.state = .awaitLamp) (hc : s.csq.ctx = some c)
    (hf : s.csq.frameReported = false) (hr : s.plate? c.cell.key = some r) (hh : r.holds.any = false)
    (hx : s.cell? c.cell = some x) (hq : c.cell ∉ s.dlt.queue) (ha : s.plr.awaitedTag = none) (hl : s.plr.link ≠ .dropped)
    (hn : (s.work c.slot).list.length < 16) :
    let t := s.restTurn.closed base
    let list := (s.work c.slot).list
    t.csq.ctx = some c ∧ t.csq.frameReported = false ∧ t.cell? c.cell = some x
      ∧ (s.ltc.lamp ≠ .steady ∨ c.clearComplete = false →
          t.csq.state = .awaitLamp ∧ t.plr.awaitedTag = none ∧ t.work c.slot = s.work c.slot)
      ∧ (s.ltc.lamp = .steady → c.clearComplete = true → t.csq.state = .exposing
          ∧ t.plr.awaitedTag = some (s.plr.tagCounter + 1)
          ∧ t.plr.downlink = some { tag := s.plr.tagCounter + 1, time := c.nominal, lamp := .steady }
          ∧ (t.work c.slot).list = list ++ [c.exposure list.length]) := by
  intro t list
  obtain ⟨hcsq, hmge, -, hawait, hdown⟩ := s.restTurn.closed_blocks base
  have hlamp := State.restTurn_awaitLamp hs
  have hwork : t.work c.slot = s.restTurn.work c.slot := by rw [State.work, hmge]; rfl
  have hcell (hd : s.pollLamp.dlt = s.dlt) (hp : s.pollLamp.plates = s.plates) : t.cell? c.cell = some x := by
    refine (State.closed_cell? base ?_).trans (Eq.trans ?_ hx)
    · rw [hlamp, hd]
      exact hq
    · rw [hlamp]
      simp only [State.cell?, State.plate?, hp]
  rw [hlamp] at hwork
  replace hcsq : t.csq = s.pollLamp.csq := hcsq.trans (congrArg State.csq hlamp)
  replace hawait : t.plr.awaitedTag = s.pollLamp.plr.awaitedTag := hawait.trans (by rw [hlamp])
  replace hdown : t.plr.downlink = s.pollLamp.plr.downlink := hdown.trans (by rw [hlamp])
  by_cases hgo : s.ltc.lamp = .steady ∧ c.clearComplete = true
  · have htrigger := State.pollLamp_triggers hs hc hr hh hgo.1 hgo.2 (by simp [State.canTrigger, ha, hl]) hn
    obtain ⟨h1, h2, h3, h4, h5, h6⟩ := s.triggerTry_leaves c
    rw [← htrigger] at h1 h2 h3 h4 h5 h6
    rw [h1] at hcsq
    refine ⟨?_, ?_, hcell h6 h5, fun h => absurd hgo (by rcases h with h | h <;> simp [h]), fun _ _ => ⟨?_, hawait.trans h2, hdown.trans h3, ?_⟩⟩
    · exact (congrArg Csq.ctx hcsq).trans hc
    · exact (congrArg Csq.frameReported hcsq).trans hf
    · exact congrArg Csq.state hcsq
    · rw [hwork, h4]
  · have hstill : s.pollLamp.csq = s.csq ∧ s.pollLamp.plates = s.plates ∧ s.pollLamp.dlt = s.dlt
        ∧ s.pollLamp.plr = s.plr ∧ s.pollLamp.mge = s.mge := by
      by_cases hoff : s.ltc.lamp = .off
      · rw [State.pollLamp_off hs hc hr hh hoff]
        simp
      · rw [State.pollLamp_waits hs hc hr hh hoff]
        · exact ⟨rfl, rfl, rfl, rfl, rfl⟩
        · by_cases hst : s.ltc.lamp = .steady
          · exact .inr (.inl (by simpa [hst] using hgo))
          · exact .inl hst
    obtain ⟨h1, h2, h3, h4, h5⟩ := hstill
    rw [h1] at hcsq
    refine ⟨?_, ?_, hcell h3 h2, fun _ => ⟨?_, hawait.trans (by rw [h4, ha]), ?_⟩, fun h1 h2 => absurd ⟨h1, h2⟩ hgo⟩
    · exact (congrArg Csq.ctx hcsq).trans hc
    · exact (congrArg Csq.frameReported hcsq).trans hf
    · exact (congrArg Csq.state hcsq).trans hs
    · rw [hwork, State.work, h5]
      rfl

/-! ## The end of a try -/

/-- The cell whose try has ended below its limit. -/
def CellRecord.tried (o : LastOutcome) (x : CellRecord) : CellRecord :=
  { x with triesUsed := x.triesUsed + 1, lastOutcome := o }

/-- The cell whose last try has ended. -/
def CellRecord.failedAt (o : LastOutcome) (x : CellRecord) : CellRecord :=
  { x with triesUsed := x.triesUsed + 1, lastOutcome := o, state := .failed, slot := none }

theorem State.endTry_below {o : LastOutcome} (hr : s.plate? c.cell.key = some r) (hx : s.cell? c.cell = some x)
    (hl : x.triesUsed + 1 < s.tryLimit r) : s.endTry c o =
      ((s.changeCell c.cell (CellRecord.tried o) id).beginTry r c.cell c.slot).setCsq .awaitLamp := by
  unfold State.endTry
  rw [hr, hx]
  exact if_pos hl

theorem State.endTry_atLimit {o : LastOutcome} (hr : s.plate? c.cell.key = some r) (hx : s.cell? c.cell = some x)
    (hl : s.tryLimit r ≤ x.triesUsed + 1) : s.endTry c o =
      ((s.changeCell c.cell (CellRecord.failedAt o) fun p => { p with failed := p.failed + 1 }).returnSlot
        c.slot).clearCsq := by
  unfold State.endTry
  rw [hr, hx]
  exact if_neg (Nat.not_lt.mpr hl)

theorem State.beginTry_csq (s : State) (r : PlateRecord) (d : CellRef) (k : SlotNo) :
    (s.beginTry r d k).csq = { s.csq with ctx := some (s.freshContext r d k), frameReported := false } := rfl

theorem State.beginTry_work (s : State) (r : PlateRecord) (d : CellRef) (k : SlotNo) : (s.beginTry r d k).work k =
    { WorkRecord.freed with
      state := .clearing, owner := some d, satThreshold := (s.freshContext r d k).satThreshold
      noiseFloor := (s.freshContext r d k).noiseFloor } := by
  change (State.onWork _ k _).work k = _
  rw [State.onWork_work, if_pos rfl]

/-- The context of a try depends on the tables alone. -/
theorem State.freshContext_congr {t : State} (hp : t.profiles = s.profiles) (hs : t.settings = s.settings)
    (r : PlateRecord) (d : CellRef) (k : SlotNo) : t.freshContext r d k = s.freshContext r d k := by
  unfold State.freshContext
  rw [hp, hs]

/-- A try that ends below the limit begins anew in its slot (R19). -/
theorem State.endTry_begins (base : List PlateRecord) {o : LastOutcome} (hr : s.plate? c.cell.key = some r)
    (hx : s.cell? c.cell = some x) (hh : r.holds.any = false) (hq : c.cell ∉ s.dlt.queue) (ha : s.plr.awaitedTag = none)
    (hd : s.plr.link ≠ .dropped) (hl : x.triesUsed + 1 < s.tryLimit r) :
    let t := (s.endTry c o).restTurn.closed base
    t.cell? c.cell = some (x.tried o) ∧ t.csq.state = .awaitLamp
      ∧ t.csq.ctx = some (s.freshContext r c.cell c.slot)
      ∧ (t.work c.slot).state = .clearing ∧ (t.work c.slot).list = [] ∧ (t.work c.slot).owner = some c.cell := by
  intro t
  have hend := State.endTry_below (o := o) hr hx hl
  have hctx : (s.endTry c o).csq.ctx = some (s.freshContext r c.cell c.slot) := by
    rw [hend]
    change ((s.changeCell c.cell (CellRecord.tried o) id).beginTry r c.cell c.slot).csq.ctx = _
    rw [State.beginTry_csq]
    exact congrArg some (State.freshContext_congr (by simp) (by simp) r c.cell c.slot)
  have hwork : (s.endTry c o).work c.slot = { WorkRecord.freed with
      state := .clearing, owner := some c.cell
      satThreshold := ((s.changeCell c.cell (CellRecord.tried o) id).freshContext r c.cell c.slot).satThreshold
      noiseFloor := ((s.changeCell c.cell (CellRecord.tried o) id).freshContext r c.cell c.slot).noiseFloor } := by
    rw [hend]
    exact State.beginTry_work ..
  have hplate : (s.endTry c o).plate? c.cell.key
      = some ((r.onCell c.cell.column c.cell.row (CellRecord.tried o)).settled s.tbu.clock) := by
    rw [hend]
    have h := State.plate?_changeCell (s := s) (f := CellRecord.tried o) PlateRecord.sameCells_id c.cell c.cell.key
    rw [hr, Option.map_some, if_pos rfl] at h
    exact h
  have hcell : (s.endTry c o).cell? c.cell = some (x.tried o) := by
    rw [hend]
    have h := State.cell?_changeCell (s := s) (f := CellRecord.tried o) (fun _ => ⟨rfl, rfl⟩) PlateRecord.sameCells_id
      c.cell c.cell
    rw [hx, Option.map_some, if_pos rfl] at h
    exact h
  have hdlt : (s.endTry c o).dlt = s.dlt := by
    rw [hend]
    simp
  have hplr : (s.endTry c o).plr = s.plr := by
    rw [hend]
    simp
  have hstate : (s.endTry c o).csq.state = .awaitLamp := by
    rw [hend]
    rfl
  have hreported : (s.endTry c o).csq.frameReported = false := by
    rw [hend]
    rfl
  have hturn := State.waits_or_triggers (s := s.endTry c o) (c := s.freshContext r c.cell c.slot) (x := x.tried o) base
    hstate hctx hreported hplate (by rw [(PlateRecord.settled_holds _ _).1]; exact hh) hcell (by rw [hdlt]; exact hq)
    (by rw [hplr]; exact ha) (by rw [hplr]; exact hd) (by
      change ((s.endTry c o).work c.slot).list.length < 16
      rw [hwork]
      exact Nat.zero_lt_succ _)
  obtain ⟨h1, -, h3, h4, -⟩ := hturn
  obtain ⟨h4, -, h5⟩ := h4 (.inr rfl)
  have hkept : t.work c.slot = (s.endTry c o).work c.slot := h5
  rw [hkept, hwork]
  exact ⟨h3, h4, h1, rfl, rfl, rfl⟩

/-- A cell that is PENDING under a key is found among the register's cells. -/
theorem State.hasPending_false {p : PlateRecord} (hp : p ∈ s.plates) (h : ∀ z ∈ s.cells, z.2.state ≠ .pending) :
    p.hasPending = false := by
  rw [PlateRecord.hasPending, List.any_eq_false]
  intro y hy
  simpa using h (⟨p.key, y.column, y.row⟩, y) (State.mem_cells.mpr ⟨p, hp, hy, rfl⟩)

/-- A try that ends at the limit leaves the cell FAILED, and its slot at rest where no other cell is captured. -/
theorem State.endTry_ends (base : List PlateRecord) {o : LastOutcome} (hlaw : s.registerLaw)
    (hr : s.plate? c.cell.key = some r) (hx : s.cell? c.cell = some x) (hq : c.cell ∉ s.dlt.queue)
    (hl : s.tryLimit r ≤ x.triesUsed + 1) :
    let t := (s.endTry c o).restTurn.closed base
    t.cell? c.cell = some (x.failedAt o) ∧ (t.plate? c.cell.key).map (·.failed) = some (r.failed + 1)
      ∧ ((∀ z ∈ s.cells, z.2.state ≠ .pending) →
          t.csq.state = .idle ∧ t.csq.ctx = none ∧ t.fsc.held.get c.slot = false ∧ (t.work c.slot).state = .free) := by
  intro t
  have hend := State.endTry_atLimit (o := o) hr hx hl
  have hgrow (p : PlateRecord) : p.SameCells { p with failed := p.failed + 1 } := ⟨rfl, rfl, rfl, rfl, rfl, rfl⟩
  have hplates : (s.endTry c o).plates
      = (s.changeCell c.cell (CellRecord.failedAt o) fun p => { p with failed := p.failed + 1 }).plates := by
    rw [hend]
    simp
  have hcell : (s.endTry c o).cell? c.cell = some (x.failedAt o) := by
    have h := State.cell?_changeCell (s := s) (f := CellRecord.failedAt o) (fun _ => ⟨rfl, rfl⟩) hgrow c.cell c.cell
    rw [hx, Option.map_some, if_pos rfl] at h
    simpa only [State.cell?, State.plate?, hplates] using h
  have hfailed : ((s.endTry c o).plate? c.cell.key).map (·.failed) = some (r.failed + 1) := by
    have h := State.plate?_changeCell (s := s) (f := CellRecord.failedAt o) hgrow c.cell c.cell.key
    rw [hr, Option.map_some, if_pos rfl] at h
    simp only [State.plate?, hplates] at h ⊢
    rw [h, Option.map_some, (PlateRecord.settled_holds _ _).2.2]
    rfl
  have hcsq : (s.endTry c o).csq.state = .idle ∧ (s.endTry c o).csq.ctx = none := by
    rw [hend]
    exact ⟨rfl, rfl⟩
  have hkeys : ((s.endTry c o).plates.map (·.key)).Nodup := by
    rw [Reworks.keys ((withins_endTry s c o).imp fun _ _ h => h.toReworked)]
    exact hlaw.2.1
  have hdlt : (s.endTry c o).dlt = s.dlt := by
    rw [hend]
    simp
  have hrest : (s.endTry c o).SlotAtRest c.slot := by
    rw [hend]
    exact (State.returnSlot_atRest _ c.slot).congr rfl rfl rfl
  obtain ⟨hcell', hfailed', -, -⟩ := State.restTurn_leaves (s := s.endTry c o) hcsq.1 hcsq.2 hkeys hcell nofun
  have hdlt' : (s.endTry c o).restTurn.dlt = s.dlt := by
    rw [← hdlt]
    simp [State.restTurn]
  refine ⟨?_, ?_, fun hnone => ?_⟩
  · rw [State.closed_cell? base (by rw [hdlt']; exact hq)]
    exact hcell'
  · rw [State.closed_failed, hfailed', hfailed]
  · have hcap : (s.endTry c o).capturable? = none := by
      rw [State.capturable?_eq_none]
      intro p hp _ _
      rw [hplates, changeCell_plates] at hp
      obtain ⟨p', hp', rfl⟩ := List.mem_map.mp hp
      have hno := State.hasPending_false hp' hnone
      split
      · rw [PlateRecord.hasPending, (PlateRecord.sameCells_settled _ _).cells, List.any_eq_false]
        intro y hy
        obtain ⟨z, hz, rfl⟩ := PlateRecord.mem_onCell.mp hy
        split
        · exact Bool.false_ne_true
        · exact List.any_eq_false.mp hno z hz
      · exact hno
    have hstill : (s.endTry c o).restTurn = s.endTry c o := by
      obtain ⟨q, -, hturn, -, hq⟩ | ⟨p, _, _, hp, -⟩ := State.restTurn_cases (s := s.endTry c o) hcsq.1
      · rw [hturn, hq hcap]
      · rw [hcap] at hp
        cases hp
    obtain ⟨h1, h2, h3, -⟩ := (s.endTry c o).restTurn.closed_blocks base
    rw [hstill] at h1 h2 h3
    change ((s.endTry c o).restTurn.closed base).csq.state = _ ∧ ((s.endTry c o).restTurn.closed base).csq.ctx = _
      ∧ ((s.endTry c o).restTurn.closed base).fsc.held.get c.slot = _
      ∧ (((s.endTry c o).restTurn.closed base).mge.work.get c.slot).state = _
    rw [hstill, h1, h2, h3]
    exact ⟨hcsq.1, hcsq.2, hrest.held, hrest.work⟩

/-! ## The hand-over -/

theorem State.queuePass_work {k : SlotNo} {n : Nat} (hk : k ∉ s.mge.queue) :
    ((s.queuePass k n).work k).qceil = some n ∧ ((s.queuePass k n).work k).list = (s.work k).list
      ∧ ((s.queuePass k n).work k).state = (if s.mge.queue = [] then .running else .queued)
      ∧ (s.queuePass k n).mge.queue = s.mge.queue ++ [k] := by
  have hwork : ((s.onWork k fun w => { w with state := .queued, qceil := some n }).onMge fun m =>
      { m with queue := m.queue ++ [k] }).work k = { s.work k with state := .queued, qceil := some n } := by
    change (s.onWork k fun w => { w with state := .queued, qceil := some n }).work k = _
    rw [State.onWork_work, if_pos rfl]
  have hqueue : ((s.onWork k fun w => { w with state := .queued, qceil := some n }).onMge fun m =>
      { m with queue := m.queue ++ [k] }).mge.queue = s.mge.queue ++ [k] := by
    simp [State.onMge]
  have hq : (s.queuePass k n).mge.queue = s.mge.queue ++ [k] := by
    rw [State.queuePass, (State.startPass_frame _).2.2.2.2.2.2.2.2.2.2.2.2.2.2.2, hqueue]
  cases hmq : s.mge.queue with
  | nil =>
    rw [hmq] at hq hqueue
    have hstart : (s.queuePass k n).work k = { s.work k with
        state := .running, qceil := some n, rowsFinalized := 0, histogram := List.replicate 64 0
        passClipLight := 0, passClipDark := 0, passDead := 0 } := by
      unfold State.queuePass State.startPass
      rw [hqueue]
      dsimp only [List.nil_append]
      rw [hwork, if_pos rfl, State.onWork_work, if_pos rfl, hwork]
    rw [hstart, if_pos rfl]
    exact ⟨rfl, rfl, rfl, hq⟩
  | cons j rest =>
    have hstart : (s.queuePass k n).work k = { s.work k with state := .queued, qceil := some n } := by
      unfold State.queuePass
      rw [State.startPass_work_of_not_head, hwork]
      rw [hqueue, hmq]
      intro h
      exact hk (by rw [hmq, ← Option.some.inj h]; exact List.mem_cons_self ..)
    rw [hstart, if_neg (List.cons_ne_nil _ _), ← hmq]
    exact ⟨rfl, rfl, rfl, hq⟩

/-- The cell handed over to its pass. -/
def CellRecord.handed (x : CellRecord) : CellRecord := { x with state := .finalizing }

theorem State.handOver_ends (base : List PlateRecord) (hlaw : s.registerLaw) (hr : s.plate? c.cell.key = some r)
    (hx : s.cell? c.cell = some x) (hq : c.cell ∉ s.dlt.queue) (hheld : s.fsc.held.get c.slot = true)
    (hk : c.slot ∉ s.mge.queue) :
    let t := (s.handOver c).restTurn.closed base
    t.cell? c.cell = some x.handed ∧ t.mge.queue = s.mge.queue ++ [c.slot]
      ∧ (t.work c.slot).qceil = some (s.profiles.get r.profile).qceil ∧ (t.work c.slot).list = (s.work c.slot).list
      ∧ (t.work c.slot).state = (if s.mge.queue = [] then .running else .queued)
      ∧ ∀ c2, t.csq.ctx = some c2 → c2.cell ≠ c.cell := by
  intro t
  have hover : s.handOver c = ((s.changeCell c.cell CellRecord.handed id).queuePass c.slot
      (s.profiles.get r.profile).qceil).clearCsq := by
    unfold State.handOver
    rw [hr]
    rfl
  obtain ⟨h1, h2, h3, h4⟩ := State.queuePass_work (s := s.changeCell c.cell CellRecord.handed id)
    (n := (s.profiles.get r.profile).qceil) (k := c.slot) (by simpa using hk)
  have hcell : (s.handOver c).cell? c.cell = some x.handed := by
    have h := State.cell?_changeCell (s := s) (f := CellRecord.handed) (fun _ => ⟨rfl, rfl⟩) PlateRecord.sameCells_id
      c.cell c.cell
    rw [hx, Option.map_some, if_pos rfl] at h
    have hplates : (s.handOver c).plates = (s.changeCell c.cell CellRecord.handed id).plates := by
      rw [hover]
      simp
    simpa only [State.cell?, State.plate?, hplates] using h
  have hkeys : ((s.handOver c).plates.map (·.key)).Nodup := by
    rw [Reworks.keys ((withins_handOver s c).imp fun _ _ h => h.toReworked)]
    exact hlaw.2.1
  have hdlt : (s.handOver c).restTurn.dlt = s.dlt := by
    rw [hover]
    simp [State.restTurn]
  have hheld' : (s.handOver c).fsc.held.get c.slot = true := by
    rw [hover]
    simpa using hheld
  have hqueue : (s.handOver c).restTurn.mge.queue = (s.handOver c).mge.queue := by
    simp [State.restTurn]
  obtain ⟨hcell', -, hctx, hwork⟩ := State.restTurn_leaves (s := s.handOver c) (by rw [hover]; rfl) (by rw [hover]; rfl)
    hkeys hcell nofun
  obtain ⟨hcsq, hmge, -⟩ := (s.handOver c).restTurn.closed_blocks base
  have hw : t.work c.slot = ((s.changeCell c.cell CellRecord.handed id).queuePass c.slot
      (s.profiles.get r.profile).qceil).work c.slot := by
    have h := hwork c.slot hheld'
    rw [hover] at h
    rw [State.work, hmge, hover]
    exact h
  have hlist : (s.changeCell c.cell CellRecord.handed id).work c.slot = s.work c.slot := by simp [State.work]
  have hsame : (s.changeCell c.cell CellRecord.handed id).mge.queue = s.mge.queue := by simp
  rw [hw]
  rw [hlist] at h2
  rw [hsame] at h3 h4
  refine ⟨?_, ?_, h1, h2, h3, fun c2 hc2 => hctx c2 ?_⟩
  · rw [State.closed_cell? base (by rw [hdlt]; exact hq)]
    exact hcell'
  · change ((s.handOver c).restTurn.closed base).mge.queue = _
    rw [hmge, hqueue, hover]
    exact h4
  · rw [← hcsq]
    exact hc2

end Sys2Proof.Machine
end

section
/-! PROOFS. REVIEW at the event at which the last handed row of a reported frame is merged (R51 to R56, R72). -/

namespace Sys2Proof.Machine
-- One proof at a time: under the memory limit of the check there is no room for the stacks of many threads.
set_option Elab.async false

variable {s w : State} {c : TryContext} {r : PlateRecord} {x : CellRecord} {k : SlotNo}

/-- A state in which a review decides: but for the sequencer and the merged row it is as it was. -/
structure State.AtReview (s w : State) (k : SlotNo) : Prop where
  plates : w.plates = s.plates
  profiles : w.profiles = s.profiles
  settings : w.settings = s.settings
  geometry : w.geometry = s.geometry
  ltc : w.ltc = s.ltc
  dlt : w.dlt = s.dlt
  awaited : w.plr.awaitedTag = s.plr.awaitedTag
  link : w.plr.link = s.plr.link
  tag : w.plr.tagCounter = s.plr.tagCounter
  held : w.fsc.held = s.fsc.held
  queue : w.mge.queue = s.mge.queue
  list : (w.work k).list = (s.work k).list

theorem State.AtReview.onCsq (h : s.AtReview w k) (f : Csq → Csq) : s.AtReview (w.onCsq f) k :=
  ⟨h.plates, h.profiles, h.settings, h.geometry, h.ltc, h.dlt, h.awaited, h.link, h.tag, h.held, h.queue, h.list⟩

theorem State.AtReview.plate? (h : s.AtReview w k) (key : PlateKey) : w.plate? key = s.plate? key := by
  simp only [State.plate?, h.plates]

theorem State.AtReview.cell? (h : s.AtReview w k) (d : CellRef) : w.cell? d = s.cell? d := by
  simp only [State.cell?, h.plate?]

theorem State.AtReview.tryLimit (h : s.AtReview w k) (r : PlateRecord) : w.tryLimit r = s.tryLimit r := by
  simp only [State.tryLimit, h.profiles]

theorem State.AtReview.cells (h : s.AtReview w k) : w.cells = s.cells := by simp only [State.cells, h.plates]

/-- What stands of the cell under review (R44 to R51): its plate, not held, its record, its slot, and no awaited frame. -/
structure State.Reviewable (s : State) (c : TryContext) (r : PlateRecord) (x : CellRecord) : Prop where
  law : s.registerLaw
  plate : s.plate? c.cell.key = some r
  cell : s.cell? c.cell = some x
  free : r.holds.any = false
  undelivered : c.cell ∉ s.dlt.queue
  held : s.fsc.held.get c.slot = true
  unawaited : s.plr.awaitedTag = none
  link : s.plr.link ≠ .dropped

/-- A try that goes on: its next exposure waits for the lamp, or is triggered under a STEADY one over a cleared slot. -/
abbrev State.GoesOn (s t : State) (c : TryContext) (x : CellRecord) (c2 : TryContext) : Prop :=
  t.csq.ctx = some c2 ∧ t.csq.frameReported = false ∧ t.cell? c.cell = some x
    ∧ (s.ltc.lamp ≠ .steady → t.csq.state = .awaitLamp ∧ t.plr.awaitedTag = none
        ∧ (t.work c.slot).list = (s.work c.slot).list)
    ∧ (s.ltc.lamp = .steady → c.clearComplete = true → t.csq.state = .exposing
        ∧ t.plr.awaitedTag = some (s.plr.tagCounter + 1)
        ∧ t.plr.downlink = some { tag := s.plr.tagCounter + 1, time := c2.nominal, lamp := .steady }
        ∧ (t.work c.slot).list = (s.work c.slot).list ++ [c2.exposure (s.work c.slot).list.length])

theorem State.AtReview.goesOn (h : s.AtReview w c.slot) (hv : s.Reviewable c r x) (hc : w.csq.ctx = some c)
    (hf : w.csq.frameReported = false) {f : TryContext → TryContext} {c2 : TryContext} (hc2 : f c = c2)
    (hcell : c2.cell = c.cell) (hslot : c2.slot = c.slot) (hclear : c2.clearComplete = c.clearComplete)
    (hn : (s.work c.slot).list.length < 16) (base : List PlateRecord) :
    s.GoesOn (((w.onCtx f).nextTrigger c).restTurn.closed base) c x c2 := by
  have hnext : (w.onCtx f).nextTrigger c = (w.onCtx f).setCsq .awaitLamp := by
    unfold State.nextTrigger
    refine if_neg (Nat.not_le.mpr ?_)
    change (w.work c.slot).list.length < 16
    rw [h.list]
    exact hn
  have hctx : ((w.onCtx f).setCsq .awaitLamp).csq.ctx = some c2 := by
    change w.csq.ctx.map f = _
    rw [hc, Option.map_some, hc2]
  have hlist : (((w.onCtx f).setCsq .awaitLamp).work c2.slot).list = (s.work c.slot).list := by
    rw [hslot]
    exact h.list
  have hturn := State.waits_or_triggers (s := (w.onCtx f).setCsq .awaitLamp) (c := c2) (r := r) (x := x) base rfl hctx hf
    (by rw [hcell]; exact (h.plate? _).trans hv.plate) hv.free (by rw [hcell]; exact (h.cell? _).trans hv.cell)
    (by rw [hcell, show ((w.onCtx f).setCsq .awaitLamp).dlt = s.dlt from h.dlt]; exact hv.undelivered)
    (h.awaited.trans hv.unawaited)
    (by rw [show ((w.onCtx f).setCsq .awaitLamp).plr.link = s.plr.link from h.link]; exact hv.link) (by rw [hlist]; exact hn)
  rw [hnext]
  obtain ⟨h1, h2, h3, h4, h5⟩ := hturn
  rw [hcell] at h3
  rw [hlist, hslot, show ((w.onCtx f).setCsq .awaitLamp).plr.tagCounter = s.plr.tagCounter from h.tag] at h5
  have hlamp : ((w.onCtx f).setCsq .awaitLamp).ltc = s.ltc := h.ltc
  rw [hlamp, hclear] at h5
  rw [hlamp] at h4
  refine ⟨h1, h2, h3, fun hl => ?_, h5⟩
  obtain ⟨h6, h7, h8⟩ := h4 (.inl hl)
  rw [hslot] at h8
  exact ⟨h6, h7, (congrArg WorkRecord.list h8).trans h.list⟩

/-- What ends a try below its limit, and at it (R19, R54). -/
abbrev State.TryEnds (s t : State) (c : TryContext) (r : PlateRecord) (x : CellRecord) (o : LastOutcome) : Prop :=
  (x.triesUsed + 1 < s.tryLimit r →
      t.cell? c.cell = some (x.tried o) ∧ t.csq.state = .awaitLamp ∧ (t.work c.slot).state = .clearing
        ∧ (t.work c.slot).list = [] ∧ (t.work c.slot).owner = some c.cell
        ∧ t.csq.ctx = some (s.freshContext r c.cell c.slot))
    ∧ (s.tryLimit r ≤ x.triesUsed + 1 →
        t.cell? c.cell = some (x.failedAt o) ∧ (t.plate? c.cell.key).map (·.failed) = some (r.failed + 1)
          ∧ ((∀ z ∈ s.cells, z.2.state ≠ .pending) →
              t.csq.state = .idle ∧ t.csq.ctx = none ∧ t.fsc.held.get c.slot = false
                ∧ (t.work c.slot).state = .free))

theorem State.AtReview.tryEnds (h : s.AtReview w c.slot) (hv : s.Reviewable c r x) (o : LastOutcome)
    (base : List PlateRecord) : s.TryEnds ((w.endTry c o).restTurn.closed base) c r x o := by
  have hr : w.plate? c.cell.key = some r := (h.plate? _).trans hv.plate
  have hx : w.cell? c.cell = some x := (h.cell? _).trans hv.cell
  have hq : c.cell ∉ w.dlt.queue := by rw [h.dlt]; exact hv.undelivered
  refine ⟨fun hl => ?_, fun hl => ?_⟩
  · obtain ⟨h1, h2, h3, h4, h5, h6⟩ := State.endTry_begins (s := w) (o := o) base hr hx hv.free hq
      (h.awaited.trans hv.unawaited) (by rw [h.link]; exact hv.link) (by rw [h.tryLimit]; exact hl)
    rw [State.freshContext_congr h.profiles h.settings] at h3
    exact ⟨h1, h2, h4, h5, h6, h3⟩
  · have hlaw : w.registerLaw := by
      have hl := hv.law
      simpa only [State.registerLaw, h.plates] using hl
    have hend := State.endTry_ends (s := w) (o := o) base hlaw hr hx hq (by rw [h.tryLimit]; exact hl)
    rwa [h.cells] at hend

/-- What a full list does to a try that wants a further trigger (R54). -/
theorem State.AtReview.listFull (h : s.AtReview w c.slot) (hn : 16 ≤ (s.work c.slot).list.length)
    (f : TryContext → TryContext) : (w.onCtx f).nextTrigger c = (w.onCtx f).endTry c .listFull := by
  unfold State.nextTrigger
  refine if_pos ?_
  change 16 ≤ (w.work c.slot).list.length
  rw [h.list]
  exact hn

/-! ## The verdict -/

theorem reviewVerdict_accept {e : Exposure} {single : Bool} {allowance : Nat}
    (h : e.outcome = .merged ∨ (e.outcome = .patched ∧ (single = true ∨ e.torn.getD 0 ≤ allowance))) :
    reviewVerdict single allowance e = .accept := by
  unfold reviewVerdict
  rcases h with h | ⟨h, ht⟩
  · rw [h]
  · rw [h]
    exact if_pos (by simpa using ht)

theorem reviewVerdict_stops {e : Exposure} {single : Bool} {allowance : Nat} (h : e.outcome = .unsteady ∧ single = true) :
    reviewVerdict single allowance e = .giveUp := by
  unfold reviewVerdict
  rw [h.1, h.2]
  rfl

theorem reviewVerdict_again {e : Exposure} {single : Bool} {allowance : Nat}
    (h : ¬ (e.outcome = .merged ∨ (e.outcome = .patched ∧ (single = true ∨ e.torn.getD 0 ≤ allowance))))
    (hs : ¬ (e.outcome = .unsteady ∧ single = true)) : reviewVerdict single allowance e = .again := by
  unfold reviewVerdict
  split
  · exact absurd (.inl ‹_›) h
  · exact if_neg fun ht => h (.inr ⟨‹_›, by simpa using ht⟩)
  · exact if_neg fun ht => hs ⟨‹_›, ht⟩
  all_goals rfl

theorem tornAllowance_eq {l : LinkState} (h : l ≠ .dropped) : tornAllowance l = if l = .guarded then 0 else 4 := by
  cases l <;> first | rfl | exact absurd rfl h

/-! ## The event -/

/-- The state in which the review finds its merged row. -/
def State.rowMerged (s : State) (k : SlotNo) (o y : Nat) (codes : List CameraCode) : State :=
  (s.accessDone.mergeDone k o y codes).takeDiscards

theorem State.rowMerged_work (s : State) (k : SlotNo) (o y : Nat) (codes : List CameraCode) :
    (s.rowMerged k o y codes).work k = (s.work k).recounted (s.accumRow k y) (s.mergedRow k o y codes) := by
  have hwork : (s.rowMerged k o y codes).work k = (s.accessDone.mergeDone k o y codes).work k := by
    simp [State.rowMerged, State.work]
  rw [hwork]
  exact setAt_get_self _ _ _

theorem State.rowMerged_queue (s : State) (k : SlotNo) (o y : Nat) (codes : List CameraCode) :
    (s.rowMerged k o y codes).plr.queue.Sublist s.plr.queue := by
  unfold State.rowMerged State.takeDiscards
  split
  · exact List.Sublist.refl _
  · exact List.dropWhile_sublist _

theorem State.atReview_rowMerged (s : State) (k : SlotNo) (o y : Nat) (codes : List CameraCode) :
    s.AtReview (s.rowMerged k o y codes) k := by
  refine ⟨?_, ?_, ?_, ?_, ?_, ?_, ?_, ?_, ?_, ?_, ?_, ?_⟩
  case refine_12 => rw [State.rowMerged_work]; rfl
  all_goals simp [State.rowMerged]

/-- The merge of the last handed row of a reported frame ends in its review. -/
theorem State.rowEnded_review {o y : Nat} {codes : List CameraCode} (hq : s.csq.state = .readout)
    (hf : s.csq.frameReported = true) (hc : s.csq.ctx = some c) (hrows : ∀ z ∈ s.plr.queue, z.isCapture = false)
    (hop : s.cal.op = none) : s.rowEnded (.merge c.slot o y codes)
      = ((s.rowMerged c.slot o y codes).review c).restTurn.closed s.plates := by
  have hcsq : (s.rowMerged c.slot o y codes).csq = s.csq := by simp [State.rowMerged]
  have hcal : (s.rowMerged c.slot o y codes).pollCal = s.rowMerged c.slot o y codes :=
    State.pollCal_of_noOp (by simpa [State.rowMerged] using hop)
  have hmerged : (s.rowMerged c.slot o y codes).pollMerged = (s.rowMerged c.slot o y codes).review c := by
    unfold State.pollMerged
    rw [hcsq, hc]
    refine if_pos ⟨hq, hf, ?_, ?_⟩
    · rw [List.all_eq_true]
      intro z hz
      rw [hrows z ((s.rowMerged_queue ..).subset hz)]
      rfl
    · have hfree : (s.rowMerged c.slot o y codes).fsc.access = none := by
        simp [State.rowMerged]
        rfl
      simp [State.busyWith, hfree]
  rw [State.rowEnded, State.pollAll]
  change ((s.rowMerged c.slot o y codes).pollCal.pollCsq.pollDelivery.arbitrate).announce s.plates = _
  rw [hcal, State.pollCsq, hmerged]
  rfl

/-- A review by its verdict. -/
theorem State.review_eq {v : State} {e : Exposure} (h : (v.work c.slot).list.getLast? = some e) :
    v.review c = match reviewVerdict c.singleTry (tornAllowance v.plr.link) e with
      | .accept => (v.onCsq fun q => { q with state := .review, frameReported := false }).acceptExposure c
      | .again => (v.onCsq fun q => { q with state := .review, frameReported := false }).repeatRung c
      | .giveUp => (v.onCsq fun q => { q with state := .review, frameReported := false }).endTry c .repeats := by
  unfold State.review
  cases hv : reviewVerdict c.singleTry (tornAllowance v.plr.link) e <;> simp only [h, hv]

theorem TryContext.raiseRepeat_same (c : TryContext) : c.raiseRepeat.cell = c.cell ∧ c.raiseRepeat.slot = c.slot
    ∧ c.raiseRepeat.clearComplete = c.clearComplete := by
  unfold TryContext.raiseRepeat
  split <;> exact ⟨rfl, rfl, rfl⟩

theorem State.acceptExposure_next {i : Nat} {n : LadderRung} (hi : c.rung = .step i) (hn : nextRung c.ladder i = some n) :
    w.acceptExposure c = (w.onCtx fun z => { z with rung := .step n.index }).nextTrigger c := by
  unfold State.acceptExposure
  rw [hi]
  dsimp only
  rw [hn]

theorem State.acceptExposure_last (hi : ∃ i, c.rung = .step i ∧ nextRung c.ladder i = none) :
    w.acceptExposure c = w.decideExtension c := by
  obtain ⟨i, hi, hn⟩ := hi
  unfold State.acceptExposure
  rw [hi]
  dsimp only
  rw [hn]

theorem State.acceptExposure_ext (h : c.rung = .ext) : w.acceptExposure c = w.handOver c := by
  unfold State.acceptExposure
  rw [h]

theorem TryContext.wantsExtension_iff (c : TryContext) (starved pixels : Nat) : c.wantsExtension starved pixels = true
    ↔ 0 < c.extThreshold ∧ c.extTaken = false ∧ c.nominal < min (4 * c.nominal) c.extCap
      ∧ c.extThreshold * pixels < starved * 1000 := by
  simp only [TryContext.wantsExtension, Bool.and_eq_true, decide_eq_true_eq, Bool.not_eq_true']
  unfold TryContext.extensionTime
  tauto

/-- A repeat of the rung, at most twice (R52). -/
theorem State.repeatRung_below (h : c.repeatCount < 2) : w.repeatRung c = (w.onCtx TryContext.raiseRepeat).nextTrigger c :=
  if_neg (Nat.not_le.mpr h)

theorem State.repeatRung_over (h : 2 ≤ c.repeatCount) : w.repeatRung c = w.endTry c .repeats := if_pos h

/-- Settles O32: the review of the latest exposure, by its outcome, the rung, the repeats and the list. -/
theorem reviewDecides : Obligations.ReviewDecides := by
  intro s o y codes c e r x ha hstate hf hc hrows hop hlast hlaw hr hx hholds hq hheld hawait hlink list p limit allowance
    accepted stops lastRung longer merged dead starvedOnly extended
  have hended := State.rowEnded_review (o := o) (y := y) (codes := codes) hstate hf hc hrows hop
  have hv : s.Reviewable c r x := ⟨hlaw, hr, (State.cell?_of_plate hr).trans hx, hholds, hq, hheld, hawait, hlink⟩
  have hreview := s.atReview_rowMerged c.slot o y codes
  have hwork := s.rowMerged_work c.slot o y codes
  have hcsq : (s.rowMerged c.slot o y codes).csq = s.csq := by simp [State.rowMerged]
  have hgeo := hreview.geometry
  have hlist := hreview.list
  have hports := (s.rowEnded_tables (.merge c.slot o y codes)).2.2.2.2.2.2
  refine ⟨_, State.exec_rowUsed ha rfl, hports, ?_⟩
  rw [hended]
  generalize s.rowMerged c.slot o y codes = v at *
  have hverdict := State.review_eq (c := c) (v := v) (e := e) (by rw [hlist]; exact hlast)
  rw [hreview.link, tornAllowance_eq hlink] at hverdict
  have hat := hreview.onCsq fun q => { q with state := .review, frameReported := false }
  have hctx : (v.onCsq fun q => { q with state := .review, frameReported := false }).csq.ctx = some c := by
    rw [← hc, ← hcsq]
    rfl
  have hcounts : (v.onCsq fun q => { q with state := .review, frameReported := false }).work c.slot
      = (s.work c.slot).recounted (s.accumRow c.slot y) (s.mergedRow c.slot o y codes) := hwork
  have hsize : (v.onCsq fun q => { q with state := .review, frameReported := false }).geometry = s.geometry := hgeo
  have hfresh : (v.onCsq fun q => { q with state := .review, frameReported := false }).csq.frameReported = false := rfl
  generalize (v.onCsq fun q => { q with state := .review, frameReported := false }) = w at hverdict hat hctx hcounts hsize hfresh
  have haccept (h : accepted) : v.review c = w.acceptExposure c := by
    rw [hverdict, reviewVerdict_accept h]
  have hagain (h : ¬ accepted) (hs : ¬ stops) : v.review c = w.repeatRung c := by
    rw [hverdict, reviewVerdict_again h hs]
  have hstops (h : stops) : v.review c = w.endTry c .repeats := by
    rw [hverdict, reviewVerdict_stops h]
  have hextension : w.decideExtension c = if extended then
      (w.onCtx fun z => { z with extTaken := true, rung := .ext, extTime := longer }).nextTrigger c else w.handOver c := by
    unfold State.decideExtension
    dsimp only
    rw [hcounts, hsize]
    exact if_congr (c.wantsExtension_iff _ _) rfl rfl
  intro goesOn ends
  have hends {z : State} {o : LastOutcome} (hz : s.AtReview z c.slot) (hr : v.review c = z.endTry c o) : ends o := by
    obtain ⟨hbelow, hover⟩ := hz.tryEnds hv o s.plates
    rw [← hr] at hbelow hover
    refine ⟨fun hl => ?_, hover⟩
    obtain ⟨h1, h2, h3, h4, h5, h6⟩ := hbelow hl
    exact ⟨h1, h2, h3, h4, h5, _, h6, rfl, rfl, rfl, rfl, rfl, fun n hn => (List.mem_replicate.mp hn).2, rfl, rfl⟩
  have hfull (f : TryContext → TryContext) (hn : 16 ≤ list.length) (hr : v.review c = (w.onCtx f).nextTrigger c) :
      ends .listFull :=
    hends (hat.onCsq fun q => { q with ctx := q.ctx.map f }) (hr.trans (hat.listFull hn f))
  refine ⟨fun i n hacc hi hn hlen => ?_, fun hacc hl hext hlen => ?_, fun hacc hs hrep hlen => ?_, fun hlen h => ?_,
    fun h => ?_, fun hacc h hnot => ?_⟩
  · change s.GoesOn ((v.review c).restTurn.closed s.plates) c x { c with rung := .step n.index }
    rw [haccept hacc, State.acceptExposure_next hi hn]
    exact hat.goesOn hv hctx hfresh rfl rfl rfl rfl hlen s.plates
  · change s.GoesOn ((v.review c).restTurn.closed s.plates) c x { c with extTaken := true, rung := .ext, extTime := longer }
    rw [haccept hacc, State.acceptExposure_last hl, hextension, if_pos hext]
    exact hat.goesOn hv hctx hfresh rfl rfl rfl rfl hlen s.plates
  · obtain ⟨h1, h2, h3⟩ := c.raiseRepeat_same
    change s.GoesOn ((v.review c).restTurn.closed s.plates) c x c.raiseRepeat
    rw [hagain hacc hs, State.repeatRung_below hrep]
    exact hat.goesOn hv hctx hfresh rfl h1 h2 h3 hlen s.plates
  · rcases h with ⟨hacc, i, n, hi, hn⟩ | ⟨hacc, hl, hext⟩ | ⟨hacc, hs, hrep⟩
    · exact hfull _ hlen ((haccept hacc).trans (State.acceptExposure_next hi hn))
    · exact hfull _ hlen ((haccept hacc).trans ((State.acceptExposure_last hl).trans (hextension.trans (if_pos hext))))
    · exact hfull _ hlen ((hagain hacc hs).trans (State.repeatRung_below hrep))
  · by_cases hs : stops
    · exact hends hat (hstops hs)
    · obtain ⟨hacc, hrep⟩ := h.resolve_left hs
      exact hends hat ((hagain hacc hs).trans (State.repeatRung_over hrep))
  · have hover : v.review c = w.handOver c := by
      rw [haccept hacc]
      rcases h with h | ⟨hl, hext⟩
      · exact State.acceptExposure_ext h
      · rw [State.acceptExposure_last hl, hextension, if_neg hext]
    have hwlaw : w.registerLaw := by simpa only [State.registerLaw, hat.plates] using hlaw
    have hhand := State.handOver_ends (s := w) s.plates hwlaw ((hat.plate? _).trans hr)
      ((hat.cell? _).trans hv.cell) (by rw [hat.dlt]; exact hq) (by rw [hat.held]; exact hheld) (by rw [hat.queue]; exact hnot)
    rw [hat.queue, hat.profiles, hat.list] at hhand
    rw [hover]
    exact hhand

end Sys2Proof.Machine
end

section
/-! PROOFS. The timers of the lamp, the window's start and its samples, and the timers of a restarted lamp (R33, R34,
R106, R123, R124, R128, R129, R131). -/

namespace Sys2Proof.Machine
-- One proof at a time: under the memory limit of the check there is no room for the stacks of many threads.
set_option Elab.async false

section

variable {s : State}

/-! ## The events that change the lamp's block alone -/

theorem exec_warmUpExpiry {p : Nat} (h : s.tbu.timers.warmUp = some p) : exec .warmUpExpiry s = .next { s with
    ltc := { s.ltc with phase := some .checking }
    tbu := { s.tbu with timers := { s.tbu.timers with warmUp := none, check := some 100000 } } } := by
  change execWarmUpExpiry s = _
  unfold execWarmUpExpiry
  rw [h]
  rfl

theorem exec_shutterRise {r : Reading} (ha : s.plr.awaitedTag ≠ none) (hs : s.plr.shutterSeen = false) :
    exec (.shutterRise r) s = .next { s with
      plr := { s.plr with shutterSeen := true }
      ltc := { s.ltc with windowOpen := true, windowSum := r.toNat, windowSamples := 1,
                          steadyThroughout := s.ltc.lamp == .steady } } :=
  if_pos ⟨Option.isSome_iff_ne_none.mpr ha, hs⟩

theorem exec_monitorSample {r : Reading} (h : s.ltc.windowOpen = true) : exec (.monitorSample r) s = .next { s with
    ltc := { s.ltc with windowSum := s.ltc.windowSum + r.toNat, windowSamples := s.ltc.windowSamples + 1 } } :=
  if_pos h

/-! ## The idle timer -/

theorem State.lampSwitchOff_raised (h : s.ltc.lamp ≠ .off) (cause : LampCause) : (s.lampSwitchOff cause).raised
    = s.raised ++ [.lamp .off s.ltc.lamp 0 s.ltc.last cause] := by
  unfold State.lampSwitchOff
  split
  next hoff => exact absurd hoff h
  next => rfl

theorem LampState.ne_off_of_lit {l : LampState} (h : l.lit = true) : l ≠ .off := fun he => by simp [he, LampState.lit] at h

/-- The idle timer of a lit lamp that no trigger waits for switches it off (R128). -/
theorem exec_idleTimerExpiry {p : Nat} (h : s.tbu.timers.idle = some p) (hl : s.ltc.lamp.lit = true)
    (hc : s.csq.state ≠ .awaitLamp) : exec .idleTimerExpiry s = .next (s.lampSwitchOff .idle).flush := by
  have hpoll : (s.lampSwitchOff .idle).pollLamp = s.lampSwitchOff .idle :=
    State.pollLamp_of_state (by rw [State.lampSwitchOff_eq]; exact hc)
  change execIdleTimerExpiry s = _
  unfold execIdleTimerExpiry
  rw [h]
  exact (if_pos hl).trans (by rw [hpoll])

theorem idleTimerExpiry_switchesOff {p : Nat} (h : s.tbu.timers.idle = some p) (hl : s.ltc.lamp.lit = true)
    (hc : s.csq.state ≠ .awaitLamp) : ∃ t, exec .idleTimerExpiry s = .next t ∧ s.portsNoticed t
      ∧ (s.quiet → s.offered t [.lamp .off s.ltc.lamp 0 s.ltc.last .idle])
      ∧ t = { s with
                raised := []
                ports := t.ports
                ltc := s.lampDark.ltc
                tbu := s.lampDark.tbu } := by
  have hports : (s.lampSwitchOff .idle).ports = s.ports := by rw [State.lampSwitchOff_eq]; rfl
  refine ⟨_, exec_idleTimerExpiry h hl hc, State.portsNoticed_flush hports, fun hq => ?_, ?_⟩
  · have hnone : s.raised = [] := hq
    refine State.offered_flush_of hports ?_
    rw [State.lampSwitchOff_raised (LampState.ne_off_of_lit hl), hnone]
    exact otherNotices_singleton _
  · refine (State.flush_eq _).trans ?_
    rw [State.lampSwitchOff_eq]
    rfl

/-! ## A restart under new times -/

theorem settingOr_of_mem {l : List (Setting × Nat)} (hnd : (l.map (·.1)).Nodup) {x : Setting} {v : Nat}
    (h : (x, v) ∈ l) (old : Nat) :
    settingOr l x old = max (settingRange x).1 (min (settingRange x).2 v) := by
  obtain ⟨p, hp⟩ : ∃ p, l.find? (·.1 == x) = some p :=
    Option.isSome_iff_exists.mp (List.find?_isSome.mpr ⟨_, h, beq_self_eq_true x⟩)
  have hx : p.1 = x := by simpa using List.find?_some hp
  have hsame : p = (x, v) := List.inj_on_of_nodup_map hnd (List.mem_of_find?_eq_some hp) h hx
  rw [settingOr_eq, hp, hsame]
  rfl

/-- Outside a calibration and without a cell in capture a new lamp level is not refused (R34). -/
theorem State.lampLevel_free (hseat : ∀ r ∈ s.plates, r.seated = false)
    (hcell : ∀ r ∈ s.plates, ∀ c ∈ r.cells, c.state ≠ .exposing ∧ c.state ≠ .finalizing) (hop : s.cal.op = none) :
    s.lampLevelHeld = false := by
  refine Bool.eq_false_iff.mpr fun h => ?_
  rcases s.lampLevelHeld_eq_true.mp h with ⟨r, hr, hs⟩ | ⟨r, hr, c, hc, hs⟩ | hrun
  · simp [hseat r hr] at hs
  · exact hs.elim (hcell r hr c hc).1 (hcell r hr c hc).2
  · exact hrun hop

/-- A lit lamp that a SET_CAPTURE restarts takes its times from the settings that the request leaves (R33, R34, R123;
log 54). -/
theorem setCapture_relights {q : Src} {l : List (Setting × Nat)} {level : Nat} (hs : s.takes q .setCapture)
    (hnd : (l.map (·.1)).Nodup) (hm : (.lampLevel, level) ∈ l) (hlevel : min 1023 level ≠ s.settings.lampLevel)
    (hfree : s.lampLevelHeld = false) (hop : s.cal.op = none) (hl : s.ltc.lamp.lit = true) :
    ∃ t, exec (.setCapture q (l.map fun p => (some p.1, p.2))) s = .next t
      ∧ t.ltc.lamp = .warming ∧ t.ltc.drive = min 1023 level
      ∧ (∀ w, (.warmUpTime, w) ∈ l → t.settings.warmUpTime = max 1 (min 600 w))
      ∧ (∀ i, (.idleTime, i) ∈ l → t.settings.idleTime = max 1 (min 120 i))
      ∧ t.tbu.timers = { s.tbu.timers with
          warmUp := some (t.settings.warmUpTime * 1000000), check := none,
          idle := some (t.settings.idleTime * 60000000) } := by
  have hnew : (s.settings.updated l).lampLevel = min 1023 level :=
    (settingOr_of_mem hnd hm _).trans (Nat.zero_max _)
  have hrelit : s.relights l := ⟨by rw [hnew]; exact hlevel, hl⟩
  obtain ⟨t, hexec, -, hset, -, -, -, hltc, htimers, -⟩ :=
    exec_setCapture_taken hs (List.ne_nil_of_mem hm) hnd (.inr hfree)
  refine ⟨t, hexec, ?_, ?_, fun w hw => ?_, fun i hi => ?_, ?_⟩
  · rw [hltc hrelit]
  · rw [hltc hrelit, ← hnew]
  · exact (congrArg Settings.warmUpTime hset).trans (settingOr_of_mem hnd hw _)
  · exact (congrArg Settings.idleTime hset).trans (settingOr_of_mem hnd hi _)
  · rw [htimers hrelit hop, hset]

end

/-- Settles O19: each event is one equation of the lamp's block; the restart is the one that a SET_CAPTURE makes. -/
theorem lampTimersAndWindow : Obligations.LampTimersAndWindow := by
  unfold Obligations.LampTimersAndWindow
  refine ⟨fun s r => ⟨fun p => exec_warmUpExpiry, exec_shutterRise, exec_monitorSample⟩, fun s p hp hl hc => ?_, ?_⟩
  · exact idleTimerExpiry_switchesOff hp ((LampState.lit_eq_true _).mpr hl) hc
  · intro s q l level hs hnd hm hlevel hseat hcell hop hl
    exact setCapture_relights hs hnd hm hlevel (State.lampLevel_free hseat hcell hop) hop
      ((LampState.lit_eq_true _).mpr hl)

end Sys2Proof.Machine
end

section
/-! PROOFS. LAMP_CHECK: a reading below the floor fails the lamp and a flat with it; any other is judged by the reference
(R97, R98, R125 to R127, R131). -/

namespace Sys2Proof.Machine
-- One proof at a time: under the memory limit of the check there is no room for the stacks of many threads.
set_option Elab.async false

section

variable {s : State} {r : Reading}

/-! ## Below the floor -/

/-- The lamp failed by a reading below the floor, before the sequencer and the store go on (R127). -/
def State.floored (s : State) (r : Reading) : State := (s.onLtc fun l => { l with last := some r }).lampFailed

/-- The failed lamp itself, with its hold reason, before the flat that fails with it (R127). -/
def State.lampLost (s : State) (r : Reading) : State :=
  (s.onLtc fun l => { l with last := some r }).lampFail.addSeatedHold fun h => { h with lamp := true }

theorem State.floored_eq (s : State) (r : Reading) : s.floored r =
    if (s.lampLost r).flatRunning then (s.lampLost r).failCalibration .lamp else s.lampLost r := rfl

theorem exec_lampCheck_low {p : Nat} (h : s.tbu.timers.check = some p) (hr : r.toNat < 1024) :
    exec (.lampCheck r) s = .next (((s.floored r).pollHold.arbitrate).announce s.plates) := by
  change execLampCheck r s = _
  unfold execLampCheck
  rw [h]
  exact if_pos hr

/-- A failed lamp is not lit: the end of a flat starts no idle timer under it (R128). -/
theorem State.failCalibration_failed {x : State} (hl : x.ltc.lamp = .failed) (reason : CalResult) :
    (x.failCalibration reason).tbu.timers.check = x.tbu.timers.check
      ∧ (x.failCalibration reason).tbu.timers.idle = x.tbu.timers.idle
      ∧ (x.failCalibration reason).ltc.lamp = x.ltc.lamp ∧ (x.failCalibration reason).ltc.drive = x.ltc.drive
      ∧ (x.failCalibration reason).ltc.run = x.ltc.run ∧ (x.failCalibration reason).ltc.last = x.ltc.last := by
  have hlit (y : State) (hy : y.ltc.lamp = .failed) : y.lampFlatEnded = y := by simp [State.lampFlatEnded, hy, LampState.lit]
  unfold State.failCalibration
  split
  · exact ⟨rfl, rfl, rfl, rfl, rfl, rfl⟩
  next op _ =>
    unfold State.endCalibration
    dsimp only
    split
    · exact ⟨rfl, rfl, rfl, rfl, rfl, rfl⟩
    · rw [hlit _ (by exact hl)]
      exact ⟨rfl, rfl, rfl, rfl, rfl, rfl⟩

/-- A calibration that fails lets its frame go: nothing is awaited, and its rows are drained (R98). -/
theorem State.failCalibration_drained {x : State} {op : CalOp} (hop : x.cal.op = some op) (reason : CalResult) :
    (x.failCalibration reason).plr.awaitedTag = none ∧ (x.failCalibration reason).plr.queue = []
      ∧ (x.failCalibration reason).tbu.timers.frame = none ∧ (x.failCalibration reason).ltc.windowOpen = false := by
  unfold State.failCalibration State.endCalibration
  rw [hop]
  dsimp only
  split
  · exact ⟨rfl, rfl, rfl, rfl⟩
  · unfold State.lampFlatEnded
    split <;> exact ⟨rfl, rfl, rfl, rfl⟩

theorem State.floored_lamp (s : State) (r : Reading) :
    (s.floored r).ltc.last = some r ∧ (s.floored r).ltc.lamp = .failed ∧ (s.floored r).ltc.drive = 0
      ∧ (s.floored r).ltc.run = 0 ∧ (s.floored r).tbu.timers.check = none ∧ (s.floored r).tbu.timers.idle = none := by
  rw [State.floored_eq]
  split
  · obtain ⟨hcheck, hidle, hlamp, hdrive, hrun, hlast⟩ := State.failCalibration_failed (x := s.lampLost r) rfl .lamp
    exact ⟨hlast, hlamp, hdrive, hrun, hcheck, hidle⟩
  · exact ⟨rfl, rfl, rfl, rfl, rfl, rfl⟩

theorem State.floored_plates (s : State) (r : Reading) : (s.floored r).plates =
    s.plates.map fun x => if x.seated then { x with holds := { x.holds with lamp := true } } else x := by
  rw [State.floored_eq]
  split
  · exact (State.failCalibration_frame (s.lampLost r) .lamp).2.2.1
  · rfl

theorem State.floored_lampNotice (s : State) (r : Reading) :
    .lamp .failed s.ltc.lamp 0 (some r) .floor ∈ (s.floored r).raised := by
  have hlost : .lamp .failed s.ltc.lamp 0 (some r) .floor ∈ (s.lampLost r).raised :=
    List.mem_append_right s.raised (List.mem_singleton_self _)
  rw [State.floored_eq]
  split
  · exact State.mem_failCalibration hlost .lamp
  · exact hlost

/-- A running flat fails with the lamp (R97, R98, R127). -/
theorem State.floored_flat {op : CalOp} (hop : s.cal.op = some op) (hk : op.kind = .flat) (r : Reading) :
    s.floored r = (s.lampLost r).failCalibration .lamp :=
  (s.floored_eq r).trans (if_pos (by
    have hlost : (s.lampLost r).cal.op = some op := hop
    simp [State.flatRunning, hlost, hk]))

/-- A dark goes on without the lamp (R97, R127). -/
theorem State.floored_dark {op : CalOp} (hop : s.cal.op = some op) (hk : op.kind = .dark) (r : Reading) :
    s.floored r = s.lampLost r :=
  (s.floored_eq r).trans (if_neg (by
    have hlost : (s.lampLost r).cal.op = some op := hop
    simp [State.flatRunning, hlost, hk]))

/-- What the sequencer and the store make of the state after the lamp: nothing of these fields. -/
theorem State.heldOn_frame (x : State) (base : List PlateRecord) :
    let t := (x.pollHold.arbitrate).announce base
    t.ltc = x.ltc ∧ t.plates = x.plates ∧ t.cal = x.cal ∧ t.tbu.timers = x.tbu.timers
      ∧ t.plr.awaitedTag = x.plr.awaitedTag ∧ (x.plr.queue = [] → t.plr.queue = []) := by
  have hplates : x.pollHold.plates = x.plates := by rw [State.pollHold_eq]
  have hplr : x.pollHold.plr = x.plr := by rw [State.pollHold_eq]
  refine ⟨by simp, by simp [hplates], by simp, by simp, ?_, fun h => ?_⟩
  · change (x.pollHold.arbitrate).plr.awaitedTag = _
    rw [State.arbitrate_plr, hplr]
  · have hqueue : x.pollHold.plr.queue = [] := by rw [hplr]; exact h
    simpa using State.arbitrate_queue_nil hqueue

theorem State.mem_heldOn {x : State} {n : Notice} (hn : n ∈ x.raised) (hp : x.ports = s.ports)
    (base : List PlateRecord) : s.announced ((x.pollHold.arbitrate).announce base) n :=
  State.announced_announce (by simpa using hp) base (by simpa using State.mem_pollHold hn)

/-! ## At the floor or above -/

/-- The reading of a check, judged (R126). -/
def State.judged (s : State) (r : Reading) (passes : Bool) : State :=
  if passes then (s.takeReading r).checkPassed else (s.takeReading r).checkMissed

/-- The state of a lamp after a check (R126). -/
def Ltc.lampAfter (l : Ltc) (passes : Bool) : LampState :=
  if passes then if 4 ≤ l.run then .steady else l.lamp
  else if l.lamp = .steady then .drifting else l.lamp

/-- The reference of a check: m_ref, the warm-up reference, or the reading itself (R125). -/
def State.referenceFor (s : State) (r : Reading) : Nat := s.cal.record.mRef.getD ((s.ltc.warmRef.getD r).toNat)

theorem State.takeReading_reference (s : State) (r : Reading) :
    (s.takeReading r).lampReference.getD r.toNat = s.referenceFor r := by
  unfold State.takeReading State.lampReference State.referenceFor
  cases hm : s.cal.record.mRef <;> cases hw : s.ltc.warmRef <;> simp [State.onLtc, hm, hw]

theorem State.takeReading_warmRef (s : State) (r : Reading) : (s.takeReading r).ltc.warmRef =
    if s.cal.record.mRef = none ∧ s.ltc.warmRef = none then some r else s.ltc.warmRef := by
  unfold State.takeReading State.lampReference
  cases hm : s.cal.record.mRef <;> cases hw : s.ltc.warmRef <;> simp [State.onLtc, hw]

/-- The turns after a check: a trigger that waits for STEADY goes out (R126). -/
theorem State.checkTurns {x : State} (hl : x.ltc.lamp ≠ .off) :
    (x.pollAttemptTrigger.pollLamp).ltc = x.ltc ∧ (x.pollAttemptTrigger.pollLamp).raised = x.raised
      ∧ (x.pollAttemptTrigger.pollLamp).plates = x.plates ∧ (x.pollAttemptTrigger.pollLamp).ports = x.ports := by
  have hon (y : State) (hy : y.ltc.lamp ≠ .off) : y.pollLamp.ltc = y.ltc ∧ y.pollLamp.raised = y.raised := by
    unfold State.pollLamp
    split
    · split
      · exact ⟨rfl, rfl⟩
      · split
        · exact ⟨rfl, rfl⟩
        · split <;> exact ⟨rfl, rfl⟩
    · exact ⟨rfl, rfl⟩
  obtain ⟨hltc, hraised⟩ := hon x.pollAttemptTrigger (by simpa using hl)
  exact ⟨by simpa using hltc, by simpa using hraised, by simp, by simp⟩

theorem State.judged_lamp (s : State) (r : Reading) (passes : Bool) :
    (s.judged r passes).ltc.last = some r
      ∧ (s.judged r passes).ltc.warmRef = (s.takeReading r).ltc.warmRef
      ∧ (s.judged r passes).ltc.drive = s.ltc.drive
      ∧ (s.judged r passes).ltc.run = (if passes then min 5 (s.ltc.run + 1) else 0) := by
  unfold State.judged State.checkPassed State.checkMissed
  cases passes
  · simp only [Bool.false_eq_true, if_false]
    split <;> exact ⟨rfl, rfl, rfl, rfl⟩
  · simp only [if_true]
    split <;> exact ⟨rfl, rfl, rfl, rfl⟩

theorem State.judged_state (s : State) (r : Reading) (passes : Bool)
    (hl : s.ltc.lamp = .warming ∨ s.ltc.lamp = .steady ∨ s.ltc.lamp = .drifting) :
    (s.judged r passes).ltc.lamp = s.ltc.lampAfter passes
      ∧ (s.judged r passes).raised = s.raised ++ (if s.ltc.lampAfter passes = s.ltc.lamp then [] else
          [.lamp (s.ltc.lampAfter passes) s.ltc.lamp s.ltc.drive (some r)
            (if s.ltc.lamp = .warming then .warmUpEnd else .check)]) := by
  have hrun : min 5 (s.ltc.run + 1) = 5 ↔ 4 ≤ s.ltc.run := by omega
  unfold State.judged State.checkPassed State.checkMissed Ltc.lampAfter
  cases passes
  · rcases hl with h | h | h <;>
      simp [State.takeReading, State.onLtc, State.lampNotice, State.raise, h]
  · by_cases h4 : 4 ≤ s.ltc.run <;> rcases hl with h | h | h <;>
      simp [State.takeReading, State.onLtc, State.lampNotice, State.raise, Config.steadyRun, h, hrun, h4]

theorem State.judged_frame (s : State) (r : Reading) (passes : Bool) :
    (s.judged r passes).plates = s.plates ∧ (s.judged r passes).ports = s.ports ∧ s.tablesKept (s.judged r passes) := by
  unfold State.judged State.checkPassed State.checkMissed
  cases passes
  · simp only [Bool.false_eq_true, if_false]
    split <;> exact ⟨rfl, rfl, rfl, rfl, rfl, rfl, rfl, rfl, rfl, fun _ => rfl⟩
  · simp only [if_true]
    split <;> exact ⟨rfl, rfl, rfl, rfl, rfl, rfl, rfl, rfl, rfl, fun _ => rfl⟩

/-- A check that passes wakes what waits for the lamp; one that does not moves nothing (R126). -/
theorem exec_lampCheck_judged {p : Nat} (h : s.tbu.timers.check = some p) (hr : 1024 ≤ r.toNat)
    {passes : Bool} (hp : inTolerance s.settings.lampTolerance (s.referenceFor r) r.toNat = passes) :
    exec (.lampCheck r) s = .next
      (if passes then (s.judged r passes).pollAttemptTrigger.pollLamp.flush else (s.judged r passes).flush) := by
  change execLampCheck r s = _
  unfold execLampCheck
  rw [h]
  refine (if_neg (Nat.not_lt.mpr hr)).trans ?_
  dsimp only
  rw [State.takeReading_reference, hp]
  cases passes <;> rfl

/-- The state that a check at the floor or above leaves (R125, R126, R131). -/
theorem lampCheck_judges {p : Nat} (h : s.tbu.timers.check = some p) (hr : 1024 ≤ r.toNat)
    (hl : s.ltc.lamp = .warming ∨ s.ltc.lamp = .steady ∨ s.ltc.lamp = .drifting) {passes : Bool}
    (hp : inTolerance s.settings.lampTolerance (s.referenceFor r) r.toNat = passes) :
    ∃ t, exec (.lampCheck r) s = .next t ∧ t.ltc = (s.judged r passes).ltc ∧ t.plates = s.plates ∧ s.tablesKept t
      ∧ s.portsNoticed t ∧ s.offered t (otherNotices (s.judged r passes).raised) := by
  obtain ⟨hplates, hports, htables⟩ := s.judged_frame r passes
  have hon : (s.judged r passes).ltc.lamp ≠ .off := by
    rw [(s.judged_state r passes hl).1, Ltc.lampAfter]
    rcases hl with h | h | h <;> rw [h] <;> split_ifs <;> simp
  refine ⟨_, exec_lampCheck_judged h hr hp, ?_⟩
  cases passes with
  | false =>
    exact ⟨rfl, hplates, htables, State.portsNoticed_flush hports, State.offered_flush hports⟩
  | true =>
    obtain ⟨hltc, hraised, hps, hpt⟩ := State.checkTurns hon
    refine ⟨hltc, hps.trans hplates, ?_, State.portsNoticed_flush (hpt.trans hports), ?_⟩
    · simpa [State.tablesKept] using htables
    · rw [← hraised]
      exact State.offered_flush (hpt.trans hports)

/-- The state that a check below the floor leaves (R127). -/
theorem lampCheck_fails {p : Nat} (h : s.tbu.timers.check = some p) (hr : r.toNat < 1024) :
    ∃ t, exec (.lampCheck r) s = .next t ∧ t.ltc = (s.floored r).ltc ∧ s.tablesKept t ∧ s.portsNoticed t
      ∧ t.plates = (s.floored r).plates ∧ t.cal = (s.floored r).cal ∧ t.tbu.timers = (s.floored r).tbu.timers
      ∧ t.plr.awaitedTag = (s.floored r).plr.awaitedTag ∧ ((s.floored r).plr.queue = [] → t.plr.queue = [])
      ∧ ∀ n ∈ (s.floored r).raised, s.announced t n := by
  have hports : (s.floored r).ports = s.ports := by simp [State.floored]
  obtain ⟨hltc, hplates, hcal, htimers, htag, hqueue⟩ := State.heldOn_frame (s.floored r) s.plates
  refine ⟨_, exec_lampCheck_low h hr, hltc, ?_, State.portsNoticed_announce (by simpa using hports) _, hplates, hcal,
    htimers, htag, hqueue, fun n hn => State.mem_heldOn hn hports _⟩
  simp [State.tablesKept, State.floored]

end

/-- Settles O20: below the floor the lamp fails, and a flat with it; above it the run counts what the reference
passes. -/
theorem lampCheckJudges : Obligations.LampCheckJudges := by
  unfold Obligations.LampCheckJudges
  intro s p r hp hl
  by_cases hr : r.toNat < 1024
  · obtain ⟨t, hexec, hltc, htables, hports, hplates, hcal, htimers, htag, hqueue, hann⟩ := lampCheck_fails hp hr
    obtain ⟨hlast, hlamp, hdrive, hrun, hcheck, hidle⟩ := s.floored_lamp r
    refine ⟨t, hexec, by rw [hltc, hlast], htables, hports, fun _ => ⟨by rw [hltc, hlamp], by rw [hltc, hdrive],
      by rw [hltc, hrun], by rw [htimers, hcheck], by rw [htimers, hidle], fun _ => hann _ (s.floored_lampNotice r),
      fun key => ?_⟩, fun _ op hop => ⟨fun hk => ?_, fun hk => ?_⟩, fun h => absurd hr (Nat.not_lt.mpr h)⟩
    · unfold State.plate?
      rw [hplates, State.floored_plates, List.find?_map]
      congr 1
      refine congrArg (fun g => s.plates.find? g) (funext fun x => ?_)
      simp only [Function.comp_apply]
      split <;> rfl
    · rw [State.floored_flat hop hk] at hltc hcal htimers htag hqueue hann
      obtain ⟨hnone, hrecord, hnotice⟩ := State.failCalibration_ended (x := s.lampLost r) (op := op) hop .lamp
      obtain ⟨hawait, hempty, hframe, hwindow⟩ := State.failCalibration_drained (x := s.lampLost r) (op := op) hop .lamp
      rw [hk] at hnotice
      exact ⟨by rw [hcal, hnone], by rw [hcal, hrecord]; rfl, by rw [htag, hawait], hqueue hempty,
        by rw [htimers, hframe], by rw [hltc, hwindow], fun _ => hann _ hnotice⟩
    · rw [State.floored_dark hop hk] at hcal htag
      exact ⟨hcal, htag⟩
  · obtain ⟨t, hexec, hltc, hplates, htables, hports, hoffered⟩ := lampCheck_judges hp (Nat.not_lt.mp hr) hl rfl
    obtain ⟨hlast, hwarm, hdrive, hrun⟩ := s.judged_lamp r _
    obtain ⟨hlamp, hraised⟩ := s.judged_state r _ hl
    refine ⟨t, hexec, by rw [hltc, hlast], htables, hports, fun h => absurd h hr, fun h => absurd h hr,
      fun _ => ⟨hplates, by rw [hltc, hdrive], by rw [hltc, hwarm, State.takeReading_warmRef], fun hq => ?_, ?_⟩⟩
    · have hnone : s.raised = [] := hq
      rw [hraised, hnone, List.nil_append] at hoffered
      rw [hltc, hlamp]
      split at hoffered
      next hsame => rw [if_pos hsame]; exact hoffered
      next hdiff => rw [if_neg hdiff]; exact hoffered
    · refine ⟨fun hpass => ?_, fun hmiss => ?_⟩
      · rw [show inTolerance s.settings.lampTolerance (s.referenceFor r) r.toNat = true from hpass] at hrun hlamp hltc
        exact ⟨by rw [hltc, hrun]; rfl, by rw [hltc, hlamp]; rfl⟩
      · rw [show inTolerance s.settings.lampTolerance (s.referenceFor r) r.toNat = false from hmiss] at hrun hlamp hltc
        exact ⟨by rw [hltc, hrun]; rfl, by rw [hltc, hlamp]; rfl⟩

end Sys2Proof.Machine
end

section
/-! SUPPORT. The rows in the receiver's queue through the turns at the end of an event (R68, R72, R91, R110, R141). -/

namespace Sys2Proof.Machine
-- One proof at a time: under the memory limit of the check there is no room for the stacks of many threads.
set_option Elab.async false

variable {s : State}

/-! ## Rows leave the queue, none enters -/

theorem State.takeDiscards_queue (s : State) : s.takeDiscards.plr.queue.Sublist s.plr.queue := by
  unfold State.takeDiscards
  split
  · exact List.Sublist.refl _
  · exact List.dropWhile_sublist _

theorem State.returnSlot_rows (s : State) (k : SlotNo) : (s.returnSlot k).plr.queue.Sublist s.plr.queue := by
  rw [State.returnSlot_plr]
  exact List.filter_sublist

theorem State.endTry_queue (s : State) (c : TryContext) (o : LastOutcome) :
    (s.endTry c o).plr.queue.Sublist s.plr.queue := by
  unfold State.endTry
  split
  · split
    · simp
    · simpa [State.clearCsq_frame] using State.returnSlot_rows (s.changeCell c.cell _ _) c.slot
  · simp

theorem State.nextTrigger_queue (s : State) (c : TryContext) : (s.nextTrigger c).plr.queue.Sublist s.plr.queue := by
  unfold State.nextTrigger
  split
  · exact s.endTry_queue c _
  · exact List.Sublist.refl _

theorem State.acceptExposure_queue (s : State) (c : TryContext) :
    (s.acceptExposure c).plr.queue.Sublist s.plr.queue := by
  unfold State.acceptExposure
  split
  · simp
  · split
    · exact State.nextTrigger_queue (s.onCtx _) c
    · unfold State.decideExtension
      dsimp only
      split
      · exact State.nextTrigger_queue (s.onCtx _) c
      · simp

theorem State.repeatRung_queue (s : State) (c : TryContext) : (s.repeatRung c).plr.queue.Sublist s.plr.queue := by
  unfold State.repeatRung
  split
  · exact s.endTry_queue c _
  · exact State.nextTrigger_queue (s.onCtx _) c

theorem State.review_queue (s : State) (c : TryContext) : (s.review c).plr.queue.Sublist s.plr.queue := by
  unfold State.review
  dsimp only
  generalize hx : (s.onCsq fun q => { q with state := .review, frameReported := false }) = x
  have hplr : s.plr = x.plr := by rw [← hx]; rfl
  rw [hplr]
  split
  · exact List.Sublist.refl _
  · split
    · exact x.acceptExposure_queue c
    · exact x.repeatRung_queue c
    · exact x.endTry_queue c _

theorem State.pollCsq_queue (s : State) : s.pollCsq.plr.queue.Sublist s.plr.queue := by
  have hmerged : s.pollMerged.plr.queue.Sublist s.plr.queue := by
    unfold State.pollMerged
    repeat' split
    · exact List.Sublist.refl _
    · exact s.review_queue _
    · exact List.Sublist.refl _
  simpa [State.pollCsq] using hmerged

/-- The works that take a row from the queue (R110). -/
def StoreWork.takesRow : StoreWork → Bool
  | .merge .. | .calibAdd .. => true
  | _ => false

/-- Only the head of the queue, a released row, is taken from it (R68, R110). -/
theorem State.head_of_takesRow {w : StoreWork} (hw : w ∈ s.works) (ht : w.takesRow = true) :
    ∃ r, s.plr.queue.head? = some r ∧ r.released = true := by
  obtain ⟨rfl, -⟩ | ⟨-, h | h | h | h | h⟩ := (s.mem_works w).mp hw
  · cases ht
  · obtain ⟨k, -, -, rfl⟩ := (s.clearWork?_eq_some w).mp h
    cases ht
  · obtain ⟨r, hr, hrel, -⟩ := (s.headWork?_eq_some w).mp h
    exact ⟨r, hr, hrel⟩
  · obtain ⟨op, -, ⟨-, rfl⟩ | ⟨-, rfl⟩⟩ := (s.passWork?_eq_some w).mp h <;> cases ht
  · obtain ⟨k, -, -, rfl⟩ := (s.finalWork?_eq_some w).mp h
    cases ht
  · obtain ⟨x, k, -, -, -, rfl⟩ := (s.deliveryWork?_eq_some w).mp h
    cases ht

theorem Plr.takeFor_queue (p : Plr) (w : StoreWork) :
    (p.takeFor w).queue = if w.takesRow then p.queue.tail else p.queue := by
  cases w <;> rfl

/-- The arbiter takes at most the head of the queue, a released row, and that only for a free store (R110, R141). -/
theorem State.arbitrate_queue_cases (s : State) : s.arbitrate.plr.queue = s.plr.queue
    ∨ (s.fsc.access = none ∧ ∃ r rest, s.plr.queue = r :: rest ∧ r.released = true ∧ s.arbitrate.plr.queue = rest) := by
  have hplr : s.arbitrate.plr.queue = s.grant.plr.queue := rfl
  rw [hplr]
  obtain ⟨he, -⟩ | ⟨w, rest, ha, -, hw, he⟩ := State.grant_cases s
  · exact .inl (by rw [he])
  · rw [he]
    change (s.plr.takeFor w).queue = _ ∨ (_ ∧ ∃ r rows, _ ∧ _ ∧ (s.plr.takeFor w).queue = rows)
    rw [Plr.takeFor_queue]
    by_cases ht : w.takesRow = true
    · obtain ⟨r, hr, hrel⟩ := State.head_of_takesRow (s := s) (by rw [hw]; exact List.mem_cons_self) ht
      obtain ⟨rows, hrows⟩ := List.head?_eq_some_iff.mp hr
      exact .inr ⟨ha, r, rows, hrows, hrel, by rw [if_pos ht, hrows, List.tail_cons]⟩
    · exact .inl (if_neg ht)

theorem State.arbitrate_queue (s : State) : s.arbitrate.plr.queue.Sublist s.plr.queue := by
  rcases s.arbitrate_queue_cases with h | ⟨-, r, rest, hq, -, h⟩
  · rw [h]
  · rw [h, hq]
    exact List.sublist_cons_self r rest

/-- No row is taken while the store is busy (R141). -/
theorem State.arbitrate_queue_of_busy (h : s.fsc.access ≠ none) : s.arbitrate.plr.queue = s.plr.queue :=
  s.arbitrate_queue_cases.resolve_right fun hr => h hr.1

/-- No held row is taken (R110). -/
theorem State.arbitrate_queue_of_held (h : ∀ x ∈ s.plr.queue, x.released = false) :
    s.arbitrate.plr.queue = s.plr.queue :=
  s.arbitrate_queue_cases.resolve_right fun ⟨_, r, rest, hq, hr, _⟩ => by
    simp [h r (by rw [hq]; exact List.mem_cons_self)] at hr

/-- A queue without a discarded row at its head stays as it is (R68). -/
theorem State.takeDiscards_kept (h : ∀ x ∈ s.plr.queue, s.rowDiscarded x = false) : s.takeDiscards = s := by
  unfold State.takeDiscards
  split
  · rfl
  · have hdrop : s.plr.queue.dropWhile s.rowDiscarded = s.plr.queue := by
      cases hq : s.plr.queue with
      | nil => rfl
      | cons r rest => exact List.dropWhile_cons_of_neg (by simp [h r (by rw [hq]; exact List.mem_cons_self)])
    rw [State.onPlr, hdrop]

theorem State.rowDiscarded_of_held {x : QueuedRow} (h : x.released = false) : s.rowDiscarded x = false := by
  simp [State.rowDiscarded, h]

/-- While a row is being merged no row is taken and discarded (R68). -/
theorem State.takeDiscards_of_merge (h : s.inProgress .rowMerge = true) : s.takeDiscards = s := by
  unfold State.takeDiscards
  exact if_pos (by simp [h])

theorem State.inProgress_of_merge (h : s.busyWith StoreWork.isMerge = true) :
    s.inProgress .rowMerge = true ∧ s.fsc.access ≠ none := by
  unfold State.busyWith at h
  unfold State.inProgress
  cases ha : s.fsc.access with
  | none => simp [ha] at h
  | some a =>
    rw [ha] at h
    simp only [Bool.and_eq_true] at h
    obtain ⟨-, hm⟩ := h
    refine ⟨?_, by simp⟩
    have hcls : a.work.cls = .rowMerge := by
      cases hw : a.work <;> rw [hw] at hm <;> first | rfl | cases hm
    simp [hcls]

/-! ## The turns together -/

/-- A receiver that lost rows of its queue and nothing else. -/
def Plr.Thinned (p q : Plr) : Prop := q = { p with queue := q.queue } ∧ q.queue.Sublist p.queue

theorem Plr.Thinned.trans {p q r : Plr} (h : p.Thinned q) (h2 : q.Thinned r) : p.Thinned r := by
  obtain ⟨hq, hs⟩ := h
  obtain ⟨hr, hs2⟩ := h2
  refine ⟨?_, hs2.trans hs⟩
  rw [hr, hq]

theorem State.thinned_takeDiscards (s : State) : s.plr.Thinned s.takeDiscards.plr := by
  refine ⟨?_, s.takeDiscards_queue⟩
  unfold State.takeDiscards
  split <;> rfl

theorem State.thinned_arbitrate (s : State) : s.plr.Thinned s.arbitrate.plr := ⟨s.arbitrate_plr, s.arbitrate_queue⟩

/-- The turns of the sequencer, the delivery and the arbiter where no TRIGGER may leave. -/
theorem State.thinned_turns {x : State} (h : x.canTrigger = false) (base : List PlateRecord) :
    x.plr.Thinned (x.pollCsq.pollDelivery.arbitrate.announce base).plr := by
  have hcsq : x.plr.Thinned x.pollCsq.plr := ⟨State.requeued_pollCsq h, x.pollCsq_queue⟩
  have hdlt : x.pollCsq.pollDelivery.plr = x.pollCsq.plr := by simp
  have harb := x.pollCsq.pollDelivery.thinned_arbitrate
  rw [hdlt] at harb
  exact hcsq.trans harb

/-- A stream that starts may light the lamp, but the frame timer runs on (R122, R154). -/
theorem State.pollDelivery_frameTimer (s : State) : s.pollDelivery.tbu.timers.frame = s.tbu.timers.frame := by
  have hon (x : State) : x.lampSwitchOn.tbu.timers.frame = x.tbu.timers.frame := by
    unfold State.lampSwitchOn
    split <;> rfl
  have hchange (x : State) (c : CellRef) (f : CellRecord → CellRecord) (g : PlateRecord → PlateRecord) :
      (x.changeCell c f g).tbu.timers.frame = x.tbu.timers.frame := by
    unfold State.changeCell
    dsimp only
    split
    · exact hon _
    · rfl
  have hstream (x : State) (c : CellRef) : (x.startStream c).tbu.timers.frame = x.tbu.timers.frame := by
    unfold State.startStream
    split
    · split
      · rfl
      · exact hchange _ _ _ _
    · rfl
  change s.autoStream.tbu.timers.frame = _
  unfold State.autoStream
  repeat' split
  all_goals first | exact hstream _ _ | rfl

/-! ## Events after which neither the calibration nor the sequencer goes on -/

/-- The turns of the discarded rows, the delivery and the arbiter are all that follow. -/
def State.Undisturbed (s : State) : Prop := s.pollAll = s.takeDiscards.pollDelivery.arbitrate

theorem State.midTry.undisturbed (h : s.midTry) : s.Undisturbed := h.pollAll

/-- In the states of a try the sequencer takes no turn but that of the review. -/
theorem State.pollCsq_of_unreviewed
    (hs : s.csq.state = .moving ∨ s.csq.state = .settling ∨ s.csq.state = .exposing ∨ s.csq.state = .readout)
    (h : s.pollMerged = s) : s.pollCsq = s := by
  have hne {x : CsqState} (h1 : x ≠ .moving) (h2 : x ≠ .settling) (h3 : x ≠ .exposing) (h4 : x ≠ .readout) :
      s.csq.state ≠ x := by
    rintro rfl
    rcases hs with h | h | h | h <;> contradiction
  rw [State.pollCsq, h, State.pollPaused_of_state fun p => hne (by simp) (by simp) (by simp) (by simp),
    State.pollIdle_of_state (hne (by simp) (by simp) (by simp) (by simp)),
    State.pollSlot_of_state (hne (by simp) (by simp) (by simp) (by simp)),
    State.pollLamp_of_state (hne (by simp) (by simp) (by simp) (by simp))]

/-- While a row of the try is still to be merged the review waits (R72). -/
theorem State.pollMerged_of_rows (h : s.busyWith StoreWork.isMerge = true ∨ ∃ r ∈ s.plr.queue, r.isCapture = true) :
    s.pollMerged = s := by
  unfold State.pollMerged
  split
  · rfl
  · refine if_neg ?_
    rintro ⟨-, -, hall, hfree⟩
    rcases h with h | ⟨r, hr, hc⟩
    · simp [h] at hfree
    · have hno := List.all_eq_true.mp hall r hr
      rw [hc] at hno
      cases hno

/-- While a row is being merged an event of the uplink disturbs no try. -/
theorem State.undisturbed_of_merge
    (hs : s.csq.state = .moving ∨ s.csq.state = .settling ∨ s.csq.state = .exposing ∨ s.csq.state = .readout)
    (hop : s.cal.op = none) (hb : s.busyWith StoreWork.isMerge = true) : s.Undisturbed := by
  have hkept : s.takeDiscards = s := State.takeDiscards_of_merge (State.inProgress_of_merge hb).1
  unfold State.Undisturbed State.pollAll
  rw [hkept, State.pollCal_of_noOp hop, State.pollCsq_of_unreviewed hs (State.pollMerged_of_rows (.inl hb))]

/-- A row of the try in the queue, not to be discarded, keeps the review waiting (R72). -/
theorem State.undisturbed_of_row
    (hs : s.csq.state = .moving ∨ s.csq.state = .settling ∨ s.csq.state = .exposing ∨ s.csq.state = .readout)
    (hop : s.cal.op = none) (hkept : s.takeDiscards = s) (h : ∃ r ∈ s.plr.queue, r.isCapture = true) :
    s.Undisturbed := by
  unfold State.Undisturbed State.pollAll
  rw [hkept, State.pollCal_of_noOp hop, State.pollCsq_of_unreviewed hs (State.pollMerged_of_rows (.inr h))]

theorem State.Undisturbed.thinned (h : s.Undisturbed) (base : List PlateRecord) :
    s.plr.Thinned (s.pollAll.announce base).plr := by
  have harb := s.takeDiscards.pollDelivery.thinned_arbitrate
  have hdlt : s.takeDiscards.pollDelivery.plr = s.takeDiscards.plr := by simp
  rw [hdlt] at harb
  change s.plr.Thinned s.pollAll.plr
  rw [h]
  exact s.thinned_takeDiscards.trans harb

theorem State.Undisturbed.kept (h : s.Undisturbed) (base : List PlateRecord) :
    (s.pollAll.announce base).csq = s.csq ∧ (s.pollAll.announce base).mge = s.mge
      ∧ (s.pollAll.announce base).tbu.timers.frame = s.tbu.timers.frame
      ∧ (s.pollAll.announce base).ltc.windowOpen = s.ltc.windowOpen := by
  rw [h]
  exact ⟨by simp, by simp, by simp [State.pollDelivery_frameTimer], by simp⟩

/-- Held rows stay where they are (R109, R110). -/
theorem State.Undisturbed.queue_held (h : s.Undisturbed) (hq : ∀ x ∈ s.plr.queue, x.released = false)
    (base : List PlateRecord) : (s.pollAll.announce base).plr.queue = s.plr.queue := by
  change s.pollAll.plr.queue = _
  rw [h, State.takeDiscards_kept fun x hx => State.rowDiscarded_of_held (hq x hx)]
  have hdlt : s.pollDelivery.plr = s.plr := by simp
  rw [State.arbitrate_queue_of_held (by rw [hdlt]; exact hq), hdlt]

/-- No row leaves the queue for a busy store, if none is discarded (R68, R141). -/
theorem State.Undisturbed.queue_busy (h : s.Undisturbed) (hkept : s.takeDiscards = s) (ha : s.fsc.access ≠ none)
    (base : List PlateRecord) : (s.pollAll.announce base).plr.queue = s.plr.queue := by
  change s.pollAll.plr.queue = _
  rw [h, hkept]
  have hdlt : s.pollDelivery.plr = s.plr := by simp
  rw [State.arbitrate_queue_of_busy (by simpa using ha), hdlt]

end Sys2Proof.Machine
end

section
/-! SUPPORT. A review that repeats its rung, and the test of the next TRIGGER that follows it (R47, R48, R52). -/

namespace Sys2Proof.Machine
-- One proof at a time: under the memory limit of the check there is no room for the stacks of many threads.
set_option Elab.async false

variable {s : State}

/-! ## The test of the next TRIGGER -/

/-- What the test of the next TRIGGER leaves, whether it leaves or not (R47, R48). -/
structure State.Tested (s t : State) (k : SlotNo) : Prop where
  ctx : t.csq.ctx = s.csq.ctx
  reported : t.csq.frameReported = s.csq.frameReported
  list : (t.work k).list.take (s.work k).list.length = (s.work k).list
  reception : t.plr.reception = s.plr.reception
  ended : s.plr.endPending = false → t.plr.endPending = false
  window : t.ltc.windowOpen = s.ltc.windowOpen
  queue : t.plr.queue.Sublist s.plr.queue
  waits : s.ltc.lamp ≠ .steady → (t.csq.state = .awaitLamp ∨ t.csq.state = .paused .trigger)
    ∧ (t.work k).list = (s.work k).list ∧ t.plr.awaitedTag = s.plr.awaitedTag
    ∧ t.tbu.timers.frame = s.tbu.timers.frame

theorem State.Tested.refl (h : s.csq.state = .awaitLamp) (k : SlotNo) : s.Tested s k :=
  ⟨rfl, rfl, List.take_length, rfl, id, rfl, List.Sublist.refl _, fun _ => ⟨.inl h, rfl, rfl, rfl⟩⟩

theorem State.tested_lampSwitchOn (h : s.csq.state = .awaitLamp) (k : SlotNo) : s.Tested s.lampSwitchOn k := by
  unfold State.lampSwitchOn
  split
  · exact ⟨rfl, rfl, List.take_length, rfl, id, rfl, List.Sublist.refl _, fun _ => ⟨.inl h, rfl, rfl, rfl⟩⟩
  · exact .refl h k

theorem State.tested_triggerTry (hl : s.ltc.lamp = .steady) (c : TryContext) (k : SlotNo) : s.Tested (s.triggerTry c) k := by
  refine ⟨rfl, rfl, ?_, rfl, fun _ => rfl, rfl, List.Sublist.refl _, fun h => absurd hl h⟩
  change ((setAt s.mge.work c.slot _).get k).list.take (s.mge.work.get k).list.length = (s.mge.work.get k).list
  by_cases hk : k = c.slot
  · rw [hk, setAt_get_self]
    exact List.take_left
  · rw [setAt_get_ne _ _ (Ne.symm hk)]
    exact List.take_length

theorem State.tested_pollLamp (h : s.csq.state = .awaitLamp) (k : SlotNo) : s.Tested s.pollLamp k := by
  unfold State.pollLamp
  split
  · split
    · exact .refl h k
    · split
      · exact ⟨rfl, rfl, List.take_length, rfl, id, rfl, List.Sublist.refl _, fun _ => ⟨.inr rfl, rfl, rfl, rfl⟩⟩
      · split
        · exact s.tested_lampSwitchOn h k
        · split
          next hgo => exact State.tested_triggerTry hgo.1 _ k
          next => exact .refl h k
  · exact .refl h k

/-- The turns of the delivery and the arbiter after it. -/
theorem State.Tested.closed {t : State} {k : SlotNo} (h : s.Tested t k) (base : List PlateRecord) :
    s.Tested (t.closed base) k := by
  have hcsq : (t.closed base).csq = t.csq := (t.closed_blocks base).1
  have hwork : (t.closed base).work k = t.work k := congrArg (fun m => m.work.get k) (t.closed_blocks base).2.1
  have hplr : (t.closed base).plr = { t.plr with queue := (t.closed base).plr.queue } := by
    have harb := t.pollDelivery.arbitrate_plr
    have hdlt : t.pollDelivery.plr = t.plr := by simp
    rw [hdlt] at harb
    exact harb
  have hqueue : (t.closed base).plr.queue.Sublist t.plr.queue := by
    have harb := t.pollDelivery.arbitrate_queue
    have hdlt : t.pollDelivery.plr = t.plr := by simp
    rw [hdlt] at harb
    exact harb
  have hframe : (t.closed base).tbu.timers.frame = t.tbu.timers.frame := by
    change t.pollDelivery.arbitrate.tbu.timers.frame = _
    simp [State.pollDelivery_frameTimer]
  have hwindow : (t.closed base).ltc.windowOpen = t.ltc.windowOpen := by
    change t.pollDelivery.arbitrate.ltc.windowOpen = _
    simp
  have hrec : (t.closed base).plr.reception = t.plr.reception := by rw [hplr]
  have hend : (t.closed base).plr.endPending = t.plr.endPending := by rw [hplr]
  have htag : (t.closed base).plr.awaitedTag = t.plr.awaitedTag := by rw [hplr]
  refine ⟨?_, ?_, ?_, hrec.trans h.reception, fun he => hend.trans (h.ended he), hwindow.trans h.window,
    hqueue.trans h.queue, fun hl => ?_⟩
  · rw [hcsq, h.ctx]
  · rw [hcsq, h.reported]
  · rw [hwork, h.list]
  · obtain ⟨hstate, hlist, hawait, htimer⟩ := h.waits hl
    rw [hcsq, hwork]
    exact ⟨hstate, hlist, htag.trans hawait, hframe.trans htimer⟩

/-! ## The review that repeats -/

/-- A frame reported with no row left to merge is reviewed at this event (R51, R72). -/
theorem State.pollMerged_reviews {c : TryContext} (hs : s.csq.state = .readout) (hf : s.csq.frameReported = true)
    (hc : s.csq.ctx = some c) (hrows : ∀ r ∈ s.plr.queue, r.isCapture = false)
    (hb : s.busyWith StoreWork.isMerge = false) : s.pollMerged = s.review c := by
  unfold State.pollMerged
  rw [hc]
  refine if_pos ⟨hs, hf, ?_, by simp [hb]⟩
  rw [List.all_eq_true]
  intro r hr
  rw [hrows r hr]
  rfl

/-- The state in which a repeated rung waits for its trigger (R52). -/
def State.rungRepeated (s : State) : State :=
  s.onCsq fun q => { q with state := .awaitLamp, frameReported := false, ctx := q.ctx.map TryContext.raiseRepeat }

theorem State.review_repeats {c : TryContext} {e : Exposure} (hlast : (s.work c.slot).list.getLast? = some e)
    (hv : reviewVerdict c.singleTry (tornAllowance s.plr.link) e = .again) (hrep : c.repeatCount < 2)
    (hlen : (s.work c.slot).list.length < 16) : s.review c = s.rungRepeated := by
  rw [State.review_eq hlast, hv]
  exact (State.repeatRung_below hrep).trans (if_neg (Nat.not_le.mpr hlen))

theorem State.repeat_follows {c : TryContext} {e : Exposure} (hs : s.csq.state = .readout)
    (hf : s.csq.frameReported = true) (hc : s.csq.ctx = some c) (hop : s.cal.op = none)
    (hrows : ∀ r ∈ s.plr.queue, r.isCapture = false) (hb : s.busyWith StoreWork.isMerge = false)
    (hlast : (s.work c.slot).list.getLast? = some e)
    (hv : reviewVerdict c.singleTry (tornAllowance s.plr.link) e = .again) (hrep : c.repeatCount < 2)
    (hlen : (s.work c.slot).list.length < 16) (base : List PlateRecord) :
    s.rungRepeated.Tested (s.pollAll.announce base) c.slot := by
  have hqueue := s.takeDiscards_queue
  obtain ⟨q, hx⟩ : ∃ q, s.takeDiscards = { s with plr := { s.plr with queue := q } } := by
    unfold State.takeDiscards
    split
    · exact ⟨_, rfl⟩
    · exact ⟨_, rfl⟩
  unfold State.pollAll
  rw [hx] at hqueue ⊢
  rw [State.pollCal_of_noOp (by exact hop), State.pollCsq,
    State.pollMerged_reviews (c := c) (by exact hs) (by exact hf) (by exact hc)
      (fun r hr => hrows r (hqueue.subset hr)) (by exact hb),
    State.review_repeats (by exact hlast) (by exact hv) hrep (by exact hlen)]
  have hturn := State.restTurn_awaitLamp (s := State.rungRepeated { s with plr := { s.plr with queue := q } }) rfl
  rw [State.restTurn] at hturn
  rw [hturn]
  have htested := (State.tested_pollLamp (s := State.rungRepeated { s with plr := { s.plr with queue := q } }) rfl
    c.slot).closed base
  exact ⟨htested.ctx, htested.reported, htested.list, htested.reception, htested.ended, htested.window,
    htested.queue.trans hqueue, htested.waits⟩

end Sys2Proof.Machine
end

section
/-! PROOFS. SHUTTER_FALL judges the exposure of a try, the frame that ended before it, or the attempt of a flat (R49, R50,
R52, R94, R106, R111, R129). -/

namespace Sys2Proof.Machine
-- One proof at a time: under the memory limit of the check there is no room for the stacks of many threads.
set_option Elab.async false

section

variable {s : State} {k : SlotNo} {o ref : Nat}

/-! ## The end of the window -/

/-- The window is closed (R129). -/
def State.windowClosed (s : State) : State :=
  s.onLtc fun l => { l with windowOpen := false, windowSum := 0, windowSamples := 0 }

/-- The mean over the samples of the window, rounded (R129). -/
def Ltc.mean (l : Ltc) : Nat := (l.windowSum + l.windowSamples / 2) / l.windowSamples

theorem exec_shutterFall (hw : s.ltc.windowOpen = true) (hn : 0 < s.ltc.windowSamples) :
    exec .shutterFall s
      = .next ((s.windowClosed.windowEnded s.ltc.mean s.ltc.steadyThroughout).pollAll.announce s.plates) := by
  have hmean : s.ltc.windowMean = s.ltc.mean := if_neg (Nat.pos_iff_ne_zero.mp hn)
  rw [← hmean]
  exact if_pos hw

/-- A window that passes or not (R49). -/
def State.windowPasses (s : State) (ref : Nat) : Bool :=
  s.ltc.steadyThroughout && inTolerance s.settings.lampTolerance ref s.ltc.mean

theorem State.windowPasses_iff (s : State) (ref : Nat) : s.windowPasses ref = true ↔
    s.ltc.steadyThroughout = true ∧ inTolerance s.settings.lampTolerance ref s.ltc.mean = true := by
  simp [State.windowPasses]

/-- The exposure of a try judged, before its frame's end (R49). -/
def State.exposureJudged (s : State) (k : SlotNo) (passes : Bool) : State :=
  ((s.windowClosed.onLatest k fun e => e.atWindowEnd s.ltc.mean passes).setCsq .readout).onPlr fun p =>
    if passes then p.release else p.drain

theorem State.windowEnded_try (hd : s.plr.decision = .waiting) (hs : s.plr.shutterSeen = true)
    (ha : s.plr.awaitedTag ≠ none ∨ s.plr.endPending = true) (hr : s.plr.requester = some (.capture k o))
    (hq : s.csq.state = .exposing) (hm : s.cal.record.mRef = some ref) :
    s.windowClosed.windowEnded s.ltc.mean s.ltc.steadyThroughout =
      if s.plr.endPending then
        (s.exposureJudged k (s.windowPasses ref)).reportFrameEnd (s.exposureJudged k (s.windowPasses ref)).plr.tornCount
      else s.exposureJudged k (s.windowPasses ref) := by
  have hgo : s.windowClosed.plr.decision = .waiting ∧ s.windowClosed.plr.shutterSeen = true
      ∧ (s.windowClosed.plr.awaitedTag.isSome = true ∨ s.windowClosed.plr.endPending = true) :=
    ⟨hd, hs, ha.imp_left fun h => Option.isSome_iff_ne_none.mpr h⟩
  have hreq : s.windowClosed.plr.requester = some (.capture k o) := hr
  have hpass : (s.ltc.steadyThroughout && inTolerance s.windowClosed.settings.lampTolerance
      (s.windowClosed.cal.record.mRef.getD 0) s.ltc.mean) = s.windowPasses ref := by
    have hmr : s.windowClosed.cal.record.mRef = some ref := hm
    rw [hmr]
    rfl
  unfold State.windowEnded
  rw [if_pos hgo, hreq]
  refine (if_pos hq).trans ?_
  unfold State.tryWindowEnd
  rw [hpass]
  rfl

/-! ## What the judgement leaves -/

theorem State.exposureJudged_work (s : State) (k : SlotNo) (passes : Bool) : (s.exposureJudged k passes).work k =
    { s.work k with list := (s.work k).list.modify ((s.work k).list.length - 1)
                              fun e => e.atWindowEnd s.ltc.mean passes } := setAt_get_self _ _ _

theorem State.exposureJudged_plr (s : State) (k : SlotNo) (passes : Bool) :
    (s.exposureJudged k passes).plr = if passes then s.plr.release else s.plr.drain := rfl

/-- Every row that stays is released (R49, R106). -/
theorem Plr.judged_released (p : Plr) (passes : Bool) :
    ∀ x ∈ (if passes then p.release else p.drain).queue, x.released = true := by
  intro x hx
  cases passes with
  | false => exact (List.mem_filter.mp hx).2
  | true =>
    obtain ⟨y, -, rfl⟩ := List.mem_map.mp hx
    rfl

theorem Plr.drain_held {p : Plr} (h : ∀ x ∈ p.queue, x.released = false) : p.drain.queue = [] :=
  List.filter_eq_nil_iff.mpr fun x hx => by simp [h x hx]

theorem Plr.release_count (p : Plr) :
    p.release.rowsReleased = p.rowsReleased + p.queue.countP fun x => !x.released := by
  unfold Plr.release
  rw [List.countP_eq_length_filter]

theorem modify_last_eq {α : Type} {l : List α} {e : α} (h : l.getLast? = some e) (f : α → α) :
    l.modify (l.length - 1) f = l.dropLast ++ [f e] := by
  obtain ⟨l, rfl⟩ := List.getLast?_eq_some_iff.mp h
  rw [List.dropLast_concat]
  apply List.ext_getElem?
  intro i
  rw [List.getElem?_modify]
  by_cases hi : i < l.length
  · rw [List.getElem?_append_left hi, List.getElem?_append_left hi]
    have hne : l.length ≠ i := by omega
    simp [hne]
  · rcases Nat.lt_or_eq_of_le (Nat.not_lt.mp hi) with h | rfl
    · rw [List.getElem?_eq_none (by simp; omega), List.getElem?_eq_none (by simp; omega)]
      rfl
    · simp

theorem State.exposureJudged_wants {e : Exposure} (hstate : (s.work k).state = .accumulating)
    (he : (s.work k).list.getLast? = some e) (ho : e.ordinal = o) {x : QueuedRow}
    (hx : x.dest = .capture k o ∧ x.row < s.geometry.height ∧ x.codes.length = s.geometry.width) :
    (s.exposureJudged k true).rowDiscarded { x with released := true } = false := by
  have hwork := s.exposureJudged_work k true
  have hwant : (s.exposureJudged k true).rowWanted k o x.row x.codes = true := by
    rw [State.rowWanted_iff, hwork]
    refine ⟨hstate, hx.2.1, hx.2.2, e.atWindowEnd s.ltc.mean true, ?_, ho, .inl rfl⟩
    change ((s.work k).list.modify ((s.work k).list.length - 1) _).getLast? = _
    rw [modify_last_eq he]
    simp
  simp [State.rowDiscarded, hx.1, hwant]

/-! ## A try -/

theorem shutterFall_judgesTry (hw : s.ltc.windowOpen = true) (hn : 0 < s.ltc.windowSamples)
    (hr : s.plr.requester = some (.capture k o)) (hd : s.plr.decision = .waiting) (hs : s.plr.shutterSeen = true)
    (ha : s.plr.awaitedTag ≠ none) (he : s.plr.endPending = false) (hq : s.csq.state = .exposing)
    (hf : s.csq.frameReported = false) (hop : s.cal.op = none) (hm : s.cal.record.mRef = some ref) :
    ∃ t, exec .shutterFall s = .next t
      ∧ let passes := s.windowPasses ref
        (t.work k).list = (s.work k).list.modify ((s.work k).list.length - 1)
            (fun e => { e with monitor := s.ltc.mean, outcome := if passes then .merged else .unsteady })
          ∧ t.plr.decision = (if passes then .release else .drain)
          ∧ (∀ x ∈ t.plr.queue, x.released = true)
          ∧ (passes = true → t.plr.rowsReleased = s.plr.rowsReleased + s.plr.queue.countP fun x => !x.released)
          ∧ (passes = false → t.plr.rowsReleased = s.plr.rowsReleased)
          ∧ (passes = false → (∀ x ∈ s.plr.queue, x.released = false) → t.plr.queue = [])
          ∧ (passes = true → s.fsc.access ≠ none → (s.work k).state = .accumulating →
              (s.work k).list.getLast?.map (·.ordinal) = some o →
              (∀ x ∈ s.plr.queue, x.dest = .capture k o ∧ x.row < s.geometry.height
                ∧ x.codes.length = s.geometry.width) →
              t.plr.queue = s.plr.queue.map fun x => { x with released := true })
          ∧ t.csq = { s.csq with state := .readout } ∧ t.ltc.windowOpen = false ∧ t.plr.faultCount = s.plr.faultCount
          ∧ s.tablesKept t ∧ s.portsNoticed t := by
  have hexec := exec_shutterFall hw hn
  rw [State.windowEnded_try hd hs (.inl ha) hr hq hm, he, if_neg (by simp)] at hexec
  refine ⟨_, hexec, ?_⟩
  intro passes
  change exec .shutterFall s = .next (((s.exposureJudged k passes).pollAll).announce s.plates) at hexec
  have hmid : (s.exposureJudged k passes).midTry := ⟨.inr (.inr (.inr ⟨rfl, hf⟩)), hop⟩
  have hundisturbed := hmid.undisturbed
  obtain ⟨hcsq, hmge, -, hwindow⟩ := hundisturbed.kept s.plates
  obtain ⟨hplr, hqueue⟩ := hundisturbed.thinned s.plates
  have hports : s.portsNoticed (((s.exposureJudged k passes).pollAll).announce s.plates) :=
    State.portsNoticed_announce (by simp [State.exposureJudged, State.windowClosed]) _
  have htables : s.tablesKept (((s.exposureJudged k passes).pollAll).announce s.plates) := by
    simp [State.tablesKept, State.exposureJudged, State.windowClosed]
  have hkept (hpass : passes = true) (hacc : s.fsc.access ≠ none) (hstate : (s.work k).state = .accumulating)
      (hlast : (s.work k).list.getLast?.map (·.ordinal) = some o)
      (hrows : ∀ x ∈ s.plr.queue, x.dest = .capture k o ∧ x.row < s.geometry.height
        ∧ x.codes.length = s.geometry.width) :
      (((s.exposureJudged k passes).pollAll).announce s.plates).plr.queue
        = s.plr.queue.map fun x => { x with released := true } := by
    obtain ⟨e, he, ho⟩ := Option.map_eq_some_iff.mp hlast
    have hdisc : (s.exposureJudged k passes).takeDiscards = s.exposureJudged k passes := by
      rw [hpass]
      refine State.takeDiscards_kept fun x hx => ?_
      obtain ⟨y, hy, rfl⟩ := List.mem_map.mp hx
      exact State.exposureJudged_wants hstate he ho (hrows y hy)
    rw [hundisturbed.queue_busy hdisc hacc, hpass]
    rfl
  generalize ((s.exposureJudged k passes).pollAll).announce s.plates = t at *
  have hwork : t.work k = (s.exposureJudged k passes).work k := congrArg (fun m => m.work.get k) hmge
  refine ⟨?_, ?_, fun x hx => ?_, fun hp => ?_, fun hp => ?_, fun hp hheld => ?_, hkept, hcsq, hwindow, ?_, htables,
    hports⟩
  · rw [hwork, State.exposureJudged_work]
    rfl
  · rw [hplr, State.exposureJudged_plr]
    cases passes <;> rfl
  · exact s.plr.judged_released passes x (hqueue.subset hx)
  · rw [hplr, State.exposureJudged_plr, hp]
    exact s.plr.release_count
  · rw [hplr, State.exposureJudged_plr, hp]
    rfl
  · rw [hp] at hqueue
    have hnil : (s.exposureJudged k false).plr.queue = [] := Plr.drain_held hheld
    rw [hnil] at hqueue
    exact List.sublist_nil.mp hqueue
  · rw [hplr, State.exposureJudged_plr]
    cases passes <;> rfl

/-! ## A frame that ended before its window -/

/-- The exposure judged and the frame's end reported at the same event (R50, R111). -/
def State.exposureReported (s : State) (k : SlotNo) (passes : Bool) : State :=
  (s.exposureJudged k passes).reportFrameEnd s.plr.tornCount

theorem State.exposureReported_eq (hr : s.plr.requester = some (.capture k o)) (passes : Bool) :
    s.exposureReported k passes =
      (((((s.exposureJudged k passes).onTimers fun t => { t with frame := none }).onPlr fun p =>
        { p with endPending := false }).onLatest k fun e => e.atFrameEnd s.plr.tornCount s.geometry.height).onCsq fun q =>
          { q with frameReported := true }) := by
  have hreq : (s.exposureJudged k passes).plr.requester = some (.capture k o) := by
    rw [State.exposureJudged_plr]
    cases passes <;> exact hr
  unfold State.exposureReported State.reportFrameEnd
  rw [hreq]
  rfl

theorem State.exposureReported_frame (hr : s.plr.requester = some (.capture k o)) (passes : Bool) :
    (s.exposureReported k passes).cal = s.cal ∧ (s.exposureReported k passes).fsc = s.fsc
      ∧ (s.exposureReported k passes).ltc.lamp = s.ltc.lamp := by
  rw [State.exposureReported_eq hr]
  simp [State.exposureJudged, State.windowClosed]

theorem State.exposureReported_list (hr : s.plr.requester = some (.capture k o)) {e : Exposure}
    (he : (s.work k).list.getLast? = some e) (passes : Bool) : ((s.exposureReported k passes).work k).list =
      (s.work k).list.dropLast ++ [(e.atWindowEnd s.ltc.mean passes).atFrameEnd s.plr.tornCount s.geometry.height] := by
  have hjudged := s.exposureJudged_work k passes
  have hlist : ((s.exposureReported k passes).work k).list = ((s.exposureJudged k passes).work k).list.modify
      (((s.exposureJudged k passes).work k).list.length - 1) fun e => e.atFrameEnd s.plr.tornCount s.geometry.height := by
    rw [State.exposureReported_eq hr]
    exact congrArg WorkRecord.list (setAt_get_self _ _ _)
  rw [hlist, hjudged]
  change (((s.work k).list.modify ((s.work k).list.length - 1) _).modify _ _) = _
  rw [modify_last_eq he, modify_last_eq (e := e.atWindowEnd s.ltc.mean passes) (by simp), List.dropLast_concat]

/-- No turn leaves the window's decision waited for again (R111). -/
theorem State.pollAll_ended (hop : s.cal.op = none) (h : s.plr.endPending = false) : s.pollAll.plr.endPending = false := by
  have hlamp (x : State) (hx : x.plr.endPending = false) : x.pollLamp.plr.endPending = false := by
    unfold State.pollLamp State.lampSwitchOn
    repeat' split
    all_goals first | exact hx | rfl
  have hmerged (x : State) (hx : x.plr.endPending = false) : x.pollMerged.plr.endPending = false := by
    rw [x.requeued_pollMerged]
    exact hx
  have hx : s.takeDiscards.plr.endPending = false := by rw [s.thinned_takeDiscards.1]; exact h
  unfold State.pollAll
  rw [State.arbitrate_plr, State.pollCal_of_noOp (by simpa using hop)]
  have hcsq : s.takeDiscards.pollCsq.plr.endPending = false := hlamp _ (by simpa using hmerged _ hx)
  simpa using hcsq

theorem shutterFall_reportsPassed (hr : s.plr.requester = some (.capture k o)) (hop : s.cal.op = none)
    {e : Exposure} (he : (s.work k).list.getLast? = some e) (ht : s.plr.tornCount < s.geometry.height)
    (hrows : ∀ x ∈ s.plr.queue, x.dest = .capture k o ∧ x.released = false) (hne : s.plr.queue ≠ [])
    (hstate : (s.work k).state = .accumulating) (ho : e.ordinal = o)
    (hsize : ∀ x ∈ s.plr.queue, x.row < s.geometry.height ∧ x.codes.length = s.geometry.width)
    (base : List PlateRecord) :
    let t := (s.exposureReported k true).pollAll.announce base
    t.csq = { s.csq with state := .readout, frameReported := true } ∧ t.tbu.timers.frame = none
      ∧ (t.work k).list = (s.work k).list.dropLast ++ [{ e with
          monitor := s.ltc.mean
          outcome := if s.plr.tornCount = 0 then .merged else .patched
          torn := if s.plr.tornCount = 0 then e.torn else some s.plr.tornCount }] := by
  intro t
  have hx := State.exposureReported_eq (s := s) (k := k) hr true
  have hlist := State.exposureReported_list (s := s) (k := k) hr he true
  have hlast : (e.atWindowEnd s.ltc.mean true).atFrameEnd s.plr.tornCount s.geometry.height = { e with
      monitor := s.ltc.mean
      outcome := if s.plr.tornCount = 0 then .merged else .patched
      torn := if s.plr.tornCount = 0 then e.torn else some s.plr.tornCount } := by
    unfold Exposure.atFrameEnd
    rw [if_pos (show (e.atWindowEnd s.ltc.mean true).outcome = .merged from rfl)]
    split_ifs <;> rfl
  have hqueue : (s.exposureReported k true).plr.queue = s.plr.queue.map fun r => { r with released := true } := by
    rw [hx]
    rfl
  have hkept : (s.exposureReported k true).takeDiscards = s.exposureReported k true := by
    refine State.takeDiscards_kept fun x hmem => ?_
    rw [hqueue] at hmem
    obtain ⟨y, hy, rfl⟩ := List.mem_map.mp hmem
    have hdest := (hrows y hy).1
    have hwant : (s.exposureReported k true).rowWanted k o y.row y.codes = true := by
      rw [State.rowWanted_iff]
      refine ⟨?_, by rw [hx]; exact (hsize y hy).1, by rw [hx]; exact (hsize y hy).2,
        (e.atWindowEnd s.ltc.mean true).atFrameEnd s.plr.tornCount s.geometry.height, ?_, ?_, ?_⟩
      · rw [hx]
        refine (congrArg WorkRecord.state (setAt_get_self _ _ _)).trans ?_
        exact (congrArg WorkRecord.state (s.exposureJudged_work k true)).trans hstate
      · rw [hlist]
        simp
      · rw [hlast]
        exact ho
      · rw [hlast]
        dsimp only
        split_ifs <;> simp
    simp [State.rowDiscarded, hdest, hwant]
  have hun : (s.exposureReported k true).Undisturbed := by
    refine State.undisturbed_of_row (.inr (.inr (.inr ?_))) ?_ hkept ?_
    · rw [hx]
      rfl
    · rw [hx]
      exact hop
    · obtain ⟨y, hy⟩ := List.exists_mem_of_ne_nil _ hne
      refine ⟨{ y with released := true }, by rw [hqueue]; exact List.mem_map_of_mem hy, ?_⟩
      simp [QueuedRow.isCapture, QueuedRow.isCalib, (hrows y hy).1]
  obtain ⟨hcsq, hmge, hframe, -⟩ := hun.kept base
  have hwork : t.work k = (s.exposureReported k true).work k := congrArg (fun m => m.work.get k) hmge
  refine ⟨?_, ?_, ?_⟩
  · rw [hcsq, hx]
    rfl
  · rw [hframe, hx]
    rfl
  · rw [hwork, hlist, hlast]

theorem shutterFall_repeatsFailed (hr : s.plr.requester = some (.capture k o)) (hop : s.cal.op = none) {c : TryContext}
    (hc : s.csq.ctx = some c) (hslot : c.slot = k) {e : Exposure} (he : (s.work k).list.getLast? = some e)
    (hheld : ∀ x ∈ s.plr.queue, x.released = false) (hb : s.busyWith StoreWork.isMerge = false)
    (hsingle : c.singleTry = false) (hrep : c.repeatCount < 2) (hlen : (s.work k).list.length < 16)
    (base : List PlateRecord) :
    let t := (s.exposureReported k false).pollAll.announce base
    t.csq.ctx = some c.raiseRepeat
      ∧ (t.work k).list.take (s.work k).list.length
          = (s.work k).list.dropLast ++ [{ e with monitor := s.ltc.mean, outcome := .unsteady }]
      ∧ (s.ltc.lamp ≠ .steady → (t.csq.state = .awaitLamp ∨ t.csq.state = .paused .trigger)
          ∧ t.plr.queue = [] ∧ t.tbu.timers.frame = none) := by
  subst hslot
  have hx := State.exposureReported_eq (s := s) (k := c.slot) hr false
  have hlist := State.exposureReported_list (s := s) (k := c.slot) hr he false
  have hlast : (e.atWindowEnd s.ltc.mean false).atFrameEnd s.plr.tornCount s.geometry.height
      = { e with monitor := s.ltc.mean, outcome := .unsteady } :=
    if_neg (by simp [Exposure.atWindowEnd])
  rw [hlast] at hlist
  have hqueue : (s.exposureReported c.slot false).plr.queue = [] := by
    rw [hx]
    exact Plr.drain_held hheld
  have hlength : ((s.exposureReported c.slot false).work c.slot).list.length = (s.work c.slot).list.length := by
    have hpos : (s.work c.slot).list ≠ [] := fun h => by simp [h] at he
    rw [hlist, List.length_append, List.length_dropLast, List.length_singleton]
    exact Nat.sub_add_cancel (List.length_pos_iff.mpr hpos)
  have hcsq : (s.exposureReported c.slot false).csq = { s.csq with state := .readout, frameReported := true } := by
    rw [hx]
    rfl
  obtain ⟨hcal, hfsc, hlamp⟩ := State.exposureReported_frame (s := s) (k := c.slot) hr false
  have hbusy : (s.exposureReported c.slot false).busyWith StoreWork.isMerge = false := by
    unfold State.busyWith at hb ⊢
    rw [hfsc]
    exact hb
  have htimer : (s.exposureReported c.slot false).tbu.timers.frame = none := by rw [hx]; rfl
  clear hx
  generalize s.exposureReported c.slot false = y at *
  intro t
  have hagain : reviewVerdict c.singleTry (tornAllowance y.plr.link)
      { e with monitor := s.ltc.mean, outcome := .unsteady } = .again := if_neg (by simp [hsingle])
  have htested := State.repeat_follows (s := y) (c := c) (e := { e with monitor := s.ltc.mean, outcome := .unsteady })
    (by rw [hcsq]) (by rw [hcsq]) (by rw [hcsq]; exact hc) (by rw [hcal]; exact hop) (by simp [hqueue]) hbusy
    (by rw [hlist]; exact List.getLast?_concat) hagain hrep (by rw [hlength]; exact hlen) base
  refine ⟨?_, ?_, fun hl => ?_⟩
  · refine htested.ctx.trans ?_
    change y.csq.ctx.map TryContext.raiseRepeat = _
    rw [hcsq]
    change s.csq.ctx.map TryContext.raiseRepeat = _
    rw [hc]
    rfl
  · have htake : (t.work c.slot).list.take (y.work c.slot).list.length = (y.work c.slot).list := htested.list
    rwa [hlength, hlist] at htake
  · have hsteady : y.rungRepeated.ltc.lamp ≠ .steady := fun h => hl (hlamp.symm.trans h)
    obtain ⟨hstate, -, -, hstop⟩ := htested.waits hsteady
    have hsub : t.plr.queue.Sublist y.plr.queue := htested.queue
    rw [hqueue] at hsub
    exact ⟨hstate, List.sublist_nil.mp hsub, hstop.trans htimer⟩

theorem shutterFall_reportsFrame {e : Exposure} {c : TryContext} (hw : s.ltc.windowOpen = true)
    (hn : 0 < s.ltc.windowSamples) (hr : s.plr.requester = some (.capture k o)) (hd : s.plr.decision = .waiting)
    (hs : s.plr.shutterSeen = true) (he : s.plr.endPending = true) (hq : s.csq.state = .exposing)
    (hc : s.csq.ctx = some c) (hslot : c.slot = k) (hop : s.cal.op = none) (hm : s.cal.record.mRef = some ref)
    (hlast : (s.work k).list.getLast? = some e) (ht : s.plr.tornCount < s.geometry.height)
    (hrows : ∀ x ∈ s.plr.queue, x.dest = .capture k o ∧ x.released = false)
    (hb : s.busyWith StoreWork.isMerge = false) :
    ∃ t, exec .shutterFall s = .next t ∧ t.plr.endPending = false ∧ t.plr.faultCount = s.plr.faultCount
      ∧ (s.windowPasses ref = true → s.plr.queue ≠ [] → (s.work k).state = .accumulating → e.ordinal = o →
          (∀ x ∈ s.plr.queue, x.row < s.geometry.height ∧ x.codes.length = s.geometry.width) →
          t.csq = { s.csq with state := .readout, frameReported := true } ∧ t.tbu.timers.frame = none
            ∧ (t.work k).list = (s.work k).list.dropLast ++ [{ e with
                monitor := s.ltc.mean
                outcome := if s.plr.tornCount = 0 then .merged else .patched
                torn := if s.plr.tornCount = 0 then e.torn else some s.plr.tornCount }])
      ∧ (s.windowPasses ref = false → c.singleTry = false → c.repeatCount < 2 → (s.work k).list.length < 16 →
          t.csq.ctx = some c.raiseRepeat
            ∧ (t.work k).list.take (s.work k).list.length
                = (s.work k).list.dropLast ++ [{ e with monitor := s.ltc.mean, outcome := .unsteady }]
            ∧ (s.ltc.lamp ≠ .steady → (t.csq.state = .awaitLamp ∨ t.csq.state = .paused .trigger)
                ∧ t.plr.queue = [] ∧ t.tbu.timers.frame = none))
      ∧ s.tablesKept t ∧ s.portsNoticed t := by
  have hexec := exec_shutterFall hw hn
  have htorn : (s.exposureJudged k (s.windowPasses ref)).plr.tornCount = s.plr.tornCount := by
    rw [State.exposureJudged_plr]
    cases s.windowPasses ref <;> rfl
  rw [State.windowEnded_try hd hs (.inr he) hr hq hm, he, if_pos rfl, htorn] at hexec
  change exec .shutterFall s = .next ((s.exposureReported k (s.windowPasses ref)).pollAll.announce s.plates) at hexec
  refine ⟨_, hexec, ?_, ?_, fun hp hne hstate ho hsize => ?_, fun hp hsingle hrep hlen => ?_, ?_, ?_⟩
  · have hended : (s.exposureReported k (s.windowPasses ref)).plr.endPending = false := by
      rw [State.exposureReported_eq hr]
      rfl
    exact State.pollAll_ended (by rw [State.exposureReported_eq hr]; exact hop) hended
  · change (s.exposureReported k (s.windowPasses ref)).pollAll.plr.faultCount = _
    rw [(State.pollAll_link _).1, State.exposureReported_eq hr]
    cases s.windowPasses ref <;> rfl
  · rw [hp]
    exact shutterFall_reportsPassed hr hop hlast ht hrows hne hstate ho hsize s.plates
  · rw [hp]
    exact shutterFall_repeatsFailed hr hop hc hslot hlast (fun x hx => (hrows x hx).2) hb hsingle hrep hlen s.plates
  · simp [State.tablesKept, State.exposureReported, State.exposureJudged, State.windowClosed]
  · exact State.portsNoticed_announce (by simp [State.exposureReported, State.exposureJudged, State.windowClosed]) _

/-! ## The attempt of a flat -/

/-- The attempt judged (R94). -/
def State.attemptJudged (s : State) (op : CalOp) : State :=
  s.windowClosed.attemptWindowEnd op s.ltc.mean s.ltc.steadyThroughout

theorem CalOp.passesTest_iff (op : CalOp) (tol m : Nat) (steady : Bool) : op.passesTest tol m steady = true ↔
    steady = true ∧ ∀ first, op.mFirst = some first → inTolerance tol first m = true := by
  unfold CalOp.passesTest
  cases op.mFirst <;> simp

/-- An attempt whose frame has not been reported goes on (R94). -/
theorem State.pollCal_inFlight {op : CalOp} (hop : s.cal.op = some op) (hf : op.inFlight = true)
    (hr : op.reported = false) : s.pollCal = s := by
  have hattempt : s.pollAttempt = s := by
    unfold State.pollAttempt
    rw [hop]
    exact if_neg (by simp [hr])
  unfold State.pollCal State.pollAttemptTrigger
  rw [hattempt, hop]
  exact if_neg (by simp [hf])

theorem State.canTrigger_awaited (h : s.plr.awaitedTag ≠ none) : s.canTrigger = false := by
  simp [State.canTrigger, Option.isSome_iff_ne_none, h]

/-- The turns after an attempt that goes on leave the calibration, and the receiver but for its queue. -/
theorem State.attempt_turns {op : CalOp} (hop : s.cal.op = some op) (hf : op.inFlight = true)
    (hr : op.reported = false) (ha : s.plr.awaitedTag ≠ none) (base : List PlateRecord) :
    (s.pollAll.announce base).cal = s.cal ∧ s.plr.Thinned (s.pollAll.announce base).plr
      ∧ (s.pollAll.announce base).ltc.windowOpen = s.ltc.windowOpen := by
  have hcal : s.takeDiscards.cal = s.cal := by simp
  have hdisc := s.thinned_takeDiscards
  have hawait : s.takeDiscards.plr.awaitedTag ≠ none := by rw [hdisc.1]; exact ha
  unfold State.pollAll
  rw [State.pollCal_inFlight (s := s.takeDiscards) (op := op) (by rw [hcal]; exact hop) hf hr]
  exact ⟨(State.turns_cal _ base).1.trans hcal,
    hdisc.trans (State.thinned_turns (State.canTrigger_awaited hawait) base), by simp⟩

theorem State.windowEnded_attempt {f : Nat} {op : CalOp} (hd : s.plr.decision = .waiting)
    (hs : s.plr.shutterSeen = true) (ha : s.plr.awaitedTag ≠ none) (hr : s.plr.requester = some (.calib f))
    (hop : s.cal.op = some op) (hk : op.kind = .flat) :
    s.windowClosed.windowEnded s.ltc.mean s.ltc.steadyThroughout = s.attemptJudged op := by
  have hgo : s.windowClosed.plr.decision = .waiting ∧ s.windowClosed.plr.shutterSeen = true
      ∧ (s.windowClosed.plr.awaitedTag.isSome = true ∨ s.windowClosed.plr.endPending = true) :=
    ⟨hd, hs, .inl (Option.isSome_iff_ne_none.mpr ha)⟩
  have hreq : s.windowClosed.plr.requester = some (.calib f) := hr
  have hop' : s.windowClosed.cal.op = some op := hop
  unfold State.windowEnded
  rw [if_pos hgo, hreq, hop']
  exact if_pos hk

/-- The attempt judged, by its test (R94). -/
theorem State.attemptJudged_eq {op : CalOp} (he : s.plr.endPending = false) (hop : s.cal.op = some op) :
    s.attemptJudged op =
      if op.passesTest s.settings.lampTolerance s.ltc.mean s.ltc.steadyThroughout then
        { s.windowClosed with cal := { s.cal with op := some (op.recordMean s.ltc.mean) }, plr := s.plr.release }
      else { s.windowClosed with cal := { s.cal with op := some { op with failedTest := true } }, plr := s.plr.drain } := by
  have hend (x : State) (hx : x.plr.endPending = false) (release : Bool) : x.decideWindow release =
      { x with plr := if release then x.plr.release else x.plr.drain } := by
    unfold State.decideWindow
    exact if_neg (by simp [hx])
  unfold State.attemptJudged State.attemptWindowEnd
  rw [hend (s.windowClosed.onOp fun o => o.recordMean s.ltc.mean) he,
    hend (s.windowClosed.onOp fun o => { o with failedTest := true }) he]
  simp only [State.onOp, State.onCal, State.windowClosed, State.onLtc, hop, Option.map_some]
  split <;> rfl

theorem shutterFall_judgesAttempt {f : Nat} {op : CalOp} (hw : s.ltc.windowOpen = true) (hn : 0 < s.ltc.windowSamples)
    (hr : s.plr.requester = some (.calib f)) (hd : s.plr.decision = .waiting) (hs : s.plr.shutterSeen = true)
    (ha : s.plr.awaitedTag ≠ none) (he : s.plr.endPending = false) (hop : s.cal.op = some op) (hk : op.kind = .flat)
    (hf : op.inFlight = true) (hrep : op.reported = false) :
    let passes := op.passesTest s.settings.lampTolerance s.ltc.mean s.ltc.steadyThroughout
    ∃ t, exec .shutterFall s = .next t ∧ t.cal.record = s.cal.record ∧ t.cal.tally = s.cal.tally
      ∧ t.ltc.windowOpen = false ∧ t.plr.faultCount = s.plr.faultCount ∧ t.plr.awaitedTag = s.plr.awaitedTag
      ∧ (passes = true → t.cal.op = some (op.recordMean s.ltc.mean)
          ∧ t.plr.decision = .release ∧ (∀ x ∈ t.plr.queue, x.released = true)
          ∧ t.plr.rowsReleased = s.plr.rowsReleased + s.plr.queue.countP fun x => !x.released)
      ∧ (passes = false → t.cal.op = some { op with failedTest := true } ∧ t.plr.decision = .drain
          ∧ t.plr.rowsReleased = s.plr.rowsReleased
          ∧ ((∀ x ∈ s.plr.queue, x.released = false) → t.plr.queue = []))
      ∧ s.tablesKept t ∧ s.portsNoticed t := by
  intro passes
  have hexec := exec_shutterFall hw hn
  rw [State.windowEnded_attempt hd hs ha hr hop hk] at hexec
  have hx := State.attemptJudged_eq he hop
  have htables : s.tablesKept ((s.attemptJudged op).pollAll.announce s.plates) := by
    simp [State.tablesKept, State.attemptJudged, State.windowClosed]
  have hports : s.portsNoticed ((s.attemptJudged op).pollAll.announce s.plates) :=
    State.portsNoticed_announce (by simp [State.attemptJudged, State.windowClosed]) _
  refine ⟨_, hexec, ?_⟩
  by_cases hp : passes = true
  · have hx' := hx.trans (if_pos hp)
    obtain ⟨hcal, ⟨hplr, hqueue⟩, hopen⟩ := State.attempt_turns (s := s.attemptJudged op) (op := op.recordMean s.ltc.mean)
      (by rw [hx']) hf hrep (by rw [hx']; exact ha) s.plates
    generalize (s.attemptJudged op).pollAll.announce s.plates = t at *
    rw [hx'] at hcal hplr hqueue hopen
    refine ⟨by rw [hcal], by rw [hcal], hopen, by rw [hplr]; rfl, by rw [hplr]; rfl, fun _ => ⟨by rw [hcal],
      by rw [hplr]; rfl, fun x hmem => s.plr.judged_released true x (hqueue.subset hmem), ?_⟩,
      fun h => absurd hp (by simp [h]), htables, hports⟩
    rw [hplr]
    exact s.plr.release_count
  · have hx' := hx.trans (if_neg hp)
    obtain ⟨hcal, ⟨hplr, hqueue⟩, hopen⟩ := State.attempt_turns (s := s.attemptJudged op) (op := { op with failedTest := true })
      (by rw [hx']) hf hrep (by rw [hx']; exact ha) s.plates
    generalize (s.attemptJudged op).pollAll.announce s.plates = t at *
    rw [hx'] at hcal hplr hqueue hopen
    refine ⟨by rw [hcal], by rw [hcal], hopen, by rw [hplr]; rfl, by rw [hplr]; rfl, fun h => absurd h hp,
      fun _ => ⟨by rw [hcal], by rw [hplr]; rfl, by rw [hplr]; rfl, fun hheld => ?_⟩, htables, hports⟩
    have hnil : s.plr.drain.queue = [] := Plr.drain_held hheld
    have hsub : t.plr.queue.Sublist s.plr.drain.queue := hqueue
    rw [hnil] at hsub
    exact List.sublist_nil.mp hsub

end

/-- Settles O21: the window's end judges an attempt, a frame that ended before it, or an exposure whose frame is still
awaited. -/
theorem windowEndJudgesExposure : Obligations.WindowEndJudgesExposure := by
  unfold Obligations.WindowEndJudgesExposure
  refine ⟨?_, ?_, ?_⟩
  · intro s f op hw hn hr hd hs ha he hop hk hf hrep m passes
    have hiff := op.passesTest_iff s.settings.lampTolerance m s.ltc.steadyThroughout
    obtain ⟨t, hexec, h1, h2, h3, h4, h5, hpass, hfail, h6, h7⟩ :=
      shutterFall_judgesAttempt hw hn hr hd hs ha he hop hk hf hrep
    exact ⟨t, hexec, h1, h2, h3, h4, h5, fun hp => hpass (hiff.mpr hp),
      fun hp => hfail (Bool.eq_false_iff.mpr fun h => hp (hiff.mp h)), h6, h7⟩
  · intro s k o ref e c hw hn hr hd hs he hq hc hslot hop hm hlast ht hrows hb m list
    have hiff := s.windowPasses_iff ref
    obtain ⟨t, hexec, h1, h2, hpass, hfail, h3, h4⟩ :=
      shutterFall_reportsFrame hw hn hr hd hs he hq hc hslot hop hm hlast ht hrows hb
    exact ⟨t, hexec, h1, h2, fun hsteady htol => hpass (hiff.mpr ⟨hsteady, htol⟩),
      fun hp => hfail (Bool.eq_false_iff.mpr fun h => hp (hiff.mp h)), h3, h4⟩
  · intro s k o ref hw hn hr hd hs ha he hq hf hop hm
    exact shutterFall_judgesTry hw hn hr hd hs ha he hq hf hop hm

end Sys2Proof.Machine
end

section
/-! SUPPORT. Faults charged to a link that they do not drop, torn rows, and the sealing of a fault record (R110, R114,
R115, R120). -/

namespace Sys2Proof.Machine
-- One proof at a time: under the memory limit of the check there is no room for the stacks of many threads.
set_option Elab.async false

variable {s x : State} {m : FaultMark} {w n : Nat}

theorem linkOf_low {limit count : Nat} (h : count < 384) : linkOf limit count ≠ .dropped := by
  unfold linkOf
  rw [if_neg (show ¬ Config.droppedCount ≤ count from Nat.not_le.mpr h)]
  split_ifs <;> simp

/-- A count below 384 leaves the link up (R114, R115). -/
theorem State.setFaultCount_low (h : n < 384) (cause : LinkCause) : s.setFaultCount n cause = { s with
    raised := (s.setFaultCount n cause).raised
    plr := { s.plr with faultCount := n, link := linkOf s.settings.linkWarningLimit n } } := by
  have hmin : min Config.maxFaultCount n = n := Nat.min_eq_right (by unfold Config.maxFaultCount; omega)
  unfold State.setFaultCount
  dsimp only
  rw [hmin]
  split
  · rfl
  · rw [if_neg (linkOf_low h)]
    rfl

/-- The fault that a record holds: the one it held, or the one captured (R120). -/
structure Plr.Captures (p q : Plr) (m : FaultMark) : Prop where
  filled : p.capture = none → ∃ count, q.capture = some
    { kind := m.kind, exposure := m.exposure, row := m.row, count := count }
  kept : ∀ r, p.capture = some r → q.capture = some r

theorem Plr.captures_captureFault (p : Plr) (m : FaultMark) : p.Captures (p.captureFault m) m := by
  unfold Plr.captureFault
  refine ⟨fun h => ?_, fun r h => ?_⟩ <;> rw [h]
  · exact ⟨_, rfl⟩
  · exact h

/-- A fault that does not drop the link (R114, R115, R120). -/
theorem State.chargeFault_low (hl : s.plr.link ≠ .dropped) (hn : s.plr.faultCount + w < 384) (m : FaultMark) :
    s.chargeFault m w = { s with
        raised := (s.chargeFault m w).raised
        plr := { s.plr with
          faultCount := s.plr.faultCount + w
          link := linkOf s.settings.linkWarningLimit (s.plr.faultCount + w)
          capture := (s.chargeFault m w).plr.capture } }
      ∧ s.plr.Captures (s.chargeFault m w).plr m := by
  have hmin : min Config.maxFaultCount (s.plr.faultCount + w) = s.plr.faultCount + w :=
    Nat.min_eq_right (by unfold Config.maxFaultCount; omega)
  have hcapture := Plr.captures_captureFault { s.plr with faultCount := s.plr.faultCount + w } m
  have hcount : ({ s.plr with faultCount := s.plr.faultCount + w }.captureFault m).faultCount
      = s.plr.faultCount + w := by
    unfold Plr.captureFault
    split <;> rfl
  have hfault : ({ s.plr with faultCount := s.plr.faultCount + w }.captureFault m) = { s.plr with
      faultCount := s.plr.faultCount + w
      capture := ({ s.plr with faultCount := s.plr.faultCount + w }.captureFault m).capture } := by
    unfold Plr.captureFault
    split <;> rfl
  have hcharge : s.chargeFault m w = (s.onPlr fun p => { p with faultCount := p.faultCount + w }.captureFault m).setFaultCount
      (s.plr.faultCount + w) (.fault m.kind) := by
    unfold State.chargeFault
    rw [if_neg hl]
    simp only [State.onPlr]
    rw [hmin, hcount]
  rw [hcharge, State.setFaultCount_low hn]
  refine ⟨?_, hcapture.filled, hcapture.kept⟩
  simp only [State.onPlr]
  rw [hfault]

/-- Faults of the exposure: what they charge, and the rows they tear (R110, R114, R115, R120). -/
structure State.Charges (s x : State) (m : FaultMark) (w n : Nat) : Prop where
  rest : x = { s with
    raised := x.raised
    plr := { s.plr with
      faultCount := s.plr.faultCount + w
      exposureCharge := s.plr.exposureCharge + w
      exposureClean := false
      tornCount := s.plr.tornCount + n
      link := linkOf s.settings.linkWarningLimit (s.plr.faultCount + w)
      capture := x.plr.capture } }
  captures : s.plr.Captures x.plr m

theorem State.Charges.link (h : s.Charges x m w n) (hn : s.plr.faultCount + w < 384) : x.plr.link ≠ .dropped := by
  rw [h.rest]
  exact linkOf_low hn

/-- A further charge, whatever it captures, follows the first (R114, R120). -/
theorem State.Charges.trans {y : State} {m2 : FaultMark} {w2 n2 : Nat} (h : s.Charges x m w n) (h2 : x.Charges y m2 w2 n2) :
    s.Charges y m (w + w2) (n + n2) := by
  have hx := h.rest
  refine ⟨?_, fun hnone => ?_, fun r hr => h2.captures.kept r (h.captures.kept r hr)⟩
  · rw [h2.rest]
    rw [hx]
    simp only [Nat.add_assoc]
  · obtain ⟨count, hc⟩ := h.captures.filled hnone
    exact ⟨count, h2.captures.kept _ hc⟩

/-- What a row's fault weighs: 8 while the exposure's charge is below 64 (R114). -/
def Plr.rowCharge (p : Plr) : Nat := if p.exposureCharge < 64 then 8 else 0

theorem State.charges_chargeRow (hl : s.plr.link ≠ .dropped) (hn : s.plr.faultCount + 8 < 384) (m : FaultMark) :
    s.Charges (s.chargeRow m) m s.plr.rowCharge 0 := by
  unfold State.chargeRow Plr.rowCharge
  rw [if_neg hl]
  dsimp only
  have h64 : Config.maxExposureCharge = 64 := rfl
  rw [h64]
  split
  · obtain ⟨heq, hc⟩ := State.chargeFault_low (s := (s.onPlr fun p => { p with exposureClean := false }).onPlr fun p =>
      { p with exposureCharge := p.exposureCharge + Config.rowWeight }) (w := 8) hl hn m
    exact ⟨heq, hc.filled, hc.kept⟩
  · obtain ⟨heq, hc⟩ := State.chargeFault_low (s := s.onPlr fun p => { p with exposureClean := false }) (w := 0) hl
      (by exact Nat.lt_of_le_of_lt (Nat.le_add_right _ 8) hn) m
    exact ⟨heq, hc.filled, hc.kept⟩

/-- A row torn (R110). -/
theorem State.charges_tearRow (hl : s.plr.link ≠ .dropped) (hn : s.plr.faultCount + 8 < 384) (kind : FaultKind) (i : Nat) :
    s.Charges (s.tearRow kind i) { kind := kind, exposure := s.plr.faultExposure, row := some i } s.plr.rowCharge 1 := by
  unfold State.tearRow
  rw [if_neg hl]
  have h := State.charges_chargeRow (s := s.onPlr fun p => { p with tornCount := p.tornCount + 1 }) hl hn
    { kind := kind, exposure := s.plr.faultExposure, row := some i }
  exact ⟨h.rest, h.captures.filled, h.captures.kept⟩

/-- Several rows torn, while the exposure's charge has room for all (R110, R114). -/
theorem State.charges_tearRows (hl : s.plr.link ≠ .dropped) (kind : FaultKind) (i : Nat) :
    ∀ n, s.plr.exposureCharge + 8 * (n + 1) ≤ 64 → s.plr.faultCount + 8 * (n + 1) < 384 →
      s.Charges (s.tearRows kind i (n + 1)) { kind := kind, exposure := s.plr.faultExposure, row := some i }
        (8 * (n + 1)) (n + 1) := by
  intro n
  induction n with
  | zero =>
    intro hc hn
    have h := State.charges_tearRow hl (by omega) kind i
    have h8 : s.plr.rowCharge = 8 := if_pos (by omega)
    rwa [h8] at h
  | succ n ih =>
    intro hc hn
    have h := ih (by omega) (by omega)
    have hlast : s.tearRows kind i (n + 1 + 1) = (s.tearRows kind i (n + 1)).tearRow kind (i + (n + 1)) := by
      unfold State.tearRows
      rw [List.range_succ, List.foldl_append]
      rfl
    have hcount : (s.tearRows kind i (n + 1)).plr.faultCount = s.plr.faultCount + 8 * (n + 1) := by rw [h.rest]
    have hcharge : (s.tearRows kind i (n + 1)).plr.exposureCharge = s.plr.exposureCharge + 8 * (n + 1) := by rw [h.rest]
    have h2 := State.charges_tearRow (h.link (by omega)) (by rw [hcount]; omega) kind (i + (n + 1))
    have h8 : (s.tearRows kind i (n + 1)).plr.rowCharge = 8 := if_pos (by rw [hcharge]; omega)
    rw [h8] at h2
    rw [hlast]
    exact h.trans h2

/-- A stray frame that does not drop the link (R108, R114). -/
theorem State.strayFrame_low (hl : s.plr.link ≠ .dropped) (hn : s.plr.faultCount + 8 < 384) :
    s.strayFrame = { s with
        raised := s.strayFrame.raised
        plr := { s.plr with
          reception := .discarding
          straySeen := true
          faultCount := s.plr.faultCount + 8
          link := linkOf s.settings.linkWarningLimit (s.plr.faultCount + 8)
          capture := s.strayFrame.plr.capture } }
      ∧ s.plr.Captures s.strayFrame.plr { kind := .stray, exposure := none, row := none } := by
  obtain ⟨heq, hc⟩ := State.chargeFault_low
    (s := s.onPlr fun p => { p with reception := .discarding, straySeen := true }) (w := 8) hl hn
    { kind := .stray, exposure := none, row := none }
  exact ⟨heq, hc.filled, hc.kept⟩

/-! ## The sealing of the event's record -/

/-- The record after the event: one captured at it holds the count after it (R120; log 21). -/
theorem State.sealFaults_eq (s x : State) : s.sealFaults x = { x with
    raised := (s.sealFaults x).raised
    plr := { x.plr with capture :=
      if s.plr.capture = none then x.plr.capture.map fun c => c.withCount x.plr.faultCount else x.plr.capture } } := by
  unfold State.sealFaults
  cases h : s.plr.capture <;> simp [State.onPlr]

/-- A record captured at the event (R120; log 21). -/
theorem Plr.Captures.sealed (h : s.plr.Captures x.plr m) :
    (s.plr.capture = none → (s.sealFaults x).plr.capture = some
        { kind := m.kind, exposure := m.exposure, row := m.row, count := x.plr.faultCount })
      ∧ ∀ r, s.plr.capture = some r → (s.sealFaults x).plr.capture = some r := by
  rw [State.sealFaults_eq]
  refine ⟨fun hnone => ?_, fun r hr => ?_⟩
  · obtain ⟨count, hc⟩ := h.filled hnone
    change (if s.plr.capture = none then _ else _) = _
    rw [if_pos hnone, hc]
    rfl
  · change (if s.plr.capture = none then _ else _) = _
    rw [if_neg (by simp [hr])]
    exact h.kept r hr

/-- An event that captures nothing leaves the record as it is (R120). -/
theorem State.sealFaults_capture_kept (h : x.plr.capture = s.plr.capture) :
    (s.sealFaults x).plr.capture = s.plr.capture := by
  rw [State.sealFaults_eq]
  change (if s.plr.capture = none then _ else _) = _
  rw [h]
  split
  next hnone => rw [hnone]; rfl
  next => rfl

end Sys2Proof.Machine
end

section
/-! PROOFS. UPLINK_ROW: the row of the open frame is queued, drained, torn or thrown away (R109, R110, R114, R120). -/

namespace Sys2Proof.Machine
-- One proof at a time: under the memory limit of the check there is no room for the stacks of many threads.
set_option Elab.async false

section

variable {s : State} {i : Nat} {q : List QueuedRow}

/-! ## The events of the uplink in the middle of a try -/

/-- The state that an uplink event leaves (R107). -/
def State.uplinked (s y : State) : State := (s.sealFaults y).pollAll.announce s.plates

theorem State.sealFaults_blocks (s y : State) : (s.sealFaults y).csq = y.csq ∧ (s.sealFaults y).cal = y.cal
    ∧ (s.sealFaults y).fsc = y.fsc ∧ (s.sealFaults y).mge = y.mge ∧ (s.sealFaults y).tbu = y.tbu
    ∧ (s.sealFaults y).plr.queue = y.plr.queue := by
  rw [State.sealFaults_eq]
  exact ⟨rfl, rfl, rfl, rfl, rfl, rfl⟩

/-- A receiver that takes a row or throws one away captures nothing (R120). -/
theorem State.sealFaults_taken {p : Plr} (h : p.capture = s.plr.capture) :
    s.sealFaults { s with plr := p } = { s with raised := (s.sealFaults { s with plr := p }).raised, plr := p } := by
  have hkept := State.sealFaults_capture_kept (s := s) (x := { s with plr := p }) h
  rw [State.sealFaults_eq] at hkept ⊢
  change (if s.plr.capture = none then _ else _) = _ at hkept
  rw [← h] at hkept
  simp only at hkept ⊢
  rw [← h, hkept]

/-- What a row's faults leave at the end of their event: the receiver charged, the sequencer where it was. -/
theorem State.row_faulted (hmid : s.midTry) {y : State} {m : FaultMark} {w n : Nat}
    (h : State.Charges { s with plr := { s.plr with nextRow := i, queue := q } } y m w n) :
    let t := s.uplinked y
    t.plr.nextRow = i ∧ t.plr.tornCount = s.plr.tornCount + n
      ∧ (t.plr.faultCount = s.plr.faultCount + w ∧ t.plr.exposureCharge = s.plr.exposureCharge + w
          ∧ t.plr.exposureClean = false ∧ t.plr.link = linkOf s.settings.linkWarningLimit t.plr.faultCount
          ∧ (s.plr.capture = none → t.plr.capture =
              some { kind := m.kind, exposure := m.exposure, row := m.row, count := t.plr.faultCount }))
      ∧ ((∀ x ∈ q, x.released = false) → t.plr.queue = q) ∧ t.csq = s.csq := by
  intro t
  obtain ⟨hcsq, hcal, -, -, -, hrows⟩ := s.sealFaults_blocks y
  have hy := h.rest
  have hycsq : y.csq = s.csq := by rw [hy]
  have hycal : y.cal = s.cal := by rw [hy]
  have hyqueue : y.plr.queue = q := by rw [hy]
  have hm : (s.sealFaults y).midTry := by
    unfold State.midTry
    rw [hcsq, hcal, hycsq, hycal]
    exact hmid
  have hcapture := (Plr.Captures.sealed (s := s) (x := y) (m := m) ⟨h.captures.filled, h.captures.kept⟩).1
  obtain ⟨htcsq, -⟩ := hm.undisturbed.kept s.plates
  obtain ⟨hplr, -⟩ := hm.undisturbed.thinned s.plates
  have hqueue := hm.undisturbed.queue_held (s := s.sealFaults y)
  have hsealed := s.sealFaults_eq y
  change t.plr = _ at hplr
  have hcount : t.plr.faultCount = s.plr.faultCount + w := by rw [hplr, hsealed, hy]
  refine ⟨by rw [hplr, hsealed, hy], by rw [hplr, hsealed, hy], ⟨hcount, by rw [hplr, hsealed, hy],
    by rw [hplr, hsealed, hy], ?_, fun hnone => ?_⟩, fun hheld => ?_, ?_⟩
  · rw [hcount, hplr, hsealed, hy]
  · have hcap : t.plr.capture = (s.sealFaults y).plr.capture := by rw [hplr]
    rw [hcap, hcapture hnone, hcount]
    rw [hy]
  · rw [← hyqueue, ← hrows] at hheld
    exact (hqueue hheld s.plates).trans (hrows.trans hyqueue)
  · exact htcsq.trans (hcsq.trans hycsq)

/-- What a row that is taken or thrown away without charge leaves at the end of its event. -/
theorem State.row_taken (hmid : s.midTry) {p : Plr} (hc : p.capture = s.plr.capture) :
    let t := s.uplinked { s with plr := p }
    p.Thinned t.plr ∧ t.csq = s.csq ∧ ((∀ x ∈ p.queue, x.released = false) → t.plr.queue = p.queue)
      ∧ (s.inProgress .rowMerge = true → t.plr.queue = p.queue) := by
  intro t
  have hsealed := State.sealFaults_taken hc
  have ht : t = ({ s with raised := (s.sealFaults { s with plr := p }).raised, plr := p } : State).pollAll.announce
      s.plates :=
    congrArg (fun x : State => x.pollAll.announce s.plates) hsealed
  generalize (s.sealFaults { s with plr := p }).raised = ns at ht
  have hm : State.midTry { s with raised := ns, plr := p } := hmid
  obtain ⟨hcsq, -⟩ := hm.undisturbed.kept s.plates
  rw [ht]
  refine ⟨hm.undisturbed.thinned s.plates, hcsq, fun h => hm.undisturbed.queue_held h s.plates, fun h => ?_⟩
  have hacc : s.fsc.access ≠ none := by
    unfold State.inProgress at h
    cases ha : s.fsc.access <;> simp [ha] at h ⊢
  exact hm.undisturbed.queue_busy (State.takeDiscards_of_merge h) hacc s.plates

/-! ## A row that goes to a free store -/

theorem State.arbitrate_takesRow {r : QueuedRow} {rest : List QueuedRow} {k : SlotNo} {o : Nat}
    (ha : s.fsc.access = none) (hr : s.fsc.state = .ready) (ho : s.fsc.refreshOwed = 0)
    (hclear : ∀ j : SlotNo, (s.work j).state ≠ .clearing) (hq : s.plr.queue = r :: rest)
    (hd : r.dest = .capture k o) (hrel : r.released = true) (hwant : s.rowWanted k o r.row r.codes = true) :
    s.arbitrate.plr.queue = rest
      ∧ s.arbitrate.fsc.access = some { work := .merge k o r.row r.codes, result := .used } := by
  have hhead : s.headWork? = some (.merge k o r.row r.codes) :=
    (s.headWork?_eq_some _).mpr ⟨r, by rw [hq]; rfl, hrel, .inl ⟨k, o, hd, hwant, rfl⟩⟩
  have hnone : s.clearWork? = none := by
    cases hc : s.clearWork? with
    | none => rfl
    | some w =>
      obtain ⟨j, hj, -⟩ := (s.clearWork?_eq_some w).mp hc
      exact absurd hj (hclear j)
  have hworks : ∃ others, s.works = .merge k o r.row r.codes :: others := by
    unfold State.works State.inProgress
    rw [ha, ho, hhead, hnone]
    exact ⟨_, rfl⟩
  obtain ⟨others, hworks⟩ := hworks
  have hgrant : s.grant = (s.onFsc fun f => { f with
      access := some { work := .merge k o r.row r.codes, result := .used } }).onPlr fun p =>
        p.takeFor (.merge k o r.row r.codes) := by
    unfold State.grant
    rw [ha, hworks]
    exact if_pos hr
  have hqueue : s.arbitrate.plr.queue = s.grant.plr.queue := rfl
  have haccess : s.arbitrate.fsc.access = s.grant.fsc.access := rfl
  rw [hqueue, haccess, hgrant]
  refine ⟨?_, rfl⟩
  change s.plr.queue.tail = rest
  rw [hq]
  rfl

/-! ## The row received -/

/-- The row in the queue (R109, R110). -/
def rowFor (who : Requester) (index : Nat) (bytes : List Byte) (released : Bool) : QueuedRow :=
  { dest := who, row := index, codes := unpackCodes bytes, released := released }

variable {who : Requester} {index : Nat} {bytes : List Byte}

/-- The receiver with its next row set (R109). -/
def Plr.withNext (p : Plr) (i : Nat) : Plr := { p with nextRow := i }

theorem State.receiveRow_torn (h : s.plr.nextRow < s.geometry.height) {good : Bool}
    (hbad : good = false ∨ bytes.length ≠ 3 * s.geometry.width / 2) : s.receiveRow good index bytes =
      (s.onPlr fun p => p.withNext (s.plr.nextRow + 1)).tearRow (if good then .length else .check) s.plr.nextRow := by
  unfold State.receiveRow
  cases good with
  | false => exact if_pos (by simpa using h)
  | true =>
    refine (if_neg (by simp)).trans ?_
    exact if_pos ⟨hbad.resolve_left (by simp), h⟩

theorem State.receiveRow_thrown {good : Bool}
    (hin : (good = true ∧ bytes.length = 3 * s.geometry.width / 2 ∧ s.plr.nextRow < s.geometry.height)
      ∨ s.geometry.height ≤ s.plr.nextRow)
    (hout : index < s.plr.nextRow ∨ s.geometry.height ≤ index) :
    s.receiveRow good index bytes = s.throwRow index := by
  unfold State.receiveRow
  have h1 : ¬ ((!good && decide (s.plr.nextRow < s.geometry.height)) = true) := by
    rcases hin with ⟨hg, -, -⟩ | h
    · simp [hg]
    · simp [Nat.not_lt.mpr h]
  have h2 : ¬ (bytes.length ≠ 3 * s.geometry.width / 2 ∧ s.plr.nextRow < s.geometry.height) := by
    rintro ⟨hb, hlt⟩
    rcases hin with ⟨-, hw, -⟩ | h
    · exact hb hw
    · exact Nat.not_lt.mpr h hlt
  exact (if_neg h1).trans ((if_neg h2).trans (if_pos hout))

theorem State.receiveRow_whole (hw : bytes.length = 3 * s.geometry.width / 2) (hi : s.plr.nextRow ≤ index)
    (hh : index < s.geometry.height) : s.receiveRow true index bytes =
      if (s.tearRows .sequence s.plr.nextRow (index - s.plr.nextRow)).plr.link = .dropped then
        s.tearRows .sequence s.plr.nextRow (index - s.plr.nextRow)
      else (s.tearRows .sequence s.plr.nextRow (index - s.plr.nextRow)).queueRow index (unpackCodes bytes) := by
  unfold State.receiveRow
  refine (if_neg (by simp)).trans ((if_neg fun h => h.1 hw).trans (if_neg ?_))
  omega

/-- The row whose index is expected is queued, drained or torn (R109, R110). -/
theorem State.receiveRow_expected (hl : s.plr.link ≠ .dropped) (hw : bytes.length = 3 * s.geometry.width / 2)
    (hi : index = s.plr.nextRow) (hh : s.plr.nextRow < s.geometry.height) :
    s.receiveRow true index bytes = s.queueRow index (unpackCodes bytes) := by
  have hnone : s.tearRows .sequence s.plr.nextRow (index - s.plr.nextRow) = s := by
    rw [hi, Nat.sub_self]
    rfl
  rw [State.receiveRow_whole hw (by omega) (by omega), hnone, if_neg hl]

theorem State.queueRow_drains (hd : s.plr.decision = .drain) (codes : List CameraCode) :
    s.queueRow index codes = { s with plr := s.plr.withNext (index + 1) } := by
  unfold State.queueRow
  rw [hd]
  rfl

theorem State.queueRow_overflows (hd : s.plr.decision ≠ .drain) (hr : s.plr.requester = some who)
    (h8 : 8 ≤ s.plr.queue.length) (codes : List CameraCode) :
    s.queueRow index codes = (s.onPlr fun p => p.withNext (index + 1)).tearRow .overflow index := by
  unfold State.queueRow
  rw [hr]
  cases hd' : s.plr.decision with
  | drain => exact absurd hd' hd
  | waiting => exact if_pos h8
  | release => exact if_pos h8

theorem State.queueRow_enters (hd : s.plr.decision ≠ .drain) (hr : s.plr.requester = some who)
    (h8 : s.plr.queue.length < 8) : s.queueRow index (unpackCodes bytes) = { s with
      plr := { s.plr with
        nextRow := index + 1
        queue := s.plr.queue ++ [rowFor who index bytes (s.plr.decision == .release)]
        rowsReleased := if s.plr.decision = .release then s.plr.rowsReleased + 1 else s.plr.rowsReleased } } := by
  unfold State.queueRow
  rw [hr]
  cases hd' : s.plr.decision with
  | drain => exact absurd hd' hd
  | waiting => exact (if_neg (Nat.not_le.mpr h8)).trans rfl
  | release => exact (if_neg (Nat.not_le.mpr h8)).trans rfl

/-! ## The event, case by case -/

variable {bits : BitVec 16} {check : BitVec 16}

/-- The state after a ROW of the open frame. -/
def State.rowReceived (s : State) (bits : BitVec 16) (bytes : List Byte) (check : BitVec 16) : State :=
  s.uplinked (s.receiveRow (rowGood bits bytes check) bits.toNat bytes)

theorem exec_uplinkRow (hl : s.plr.link ≠ .dropped) (hr : s.plr.reception = .receiving) :
    exec (.uplinkRow bits bytes check) s = .next (s.rowReceived bits bytes check) := by
  change execUplinkRow bits bytes check s = _
  unfold execUplinkRow
  rw [if_neg hl, hr]
  rfl

theorem uplinkRow_enters (hmid : s.midTry) (hl : s.plr.link ≠ .dropped) (hr : s.plr.requester = some who)
    (hg : rowGood bits bytes check = true) (hw : bytes.length = 3 * s.geometry.width / 2)
    (hi : bits.toNat = s.plr.nextRow) (hh : s.plr.nextRow < s.geometry.height) (h8 : s.plr.queue.length < 8)
    (hd : s.plr.decision ≠ .drain) :
    let t := s.rowReceived bits bytes check
    t.plr.nextRow = s.plr.nextRow + 1 ∧ t.plr.faultCount = s.plr.faultCount ∧ t.plr.tornCount = s.plr.tornCount
      ∧ t.plr.rowsReleased = (if s.plr.decision = .release then s.plr.rowsReleased + 1 else s.plr.rowsReleased)
      ∧ t.csq = s.csq
      ∧ ((s.plr.decision = .waiting ∧ ∀ x ∈ s.plr.queue, x.released = false) →
          t.plr.queue = s.plr.queue ++ [rowFor who bits.toNat bytes false])
      ∧ (s.plr.decision = .release → s.inProgress .rowMerge = true →
          t.plr.queue = s.plr.queue ++ [rowFor who bits.toNat bytes true]) := by
  intro t
  have ht : t = s.uplinked { s with plr := { s.plr with
      nextRow := bits.toNat + 1
      queue := s.plr.queue ++ [rowFor who bits.toNat bytes (s.plr.decision == .release)]
      rowsReleased := if s.plr.decision = .release then s.plr.rowsReleased + 1 else s.plr.rowsReleased } } := by
    change s.uplinked (s.receiveRow (rowGood bits bytes check) bits.toNat bytes) = _
    rw [hg, State.receiveRow_expected hl hw hi hh, State.queueRow_enters hd hr h8]
  obtain ⟨⟨hplr, -⟩, hcsq, hheld, hbusy⟩ := State.row_taken hmid (p := { s.plr with
      nextRow := bits.toNat + 1
      queue := s.plr.queue ++ [rowFor who bits.toNat bytes (s.plr.decision == .release)]
      rowsReleased := if s.plr.decision = .release then s.plr.rowsReleased + 1 else s.plr.rowsReleased }) rfl
  rw [← ht] at hplr hcsq hheld hbusy
  refine ⟨by rw [hplr, ← hi], by rw [hplr], by rw [hplr], by rw [hplr], hcsq, fun ⟨hdw, hrows⟩ => ?_, fun hdr hm => ?_⟩
  · simp only [hdw] at hheld
    refine hheld fun x hx => ?_
    rcases List.mem_append.mp hx with h | h
    · exact hrows x h
    · rw [List.mem_singleton.mp h]
      rfl
  · simp only [hdr] at hbusy
    exact hbusy hm

theorem uplinkRow_merges (hmid : s.midTry) (hl : s.plr.link ≠ .dropped) {k : SlotNo} {o : Nat} {e : Exposure}
    (hr : s.plr.requester = some (.capture k o))
    (hg : rowGood bits bytes check = true) (hw : bytes.length = 3 * s.geometry.width / 2)
    (hi : bits.toNat = s.plr.nextRow) (hh : s.plr.nextRow < s.geometry.height) (hd : s.plr.decision = .release)
    (hq : s.plr.queue = []) (ha : s.fsc.access = none) (hready : s.fsc.state = .ready) (ho : s.fsc.refreshOwed = 0)
    (hclear : ∀ j : SlotNo, (s.work j).state ≠ .clearing) (hacc : (s.work k).state = .accumulating)
    (hlast : (s.work k).list.getLast? = some e) (heo : e.ordinal = o) (hmerged : e.outcome = .merged)
    (hcodes : (unpackCodes bytes).length = s.geometry.width) :
    let t := s.rowReceived bits bytes check
    t.plr.queue = [] ∧ t.fsc.access =
      some { work := .merge k o bits.toNat (unpackCodes bytes), result := .used } := by
  intro t
  have hy : s.receiveRow (rowGood bits bytes check) bits.toNat bytes = { s with plr := { s.plr with
      nextRow := bits.toNat + 1
      queue := [rowFor (.capture k o) bits.toNat bytes true]
      rowsReleased := s.plr.rowsReleased + 1 } } := by
    rw [hg, State.receiveRow_expected hl hw hi hh, State.queueRow_enters (by rw [hd]; simp) hr (by rw [hq]; simp), hd, hq]
    rfl
  have ht : t = (s.sealFaults (s.receiveRow (rowGood bits bytes check) bits.toNat bytes)).pollAll.announce s.plates := rfl
  rw [hy, State.sealFaults_taken (by rfl)] at ht
  generalize hz : ({ s with raised := _, plr := _ } : State) = z at ht
  have hzmid : z.midTry := by rw [← hz]; exact hmid
  have hzqueue : z.plr.queue = [rowFor (.capture k o) bits.toNat bytes true] := by rw [← hz]
  have hzwork (j : SlotNo) : z.work j = s.work j := by rw [← hz]; rfl
  have hzgeo : z.geometry = s.geometry := by rw [← hz]
  have hzfsc : z.fsc = s.fsc := by rw [← hz]
  have hwant (x : State) (hx : x.geometry = s.geometry) (hxw : ∀ j, x.work j = s.work j) :
      x.rowWanted k o bits.toNat (unpackCodes bytes) = true :=
    (x.rowWanted_iff _ _ _ _).mpr ⟨by rw [hxw]; exact hacc, by rw [hx, hi]; exact hh, by rw [hx]; exact hcodes,
      e, by rw [hxw]; exact hlast, heo, .inl hmerged⟩
  have hkept : z.takeDiscards = z := by
    refine State.takeDiscards_kept fun x hx => ?_
    rw [hzqueue] at hx
    rw [List.mem_singleton.mp hx]
    simp [State.rowDiscarded, rowFor, hwant z hzgeo hzwork]
  have hpoll : z.pollAll = z.pollDelivery.arbitrate := by rw [hzmid.pollAll, hkept]
  have hdlt : z.pollDelivery.plr = z.plr ∧ z.pollDelivery.fsc = z.fsc ∧ z.pollDelivery.geometry = z.geometry
      ∧ z.pollDelivery.mge = z.mge := by simp
  obtain ⟨h1, h2, h3, h4⟩ := hdlt
  have hw2 (j : SlotNo) : z.pollDelivery.work j = s.work j :=
    (congrArg (fun m => m.work.get j) h4).trans (hzwork j)
  have htaken := State.arbitrate_takesRow (s := z.pollDelivery) (k := k) (o := o)
    (r := rowFor (.capture k o) bits.toNat bytes true) (rest := [])
    (by rw [h2, hzfsc]; exact ha) (by rw [h2, hzfsc]; exact hready) (by rw [h2, hzfsc]; exact ho)
    (fun j => by rw [hw2]; exact hclear j) (by rw [h1]; exact hzqueue) rfl rfl
    (hwant z.pollDelivery (h3.trans hzgeo) hw2)
  rw [ht, hpoll]
  exact htaken

theorem uplinkRow_drains (hmid : s.midTry) (hl : s.plr.link ≠ .dropped)
    (hg : rowGood bits bytes check = true) (hw : bytes.length = 3 * s.geometry.width / 2)
    (hi : bits.toNat = s.plr.nextRow) (hh : s.plr.nextRow < s.geometry.height) (hd : s.plr.decision = .drain) :
    let t := s.rowReceived bits bytes check
    t.plr.nextRow = s.plr.nextRow + 1 ∧ t.plr.faultCount = s.plr.faultCount ∧ t.plr.tornCount = s.plr.tornCount
      ∧ t.plr.rowsReleased = s.plr.rowsReleased ∧ t.csq = s.csq
      ∧ ((∀ x ∈ s.plr.queue, x.released = false) → t.plr.queue = s.plr.queue) := by
  intro t
  have ht : t = s.uplinked { s with plr := s.plr.withNext (bits.toNat + 1) } := by
    change s.uplinked (s.receiveRow (rowGood bits bytes check) bits.toNat bytes) = _
    rw [hg, State.receiveRow_expected hl hw hi hh, State.queueRow_drains hd]
  obtain ⟨⟨hplr, -⟩, hcsq, hheld, -⟩ := State.row_taken hmid (p := s.plr.withNext (bits.toNat + 1)) rfl
  rw [← ht] at hplr hcsq hheld
  exact ⟨by rw [hplr, ← hi]; rfl, by rw [hplr]; rfl, by rw [hplr]; rfl, by rw [hplr]; rfl, hcsq, hheld⟩

/-- What a faulted row leaves (R110, R114, R115, R120). -/
abbrev State.RowFaulted (s t : State) (who : Requester) (i n w : Nat) (kind : FaultKind) (row : Nat) (q : List QueuedRow) :
    Prop :=
  t.plr.nextRow = i ∧ t.plr.tornCount = s.plr.tornCount + n
    ∧ (t.plr.faultCount = s.plr.faultCount + w ∧ t.plr.exposureCharge = s.plr.exposureCharge + w
        ∧ t.plr.exposureClean = false ∧ t.plr.link = linkOf s.settings.linkWarningLimit t.plr.faultCount
        ∧ (s.plr.capture = none → t.plr.capture =
            some { kind := kind, exposure := some who, row := some row, count := t.plr.faultCount }))
    ∧ ((∀ x ∈ q, x.released = false) → t.plr.queue = q) ∧ t.csq = s.csq

theorem Plr.faultExposure_awaited (ha : s.plr.awaitedTag ≠ none) (hr : s.plr.requester = some who) :
    s.plr.faultExposure = some who := by
  unfold Plr.faultExposure
  rw [if_pos (Option.isSome_iff_ne_none.mpr ha), hr]

section

variable (hmid : s.midTry) (hl : s.plr.link ≠ .dropped) (hr : s.plr.requester = some who) (ha : s.plr.awaitedTag ≠ none)

include hmid hl hr ha

theorem uplinkRow_torn (hn : s.plr.faultCount + 8 < 384) {kind : FaultKind} {row : Nat}
    (hy : s.receiveRow (rowGood bits bytes check) bits.toNat bytes =
      (s.onPlr fun p => p.withNext (s.plr.nextRow + 1)).tearRow kind row) :
    s.RowFaulted (s.rowReceived bits bytes check) who (s.plr.nextRow + 1) 1 s.plr.rowCharge kind row s.plr.queue := by
  have h := State.charges_tearRow (s := s.onPlr fun p => p.withNext (s.plr.nextRow + 1)) hl hn kind row
  have hexp : (s.onPlr fun p => p.withNext (s.plr.nextRow + 1)).plr.faultExposure = some who :=
    Plr.faultExposure_awaited ha hr
  rw [hexp, ← hy] at h
  exact State.row_faulted hmid h

theorem uplinkRow_thrown (hn : s.plr.faultCount + 8 < 384)
    (hy : s.receiveRow (rowGood bits bytes check) bits.toNat bytes = s.throwRow bits.toNat) :
    s.RowFaulted (s.rowReceived bits bytes check) who s.plr.nextRow 0 s.plr.rowCharge .sequence bits.toNat s.plr.queue := by
  have h := State.charges_chargeRow hl hn { kind := .sequence, exposure := s.plr.faultExposure, row := some bits.toNat }
  rw [Plr.faultExposure_awaited ha hr] at h
  change s.Charges ((s.chargeRow { kind := .sequence, exposure := some who, row := some bits.toNat })) _ _ _ at h
  have hy' : s.receiveRow (rowGood bits bytes check) bits.toNat bytes
      = s.chargeRow { kind := .sequence, exposure := some who, row := some bits.toNat } := by
    rw [hy, State.throwRow, Plr.faultExposure_awaited ha hr]
  rw [← hy'] at h
  exact State.row_faulted hmid (i := s.plr.nextRow) (q := s.plr.queue) h

theorem uplinkRow_skips (hg : rowGood bits bytes check = true) (hw : bytes.length = 3 * s.geometry.width / 2)
    (hi : s.plr.nextRow < bits.toNat) (hh : bits.toNat < s.geometry.height) (hd : s.plr.decision = .waiting)
    (h8 : s.plr.queue.length < 8) {n : Nat} (hgap : bits.toNat - s.plr.nextRow = n + 1)
    (hc : s.plr.exposureCharge + 8 * (n + 1) ≤ 64) (hn : s.plr.faultCount + 8 * (n + 1) < 384) :
    s.RowFaulted (s.rowReceived bits bytes check) who (bits.toNat + 1) (n + 1) (8 * (n + 1)) .sequence s.plr.nextRow
      (s.plr.queue ++ [rowFor who bits.toNat bytes false]) := by
  have h := State.charges_tearRows hl .sequence s.plr.nextRow n hc hn
  rw [Plr.faultExposure_awaited ha hr] at h
  have hrest := h.rest
  have hy : s.receiveRow (rowGood bits bytes check) bits.toNat bytes = { s.tearRows .sequence s.plr.nextRow (n + 1) with
      plr := { (s.tearRows .sequence s.plr.nextRow (n + 1)).plr with
        nextRow := bits.toNat + 1
        queue := s.plr.queue ++ [rowFor who bits.toNat bytes false] } } := by
    rw [hg, State.receiveRow_whole hw (by omega) hh, hgap, if_neg (h.link hn),
      State.queueRow_enters (who := who) (by rw [hrest, hd]; simp) (by rw [hrest]; exact hr) (by rw [hrest]; exact h8)]
    have hdec : (s.tearRows .sequence s.plr.nextRow (n + 1)).plr.decision = .waiting := by rw [hrest]; exact hd
    have hqueue : (s.tearRows .sequence s.plr.nextRow (n + 1)).plr.queue = s.plr.queue := by rw [hrest]
    rw [hdec, hqueue]
    rfl
  refine State.row_faulted hmid (m := { kind := .sequence, exposure := some who, row := some s.plr.nextRow })
    (y := s.receiveRow (rowGood bits bytes check) bits.toNat bytes) ?_
  rw [hy]
  refine ⟨?_, h.captures.filled, h.captures.kept⟩
  generalize s.tearRows .sequence s.plr.nextRow (n + 1) = x at hrest ⊢
  rw [hrest]

end

end

/-- Settles O23: the row's check, its length, its index, the decision and the queue's room lead to one case each. -/
theorem uplinkRowIsQueuedOrTorn : Obligations.UplinkRowIsQueuedOrTorn := by
  unfold Obligations.UplinkRowIsQueuedOrTorn
  intro s bits bytes check who hmid hl hrec hr ha i h good whole row held weight charged
  have hgood : rowGood bits bytes check = true ↔ good := by simp [rowGood, good]
  have hbad : rowGood bits bytes check = false ↔ ¬ good := by rw [← hgood, Bool.not_eq_true]
  refine ⟨s.rowReceived bits bytes check, exec_uplinkRow hl hrec, ?_, ?_, fun hwhole hi hh h8 hd => ?_,
    fun hwhole hi hh hd => ?_, fun hwhole hi hh h8 hd hn => ?_, fun hh hn hcase => ?_, fun hin hout hn => ?_, ?_⟩
  · simp [State.tablesKept, State.rowReceived, State.uplinked]
  · exact State.portsNoticed_announce (by simp) _
  · obtain ⟨h1, h2, h3, h4, h5, h6, h7⟩ :=
      uplinkRow_enters hmid hl hr (hgood.mpr hwhole.1) hwhole.2 hi hh h8 hd
    refine ⟨h1, h2, h3, h4, h5, h6, h7, fun k o e hd hq hacc hready ho hclear hwho hstate hlast heo hmerged hcodes => ?_⟩
    exact uplinkRow_merges hmid hl (hr.trans (congrArg some hwho)) (hgood.mpr hwhole.1) hwhole.2 hi hh hd hq hacc hready ho
      hclear hstate hlast heo hmerged hcodes
  · exact uplinkRow_drains hmid hl (hgood.mpr hwhole.1) hwhole.2 hi hh hd
  · obtain ⟨h1, h2, h3, h4, h5⟩ := uplinkRow_torn (bits := bits) (bytes := bytes) (check := check) hmid hl hr ha hn
      (kind := .overflow) (row := s.plr.nextRow) (by
        rw [hgood.mpr hwhole.1, State.receiveRow_expected hl hwhole.2 hi hh, State.queueRow_overflows hd hr h8, hi])
    exact ⟨h1, h2, h3, fun hheld => h4 hheld.2, h5⟩
  · have hy := State.receiveRow_torn (s := s) (index := bits.toNat) (bytes := bytes) (good := rowGood bits bytes check) hh
      (hcase.imp hbad.mpr And.right)
    obtain ⟨h1, h2, h3, h4, h5⟩ := uplinkRow_torn hmid hl hr ha hn hy
    refine ⟨h1, h2, fun hg => ?_, fun hg => ?_, fun hheld => h4 hheld.2, h5⟩
    · rwa [hbad.mpr hg] at h3
    · rwa [hgood.mpr hg] at h3
  · obtain ⟨h1, h2, h3, h4, h5⟩ := uplinkRow_thrown hmid hl hr ha hn (State.receiveRow_thrown
      (hin.imp_left fun ⟨hw, hh⟩ => ⟨hgood.mpr hw.1, hw.2, hh⟩) hout)
    exact ⟨h1, h2, h3, fun hheld => h4 hheld.2, h5⟩
  · intro hwhole hi hh hheld h8 n hc hn
    have hgap : bits.toNat - s.plr.nextRow = (n - 1) + 1 := by omega
    have hn1 : n - 1 + 1 = n := by omega
    obtain ⟨h1, h2, h3, h4, h5⟩ := uplinkRow_skips hmid hl hr ha (hgood.mpr hwhole.1) hwhole.2 hi hh hheld.1 h8 hgap
      (by rw [hn1]; exact hc) (by rw [hn1]; exact hn)
    rw [hn1] at h2 h3
    refine ⟨h1, h2, h3, h4 fun x hx => ?_, h5⟩
    rcases List.mem_append.mp hx with hx | hx
    · exact hheld.2 x hx
    · rw [List.mem_singleton.mp hx]
      rfl

end Sys2Proof.Machine
end

section
/-! PROOFS. FRAME_END ends the open frame and reports it, or waits for the window's decision (R50, R111, R114, R120). -/

namespace Sys2Proof.Machine
-- One proof at a time: under the memory limit of the check there is no room for the stacks of many threads.
set_option Elab.async false

section

variable {s x : State} {k : SlotNo} {o : Nat} {count : Option Nat}

/-! ## The report of a frame's end -/

/-- The end of a frame of a try, reported (R50, R111). -/
def State.frameReported (s : State) (k : SlotNo) : State :=
  (((s.onTimers fun t => { t with frame := none }).onPlr fun p => { p with endPending := false }).onLatest k fun e =>
    e.atFrameEnd s.plr.tornCount s.geometry.height).onCsq fun q => { q with frameReported := true }

theorem State.endConcluded_waits (h : s.plr.decision = .waiting) :
    s.endConcluded = { s with plr := { s.plr with endPending := true } } := if_pos h

theorem State.endConcluded_reports (h : s.plr.decision ≠ .waiting) (hr : s.plr.requester = some (.capture k o)) :
    s.endConcluded = s.frameReported k := by
  unfold State.endConcluded State.reportFrameEnd
  rw [if_neg h, hr]
  rfl

theorem State.frameReported_list (s : State) (k : SlotNo) : ((s.frameReported k).work k).list =
    (s.work k).list.modify ((s.work k).list.length - 1) fun e => e.atFrameEnd s.plr.tornCount s.geometry.height :=
  congrArg WorkRecord.list (setAt_get_self _ _ _)

/-! ## The frame closed -/

/-- The count after a frame in which no row is missing: lowered by a clean exposure (R114). -/
def Plr.cleanCount (p : Plr) : Nat := if p.exposureClean then p.faultCount - 4 else p.faultCount

/-- What closing the frame leaves of the receiver, where nothing drops the link (R111, R114). -/
theorem State.frameClosed_eq (h : s.plr.faultCount < 384) : s.frameClosed = { s with
    raised := s.frameClosed.raised
    plr := { s.plr with
      reception := .between
      awaitedTag := none
      faultCount := s.plr.cleanCount
      link := if s.plr.exposureClean then linkOf s.settings.linkWarningLimit s.plr.cleanCount else s.plr.link } } := by
  unfold State.frameClosed State.cleanDecrement Plr.cleanCount
  split
  · have hset := State.setFaultCount_low (s := s) (n := s.plr.faultCount - 4) (by omega) .cleanFrame
    have h4 : s.plr.faultCount - Config.cleanDecrement = s.plr.faultCount - 4 := rfl
    rw [h4, hset]
    rfl
  · rfl

/-- The state before the end of the open frame is told: its missing rows torn, its count captured (R111, R114). -/
structure State.Closes (s x : State) (count : Option Nat) (missing : Nat) : Prop where
  rest : x = { s with
    raised := x.raised
    plr := { s.plr with
      reception := .between
      awaitedTag := none
      tornCount := s.plr.tornCount + missing
      exposureCharge := s.plr.exposureCharge + 8 * missing
      exposureClean := if missing = 0 then s.plr.exposureClean else false
      faultCount := if missing = 0 then s.plr.cleanCount else s.plr.faultCount + 8 * missing
      link := x.plr.link
      capture := x.plr.capture } }
  link : (0 < missing ∨ s.plr.exposureClean = true ∨ s.wrongCount count = true) →
    x.plr.link = linkOf s.settings.linkWarningLimit x.plr.faultCount
  up : x.plr.link ≠ .dropped
  torn : 0 < missing → s.plr.Captures x.plr { kind := .length, exposure := s.plr.faultExposure, row := some s.plr.nextRow }
  counted : missing = 0 → s.wrongCount count = true →
    s.plr.Captures x.plr { kind := .length, exposure := s.plr.faultExposure, row := none }
  kept : missing = 0 → s.wrongCount count = false → x.plr.capture = s.plr.capture

/-- The end of the open frame where nothing drops the link: closed, then told (R111). -/
theorem State.endFrame_closes (hl : s.plr.link ≠ .dropped) (hf : s.plr.faultCount < 384) {missing : Nat}
    (hm : s.geometry.height - s.plr.nextRow = missing)
    (hroom : 0 < missing → s.plr.exposureCharge + 8 * missing ≤ 64 ∧ s.plr.faultCount + 8 * missing < 384) :
    ∃ x, s.Closes x count missing ∧ s.endFrame count = x.endConcluded := by
  cases missing with
  | zero =>
    have htorn : s.missingTorn = s := by
      unfold State.missingTorn
      rw [hm]
      rfl
    rw [State.endFrame_eq, htorn, if_neg hl, hm]
    cases hw : s.wrongCount count with
    | false =>
      rw [if_neg (by simp)]
      have hclosed := State.frameClosed_eq hf
      refine ⟨s.frameClosed, ⟨?_, fun h => ?_, ?_, fun h => absurd h (by simp), fun _ h => absurd (hw.symm.trans h) (by simp),
        fun _ _ => by rw [hclosed]⟩, rfl⟩
      · rw [hclosed]
        rfl
      · rw [hclosed]
        exact if_pos (by simpa [hw] using h)
      · rw [hclosed]
        change (if s.plr.exposureClean = true then _ else _) ≠ LinkState.dropped
        split
        · exact linkOf_low (by unfold Plr.cleanCount; split <;> omega)
        · exact hl
    | true =>
      rw [if_pos ⟨rfl, rfl⟩]
      obtain ⟨hcharge, hcap⟩ := State.chargeFault_low hl (w := 0) hf
        { kind := .length, exposure := s.plr.faultExposure, row := none }
      change s.countCaptured = _ at hcharge
      change s.plr.Captures s.countCaptured.plr _ at hcap
      have hcount : s.countCaptured.plr.faultCount = s.plr.faultCount := by rw [hcharge]; rfl
      have hclean : s.countCaptured.plr.exposureClean = s.plr.exposureClean := by rw [hcharge]
      have hlink : s.countCaptured.plr.link = linkOf s.settings.linkWarningLimit s.plr.faultCount := by rw [hcharge]; rfl
      have hsettings : s.countCaptured.settings = s.settings := by rw [hcharge]
      have hcc : s.countCaptured.plr.cleanCount = s.plr.cleanCount := by
        unfold Plr.cleanCount
        rw [hcount, hclean]
      have hclosed := State.frameClosed_eq (s := s.countCaptured) (by rw [hcount]; exact hf)
      have hif : (if s.plr.exposureClean = true then linkOf s.settings.linkWarningLimit s.plr.cleanCount
          else linkOf s.settings.linkWarningLimit s.plr.faultCount) = linkOf s.settings.linkWarningLimit s.plr.cleanCount := by
        unfold Plr.cleanCount
        split <;> rfl
      rw [hcc, hclean, hsettings, hlink, hif] at hclosed
      have hfinal : s.countCaptured.frameClosed.plr.link = linkOf s.settings.linkWarningLimit s.plr.cleanCount := by
        rw [hclosed]
      have hkept : s.countCaptured.frameClosed.plr.capture = s.countCaptured.plr.capture := by rw [hclosed]
      refine ⟨s.countCaptured.frameClosed, ⟨?_, fun _ => ?_, ?_, fun h => absurd h (by simp), fun _ _ => ?_,
        fun _ h => absurd (hw.symm.trans h) (by simp)⟩, rfl⟩
      · rw [hkept, hfinal, hclosed]
        generalize s.countCaptured.frameClosed.raised = ns
        rw [hcharge]
        rfl
      · rw [hfinal, hclosed]
      · rw [hfinal]
        exact linkOf_low (by unfold Plr.cleanCount; split <;> omega)
      · exact ⟨fun h => by rw [hkept]; exact hcap.filled h, fun r h => by rw [hkept]; exact hcap.kept r h⟩
  | succ n =>
    obtain ⟨hc, hn⟩ := hroom (Nat.succ_pos n)
    have h := State.charges_tearRows hl .length s.plr.nextRow n hc hn
    have htorn : s.missingTorn = s.tearRows .length s.plr.nextRow (n + 1) := by
      unfold State.missingTorn
      rw [hm]
    rw [← htorn] at h
    have hrest := h.rest
    have hcount : s.missingTorn.plr.faultCount = s.plr.faultCount + 8 * (n + 1) := by rw [hrest]
    have hclean : s.missingTorn.plr.exposureClean = false := by rw [hrest]
    have hcc : s.missingTorn.plr.cleanCount = s.plr.faultCount + 8 * (n + 1) := by
      unfold Plr.cleanCount
      rw [hcount, hclean]
      rfl
    have hclosed := State.frameClosed_eq (s := s.missingTorn) (by rw [hcount]; exact hn)
    rw [hcc, hclean, if_neg (by simp)] at hclosed
    have hkept : s.missingTorn.frameClosed.plr.capture = s.missingTorn.plr.capture := by rw [hclosed]
    have hlink : s.missingTorn.frameClosed.plr.link = s.missingTorn.plr.link := by rw [hclosed]
    rw [State.endFrame_eq, if_neg (h.link hn), hm, if_neg (fun h => absurd h.1 (by simp))]
    refine ⟨s.missingTorn.frameClosed, ⟨?_, fun _ => ?_, by rw [hlink]; exact h.link hn,
      fun _ => ⟨fun hnone => by rw [hkept]; exact h.captures.filled hnone, fun r hr => by
        rw [hkept]; exact h.captures.kept r hr⟩, fun h => absurd h (by simp), fun h => absurd h (by simp)⟩, rfl⟩
    · rw [hkept, hlink, hclosed]
      generalize s.missingTorn.frameClosed.raised = ns
      rw [hrest]
      rfl
    · rw [hlink, hclosed, hrest]

/-! ## The event -/

/-- An uplink event while a row is being merged: what it does to the receiver and the sequencer is all it does to
them (R72). -/
theorem State.uplinked_merging {y : State} (hmid : s.midTry) (hb : s.busyWith StoreWork.isMerge = true)
    (hstate : y.csq.state = s.csq.state) (hcal : y.cal = s.cal) (hfsc : y.fsc = s.fsc) :
    (s.uplinked y).csq = y.csq ∧ (s.uplinked y).mge = y.mge ∧ (s.uplinked y).tbu.timers.frame = y.tbu.timers.frame
      ∧ (s.uplinked y).plr =
          { y.plr with queue := (s.uplinked y).plr.queue, capture := (s.sealFaults y).plr.capture } := by
  obtain ⟨hcsq, hcal', hfsc', hmge, htbu, -⟩ := s.sealFaults_blocks y
  have hun : (s.sealFaults y).Undisturbed := by
    refine State.undisturbed_of_merge ?_ ?_ ?_
    · rw [hcsq, hstate]
      exact hmid.1.imp_right (Or.imp_right (Or.imp_right And.left))
    · rw [hcal', hcal]
      exact hmid.2
    · unfold State.busyWith at hb ⊢
      rw [hfsc', hfsc]
      exact hb
  obtain ⟨h1, h2, h3, -⟩ := hun.kept s.plates
  obtain ⟨hplr, -⟩ := hun.thinned s.plates
  refine ⟨h1.trans hcsq, h2.trans hmge, h3.trans (congrArg (fun b => b.timers.frame) htbu), ?_⟩
  change (s.uplinked y).plr = _ at hplr
  rw [hplr]
  rw [State.sealFaults_eq]

/-- The end of a frame, told or waiting for the window (R50, R111). -/
structure State.Concluded (s x y : State) (k : SlotNo) : Prop where
  state : y.csq.state = x.csq.state
  cal : y.cal = x.cal
  fsc : y.fsc = x.fsc
  plr : y.plr = { x.plr with endPending := y.plr.endPending }
  waits : x.plr.decision = .waiting → y.plr.endPending = true ∧ y.csq = x.csq ∧ y.tbu.timers.frame = x.tbu.timers.frame
  told : x.plr.decision ≠ .waiting → y.plr.endPending = false ∧ y.csq = { x.csq with frameReported := true }
    ∧ y.tbu.timers.frame = none
    ∧ (y.work k).list = (x.work k).list.modify ((x.work k).list.length - 1) fun e =>
        e.atFrameEnd x.plr.tornCount x.geometry.height

theorem State.endConcluded_concluded (hr : x.plr.requester = some (.capture k o)) :
    s.Concluded x x.endConcluded k := by
  by_cases hd : x.plr.decision = .waiting
  · rw [State.endConcluded_waits hd]
    exact ⟨rfl, rfl, rfl, rfl, fun _ => ⟨rfl, rfl, rfl⟩, fun h => absurd hd h⟩
  · rw [State.endConcluded_reports hd hr]
    exact ⟨rfl, rfl, rfl, rfl, fun h => absurd h hd, fun _ => ⟨rfl, rfl, rfl, x.frameReported_list k⟩⟩

variable {rows check : BitVec 16}

/-- The row count that a FRAME_END brings, if its check passes (R111). -/
def endCount (rows check : BitVec 16) : Option Nat := if frameEndGood rows check then some rows.toNat else none

theorem exec_frameEnd (hl : s.plr.link ≠ .dropped) (hr : s.plr.reception = .receiving) :
    exec (.frameEnd rows check) s = .next (s.uplinked (s.endFrame (endCount rows check))) := by
  change execFrameEnd rows check s = _
  unfold execFrameEnd
  rw [if_neg hl, hr]
  rfl

/-- What the end of an open frame leaves at its event, where nothing drops the link (R50, R111, R114, R120). -/
structure State.FrameEnded (s t : State) (k : SlotNo) (count : Option Nat) (missing : Nat) : Prop where
  reception : t.plr.reception = .between
  awaited : t.plr.awaitedTag = none
  torn : t.plr.tornCount = s.plr.tornCount + missing
  clean : t.plr.exposureClean = if missing = 0 then s.plr.exposureClean else false
  faults : t.plr.faultCount = if missing = 0 then s.plr.cleanCount else s.plr.faultCount + 8 * missing
  link : (0 < missing ∨ s.plr.exposureClean = true ∨ s.wrongCount count = true) →
    t.plr.link = linkOf s.settings.linkWarningLimit t.plr.faultCount
  captured : 0 < missing → s.plr.capture = none → t.plr.capture = some
    { kind := .length, exposure := s.plr.faultExposure, row := some s.plr.nextRow, count := t.plr.faultCount }
  counted : missing = 0 → s.wrongCount count = true → s.plr.capture = none → t.plr.capture = some
    { kind := .length, exposure := s.plr.faultExposure, row := none, count := t.plr.faultCount }
  kept : missing = 0 → s.wrongCount count = false → t.plr.capture = s.plr.capture
  spared : t.plr.cancelledTag = s.plr.cancelledTag ∧ t.plr.straySeen = s.plr.straySeen
  waits : s.plr.decision = .waiting → t.plr.endPending = true ∧ t.csq = s.csq
    ∧ t.tbu.timers.frame = s.tbu.timers.frame
  told : s.plr.decision ≠ .waiting → t.plr.endPending = false ∧ t.csq = { s.csq with frameReported := true }
    ∧ t.tbu.timers.frame = none
    ∧ (t.work k).list = (s.work k).list.modify ((s.work k).list.length - 1) fun e =>
        e.atFrameEnd (s.plr.tornCount + missing) s.geometry.height

theorem State.frameEnded (hmid : s.midTry) (hb : s.busyWith StoreWork.isMerge = true)
    (hr : s.plr.requester = some (.capture k o)) {missing : Nat} (hx : s.Closes x count missing) :
    s.FrameEnded (s.uplinked x.endConcluded) k count missing := by
  have hrest := hx.rest
  have hreq : x.plr.requester = some (.capture k o) := by rw [hrest]; exact hr
  have hy := State.endConcluded_concluded (s := s) hreq
  generalize x.endConcluded = y at hy
  have hdec : x.plr.decision = s.plr.decision := by rw [hrest]
  have hxcsq : x.csq = s.csq := by rw [hrest]
  have hxtimer : x.tbu = s.tbu := by rw [hrest]
  have hxwork : x.work k = s.work k := by rw [hrest]; rfl
  have hxgeo : x.geometry = s.geometry := by rw [hrest]
  have hxtorn : x.plr.tornCount = s.plr.tornCount + missing := by rw [hrest]
  have hxcount : x.plr.faultCount = if missing = 0 then s.plr.cleanCount else s.plr.faultCount + 8 * missing := by
    rw [hrest]
  obtain ⟨hcsq, hmge, hframe, hplr⟩ := State.uplinked_merging hmid hb (hy.state.trans (by rw [hxcsq]))
    (hy.cal.trans (by rw [hrest])) (hy.fsc.trans (by rw [hrest]))
  generalize s.uplinked y = t at hcsq hmge hframe hplr
  have hyplr := hy.plr
  have hycap : y.plr.capture = x.plr.capture := by rw [hyplr]
  have hycount : y.plr.faultCount = x.plr.faultCount := by rw [hyplr]
  have htcount : t.plr.faultCount = y.plr.faultCount := by rw [hplr]
  have htcap : t.plr.capture = (s.sealFaults y).plr.capture := by rw [hplr]
  have htend : t.plr.endPending = y.plr.endPending := by rw [hplr]
  have hwork : t.work k = y.work k := congrArg (fun m => m.work.get k) hmge
  have captured {m : FaultMark} (hc : s.plr.Captures x.plr m) (hnone : s.plr.capture = none) : t.plr.capture = some
      { kind := m.kind, exposure := m.exposure, row := m.row, count := t.plr.faultCount } := by
    have hyc : s.plr.Captures y.plr m :=
      ⟨fun h => by rw [hycap]; exact hc.filled h, fun r h => by rw [hycap]; exact hc.kept r h⟩
    rw [htcap, hyc.sealed.1 hnone, htcount]
  refine ⟨?_, ?_, ?_, ?_, ?_, fun h => ?_, fun hm hnone => captured (hx.torn hm) hnone,
    fun hm hw hnone => captured (hx.counted hm hw) hnone, fun hm hw => ?_, ?_, fun hd => ?_, fun hd => ?_⟩
  · rw [hplr, hyplr, hrest]
  · rw [hplr, hyplr, hrest]
  · rw [hplr, hyplr, hrest]
  · rw [hplr, hyplr, hrest]
  · rw [htcount, hycount, hxcount]
  · have hlink := hx.link h
    rw [htcount, hycount, ← hlink, hplr, hyplr]
  · rw [htcap]
    exact State.sealFaults_capture_kept (hycap.trans (hx.kept hm hw))
  · rw [hplr, hyplr, hrest]
    exact ⟨rfl, rfl⟩
  · obtain ⟨h1, h2, h3⟩ := hy.waits (hdec.trans hd)
    exact ⟨htend.trans h1, (hcsq.trans h2).trans hxcsq, (hframe.trans h3).trans (by rw [hxtimer])⟩
  · obtain ⟨h1, h2, h3, h4⟩ := hy.told fun h => hd (hdec.symm.trans h)
    rw [hxtorn, hxgeo, hxwork] at h4
    refine ⟨htend.trans h1, (hcsq.trans h2).trans (by rw [hxcsq]), hframe.trans h3, ?_⟩
    rw [hwork]
    exact h4

end

/-- Settles O24: the frame is closed, its missing rows torn or its count captured, and its end is told or waits. -/
theorem frameEndEndsFrame : Obligations.FrameEndEndsFrame := by
  unfold Obligations.FrameEndEndsFrame
  intro s n check k o hmid hl hrec ha hr hf hb good h missing atEnd reported decremented
  have hgood : frameEndGood n check = true ↔ good := by simp [frameEndGood, good]
  have hexp : s.plr.faultExposure = some (.capture k o) := Plr.faultExposure_awaited ha hr
  have hwrong : s.wrongCount (endCount n check) = true ↔ good ∧ n.toNat ≠ h := by
    unfold State.wrongCount endCount
    by_cases hg : good
    · rw [hgood.mpr hg]
      simp [hg, h]
    · rw [Bool.eq_false_iff.mpr fun hc => hg (hgood.mp hc)]
      simp [hg]
  have hexec := exec_frameEnd (rows := n) (check := check) hl hrec
  refine ⟨_, hexec, ?_, ?_, fun hm => ?_, fun hm hc hn => ?_⟩
  · simp [State.tablesKept, State.uplinked]
  · exact State.portsNoticed_announce (by simp) _
  · obtain ⟨x, hx, hend⟩ := State.endFrame_closes (count := endCount n check) hl (by omega) hm fun h => absurd h (by simp)
    have ht := State.frameEnded hmid hb hr hx
    rw [hend]
    refine ⟨ht.reception, ht.awaited, ⟨ht.faults, fun hw => ht.link (.inr (hw.imp_right hwrong.mpr))⟩,
      fun hg hne hnone => ?_, fun hno => ?_, fun _ hd => ?_, fun hd => ?_⟩
    · rw [← hexp]
      exact ht.counted rfl (hwrong.mpr ⟨hg, hne⟩) hnone
    · refine ht.kept rfl (Bool.eq_false_iff.mpr fun hw => ?_)
      obtain ⟨hg, hne⟩ := hwrong.mp hw
      exact hno.elim (fun h => h hg) hne
    · obtain ⟨h1, h2, h3, h4⟩ := ht.told hd
      exact ⟨ht.torn, h3, h1, h2, h4⟩
    · obtain ⟨h1, h2, h3⟩ := ht.waits hd
      exact ⟨h1, ht.torn, h2, h3⟩
  · obtain ⟨x, hx, hend⟩ := State.endFrame_closes (count := endCount n check) hl (by omega) rfl fun _ => ⟨hc, hn⟩
    have ht := State.frameEnded hmid hb hr hx
    have hne : ¬ missing = 0 := Nat.pos_iff_ne_zero.mp hm
    rw [hend]
    refine ⟨ht.reception, ht.awaited, ht.clean.trans (if_neg hne), ht.faults.trans (if_neg hne), ht.link (.inl hm),
      fun hnone => ?_, fun _ hd => ?_, fun hd => ?_⟩
    · rw [← hexp]
      exact ht.captured hm hnone
    · obtain ⟨h1, h2, h3, h4⟩ := ht.told hd
      exact ⟨ht.torn, h3, h1, h2, h4⟩
    · obtain ⟨h1, h2, h3⟩ := ht.waits hd
      exact ⟨h1, ht.torn, h2, h3⟩

end Sys2Proof.Machine
end

section
/-! PROOFS. FRAME_START, and the units that come outside an open frame (R108, R111, R113, R114, R120). -/

namespace Sys2Proof.Machine
-- One proof at a time: under the memory limit of the check there is no room for the stacks of many threads.
set_option Elab.async false

section

variable {s y : State} {tag : Byte} {check : BitVec 16}

/-! ## The charge of a stray, dropping the link or not -/

/-- A fault's charge sets count and link together, also where it drops the link (R114, R115). -/
theorem State.chargeFault_counts (hl : s.plr.link ≠ .dropped) (m : FaultMark) (w : Nat) :
    (s.chargeFault m w).plr.faultCount = min 511 (s.plr.faultCount + w)
      ∧ (s.chargeFault m w).plr.link = linkOf s.settings.linkWarningLimit (s.chargeFault m w).plr.faultCount := by
  have hset (x : State) (n : Nat) (cause : LinkCause) : (x.setFaultCount n cause).plr.faultCount = min 511 n
      ∧ (x.setFaultCount n cause).plr.link = linkOf x.settings.linkWarningLimit (min 511 n) := by
    unfold State.setFaultCount
    dsimp only
    split
    · exact ⟨rfl, rfl⟩
    · split <;> simp [State.raise, State.onPlr, Config.maxFaultCount]
  have hcount : ((s.onPlr fun p => { p with faultCount := min Config.maxFaultCount (p.faultCount + w) }).onPlr fun p =>
      p.captureFault m).plr.faultCount = min 511 (s.plr.faultCount + w) := by
    simp only [State.onPlr, Plr.captureFault]
    split <;> rfl
  unfold State.chargeFault
  rw [if_neg hl]
  dsimp only
  obtain ⟨h1, h2⟩ := hset ((s.onPlr fun p => { p with faultCount := min Config.maxFaultCount (p.faultCount + w) }).onPlr
    fun p => p.captureFault m) (min 511 (s.plr.faultCount + w)) (.fault m.kind)
  rw [hcount, h1, h2]
  have hmin : min 511 (min 511 (s.plr.faultCount + w)) = min 511 (s.plr.faultCount + w) := by omega
  rw [hmin]
  exact ⟨rfl, rfl⟩

theorem State.uplinked_link (s y : State) :
    (s.uplinked y).plr.faultCount = y.plr.faultCount ∧ (s.uplinked y).plr.link = y.plr.link := by
  have hsealed : (s.sealFaults y).plr.faultCount = y.plr.faultCount ∧ (s.sealFaults y).plr.link = y.plr.link := by
    rw [State.sealFaults_eq]
    exact ⟨rfl, rfl⟩
  exact ⟨(State.pollAll_link _).1.trans hsealed.1, (State.pollAll_link _).2.trans hsealed.2⟩

theorem State.uplinked_stray (hl : s.plr.link ≠ .dropped) :
    (s.uplinked s.strayFrame).plr.faultCount = min 511 (s.plr.faultCount + 8)
      ∧ (s.uplinked s.strayFrame).plr.link
          = linkOf s.settings.linkWarningLimit (s.uplinked s.strayFrame).plr.faultCount := by
  obtain ⟨h1, h2⟩ := s.uplinked_link s.strayFrame
  obtain ⟨h3, h4⟩ := State.chargeFault_counts (s := s.onPlr fun p => { p with reception := .discarding, straySeen := true })
    hl { kind := .stray, exposure := none, row := none } 8
  rw [h1, h2]
  exact ⟨h3, h4⟩

/-- A stray in the middle of a try, where it does not drop the link: charged, marked and discarded (R108, R114, R120). -/
theorem State.strayed (hmid : s.midTry) (hl : s.plr.link ≠ .dropped) (hn : s.plr.faultCount + 8 < 384) :
    let t := s.uplinked s.strayFrame
    t.csq = s.csq
      ∧ t.plr = { s.plr with
          reception := .discarding
          straySeen := true
          faultCount := s.plr.faultCount + 8
          link := linkOf s.settings.linkWarningLimit (s.plr.faultCount + 8)
          queue := t.plr.queue
          capture := t.plr.capture }
      ∧ (s.plr.capture = none → t.plr.capture =
          some { kind := .stray, exposure := none, row := none, count := s.plr.faultCount + 8 }) := by
  intro t
  obtain ⟨hy, hcap⟩ := State.strayFrame_low hl hn
  have hsealed := s.sealFaults_eq s.strayFrame
  obtain ⟨hcsq, hcal, -⟩ := s.sealFaults_blocks s.strayFrame
  have hycsq : s.strayFrame.csq = s.csq := by rw [hy]
  have hycal : s.strayFrame.cal = s.cal := by rw [hy]
  have hycount : s.strayFrame.plr.faultCount = s.plr.faultCount + 8 := by rw [hy]
  have hm : (s.sealFaults s.strayFrame).midTry := by
    unfold State.midTry
    rw [hcsq, hcal, hycsq, hycal]
    exact hmid
  obtain ⟨htcsq, -⟩ := hm.undisturbed.kept s.plates
  obtain ⟨hplr, -⟩ := hm.undisturbed.thinned s.plates
  change t.plr = _ at hplr
  have htcap : t.plr.capture = (s.sealFaults s.strayFrame).plr.capture := by rw [hplr]
  refine ⟨htcsq.trans (hcsq.trans hycsq), ?_, fun hnone => ?_⟩
  · rw [htcap, hplr, hsealed]
    generalize (s.sealFaults s.strayFrame).raised = ns
    rw [hy]
  · rw [htcap, hcap.sealed.1 hnone, hycount]

/-! ## A FRAME_START outside an open frame -/

theorem exec_frameStart_closed (hl : s.plr.link ≠ .dropped) (hr : s.plr.reception ≠ .receiving) :
    exec (.frameStart tag check) s = .next (s.uplinked (s.judgeStart tag (frameStartGood tag check))) := by
  change execFrameStart tag check s = _
  unfold execFrameStart
  rw [if_neg hl]
  dsimp only
  rw [if_neg hr]
  rfl

theorem State.judgeStart_opens (hl : s.plr.link ≠ .dropped) (ha : s.plr.awaitedTag = some tag) :
    s.judgeStart tag true = { s with plr := { s.plr with reception := .receiving, nextRow := 0 } } := by
  unfold State.judgeStart
  exact (if_neg hl).trans ((if_neg (by simp)).trans (if_pos ha))

theorem State.judgeStart_spares (hl : s.plr.link ≠ .dropped) (ha : s.plr.awaitedTag ≠ some tag)
    (hc : s.plr.cancelledTag = some tag) :
    s.judgeStart tag true = { s with plr := { s.plr with reception := .discarding, cancelledTag := none } } := by
  unfold State.judgeStart
  exact (if_neg hl).trans ((if_neg (by simp)).trans ((if_neg ha).trans (if_pos hc)))

theorem State.judgeStart_strays (hl : s.plr.link ≠ .dropped) {good : Bool}
    (h : good = false ∨ (s.plr.awaitedTag ≠ some tag ∧ s.plr.cancelledTag ≠ some tag)) :
    s.judgeStart tag good = s.strayFrame := by
  unfold State.judgeStart
  refine (if_neg hl).trans ?_
  cases good with
  | false => exact if_pos rfl
  | true =>
    obtain ⟨ha, hc⟩ := h.resolve_left (by simp)
    exact (if_neg (by simp)).trans ((if_neg ha).trans (if_neg hc))

theorem frameStartGood_iff : frameStartGood tag check = true ↔ crc16 [0xA1#8, tag] = check := by
  simp [frameStartGood]

theorem frameStart_judged (hmid : s.midTry) (hl : s.plr.link ≠ .dropped) (hr : s.plr.reception ≠ .receiving) :
    ∃ t, exec (.frameStart tag check) s = .next t ∧ s.tablesKept t ∧ s.portsNoticed t
      ∧ (crc16 [0xA1#8, tag] = check → s.plr.awaitedTag = some tag →
          t.plr.reception = .receiving ∧ t.plr.nextRow = 0 ∧ t.plr.faultCount = s.plr.faultCount
            ∧ t.plr.awaitedTag = some tag ∧ t.csq = s.csq)
      ∧ (crc16 [0xA1#8, tag] = check → s.plr.awaitedTag ≠ some tag → s.plr.cancelledTag = some tag →
          t.plr.reception = .discarding ∧ t.plr.cancelledTag = none ∧ t.plr.faultCount = s.plr.faultCount
            ∧ t.csq = s.csq)
      ∧ ((crc16 [0xA1#8, tag] ≠ check ∨ (s.plr.awaitedTag ≠ some tag ∧ s.plr.cancelledTag ≠ some tag)) →
          t.plr.faultCount = min 511 (s.plr.faultCount + 8)
            ∧ t.plr.link = linkOf s.settings.linkWarningLimit t.plr.faultCount
            ∧ (s.plr.faultCount + 8 < 384 → t.plr.reception = .discarding ∧ t.plr.straySeen = true
                ∧ t.plr.awaitedTag = s.plr.awaitedTag ∧ t.csq = s.csq)) := by
  refine ⟨_, exec_frameStart_closed hl hr, ?_, ?_, fun hg ha => ?_, fun hg ha hc => ?_, fun h => ?_⟩
  · simp [State.tablesKept, State.uplinked]
  · exact State.portsNoticed_announce (by simp) _
  · rw [frameStartGood_iff.mpr hg, State.judgeStart_opens hl ha]
    obtain ⟨⟨hplr, -⟩, hcsq, -⟩ := State.row_taken hmid (p := { s.plr with reception := .receiving, nextRow := 0 }) rfl
    exact ⟨by rw [hplr], by rw [hplr], by rw [hplr], by rw [hplr]; exact ha, hcsq⟩
  · rw [frameStartGood_iff.mpr hg, State.judgeStart_spares hl ha hc]
    obtain ⟨⟨hplr, -⟩, hcsq, -⟩ :=
      State.row_taken hmid (p := { s.plr with reception := .discarding, cancelledTag := none }) rfl
    exact ⟨by rw [hplr], by rw [hplr], by rw [hplr], hcsq⟩
  · rw [State.judgeStart_strays hl (h.imp_left fun hne => Bool.eq_false_iff.mpr fun hg => hne (frameStartGood_iff.mp hg))]
    obtain ⟨hcount, hlink⟩ := State.uplinked_stray hl
    refine ⟨hcount, hlink, fun hn => ?_⟩
    obtain ⟨hcsq, hplr, -⟩ := State.strayed hmid hl hn
    exact ⟨by rw [hplr], by rw [hplr], by rw [hplr], hcsq⟩

/-! ## A FRAME_START or an IDLE in an open frame -/

section

variable {k : SlotNo} {o : Nat} {x : State} {missing : Nat}

/-- What ends an open frame in the middle of a try, while a row is being merged (R50, R111). -/
abbrev State.EndsOpen (s t : State) (missing : Nat) : Prop :=
  t.plr.awaitedTag = none ∧ t.plr.tornCount = s.plr.tornCount + missing
    ∧ (s.csq.state = .readout → s.plr.decision ≠ .waiting → t.csq = { s.csq with frameReported := true }
        ∧ t.tbu.timers.frame = none)
    ∧ (s.plr.decision = .waiting → t.csq = s.csq ∧ t.plr.endPending = true
        ∧ t.tbu.timers.frame = s.tbu.timers.frame)
    ∧ s.tablesKept t ∧ s.portsNoticed t

theorem exec_uplinkIdle_open (hl : s.plr.link ≠ .dropped) (hr : s.plr.reception = .receiving)
    (hup : (s.endFrame none).plr.link ≠ .dropped) :
    exec (.uplinkIdle check) s = .next (s.uplinked (s.endFrame none)) := by
  change execUplinkIdle check s = _
  unfold execUplinkIdle
  rw [if_neg hl, hr]
  dsimp only
  rw [if_neg hup]
  rfl

theorem exec_frameStart_open (hl : s.plr.link ≠ .dropped) (hr : s.plr.reception = .receiving) :
    exec (.frameStart tag check) s
      = .next (s.uplinked ((s.endFrame none).judgeStart tag (frameStartGood tag check))) := by
  change execFrameStart tag check s = _
  unfold execFrameStart
  rw [if_neg hl]
  dsimp only
  rw [if_pos hr]
  rfl

/-- A unit judged after the open frame's end changes the receiver alone: the rest is that of the end (R108, R111). -/
theorem State.endedOpen (hmid : s.midTry) (hb : s.busyWith StoreWork.isMerge = true)
    (hx : s.Closes x none missing) (hy : s.Concluded x y k) {z : State} (hzcsq : z.csq = y.csq)
    (hzcal : z.cal = y.cal) (hzfsc : z.fsc = y.fsc) (hztbu : z.tbu = y.tbu)
    (hplr : z.plr.awaitedTag = y.plr.awaitedTag ∧ z.plr.tornCount = y.plr.tornCount
      ∧ z.plr.endPending = y.plr.endPending)
    (htables : s.tablesKept (s.uplinked z)) (hports : s.portsNoticed (s.uplinked z)) :
    s.EndsOpen (s.uplinked z) missing
      ∧ (s.uplinked z).plr = { z.plr with
          queue := (s.uplinked z).plr.queue
          capture := (s.sealFaults z).plr.capture } := by
  have hrest := hx.rest
  have hxcsq : x.csq = s.csq := by rw [hrest]
  have hxtbu : x.tbu = s.tbu := by rw [hrest]
  have hdec : x.plr.decision = s.plr.decision := by rw [hrest]
  obtain ⟨htag, htorn, hend⟩ := hplr
  have hytag : y.plr.awaitedTag = none := by rw [hy.plr, hrest]
  have hytorn : y.plr.tornCount = s.plr.tornCount + missing := by rw [hy.plr, hrest]
  obtain ⟨hcsq, -, hframe, htplr⟩ := State.uplinked_merging hmid hb (y := z)
    (by rw [hzcsq, hy.state, hxcsq]) (by rw [hzcal, hy.cal, hrest]) (by rw [hzfsc, hy.fsc, hrest])
  refine ⟨⟨?_, ?_, fun _ hd => ?_, fun hd => ?_, htables, hports⟩, htplr⟩
  · rw [htplr]
    exact htag.trans hytag
  · rw [htplr]
    exact htorn.trans hytorn
  · obtain ⟨-, h2, h3, -⟩ := hy.told fun h => hd (hdec.symm.trans h)
    exact ⟨by rw [hcsq, hzcsq, h2, hxcsq], by rw [hframe, hztbu, h3]⟩
  · obtain ⟨h1, h2, h3⟩ := hy.waits (hdec.trans hd)
    refine ⟨by rw [hcsq, hzcsq, h2, hxcsq], ?_, by rw [hframe, hztbu, h3, hxtbu]⟩
    rw [htplr]
    exact hend.trans h1

/-- The count after the open frame's end (R114). -/
def Plr.endedCount (p : Plr) (missing : Nat) : Nat :=
  if missing = 0 then (if p.exposureClean then p.faultCount - 4 else p.faultCount) else p.faultCount + 8 * missing

theorem uplinkIdle_endsOpen (hmid : s.midTry) (hl : s.plr.link ≠ .dropped) (hrec : s.plr.reception = .receiving)
    (ha : s.plr.awaitedTag ≠ none) (hr : s.plr.requester = some (.capture k o))
    (hb : s.busyWith StoreWork.isMerge = true) (hx : s.Closes x none missing)
    (hend : s.endFrame none = x.endConcluded) :
    ∃ t, exec (.uplinkIdle check) s = .next t ∧ s.EndsOpen t missing ∧ t.plr.reception = .between
      ∧ t.plr.faultCount = s.plr.endedCount missing ∧ t.plr.cancelledTag = s.plr.cancelledTag
      ∧ t.plr.straySeen = s.plr.straySeen
      ∧ (s.plr.capture = none → 0 < missing → t.plr.capture =
          some { kind := .length, exposure := some (.capture k o), row := some s.plr.nextRow,
                 count := s.plr.endedCount missing })
      ∧ (missing = 0 → t.plr.capture = s.plr.capture) := by
  have hrest := hx.rest
  have hy := State.endConcluded_concluded (s := s) (x := x) (k := k) (o := o) (by rw [hrest]; exact hr)
  have hup : (s.endFrame none).plr.link ≠ .dropped := by
    rw [hend, hy.plr]
    exact hx.up
  have hfinal := State.frameEnded hmid hb hr hx
  have htables : s.tablesKept (s.uplinked x.endConcluded) := by
    rw [← hend]
    simp [State.tablesKept, State.uplinked]
  have hports : s.portsNoticed (s.uplinked x.endConcluded) := by
    rw [← hend]
    exact State.portsNoticed_announce (by simp) _
  have hcount : (s.uplinked x.endConcluded).plr.faultCount = s.plr.endedCount missing := hfinal.faults
  refine ⟨_, exec_uplinkIdle_open hl hrec hup, ?_⟩
  rw [hend]
  refine ⟨(State.endedOpen hmid hb hx hy rfl rfl rfl rfl ⟨rfl, rfl, rfl⟩ htables hports).1, hfinal.reception, hcount,
    hfinal.spared.1, hfinal.spared.2, fun hnone hm => ?_, fun hm => hfinal.kept hm rfl⟩
  rw [hfinal.captured hm hnone, Plr.faultExposure_awaited ha hr, hcount]

theorem frameStart_endsOpen (hmid : s.midTry) (hl : s.plr.link ≠ .dropped) (hrec : s.plr.reception = .receiving)
    (hr : s.plr.requester = some (.capture k o)) (hb : s.busyWith StoreWork.isMerge = true)
    (hx : s.Closes x none missing) (hend : s.endFrame none = x.endConcluded)
    (hn : s.plr.faultCount + 8 * missing + 8 < 384) :
    let spared : Prop := crc16 [0xA1#8, tag] = check ∧ s.plr.cancelledTag = some tag
    ∃ t, exec (.frameStart tag check) s = .next t ∧ s.EndsOpen t missing ∧ t.plr.reception = .discarding
      ∧ (spared → t.plr.faultCount = s.plr.endedCount missing ∧ t.plr.cancelledTag = none
          ∧ t.plr.straySeen = s.plr.straySeen)
      ∧ (¬ spared → t.plr.faultCount = s.plr.endedCount missing + 8 ∧ t.plr.cancelledTag = s.plr.cancelledTag
          ∧ t.plr.straySeen = true
          ∧ (missing = 0 → s.plr.capture = none → t.plr.capture =
              some { kind := .stray, exposure := none, row := none, count := s.plr.endedCount missing + 8 })) := by
  intro spared
  have hrest := hx.rest
  have hy := State.endConcluded_concluded (s := s) (x := x) (k := k) (o := o) (by rw [hrest]; exact hr)
  have hexec := exec_frameStart_open (tag := tag) (check := check) hl hrec
  have htables : s.tablesKept (s.uplinked ((s.endFrame none).judgeStart tag (frameStartGood tag check))) := by
    simp [State.tablesKept, State.uplinked]
  have hports : s.portsNoticed (s.uplinked ((s.endFrame none).judgeStart tag (frameStartGood tag check))) :=
    State.portsNoticed_announce (by simp) _
  rw [hend] at hexec htables hports
  generalize x.endConcluded = y at hy hexec htables hports
  have hup : y.plr.link ≠ .dropped := by
    rw [hy.plr]
    exact hx.up
  have htag : y.plr.awaitedTag = none := by rw [hy.plr, hrest]
  have hcancel : y.plr.cancelledTag = s.plr.cancelledTag := by rw [hy.plr, hrest]
  have hstray : y.plr.straySeen = s.plr.straySeen := by rw [hy.plr, hrest]
  have hcount : y.plr.faultCount = s.plr.endedCount missing := by rw [hy.plr, hrest]; rfl
  have hawait : y.plr.awaitedTag ≠ some tag := by simp [htag]
  refine ⟨_, hexec, ?_⟩
  by_cases hs : spared
  · have hz := State.judgeStart_spares hup hawait (hcancel.trans hs.2)
    rw [frameStartGood_iff.mpr hs.1] at htables hports ⊢
    obtain ⟨hends, hplr⟩ := State.endedOpen hmid hb hx hy (z := y.judgeStart tag true) (by rw [hz]) (by rw [hz])
      (by rw [hz]) (by rw [hz]) (by rw [hz]; exact ⟨rfl, rfl, rfl⟩) htables hports
    rw [hz] at hends hplr ⊢
    exact ⟨hends, by rw [hplr], fun _ => ⟨by rw [hplr]; exact hcount, by rw [hplr], by rw [hplr]; exact hstray⟩,
      fun h => absurd hs h⟩
  · have hz : y.judgeStart tag (frameStartGood tag check) = y.strayFrame := by
      refine State.judgeStart_strays hup ?_
      by_cases hg : crc16 [0xA1#8, tag] = check
      · exact .inr ⟨hawait, fun hc => hs ⟨hg, hcancel.symm.trans hc⟩⟩
      · exact .inl (Bool.eq_false_iff.mpr fun h => hg (frameStartGood_iff.mp h))
    have hroom : y.plr.faultCount + 8 < 384 := by
      rw [hcount]
      unfold Plr.endedCount
      split_ifs <;> omega
    obtain ⟨hlow, hcap⟩ := State.strayFrame_low hup hroom
    rw [hz] at htables hports ⊢
    obtain ⟨hends, hplr⟩ := State.endedOpen hmid hb hx hy (z := y.strayFrame) (by rw [hlow]) (by rw [hlow])
      (by rw [hlow]) (by rw [hlow]) (by rw [hlow]; exact ⟨rfl, rfl, rfl⟩) htables hports
    have hzcount : y.strayFrame.plr.faultCount = s.plr.endedCount missing + 8 := by rw [hlow, hcount]
    have htcap : (s.uplinked y.strayFrame).plr.capture = (s.sealFaults y.strayFrame).plr.capture := by rw [hplr]
    refine ⟨hends, by rw [hplr, hlow], fun h => absurd h hs, fun _ => ⟨by rw [hplr]; exact hzcount,
      by rw [hplr, hlow]; exact hcancel, by rw [hplr, hlow], fun hm hnone => ?_⟩⟩
    have hycap : y.plr.capture = s.plr.capture := by
      rw [hy.plr]
      exact hx.kept hm rfl
    have hcaptures : s.plr.Captures y.strayFrame.plr { kind := .stray, exposure := none, row := none } :=
      ⟨fun h => hcap.filled (hycap.trans h), fun r h => hcap.kept r (hycap.trans h)⟩
    rw [htcap, hcaptures.sealed.1 hnone, hzcount]

end

/-! ## The other units outside an open frame -/

theorem exec_body_discarded {i : Instr} (hl : s.plr.link ≠ .dropped)
    (hi : (∃ x b c, i = .uplinkRow x b c) ∨ ∃ n c, i = .frameEnd n c) (hr : s.plr.reception = .discarding) :
    exec i s = .next s := by
  obtain ⟨b, c, d, rfl⟩ | ⟨n, c, rfl⟩ := hi
  · change execUplinkRow b c d s = _
    unfold execUplinkRow
    rw [if_neg hl, hr]
  · change execFrameEnd n c s = _
    unfold execFrameEnd
    rw [if_neg hl, hr]

theorem exec_body_stray {i : Instr} (hl : s.plr.link ≠ .dropped)
    (hi : (∃ x b c, i = .uplinkRow x b c) ∨ ∃ n c, i = .frameEnd n c) (hr : s.plr.reception = .between) :
    exec i s = .next (s.uplinked s.strayFrame) := by
  obtain ⟨b, c, d, rfl⟩ | ⟨n, c, rfl⟩ := hi
  · change execUplinkRow b c d s = _
    unfold execUplinkRow
    rw [if_neg hl, hr]
    rfl
  · change execFrameEnd n c s = _
    unfold execFrameEnd
    rw [if_neg hl, hr]
    rfl

theorem body_between_strays {i : Instr} (hl : s.plr.link ≠ .dropped)
    (hi : (∃ x b c, i = .uplinkRow x b c) ∨ ∃ n c, i = .frameEnd n c) (hr : s.plr.reception = .between)
    (hmid : s.midTry) (hn : s.plr.faultCount + 8 < 384) :
    ∃ t, exec i s = .next t ∧ t.plr.reception = .discarding ∧ t.plr.straySeen = true
      ∧ t.plr.faultCount = s.plr.faultCount + 8
      ∧ t.plr.link = linkOf s.settings.linkWarningLimit t.plr.faultCount
      ∧ t.plr.awaitedTag = s.plr.awaitedTag ∧ t.plr.exposureCharge = s.plr.exposureCharge
      ∧ (s.plr.capture = none → t.plr.capture =
          some { kind := .stray, exposure := none, row := none, count := t.plr.faultCount })
      ∧ t.csq = s.csq ∧ s.tablesKept t ∧ s.portsNoticed t := by
  obtain ⟨hcsq, hplr, hcap⟩ := State.strayed hmid hl hn
  have hcount : (s.uplinked s.strayFrame).plr.faultCount = s.plr.faultCount + 8 := by rw [hplr]
  refine ⟨_, exec_body_stray hl hi hr, by rw [hplr], by rw [hplr], hcount, ?_, by rw [hplr], by rw [hplr],
    fun hnone => ?_, hcsq, ?_, ?_⟩
  · rw [hcount, hplr]
  · rw [hcap hnone, hcount]
  · simp [State.tablesKept, State.uplinked]
  · exact State.portsNoticed_announce (by simp) _

theorem exec_uplinkIdle_between (hl : s.plr.link ≠ .dropped) (hr : s.plr.reception = .between) :
    exec (.uplinkIdle check) s = .next s := by
  change execUplinkIdle check s = _
  unfold execUplinkIdle
  rw [if_neg hl, hr]

theorem exec_uplinkIdle_discarding (hl : s.plr.link ≠ .dropped) (hr : s.plr.reception = .discarding) :
    exec (.uplinkIdle check) s = .next { s with plr := { s.plr with reception := .between } } := by
  change execUplinkIdle check s = _
  unfold execUplinkIdle
  rw [if_neg hl, hr]
  rfl

end

/-- Settles O22: a unit is judged by the reception it finds: between frames, in an open one, or discarding. -/
theorem frameStartIsJudged : Obligations.FrameStartIsJudged := by
  unfold Obligations.FrameStartIsJudged
  refine ⟨fun s tag check hmid hl hr => frameStart_judged hmid hl hr, ?_, fun s i hl hi => ⟨exec_body_discarded hl hi,
    fun hr hmid hn => body_between_strays hl hi hr hmid hn⟩, fun s hl => ⟨fun check => exec_uplinkIdle_between hl,
    fun check => exec_uplinkIdle_discarding hl, fun b => if_neg hl⟩⟩
  intro s k o hmid hl hrec ha hr hb missing count hc hn frameEnded
  obtain ⟨x, hx, hend⟩ := State.endFrame_closes (s := s) (count := none) (missing := missing) hl (by omega) rfl
    fun _ => ⟨hc, by omega⟩
  refine ⟨fun check => uplinkIdle_endsOpen hmid hl hrec ha hr hb hx hend, fun tag check => ?_⟩
  exact frameStart_endsOpen hmid hl hrec hr hb hx hend hn

end Sys2Proof.Machine
end

section
/-! PROOFS. FRAME_TIMER_EXPIRY below the dropping count: the TIMEOUT is charged, the entry settled, and the rung repeated
where no row is left to merge (R49, R50, R52, R72, R112, R114, R120). -/

namespace Sys2Proof.Machine
-- One proof at a time: under the memory limit of the check there is no room for the stacks of many threads.
set_option Elab.async false

section

variable {s x y : State} {k : SlotNo} {o : Nat} {e : Exposure}

/-! ## The wait is over -/

/-- A row that stays in the queue at the end of the wait (R112). -/
def Plr.keepsRow (p : Plr) (r : QueuedRow) : Bool := p.decision != .waiting || r.released

/-- The receiver after the wait for its frame: nothing awaited, an open frame discarded, held rows removed (R112). -/
def Plr.waitOver (p : Plr) : Plr :=
  { p with
    awaitedTag := none
    endPending := false
    reception := if p.reception = .receiving then .discarding else p.reception
    queue := p.queue.filter p.keepsRow }

/-- The latest entry settled by the timeout, or by the frame's end where every row was handed (R49, R50, R112). -/
def State.timeoutEntry (s : State) (e : Exposure) : Exposure :=
  if s.plr.rowsReleased = s.geometry.height then e
  else e.atTimeout s.plr.rowsReleased s.geometry.height s.plr.straySeen

theorem State.timeoutWait_eq (x : State) : x.timeoutWait =
    if x.plr.rowsReleased = x.geometry.height then ({ x with plr := x.plr.waitOver } : State).reportFrameEnd 0
    else ({ x with plr := x.plr.waitOver } : State).reportTimeout x.plr.rowsReleased x.plr.straySeen := by
  have hover : (x.onPlr fun p =>
      let q := { p with awaitedTag := none, endPending := false,
                        reception := if p.reception = .receiving then .discarding else p.reception }
      if q.decision = .waiting then q.dropHeld else q) = { x with plr := x.plr.waitOver } := by
    unfold State.onPlr Plr.waitOver Plr.dropHeld
    by_cases hd : x.plr.decision = .waiting
    · have hkeep : x.plr.keepsRow = fun r => r.released := funext fun r => by simp [Plr.keepsRow, hd]
      simp [hd, hkeep]
    · have hkeep : x.plr.keepsRow = fun _ => true := funext fun r => by simp [Plr.keepsRow, hd]
      simp [hd, hkeep]
  unfold State.timeoutWait
  dsimp only at hover ⊢
  rw [hover]

theorem Exposure.atFrameEnd_whole (e : Exposure) (h : Nat) : e.atFrameEnd 0 h = e := by
  unfold Exposure.atFrameEnd
  simp

/-- What the end of the wait for the frame of a try leaves (R49, R50, R112). -/
structure State.Settles (x y : State) (k : SlotNo) (e : Exposure) : Prop where
  cal : y.cal = x.cal
  fsc : y.fsc = x.fsc
  lamp : y.ltc.lamp = x.ltc.lamp
  plr : y.plr = x.plr.waitOver
  csq : y.csq = { x.csq with
    state := if x.plr.rowsReleased = x.geometry.height then x.csq.state
      else if x.csq.state = .exposing then .readout else x.csq.state
    frameReported := true }
  list : (y.work k).list = (x.work k).list.dropLast ++ [x.timeoutEntry e]
  timer : x.tbu.timers.frame = none → y.tbu.timers.frame = none
  window : x.plr.rowsReleased ≠ x.geometry.height → x.csq.state = .exposing → y.ltc.windowOpen = false

theorem State.timeoutWait_settles (hr : x.plr.requester = some (.capture k o))
    (he : (x.work k).list.getLast? = some e) : x.Settles x.timeoutWait k e := by
  have hmodify (f : Exposure → Exposure) (z : State) (hz : z.work k = x.work k) :
      ((z.onLatest k f).work k).list = (x.work k).list.dropLast ++ [f e] := by
    refine (congrArg WorkRecord.list (setAt_get_self _ _ _)).trans ?_
    change (z.work k).list.modify ((z.work k).list.length - 1) f = _
    rw [hz]
    exact modify_last_eq he f
  rw [State.timeoutWait_eq]
  by_cases hg : x.plr.rowsReleased = x.geometry.height
  · rw [if_pos hg]
    have hreport : ({ x with plr := x.plr.waitOver } : State).reportFrameEnd 0 =
        ((({ x with plr := x.plr.waitOver } : State).onTimers fun t => { t with frame := none }).onLatest k fun e =>
          e.atFrameEnd 0 x.geometry.height).onCsq fun q => { q with frameReported := true } := by
      have hreq : x.plr.waitOver.requester = some (.capture k o) := hr
      unfold State.reportFrameEnd
      dsimp only
      rw [hreq]
      rfl
    rw [hreport]
    refine ⟨rfl, rfl, rfl, rfl, ?_, ?_, fun _ => rfl, fun h => absurd hg h⟩
    · rw [if_pos hg]
      rfl
    · refine (hmodify _ (({ x with plr := x.plr.waitOver } : State).onTimers fun t => { t with frame := none }) rfl).trans ?_
      rw [Exposure.atFrameEnd_whole, State.timeoutEntry, if_pos hg]
  · rw [if_neg hg]
    have hreport : ({ x with plr := x.plr.waitOver } : State).reportTimeout x.plr.rowsReleased x.plr.straySeen =
        (((if x.csq.state = .exposing then ({ x with plr := x.plr.waitOver } : State).discardWindow
          else { x with plr := x.plr.waitOver }).onLatest k fun e =>
            e.atTimeout x.plr.rowsReleased x.geometry.height x.plr.straySeen).onCsq fun q =>
              { q with state := if q.state = .exposing then .readout else q.state, frameReported := true }) := by
      have hreq : x.plr.waitOver.requester = some (.capture k o) := hr
      unfold State.reportTimeout
      dsimp only
      rw [hreq]
    rw [hreport]
    have hentry : x.timeoutEntry e = e.atTimeout x.plr.rowsReleased x.geometry.height x.plr.straySeen := if_neg hg
    split
    next hexp =>
      refine ⟨rfl, rfl, rfl, rfl, ?_, ?_, id, fun _ _ => rfl⟩
      · rw [if_neg hg]
        rfl
      · rw [hentry]
        exact hmodify _ (({ x with plr := x.plr.waitOver } : State).discardWindow) rfl
    next hexp =>
      refine ⟨rfl, rfl, rfl, rfl, ?_, ?_, id, fun _ h => absurd h hexp⟩
      · rw [if_neg hg]
        rfl
      · rw [hentry]
        exact hmodify _ ({ x with plr := x.plr.waitOver } : State) rfl

/-! ## The event -/

/-- The TIMEOUT charged (R112). -/
def State.timedOut (s : State) : State :=
  (s.onTimers fun t => { t with frame := none }).chargeFault
    { kind := .timeout, exposure := s.plr.faultExposure, row := none } 16

theorem exec_frameTimerExpiry {p : Nat} (h : s.tbu.timers.frame = some p) : exec .frameTimerExpiry s
    = .next (s.uplinked (if s.timedOut.plr.link = .dropped then s.timedOut else s.timedOut.timeoutWait)) := by
  change execFrameTimerExpiry s = _
  unfold execFrameTimerExpiry
  rw [h]
  rfl

theorem State.timedOut_low (hl : s.plr.link ≠ .dropped) (hn : s.plr.faultCount + 16 < 384) :
    s.timedOut = { s with
        raised := s.timedOut.raised
        tbu := { s.tbu with timers := { s.tbu.timers with frame := none } }
        plr := { s.plr with
          faultCount := s.plr.faultCount + 16
          link := linkOf s.settings.linkWarningLimit (s.plr.faultCount + 16)
          capture := s.timedOut.plr.capture } } :=
  (State.chargeFault_low (s := s.onTimers fun t => { t with frame := none }) hl hn
    { kind := .timeout, exposure := s.plr.faultExposure, row := none }).1

theorem exec_frameTimerExpiry_low {p : Nat} (h : s.tbu.timers.frame = some p) (hl : s.plr.link ≠ .dropped)
    (hn : s.plr.faultCount + 16 < 384) : exec .frameTimerExpiry s = .next (s.uplinked s.timedOut.timeoutWait) := by
  have hup : s.timedOut.plr.link ≠ .dropped := by
    rw [State.timedOut_low hl hn]
    exact linkOf_low hn
  rw [exec_frameTimerExpiry h, if_neg hup]

/-- The state that the turns after a timeout find (R112). -/
structure State.WaitEnds (s z : State) (k : SlotNo) (e : Exposure) : Prop where
  cal : z.cal = s.cal
  fsc : z.fsc = s.fsc
  lamp : z.ltc.lamp = s.ltc.lamp
  link : z.plr.link ≠ .dropped
  queue : z.plr.queue = s.plr.queue.filter s.plr.keepsRow
  reception : z.plr.reception = if s.plr.reception = .receiving then .discarding else s.plr.reception
  awaited : z.plr.awaitedTag = none
  ended : z.plr.endPending = false
  csq : z.csq = { s.csq with
    state := if s.plr.rowsReleased = s.geometry.height then s.csq.state
      else if s.csq.state = .exposing then .readout else s.csq.state
    frameReported := true }
  list : (z.work k).list = (s.work k).list.dropLast ++ [s.timeoutEntry e]
  timer : z.tbu.timers.frame = none
  window : s.plr.rowsReleased ≠ s.geometry.height → s.csq.state = .exposing → z.ltc.windowOpen = false

theorem State.timeout_ends (hl : s.plr.link ≠ .dropped) (hn : s.plr.faultCount + 16 < 384)
    (hr : s.plr.requester = some (.capture k o)) (he : (s.work k).list.getLast? = some e) :
    s.WaitEnds (s.sealFaults s.timedOut.timeoutWait) k e := by
  have hx := State.timedOut_low hl hn
  have hreq : s.timedOut.plr.requester = some (.capture k o) := by rw [hx]; exact hr
  have hwork : s.timedOut.work k = s.work k := by rw [hx]; rfl
  have hset := State.timeoutWait_settles hreq (by rw [hwork]; exact he)
  obtain ⟨hcsq, hcal, hfsc, hmge, htbu, hqueue⟩ := s.sealFaults_blocks s.timedOut.timeoutWait
  have hltc : (s.sealFaults s.timedOut.timeoutWait).ltc = s.timedOut.timeoutWait.ltc := by rw [State.sealFaults_eq]
  have hzwork : (s.sealFaults s.timedOut.timeoutWait).work k = s.timedOut.timeoutWait.work k :=
    congrArg (fun m => m.work.get k) hmge
  have hplr : (s.sealFaults s.timedOut.timeoutWait).plr = { s.timedOut.plr.waitOver with
      capture := (s.sealFaults s.timedOut.timeoutWait).plr.capture } := by
    rw [State.sealFaults_eq]
    change ({ s.timedOut.timeoutWait.plr with capture := _ } : Plr) = _
    rw [hset.plr]
  have hentry : s.timedOut.timeoutEntry e = s.timeoutEntry e := by
    unfold State.timeoutEntry
    rw [hx]
  have hsame : s.timedOut.csq = s.csq ∧ s.timedOut.cal = s.cal ∧ s.timedOut.fsc = s.fsc ∧ s.timedOut.ltc = s.ltc
      ∧ s.timedOut.geometry = s.geometry ∧ s.timedOut.plr.rowsReleased = s.plr.rowsReleased
      ∧ s.timedOut.tbu.timers.frame = none ∧ s.timedOut.plr.queue = s.plr.queue
      ∧ s.timedOut.plr.keepsRow = s.plr.keepsRow ∧ s.timedOut.plr.reception = s.plr.reception := by
    rw [hx]
    exact ⟨rfl, rfl, rfl, rfl, rfl, rfl, rfl, rfl, rfl, rfl⟩
  have hup : s.timedOut.plr.link ≠ .dropped := by
    rw [hx]
    exact linkOf_low hn
  obtain ⟨h1, h2, h3, h4, h5, h6, h7, h8, h9, h10⟩ := hsame
  have hstate := hset.csq
  have hlist := hset.list
  rw [h1, h5, h6] at hstate
  rw [hwork, hentry] at hlist
  refine ⟨hcal.trans (hset.cal.trans h2), hfsc.trans (hset.fsc.trans h3), ?_, ?_, ?_, ?_, ?_, ?_,
    hcsq.trans hstate, (congrArg WorkRecord.list hzwork).trans hlist,
    (congrArg (fun b => b.timers.frame) htbu).trans (hset.timer h7), fun hg hexp => ?_⟩
  · rw [hltc, hset.lamp, h4]
  · rw [hplr]
    exact hup
  · rw [hqueue, hset.plr]
    change s.timedOut.plr.queue.filter s.timedOut.plr.keepsRow = _
    rw [h8, h9]
  · rw [hplr]
    change (if s.timedOut.plr.reception = .receiving then _ else _) = _
    rw [h10]
  · rw [hplr]
    rfl
  · rw [hplr]
    rfl
  · rw [hltc]
    exact hset.window (by rw [h5, h6]; exact hg) (by rw [h1]; exact hexp)

theorem State.WaitEnds.length {z : State} (hz : s.WaitEnds z k e) (he : (s.work k).list.getLast? = some e) :
    (z.work k).list.length = (s.work k).list.length := by
  have hpos : (s.work k).list ≠ [] := fun h => by simp [h] at he
  rw [hz.list, List.length_append, List.length_dropLast, List.length_singleton]
  exact Nat.sub_add_cancel (List.length_pos_iff.mpr hpos)

/-- While a row of the try is being merged the sequencer waits in READOUT (R72). -/
theorem timeout_waits {p : Nat} (h : s.tbu.timers.frame = some p) (hl : s.plr.link ≠ .dropped)
    (hn : s.plr.faultCount + 16 < 384) (hr : s.plr.requester = some (.capture k o)) (hop : s.cal.op = none)
    (he : (s.work k).list.getLast? = some e) (hs : s.csq.state = .readout)
    (hb : s.busyWith StoreWork.isMerge = true) : ∃ t, exec .frameTimerExpiry s = .next t
      ∧ t.csq = { s.csq with frameReported := true }
      ∧ (t.work k).list = (s.work k).list.dropLast ++ [s.timeoutEntry e]
      ∧ t.plr.queue = s.plr.queue.filter s.plr.keepsRow
      ∧ t.plr.reception = (if s.plr.reception = .receiving then .discarding else s.plr.reception)
      ∧ t.plr.awaitedTag = none ∧ t.plr.endPending = false ∧ t.tbu.timers.frame = none := by
  have hz := State.timeout_ends hl hn hr he
  refine ⟨_, exec_frameTimerExpiry_low h hl hn, ?_⟩
  unfold State.uplinked
  generalize s.sealFaults s.timedOut.timeoutWait = z at hz ⊢
  have hstate : z.csq.state = .readout := by
    rw [hz.csq]
    dsimp only
    rw [hs]
    simp
  have hbusy : z.busyWith StoreWork.isMerge = true := by
    unfold State.busyWith at hb ⊢
    rw [hz.fsc]
    exact hb
  have hun := State.undisturbed_of_merge (.inr (.inr (.inr hstate))) (by rw [hz.cal]; exact hop) hbusy
  obtain ⟨hmerge, hacc⟩ := State.inProgress_of_merge hbusy
  obtain ⟨hcsq, hmge, htimer, -⟩ := hun.kept s.plates
  obtain ⟨hplr, -⟩ := hun.thinned s.plates
  have hqueue := hun.queue_busy (State.takeDiscards_of_merge hmerge) hacc s.plates
  refine ⟨?_, ?_, hqueue.trans hz.queue, ?_, ?_, ?_, htimer.trans hz.timer⟩
  · rw [hcsq]
    have hc := hz.csq
    rw [hc] at hstate ⊢
    dsimp only at hstate
    rw [hstate, ← hs]
  · exact (congrArg (fun m => (m.work.get k).list) hmge).trans hz.list
  · rw [hplr]
    exact hz.reception
  · rw [hplr]
    exact hz.awaited
  · rw [hplr]
    exact hz.ended

/-- Where no row is left to merge the rung is repeated at this event (R52, R112). -/
theorem timeout_repeats {p : Nat} (h : s.tbu.timers.frame = some p) (hl : s.plr.link ≠ .dropped)
    (hn : s.plr.faultCount + 16 < 384) {c : TryContext} (hr : s.plr.requester = some (.capture c.slot o))
    (hop : s.cal.op = none) (he : (s.work c.slot).list.getLast? = some e)
    (hs : s.csq.state = .exposing ∧ e.outcome = .pending
      ∨ s.csq.state = .readout ∧ (e.outcome = .merged ∨ e.outcome = .unsteady ∧ c.singleTry = false))
    (hc : s.csq.ctx = some c) (hrep : c.repeatCount < 2) (hlen : (s.work c.slot).list.length < 16)
    (hpos : 0 < s.geometry.height) (hg : s.plr.rowsReleased = 0) (hb : s.busyWith StoreWork.isMerge = false)
    (hrows : ∀ r ∈ s.plr.queue, r.isCapture = true → s.plr.keepsRow r = false) : ∃ t,
      exec .frameTimerExpiry s = .next t ∧ t.csq.ctx = some c.raiseRepeat ∧ t.csq.frameReported = false
        ∧ (t.work c.slot).list.take (s.work c.slot).list.length
            = (s.work c.slot).list.dropLast ++ [s.timeoutEntry e]
        ∧ t.plr.reception = (if s.plr.reception = .receiving then .discarding else s.plr.reception)
        ∧ t.plr.endPending = false ∧ (s.csq.state = .exposing → t.ltc.windowOpen = false)
        ∧ (s.ltc.lamp ≠ .steady → (t.csq.state = .awaitLamp ∨ t.csq.state = .paused .trigger)
            ∧ (t.work c.slot).list = (s.work c.slot).list.dropLast ++ [s.timeoutEntry e]
            ∧ t.plr.awaitedTag = none ∧ t.tbu.timers.frame = none) := by
  have hz := State.timeout_ends hl hn hr he
  have hne : s.plr.rowsReleased ≠ s.geometry.height := by omega
  have hentry : s.timeoutEntry e = e.atTimeout 0 s.geometry.height s.plr.straySeen := by
    rw [State.timeoutEntry, if_neg hne, hg]
  have hverdict (allowance : Nat) : reviewVerdict c.singleTry allowance (s.timeoutEntry e) = .again := by
    rw [hentry]
    unfold Exposure.atTimeout
    rcases hs with ⟨-, ho⟩ | ⟨-, ho | ⟨ho, hsingle⟩⟩
    · rw [ho]
      rfl
    · rw [ho]
      dsimp only
      rw [if_neg (Nat.lt_irrefl 0)]
      split <;> rfl
    · rw [ho]
      dsimp only
      unfold reviewVerdict
      rw [ho]
      exact if_neg (by simp [hsingle])
  refine ⟨_, exec_frameTimerExpiry_low h hl hn, ?_⟩
  unfold State.uplinked
  have hlength := hz.length he
  generalize s.sealFaults s.timedOut.timeoutWait = z at hz hlength ⊢
  have hstate : z.csq.state = .readout := by
    rw [hz.csq]
    dsimp only
    rw [if_neg hne]
    rcases hs with ⟨h, -⟩ | ⟨h, -⟩
    · exact if_pos h
    · rw [h]
      simp
  have hctx : z.csq.ctx = some c := by
    rw [hz.csq]
    exact hc
  have hbusy : z.busyWith StoreWork.isMerge = false := by
    unfold State.busyWith at hb ⊢
    rw [hz.fsc]
    exact hb
  have hnone : ∀ r ∈ z.plr.queue, r.isCapture = false := by
    intro r hr
    rw [hz.queue] at hr
    obtain ⟨hin, hkeep⟩ := List.mem_filter.mp hr
    refine Bool.eq_false_iff.mpr fun hcap => ?_
    rw [hrows r hin hcap] at hkeep
    cases hkeep
  have htested := State.repeat_follows (s := z) (c := c) (e := s.timeoutEntry e) hstate (by rw [hz.csq]) hctx
    (by rw [hz.cal]; exact hop) hnone hbusy (by rw [hz.list]; exact List.getLast?_concat) (hverdict _) hrep
    (by rw [hlength]; exact hlen) s.plates
  refine ⟨?_, htested.reported, ?_, htested.reception.trans hz.reception, htested.ended hz.ended, fun hexp => ?_,
    fun hlamp => ?_⟩
  · refine htested.ctx.trans ?_
    change z.csq.ctx.map TryContext.raiseRepeat = _
    rw [hctx]
    rfl
  · have htake : ((z.pollAll.announce s.plates).work c.slot).list.take (z.work c.slot).list.length
        = (z.work c.slot).list := htested.list
    rwa [hlength, hz.list] at htake
  · exact htested.window.trans (hz.window hne hexp)
  · obtain ⟨h1, h2, h3, h4⟩ := htested.waits fun hsteady => hlamp (hz.lamp.symm.trans hsteady)
    exact ⟨h1, h2.trans hz.list, h3.trans hz.awaited, h4.trans hz.timer⟩

end

end Sys2Proof.Machine
end

section
/-! PROOFS. FRAME_TIMER_EXPIRY whatever the count: what is charged and captured, and the link that drops (R60, R98, R112,
R114 to R116, R119, R120). -/

namespace Sys2Proof.Machine
-- One proof at a time: under the memory limit of the check there is no room for the stacks of many threads.
set_option Elab.async false

section

variable {s x : State}

/-! ## A link that goes down -/

/-- A receiver whose link is down, and its timer (R116). -/
structure State.Down (x : State) : Prop where
  timer : x.tbu.timers.frame = none
  awaited : x.plr.awaitedTag = none
  cancelled : x.plr.cancelledTag = none
  stray : x.plr.straySeen = false
  queue : x.plr.queue = []
  reception : x.plr.reception = .between
  run : x.plr.idleRun = 0

theorem State.Down.cancelWait (h : x.Down) : x.cancelWait.Down := by
  refine ⟨rfl, rfl, ?_, h.stray, rfl, ?_, h.run⟩
  · change (if _ then _ else _) = _
    rw [if_pos (.inr h.awaited)]
    exact h.cancelled
  · change (if x.plr.reception = .receiving then _ else _) = _
    rw [h.reception]
    rfl

theorem State.Down.tryStopped (h : x.Down) : x.tryStopped.Down := by
  unfold State.tryStopped
  split
  · exact ⟨h.timer, h.awaited, h.cancelled, h.stray, h.queue, h.reception, h.run⟩
  · exact ⟨h.timer, h.awaited, h.cancelled, h.stray, h.queue, h.reception, h.run⟩
  · exact State.Down.cancelWait (x := x.discardWindow) ⟨h.timer, h.awaited, h.cancelled, h.stray, h.queue, h.reception, h.run⟩
  · exact h.cancelWait
  · exact h

theorem State.Down.leaveCapture (h : x.Down) : x.leaveCapture.Down := by
  unfold State.leaveCapture
  split
  next c hc =>
    obtain ⟨-, -, htimer, -, hplr⟩ := State.abandonTry_stopped hc
    have ht := h.tryStopped
    refine ⟨htimer.trans ht.timer, ?_, ?_, ?_, ?_, ?_, ?_⟩
    · rw [hplr]; exact ht.awaited
    · rw [hplr]; exact ht.cancelled
    · rw [hplr]; exact ht.stray
    · rw [hplr, ht.queue]; rfl
    · rw [hplr]; exact ht.reception
    · rw [hplr]; exact ht.run
  next =>
    split
    · exact ⟨h.timer, h.awaited, h.cancelled, h.stray, h.queue, h.reception, h.run⟩
    · exact ⟨h.timer, h.awaited, h.cancelled, h.stray, h.queue, h.reception, h.run⟩
    · exact h

theorem State.Down.failCalibration (h : x.Down) (reason : CalResult) : (x.failCalibration reason).Down := by
  have hc := h.cancelWait
  unfold State.failCalibration State.endCalibration State.lampFlatEnded
  dsimp only
  split
  · exact h
  · split
    · exact ⟨hc.timer, hc.awaited, hc.cancelled, hc.stray, hc.queue, hc.reception, hc.run⟩
    · split
      · exact ⟨hc.timer, hc.awaited, hc.cancelled, hc.stray, hc.queue, hc.reception, hc.run⟩
      · exact ⟨hc.timer, hc.awaited, hc.cancelled, hc.stray, hc.queue, hc.reception, hc.run⟩

theorem State.down_dropLink (x : State) : x.dropLink.Down :=
  State.Down.failCalibration (State.Down.leaveCapture ⟨rfl, rfl, rfl, rfl, rfl, rfl, rfl⟩) .link

/-- A dropped link leaves no try and no calibration (R60, R98, R116). -/
theorem State.dropLink_idle (x : State) : x.dropLink.csq.ctx = none ∧ x.dropLink.csq.state ≠ .awaitSlot
    ∧ x.dropLink.csq.state ≠ .paused .claim ∧ x.dropLink.cal.op = none ∧ x.dropLink.cal.record = x.cal.record := by
  have hleave (y : State) : y.leaveCapture.csq.ctx = none ∧ y.leaveCapture.csq.state ≠ .awaitSlot
      ∧ y.leaveCapture.csq.state ≠ .paused .claim := by
    unfold State.leaveCapture
    split
    next c hc =>
      rw [(State.abandonTry_state hc).1]
      exact ⟨rfl, by simp, by simp⟩
    next hc =>
      split
      · exact ⟨hc, by simp [State.setCsq, State.onCsq], by simp [State.setCsq, State.onCsq]⟩
      · exact ⟨hc, by simp [State.setCsq, State.onCsq], by simp [State.setCsq, State.onCsq]⟩
      next h1 h2 => exact ⟨hc, h1, h2⟩
  have hop (y : State) : (y.failCalibration .link).cal.op = none := by
    unfold State.failCalibration
    cases h : y.cal.op with
    | none => exact h
    | some op =>
      unfold State.endCalibration State.lampFlatEnded
      dsimp only
      repeat' split
      all_goals rfl
  unfold State.dropLink
  dsimp only
  refine ⟨?_, ?_, ?_, hop _, by simp⟩
  · simpa using (hleave _).1
  · simpa using (hleave _).2.1
  · simpa using (hleave _).2.2

/-- Over a dropped link, without a try or a calibration, no block goes on (R41, R42, R60). -/
theorem State.undisturbed_of_dropped (hl : x.plr.link = .dropped) (hc : x.csq.ctx = none)
    (h1 : x.csq.state ≠ .awaitSlot) (h2 : x.csq.state ≠ .paused .claim) (hop : x.cal.op = none)
    (hq : x.plr.queue = []) : x.Undisturbed := by
  have hkept : x.takeDiscards = x := State.takeDiscards_kept (by simp [hq])
  have hmerged : x.pollMerged = x := by
    unfold State.pollMerged
    rw [hc]
  have hstart : x.startConditions = false := by simp [State.startConditions, hl]
  have hpaused : x.pollPaused = x := by
    unfold State.pollPaused
    rw [hc]
    split
    next rp r hs hr =>
      split
      · rfl
      · cases rp with
        | claim => exact absurd hs h2
        | move => rfl
        | trigger => rfl
    · rfl
  have hidle : x.pollIdle = x := by
    unfold State.pollIdle
    split
    · rw [hstart]
      rfl
    · rfl
  have hlamp : x.pollLamp = x := by
    unfold State.pollLamp
    rw [hc]
    split
    next h => cases h
    next => rfl
  unfold State.Undisturbed State.pollAll
  rw [hkept, State.pollCal_of_noOp hop, State.pollCsq, hmerged, hpaused, hidle, State.pollSlot_of_state h1, hlamp]

/-- The turns capture no fault (R120). -/
theorem State.pollAll_capture (x : State) : x.pollAll.plr.capture = x.plr.capture := by
  unfold State.pollAll State.pollCal
  rw [State.arbitrate_plr]
  simp

/-! ## The TRIGGER that may follow -/

/-- A TRIGGER that leaves among the turns of an event is the next one (R48, R105). -/
theorem State.pollAll_awaits (h : x.plr.awaitedTag = none) :
    x.pollAll.plr.awaitedTag = none ∨ x.pollAll.plr.awaitedTag = some (x.plr.tagCounter + 1) := by
  have hdisc : x.takeDiscards.plr.awaitedTag = none ∧ x.takeDiscards.plr.tagCounter = x.plr.tagCounter := by
    rw [x.thinned_takeDiscards.1]
    exact ⟨h, rfl⟩
  have hattempt (y : State) (hy : y.plr.awaitedTag = none) : y.pollAttempt.plr.awaitedTag = none := by
    unfold State.pollAttempt
    split
    · exact hy
    next op hop =>
      split
      · unfold State.attemptEnded
        repeat' split
        all_goals first | exact hy | exact (State.failCalibration_drained hop _).1 | simpa using hy
      · exact hy
  have htrigger (y : State) (hy : y.plr.awaitedTag = none) : y.pollAttemptTrigger.plr.awaitedTag = none
      ∨ (y.pollAttemptTrigger.plr.awaitedTag = some (y.plr.tagCounter + 1) ∧ y.pollAttemptTrigger.canTrigger = false) := by
    unfold State.pollAttemptTrigger
    split
    · exact .inl hy
    · split
      · unfold State.triggerAttempt
        dsimp only
        split <;> exact .inr ⟨rfl, by simp [State.canTrigger, State.sendTrigger, State.onOp, State.onCal, State.onPlr,
          State.onTimers]⟩
      · exact .inl hy
  have hlamp (y : State) (hy : y.plr.awaitedTag = none) : y.pollLamp.plr.awaitedTag = none
      ∨ y.pollLamp.plr.awaitedTag = some (y.plr.tagCounter + 1) := by
    unfold State.pollLamp State.lampSwitchOn
    repeat' split
    all_goals first | exact .inl hy | exact .inr rfl
  have hcsq (y : State) (hy : y.plr.awaitedTag = none) : y.pollCsq.plr.awaitedTag = none
      ∨ y.pollCsq.plr.awaitedTag = some (y.plr.tagCounter + 1) := by
    have hbefore : y.pollMerged.pollPaused.pollIdle.pollSlot.plr = y.pollMerged.plr := by simp
    have hmerged := y.requeued_pollMerged
    have hturn := hlamp y.pollMerged.pollPaused.pollIdle.pollSlot (by rw [hbefore, hmerged]; exact hy)
    rwa [hbefore, hmerged] at hturn
  have hafter : x.pollAll.plr.awaitedTag = x.takeDiscards.pollAttempt.pollAttemptTrigger.pollCsq.plr.awaitedTag := by
    unfold State.pollAll State.pollCal
    rw [State.arbitrate_plr]
    simp only [State.pollDelivery_frame]
  have hcount : x.takeDiscards.pollAttempt.plr.tagCounter = x.plr.tagCounter := by
    rw [(State.pollAttempt_line _).2, hdisc.2]
  rw [hafter]
  rcases htrigger _ (hattempt _ hdisc.1) with hnone | ⟨hsome, hcan⟩
  · have hline : x.takeDiscards.pollAttempt.pollAttemptTrigger.plr.awaitedTag = none → 
        x.takeDiscards.pollAttempt.pollAttemptTrigger.plr.tagCounter = x.plr.tagCounter := by
      intro hn
      unfold State.pollAttemptTrigger at hn ⊢
      split
      · exact hcount
      next op hop =>
        rw [hop] at hn
        split
        next hgo =>
          dsimp only at hn
          rw [if_pos hgo] at hn
          unfold State.triggerAttempt at hn
          dsimp only at hn
          split at hn <;> cases hn
        next => exact hcount
    have hturn := hcsq _ hnone
    rwa [hline hnone] at hturn
  · rw [State.requeued_pollCsq hcan]
    exact .inr (hsome.trans (by rw [hcount]))

/-! ## The charge, dropping the link or not -/

/-- A fault is captured also where it drops the link (R120). -/
theorem State.chargeFault_captures (hl : x.plr.link ≠ .dropped) (m : FaultMark) (w : Nat) :
    x.plr.Captures (x.chargeFault m w).plr m := by
  unfold State.chargeFault
  rw [if_neg hl]
  dsimp only
  have hcapture := Plr.captures_captureFault
    ({ x.plr with faultCount := min Config.maxFaultCount (x.plr.faultCount + w) }) m
  exact ⟨fun h => by simpa [State.onPlr] using hcapture.filled h, fun r h => by simpa [State.onPlr] using hcapture.kept r h⟩

/-- The state after the TIMEOUT and the end of its wait (R112). -/
def State.waitEnded (s : State) : State :=
  if s.timedOut.plr.link = .dropped then s.timedOut else s.timedOut.timeoutWait

theorem State.waitEnded_counts (hl : s.plr.link ≠ .dropped) : s.waitEnded.plr.faultCount = min 511 (s.plr.faultCount + 16)
    ∧ s.waitEnded.plr.link = linkOf s.settings.linkWarningLimit s.waitEnded.plr.faultCount := by
  have h := State.chargeFault_counts (s := s.onTimers fun t => { t with frame := none }) hl
    { kind := .timeout, exposure := s.plr.faultExposure, row := none } 16
  change s.timedOut.plr.faultCount = _ ∧ s.timedOut.plr.link = linkOf _ s.timedOut.plr.faultCount at h
  unfold State.waitEnded
  split
  · exact h
  · simpa using h

theorem State.timeoutWait_capture (x : State) : x.timeoutWait.plr.capture = x.plr.capture := by
  rw [State.timeoutWait_eq]
  unfold State.reportFrameEnd State.reportTimeout
  dsimp only
  repeat' split
  all_goals rfl

theorem State.waitEnded_captures (hl : s.plr.link ≠ .dropped) :
    s.plr.Captures s.waitEnded.plr { kind := .timeout, exposure := s.plr.faultExposure, row := none } := by
  have h := State.chargeFault_captures (x := s.onTimers fun t => { t with frame := none }) hl
    { kind := .timeout, exposure := s.plr.faultExposure, row := none } 16
  have hx : s.plr.Captures s.timedOut.plr { kind := .timeout, exposure := s.plr.faultExposure, row := none } :=
    ⟨h.filled, h.kept⟩
  unfold State.waitEnded
  split
  · exact hx
  · have hkept := s.timedOut.timeoutWait_capture
    exact ⟨fun hn => by rw [hkept]; exact hx.filled hn, fun r hr => by rw [hkept]; exact hx.kept r hr⟩

theorem State.timeoutWait_awaited (x : State) : x.timeoutWait.plr.awaitedTag = none := by
  rw [State.timeoutWait_eq]
  unfold State.reportFrameEnd State.reportTimeout
  dsimp only
  repeat' split
  all_goals rfl

/-- A count that changes the link's state tells of it, and where it drops the link the drop follows (R116, R119). -/
theorem State.setFaultCount_changes {n : Nat} (h : linkOf x.settings.linkWarningLimit (min 511 n) ≠ x.plr.link)
    (cause : LinkCause) : .link (linkOf x.settings.linkWarningLimit (min 511 n)) x.plr.link (min 511 n) cause
      ∈ (x.setFaultCount n cause).raised
    ∧ (linkOf x.settings.linkWarningLimit (min 511 n) = .dropped → ∃ ns p,
        x.setFaultCount n cause = ({ x with raised := ns, plr := p } : State).dropLink) := by
  have h511 : Config.maxFaultCount = 511 := rfl
  unfold State.setFaultCount
  dsimp only
  rw [h511, if_neg h]
  split
  next hd =>
    refine ⟨State.mem_dropLink ?_, fun _ => ⟨_, _, rfl⟩⟩
    simp [State.raise, State.onPlr, hd]
  next hd =>
    refine ⟨?_, fun h => absurd h hd⟩
    simp [State.raise, State.onPlr]

theorem State.timedOut_changes (hl : s.plr.link ≠ .dropped)
    (h : linkOf s.settings.linkWarningLimit (min 511 (s.plr.faultCount + 16)) ≠ s.plr.link) :
    .link (linkOf s.settings.linkWarningLimit (min 511 (s.plr.faultCount + 16))) s.plr.link
        (min 511 (s.plr.faultCount + 16)) (.fault .timeout) ∈ s.timedOut.raised
      ∧ (linkOf s.settings.linkWarningLimit (min 511 (s.plr.faultCount + 16)) = .dropped → ∃ ns p b,
          s.timedOut = ({ s with raised := ns, plr := p, tbu := b } : State).dropLink ∧ b.clock = s.tbu.clock) := by
  have hcount : (({ s.plr with faultCount := min 511 (s.plr.faultCount + 16) } : Plr).captureFault
      { kind := .timeout, exposure := s.plr.faultExposure, row := none }).faultCount
        = min 511 (s.plr.faultCount + 16) := by
    unfold Plr.captureFault
    split <;> rfl
  have hlink : (({ s.plr with faultCount := min 511 (s.plr.faultCount + 16) } : Plr).captureFault
      { kind := .timeout, exposure := s.plr.faultExposure, row := none }).link = s.plr.link := by
    unfold Plr.captureFault
    split <;> rfl
  generalize hp : (({ s.plr with faultCount := min 511 (s.plr.faultCount + 16) } : Plr).captureFault
      { kind := .timeout, exposure := s.plr.faultExposure, row := none }) = p at hcount hlink
  have hcharge : s.timedOut = ({ s with
      plr := p
      tbu := { s.tbu with timers := { s.tbu.timers with frame := none } } } : State).setFaultCount
        p.faultCount (.fault .timeout) := by
    rw [← hp]
    exact if_neg hl
  have ht := hcharge
  rw [hcount] at ht
  have hmin : min 511 (min 511 (s.plr.faultCount + 16)) = min 511 (s.plr.faultCount + 16) := by omega
  obtain ⟨hmem, hdrop⟩ := State.setFaultCount_changes (x := { s with
      plr := p
      tbu := { s.tbu with timers := { s.tbu.timers with frame := none } } }) (n := min 511 (s.plr.faultCount + 16))
      (by rw [hmin]; exact fun he => h (he.trans hlink)) (.fault .timeout)
  rw [hmin, ← ht] at hmem
  rw [hmin, ← ht] at hdrop
  refine ⟨by rw [← hlink]; exact hmem, fun hd => ?_⟩
  obtain ⟨ns, q, hx⟩ := hdrop hd
  exact ⟨ns, q, _, hx, rfl⟩

/-- A notice of another kind, or of the final count, is told as it was raised (R119, R120; log 21). -/
theorem State.uplinked_announced {y : State} {n : Notice} (hp : y.ports = s.ports) (hn : n ∈ y.raised)
    (hsame : n.withLinkCount y.plr.faultCount = n) : s.announced (s.uplinked y) n := by
  have hsealed : n ∈ (s.sealFaults y).raised := by
    unfold State.sealFaults
    cases h : s.plr.capture <;> exact List.mem_map.mpr ⟨n, hn, hsame⟩
  exact State.announced_announce (by simpa using hp) _ (State.mem_pollAll hsealed)

/-! ## The try that a dropped link abandons -/

theorem PlateRecord.hasPending_of_cell {r : PlateRecord} {z : CellRecord} {a b : Nat} (h : r.cell? a b = some z)
    (hz : z.state = .pending) : r.hasPending = true :=
  List.any_eq_true.mpr ⟨z, List.mem_of_find?_eq_some h, by simp [hz]⟩

theorem PlateRecord.settled_of_active {r : PlateRecord} (hs : r.state = .active) (hp : r.hasPending = true)
    (now : Seconds) : r.settled now = r := by
  have hover := PlateRecord.captureOver_eq_false_of_pending hp
  have hrecaptured : r.recaptured = r := by
    unfold PlateRecord.recaptured
    simp [hs, hover]
  unfold PlateRecord.settled PlateRecord.completed
  rw [hrecaptured, if_neg]
  rw [hs]
  simp

section

variable {c : TryContext} {r : PlateRecord} {z : CellRecord}

/-- A drop abandons the try in flight and leaves its plate seated and ACTIVE (R60). -/
theorem State.dropLink_try (hc : x.csq.ctx = some c) (hr : x.plate? c.cell.key = some r) (hs : r.state = .active)
    (hz : r.cell? c.cell.column c.cell.row = some z) :
    x.dropLink.csq.state = .idle ∧ x.dropLink.cell? c.cell = some z.abandon
      ∧ x.dropLink.plate? c.cell.key = some (r.onCell c.cell.column c.cell.row CellRecord.abandon)
      ∧ x.dropLink.fsc.held.get c.slot = false ∧ (x.dropLink.work c.slot).state = .free := by
  generalize hw : ((x.onPlr fun p => { p with
    awaitedTag := none, cancelledTag := none, straySeen := false, queue := [], reception := .between, idleRun := 0,
    endPending := false }).onTimers fun t => { t with frame := none }) = w
  have hdrop : x.dropLink = w.leaveCapture.failCalibration .link := by
    rw [← hw]
    rfl
  have hctx : w.csq.ctx = some c := by rw [← hw]; exact hc
  have hplate : w.plate? c.cell.key = some r := by rw [← hw]; exact hr
  have hleave : w.leaveCapture = w.abandonTry := by
    unfold State.leaveCapture
    rw [hctx]
  obtain ⟨hcsq, -, hheld, -, hwork⟩ := State.abandonTry_state hctx
  have hp := State.abandonTry_plate? hctx c.cell.key
  have hcell := State.abandonTry_cell? hctx c.cell
  have hsettled := PlateRecord.settled_of_active (r := r.onCell c.cell.column c.cell.row CellRecord.abandon) hs
    (PlateRecord.hasPending_of_abandon (by simp [hz])) w.tbu.clock
  rw [hplate, Option.map_some, if_pos rfl, hsettled] at hp
  rw [State.cell?_of_plate hplate, hz, Option.map_some, if_pos rfl] at hcell
  rw [hdrop, hleave]
  refine ⟨?_, ?_, ?_, ?_, ?_⟩
  · simp [hcsq]
  · simpa [State.cell?, State.plate?] using hcell
  · simpa [State.plate?] using hp
  · simpa using hheld
  · simpa [State.work] using hwork

/-- A plate that keeps a PENDING cell stays seated and ACTIVE through the delivery's turn (R9). -/
theorem State.pollDelivery_active (hr : x.plate? c.cell.key = some r) (hs : r.state = .active) (hseat : r.seated = true)
    (hz : x.cell? c.cell = some z) (hp : z.state = .pending) (hq : c.cell ∉ x.dlt.queue) :
    ∃ p, x.pollDelivery.plate? c.cell.key = some p ∧ p.state = .active ∧ p.seated = true := by
  rcases x.pollDelivery_plate? c.cell.key with h | ⟨d, h⟩
  · exact ⟨r, h.trans hr, hs, hseat⟩
  · rw [hr, Option.map_some] at h
    split at h
    next hkey =>
      have hcell := (State.pollDelivery_cell? hq).trans hz
      rw [State.cell?_of_plate h, PlateRecord.cell?_settled] at hcell
      have hsettled := PlateRecord.settled_of_active
        (r := r.onCell d.column d.row fun y => { y with state := .delivering }) hs
        (PlateRecord.hasPending_of_cell hcell hp) x.tbu.clock
      rw [hsettled] at h
      exact ⟨_, h, hs, hseat⟩
    next => exact ⟨r, h, hs, hseat⟩

end

/-! ## The event over a link that drops -/

theorem State.uplinked_dropped {w : State} (hl : w.dropLink.plr.link = .dropped) :
    let t := s.uplinked w.dropLink
    t = (s.sealFaults w.dropLink).closed s.plates ∧ t.Down ∧ t.csq = w.dropLink.csq ∧ t.mge = w.dropLink.mge
      ∧ t.cal = w.dropLink.cal ∧ t.fsc.held = w.dropLink.fsc.held := by
  intro t
  have hdown := w.down_dropLink
  obtain ⟨hctx, h1, h2, hop, -⟩ := w.dropLink_idle
  obtain ⟨hcsq, hcal, hfsc, hmge, htbu, hqueue⟩ := s.sealFaults_blocks w.dropLink
  have hsealed := s.sealFaults_eq w.dropLink
  have hun : (s.sealFaults w.dropLink).Undisturbed := by
    refine State.undisturbed_of_dropped ?_ (by rw [hcsq]; exact hctx) (by rw [hcsq]; exact h1) (by rw [hcsq]; exact h2)
      (by rw [hcal]; exact hop) (hqueue.trans hdown.queue)
    rw [hsealed]
    exact hl
  have hkept : (s.sealFaults w.dropLink).takeDiscards = s.sealFaults w.dropLink :=
    State.takeDiscards_kept (by simp [hdown.queue])
  have ht : t = (s.sealFaults w.dropLink).closed s.plates := by
    change (s.sealFaults w.dropLink).pollAll.announce s.plates = _
    rw [hun, hkept]
    rfl
  obtain ⟨k1, k2, k3, -⟩ := hun.kept s.plates
  obtain ⟨hplr, hsub⟩ := hun.thinned s.plates
  change t.plr = _ at hplr
  change t.plr.queue.Sublist _ at hsub
  rw [hqueue, hdown.queue] at hsub
  refine ⟨ht, ⟨?_, ?_, ?_, ?_, List.sublist_nil.mp hsub, ?_, ?_⟩, k1.trans hcsq, k2.trans hmge, ?_, ?_⟩
  · exact k3.trans ((congrArg (fun b => b.timers.frame) htbu).trans hdown.timer)
  · rw [hplr, hsealed]; exact hdown.awaited
  · rw [hplr, hsealed]; exact hdown.cancelled
  · rw [hplr, hsealed]; exact hdown.stray
  · rw [hplr, hsealed]; exact hdown.reception
  · rw [hplr, hsealed]; exact hdown.run
  · rw [ht]
    change (s.sealFaults w.dropLink).pollDelivery.arbitrate.cal = _
    simp
  · rw [ht]
    change (s.sealFaults w.dropLink).pollDelivery.arbitrate.fsc.held = _
    simp

/-- The event in which the TIMEOUT drops the link (R60, R98, R116). -/
theorem timeout_drops (hl : s.plr.link ≠ .dropped) (hn : 384 ≤ s.plr.faultCount + 16) : ∃ w : State,
    (∃ ns p b, w = { s with raised := ns, plr := p, tbu := b }) ∧ s.waitEnded = w.dropLink
      ∧ w.dropLink.plr.link = .dropped := by
  have hdropped : linkOf s.settings.linkWarningLimit (min 511 (s.plr.faultCount + 16)) = .dropped :=
    if_pos (show 384 ≤ min 511 (s.plr.faultCount + 16) by omega)
  obtain ⟨hcount, hlink⟩ := State.waitEnded_counts hl
  obtain ⟨ns, p, b, ht, -⟩ := (State.timedOut_changes hl (by rw [hdropped]; exact Ne.symm hl)).2 hdropped
  rw [hcount, hdropped] at hlink
  have hwait : s.waitEnded = s.timedOut := by
    have h := State.chargeFault_counts (s := s.onTimers fun t => { t with frame := none }) hl
      { kind := .timeout, exposure := s.plr.faultExposure, row := none } 16
    have hdown : s.timedOut.plr.link = .dropped := h.2.trans ((congrArg (linkOf _) h.1).trans hdropped)
    exact if_pos hdown
  refine ⟨_, ⟨ns, p, b, rfl⟩, hwait.trans ht, ?_⟩
  rw [← ht, ← hwait]
  exact hlink

theorem State.waitEnded_awaited (hl : s.plr.link ≠ .dropped) :
    s.waitEnded.plr.awaitedTag = none ∧ s.waitEnded.plr.tagCounter = s.plr.tagCounter := by
  have hline : s.timedOut.plr.tagCounter = s.plr.tagCounter := (State.chargeFault_line _ _ _).2
  by_cases hn : 384 ≤ s.plr.faultCount + 16
  · obtain ⟨w, -, hw, -⟩ := timeout_drops hl hn
    refine ⟨by rw [hw]; exact w.down_dropLink.awaited, ?_⟩
    unfold State.waitEnded
    split
    · exact hline
    · simpa using hline
  · have hup : s.timedOut.plr.link ≠ .dropped := by
      rw [State.timedOut_low hl (by omega)]
      exact linkOf_low (by omega)
    unfold State.waitEnded
    rw [if_neg hup]
    exact ⟨State.timeoutWait_awaited _, by simpa using hline⟩

theorem State.uplinked_awaited (hl : s.plr.link ≠ .dropped) : (s.uplinked s.waitEnded).plr.awaitedTag = none
    ∨ (s.uplinked s.waitEnded).plr.awaitedTag = some (s.plr.tagCounter + 1) := by
  obtain ⟨hnone, htag⟩ := State.waitEnded_awaited hl
  have hsealed := s.sealFaults_eq s.waitEnded
  have hcount : (s.sealFaults s.waitEnded).plr.tagCounter = s.plr.tagCounter := by rw [hsealed]; exact htag
  have hturn := State.pollAll_awaits (x := s.sealFaults s.waitEnded) (by rw [hsealed]; exact hnone)
  rw [hcount] at hturn
  exact hturn

theorem Plr.faultExposure_eq (p : Plr) : p.faultExposure = if p.awaitedTag = none then none else p.requester := by
  unfold Plr.faultExposure
  cases p.awaitedTag <;> rfl

/-- A calibration that runs when the link drops fails with it (R98, R103). -/
theorem State.dropLink_calibration {w : State} {op : CalOp} (hop : w.cal.op = some op) :
    .calib w.cal.record.state (some op.kind) .link none (some (op.frame, op.repeats)) ∈ w.dropLink.raised := by
  generalize hw : ((w.onPlr fun p => { p with
    awaitedTag := none, cancelledTag := none, straySeen := false, queue := [], reception := .between, idleRun := 0,
    endPending := false }).onTimers fun t => { t with frame := none }) = y
  have hdrop : w.dropLink = y.leaveCapture.failCalibration .link := by
    rw [← hw]
    rfl
  have hcal : y.leaveCapture.cal = w.cal := by
    rw [← hw]
    simp
  have hended := (State.failCalibration_ended (x := y.leaveCapture) (op := op) (by rw [hcal]; exact hop) .link).2.2
  rw [hcal] at hended
  rw [hdrop]
  exact hended

/-- A sequencer that waits to claim is in IDLE when the link drops (R60). -/
theorem State.dropLink_waiting {w : State} (hc : w.csq.ctx = none)
    (hs : w.csq.state = .awaitSlot ∨ w.csq.state = .paused .claim) : w.dropLink.csq.state = .idle := by
  generalize hw : ((w.onPlr fun p => { p with
    awaitedTag := none, cancelledTag := none, straySeen := false, queue := [], reception := .between, idleRun := 0,
    endPending := false }).onTimers fun t => { t with frame := none }) = y
  have hdrop : w.dropLink = y.leaveCapture.failCalibration .link := by
    rw [← hw]
    rfl
  have hcsq : y.csq = w.csq := by rw [← hw]; rfl
  have hidle : y.leaveCapture.csq.state = .idle := by
    unfold State.leaveCapture
    rw [hcsq, hc]
    rcases hs with h | h <;> rw [h] <;> rfl
  rw [hdrop]
  simpa using hidle

theorem timeout_abandons {w : State} (hx : ∃ ns p b, w = { s with raised := ns, plr := p, tbu := b })
    (hdropped : w.dropLink.plr.link = .dropped) {c : TryContext} {r : PlateRecord} {z : CellRecord}
    (hc : s.csq.ctx = some c) (hr : s.plate? c.cell.key = some r) (hs : r.state = .active) (hseat : r.seated = true)
    (hz : r.cell? c.cell.column c.cell.row = some z) (hq : c.cell ∉ s.dlt.queue) :
    let t := s.uplinked w.dropLink
    t.csq.state = .idle ∧ t.csq.ctx = none ∧ t.cell? c.cell = some z.abandon
      ∧ t.fsc.held.get c.slot = false ∧ (t.work c.slot).state = .free
      ∧ ∃ p, t.plate? c.cell.key = some p ∧ p.state = .active ∧ p.seated = true := by
  intro t
  obtain ⟨ns, p, b, hw⟩ := hx
  obtain ⟨h1, h2, h3, h4, h5⟩ := State.dropLink_try (x := w) (c := c) (r := r) (z := z) (by rw [hw]; exact hc)
    (by rw [hw]; exact hr) hs hz
  have hidle := w.dropLink_idle.1
  obtain ⟨ht, -, hcsq, hmge, -, hheld⟩ := State.uplinked_dropped (s := s) hdropped
  have hsealed := s.sealFaults_eq w.dropLink
  have hdlt : (s.sealFaults w.dropLink).dlt = s.dlt := by
    rw [hsealed]
    change w.dropLink.dlt = _
    rw [hw]
    simp
  have hplates : (s.sealFaults w.dropLink).plates = w.dropLink.plates := by rw [hsealed]
  have hplate : (s.sealFaults w.dropLink).plate? c.cell.key
      = some (r.onCell c.cell.column c.cell.row CellRecord.abandon) := by
    rw [← h3, State.plate?, State.plate?, hplates]
  have hcell : (s.sealFaults w.dropLink).cell? c.cell = some z.abandon := by
    rw [← h2, State.cell?, State.cell?, State.plate?, State.plate?, hplates]
  refine ⟨(congrArg Csq.state hcsq).trans h1, (congrArg Csq.ctx hcsq).trans hidle, ?_,
    (congrArg (fun h => h.get c.slot) hheld).trans h4, ?_, ?_⟩
  · change (s.uplinked w.dropLink).cell? c.cell = _
    rw [ht, State.closed_cell? _ (by rw [hdlt]; exact hq)]
    exact hcell
  · exact (congrArg (fun m => (m.work.get c.slot).state) hmge).trans h5
  · change ∃ p, (s.uplinked w.dropLink).plate? c.cell.key = some p ∧ _
    rw [ht, State.closed_plate?]
    exact State.pollDelivery_active hplate hs hseat hcell rfl (by rw [hdlt]; exact hq)

end

/-- The entry that a timeout settles, in the words of the statement (R49, R50, R112). -/
theorem State.timeoutEntry_eq (s : State) (e : Exposure) : s.timeoutEntry e =
    if s.plr.rowsReleased = s.geometry.height then e
    else if e.outcome = .pending then { e with outcome := .timedOut }
    else if e.outcome = .merged then
      if 0 < s.plr.rowsReleased then
        { e with outcome := .patched, torn := some (s.geometry.height - s.plr.rowsReleased) }
      else { e with outcome := if s.plr.straySeen then .strayLost else .timedOut }
    else e := by
  unfold State.timeoutEntry Exposure.atTimeout
  cases e.outcome <;> cases s.plr.straySeen <;> rfl

/-- Settles O18: below 384 the entry is settled, and the rung repeated where no row is left; at 384 the link drops, with
the try and the calibration. -/
theorem frameTimeoutCharges : Obligations.FrameTimeoutCharges := by
  unfold Obligations.FrameTimeoutCharges
  refine ⟨?_, ?_⟩
  · intro s p k o e hp hl hn hr hop he g h list settled reception handed
    have hsettled : s.timeoutEntry e = settled := s.timeoutEntry_eq e
    refine ⟨fun hs _ hb => ?_, fun c hs hc hslot hrep hlen hpos hg hb hrows => ?_⟩
    · rw [← hsettled]
      exact timeout_waits hp hl hn hr hop he hs hb
    · subst hslot
      rw [← hsettled]
      exact timeout_repeats hp hl hn hr hop he hs hc hrep hlen hpos hg hb hrows
  · intro s p hp hl
    have hexec : exec .frameTimerExpiry s = .next (s.uplinked s.waitEnded) := exec_frameTimerExpiry hp
    obtain ⟨hcount, hlink⟩ := State.waitEnded_counts hl
    obtain ⟨htcount, htlink⟩ := s.uplinked_link s.waitEnded
    obtain ⟨hfilled, hkept⟩ := (State.waitEnded_captures hl).sealed
    have hcapture : (s.uplinked s.waitEnded).plr.capture = (s.sealFaults s.waitEnded).plr.capture :=
      State.pollAll_capture _
    have hports : s.waitEnded.ports = s.ports := by
      unfold State.waitEnded State.timedOut
      split <;> simp
    have hwait : s.tablesKept s.waitEnded := by
      unfold State.waitEnded State.timedOut
      split <;> simp [State.tablesKept]
    refine ⟨_, hexec, htcount.trans hcount, ?_, fun hnone => ?_, fun r hr => hcapture.trans (hkept r hr),
      State.uplinked_awaited hl, ?_, State.portsNoticed_announce (by simpa using hports) _, fun hne _ => ?_, fun hn => ?_⟩
    · rw [htlink, htcount]
      exact hlink
    · rw [hcapture, hfilled hnone, htcount, Plr.faultExposure_eq]
    · simpa [State.tablesKept, State.uplinked] using hwait
    · rw [htlink, hlink, hcount] at hne
      rw [htlink, htcount, hlink, hcount]
      have hmem := (State.timedOut_changes hl hne).1
      refine State.uplinked_announced hports ?_ (by rw [hcount]; rfl)
      unfold State.waitEnded
      split
      · exact hmem
      · simpa using hmem
    · obtain ⟨w, hx, hw, hdropped⟩ := timeout_drops hl hn
      obtain ⟨-, hdown, hcsq, -, hcal, -⟩ := State.uplinked_dropped (s := s) hdropped
      rw [hw] at htlink hports ⊢
      refine ⟨htlink.trans hdropped, hdown.timer, hdown.awaited, hdown.cancelled, hdown.stray, hdown.queue,
        hdown.reception, hdown.run, fun hc hs => ?_, fun c r z _ hc hr hs hseat hz hq => ?_, fun op hop => ?_⟩
      · obtain ⟨ns, q, b, hx⟩ := hx
        rw [hcsq]
        exact State.dropLink_waiting (by rw [hx]; exact hc) (by rw [hx]; exact hs)
      · exact timeout_abandons hx hdropped hc hr hs hseat hz hq
      · obtain ⟨ns, q, b, hx⟩ := hx
        have hwop : w.cal.op = some op := by rw [hx]; exact hop
        have hwrec : w.cal.record = s.cal.record := by rw [hx]
        obtain ⟨-, -, -, hnone, hrecord⟩ := w.dropLink_idle
        refine ⟨by rw [hcal, hnone], by rw [hcal, hrecord, hwrec], fun _ => ?_⟩
        have hmem := State.dropLink_calibration hwop
        rw [hwrec] at hmem
        exact State.uplinked_announced hports hmem rfl

end Sys2Proof.Machine
end

section
/-! SUPPORT. The laws on cells, slots, records, tries and deliveries (R18, R42, R64, R65, R74, R151 to R153) read from the
places of the cells, the holders of the slots and the stages of the work records alone; and what a release, a claim and the
other changes of a cell leave of them. -/

namespace Sys2Proof.Machine

-- One proof at a time: under the memory limit of the check there is no room for the stacks of many threads.
set_option Elab.async false

/-- A work record's stage: a pass that waits and one that runs are one stage. -/
def WorkState.stage : WorkState → WorkState
  | .running => .queued
  | w => w

/-- What the laws on cells speak of: each cell's state and slot, each slot's holder and the stage of its record, the try,
the delivery queue and the stream's cell and slot. -/
structure Desk where
  place : CellRef → Option (CellState × Option SlotNo)
  holder : SlotNo → Option CellRef
  stage : SlotNo → WorkState
  ctx : Option (CellRef × SlotNo × Bool)
  queue : List CellRef
  stream : Option (Option CellRef × Option SlotNo)

/-- The laws on a desk. -/
structure Desk.Sound (d : Desk) : Prop where
  slot : ∀ {c st sl}, d.place c = some (st, sl) → sl.isSome = st.holdsSlot
  holder : ∀ {k c}, d.holder k = some c ↔ ∃ st, d.place c = some (st, some k)
  free : ∀ {k}, d.stage k = .free ↔ d.holder k = none
  work : ∀ {c st k}, d.place c = some (st, some k) → d.stage k ∈ st.workStates
  clear : ∀ {c k b}, d.ctx = some (c, k, b) → (b = true ↔ d.stage k = .accumulating)
  tried : ∀ {c k b}, d.ctx = some (c, k, b) → d.place c = some (.exposing, some k)
  exposing : ∀ {c sl}, d.place c = some (.exposing, sl) → d.ctx.map (·.1) = some c
  nodup : d.queue.Nodup
  queue : ∀ {c}, c ∈ d.queue ↔ ∃ sl, d.place c = some (.merged, sl)
  delivering : ∀ {c sl}, d.place c = some (.delivering, sl) → d.stream.bind (·.1) = some c
  stream : ∀ {c sl}, d.stream = some (some c, sl) → d.place c = some (.delivering, sl)

/-! ## The changes of a desk -/

/-- Cells lose their slots: their records and slots are free, and they leave the try, the queue and the stream. -/
structure Desk.Released (d e : Desk) (lose : CellRef → Prop) : Prop where
  kept : ∀ c, ¬ lose c → e.place c = d.place c
  lost : ∀ c st sl, lose c → e.place c = some (st, sl) → sl = none ∧ st.holdsSlot = false
  freed : ∀ k c, d.holder k = some c → lose c → e.holder k = none ∧ e.stage k = .free
  held : ∀ k, (∀ c, d.holder k = some c → ¬ lose c) → e.holder k = d.holder k ∧ e.stage k = d.stage k
  untried : ∀ c k b, d.ctx = some (c, k, b) → lose c → e.ctx = none
  tried : (∀ c k b, d.ctx = some (c, k, b) → ¬ lose c) → e.ctx = d.ctx
  nodup : e.queue.Sublist d.queue
  queue : ∀ c, c ∈ e.queue ↔ c ∈ d.queue ∧ ¬ lose c
  unstreamed : ∀ c sl, d.stream = some (some c, sl) → lose c → e.stream.bind (·.1) = none
  streamed : (∀ c sl, d.stream = some (some c, sl) → ¬ lose c) → e.stream = d.stream

/-- A cell goes on to another state in its slot. -/
structure Desk.Advanced (d e : Desk) (c : CellRef) (k : SlotNo) (st : CellState) (w : WorkState) : Prop where
  place : e.place = Function.update d.place c (some (st, some k))
  holder : e.holder = d.holder
  stage : e.stage = Function.update d.stage k w

/-- A pending cell takes a free slot for a try. -/
structure Desk.Claimed (d e : Desk) (c : CellRef) (k : SlotNo) : Prop where
  place : e.place = Function.update d.place c (some (.exposing, some k))
  holder : e.holder = Function.update d.holder k (some c)
  stage : e.stage = Function.update d.stage k .clearing
  ctx : e.ctx = some (c, k, false)
  queue : e.queue = d.queue
  stream : e.stream = d.stream

namespace Desk.Sound

variable {d e : Desk} {c : CellRef} {k : SlotNo}

/-- Two cells hold different slots. -/
theorem cell_unique (h : d.Sound) {c' : CellRef} {st st' : CellState} (hc : d.place c = some (st, some k))
    (hc' : d.place c' = some (st', some k)) : c' = c :=
  Option.some.inj ((h.holder.mpr ⟨st', hc'⟩).symm.trans (h.holder.mpr ⟨st, hc⟩))

theorem released (h : d.Sound) {lose : CellRef → Prop} (g : d.Released e lose) : e.Sound := by
  have hplace : ∀ {x st sl}, e.place x = some (st, sl) → st.holdsSlot = true → ¬ lose x ∧ d.place x = some (st, sl) := by
    intro x st sl hx hst
    by_cases hl : lose x
    · have hlost := g.lost x st sl hl hx
      simp [hst] at hlost
    · exact ⟨hl, g.kept x hl ▸ hx⟩
  have hheld : ∀ {x st j}, e.place x = some (st, some j) → ¬ lose x ∧ d.place x = some (st, some j) := by
    intro x st j hx
    by_cases hl : lose x
    · cases (g.lost x st _ hl hx).1
    · exact ⟨hl, g.kept x hl ▸ hx⟩
  have hsame : ∀ {x st j}, ¬ lose x → d.place x = some (st, some j) → e.holder j = d.holder j ∧ e.stage j = d.stage j := by
    intro x st j hl hx
    refine g.held j fun y hy => ?_
    rw [h.holder.mpr ⟨st, hx⟩] at hy
    cases hy
    exact hl
  have hctx : ∀ {t}, e.ctx = some t → d.ctx = some t ∧ ¬ lose t.1 := by
    intro t ht
    cases hd : d.ctx with
    | none =>
      rw [g.tried (by simp [hd]), hd] at ht
      cases ht
    | some u =>
      by_cases hl : lose u.1
      · rw [g.untried u.1 u.2.1 u.2.2 hd hl] at ht
        cases ht
      · rw [g.tried (by rintro x j b hx; rw [hd] at hx; cases hx; exact hl), hd] at ht
        cases ht
        exact ⟨rfl, hl⟩
  refine ⟨?_, ?_, ?_, ?_, ?_, ?_, ?_, ?_, ?_, ?_, ?_⟩
  · intro x st sl hx
    by_cases hl : lose x
    · obtain ⟨rfl, hst⟩ := g.lost x st sl hl hx
      rw [hst]
      rfl
    · exact h.slot (g.kept x hl ▸ hx)
  · intro j x
    constructor
    · intro hj
      by_cases hlost : ∃ y, d.holder j = some y ∧ lose y
      · obtain ⟨y, hy, hl⟩ := hlost
        rw [(g.freed j y hy hl).1] at hj
        cases hj
      · have hkeep := g.held j fun y hy hl => hlost ⟨y, hy, hl⟩
        rw [hkeep.1] at hj
        obtain ⟨st, hx⟩ := h.holder.mp hj
        exact ⟨st, by rw [g.kept x fun hl => hlost ⟨x, hj, hl⟩]; exact hx⟩
    · rintro ⟨st, hx⟩
      obtain ⟨hl, hd⟩ := hheld hx
      rw [(hsame hl hd).1]
      exact h.holder.mpr ⟨st, hd⟩
  · intro j
    by_cases hlost : ∃ y, d.holder j = some y ∧ lose y
    · obtain ⟨y, hy, hl⟩ := hlost
      simp [g.freed j y hy hl]
    · have hkeep := g.held j fun y hy hl => hlost ⟨y, hy, hl⟩
      rw [hkeep.1, hkeep.2]
      exact h.free
  · intro x st j hx
    obtain ⟨hl, hd⟩ := hheld hx
    rw [(hsame hl hd).2]
    exact h.work hd
  · intro x j b ht
    obtain ⟨hd, hl⟩ := hctx ht
    rw [(hsame hl (h.tried hd)).2]
    exact h.clear hd
  · intro x j b ht
    obtain ⟨hd, hl⟩ := hctx ht
    rw [g.kept x hl]
    exact h.tried hd
  · intro x sl hx
    obtain ⟨hl, hd⟩ := hplace hx rfl
    have hmap := h.exposing hd
    rw [g.tried (by rintro y j b hy; rw [hy] at hmap; cases hmap; exact hl)]
    exact hmap
  · exact h.nodup.sublist g.nodup
  · intro x
    rw [g.queue, h.queue]
    constructor
    · rintro ⟨⟨sl, hx⟩, hl⟩
      exact ⟨sl, by rw [g.kept x hl]; exact hx⟩
    · rintro ⟨sl, hx⟩
      obtain ⟨hl, hd⟩ := hplace hx rfl
      exact ⟨⟨sl, hd⟩, hl⟩
  · intro x sl hx
    obtain ⟨hl, hd⟩ := hplace hx rfl
    have hstream := h.delivering hd
    rw [g.streamed (by rintro y sl' hy; rw [hy] at hstream; cases hstream; exact hl)]
    exact hstream
  · intro x sl hx
    by_cases hlost : ∃ y sl', d.stream = some (some y, sl') ∧ lose y
    · obtain ⟨y, sl', hy, hl⟩ := hlost
      have hnone := g.unstreamed y sl' hy hl
      rw [hx] at hnone
      cases hnone
    · rw [g.streamed fun y sl' hy hl => hlost ⟨y, sl', hy, hl⟩] at hx
      rw [g.kept x fun hl => hlost ⟨x, sl, hx, hl⟩]
      exact h.stream hx

theorem claimed (h : d.Sound) (g : d.Claimed e c k) (hc : d.place c = some (.pending, none)) (hk : d.holder k = none)
    (he : d.ctx = none) : e.Sound := by
  have hfree : ∀ x st, d.place x ≠ some (st, some k) := by
    intro x st hx
    rw [h.holder.mpr ⟨st, hx⟩] at hk
    cases hk
  have hexp : ∀ x sl, d.place x ≠ some (.exposing, sl) := by
    intro x sl hx
    have := h.exposing hx
    rw [he] at this
    cases this
  obtain ⟨hplace, hholder, hstage, hctx, hqueue, hstream⟩ := g
  refine ⟨?_, ?_, ?_, ?_, ?_, ?_, ?_, ?_, ?_, ?_, ?_⟩
  · intro x st sl hx
    rw [hplace, Function.update_apply] at hx
    split at hx
    · cases hx
      rfl
    · exact h.slot hx
  · intro j x
    rw [hplace, hholder, Function.update_apply, Function.update_apply]
    have := h.holder (k := j) (c := x)
    grind
  · intro j
    rw [hstage, hholder, Function.update_apply, Function.update_apply]
    split
    · simp
    · exact h.free
  · intro x st j hx
    rw [hplace, Function.update_apply] at hx
    rw [hstage, Function.update_apply]
    split at hx
    · cases hx
      simp [CellState.workStates]
    · rw [if_neg (by rintro rfl; exact hfree x st hx)]
      exact h.work hx
  · intro x j b ht
    rw [hctx] at ht
    cases ht
    simp [hstage]
  · intro x j b ht
    rw [hctx] at ht
    cases ht
    simp [hplace]
  · intro x sl hx
    rw [hplace, Function.update_apply] at hx
    split at hx
    · rename_i hxc
      rw [hctx, hxc]
      rfl
    · exact absurd hx (hexp x sl)
  · rw [hqueue]
    exact h.nodup
  · intro x
    rw [hqueue, hplace, Function.update_apply, h.queue]
    split
    · rename_i hxc
      rw [hxc, hc]
      simp
    · rfl
  · intro x sl hx
    rw [hplace, Function.update_apply] at hx
    rw [hstream]
    split at hx
    · cases hx
    · exact h.delivering hx
  · intro x sl hx
    rw [hstream] at hx
    rw [hplace, Function.update_apply, if_neg]
    · exact h.stream hx
    · rintro rfl
      rw [h.stream hx] at hc
      cases hc

/-- What an advance leaves of the laws on slots and records. -/
theorem advanced_slots (h : d.Sound) {st st' : CellState} {w : WorkState} (g : d.Advanced e c k st w)
    (hc : d.place c = some (st', some k)) (hst : st.holdsSlot = true) (hw : w ∈ st.workStates) :
    (∀ {x st sl}, e.place x = some (st, sl) → sl.isSome = st.holdsSlot)
      ∧ (∀ {j x}, e.holder j = some x ↔ ∃ st, e.place x = some (st, some j))
      ∧ (∀ {j}, e.stage j = .free ↔ e.holder j = none)
      ∧ ∀ {x st j}, e.place x = some (st, some j) → e.stage j ∈ st.workStates := by
  obtain ⟨hplace, hholder, hstage⟩ := g
  have hk := h.holder.mpr ⟨st', hc⟩
  have hne : w ≠ .free := by
    rintro rfl
    revert hw
    cases st <;> decide
  refine ⟨?_, ?_, ?_, ?_⟩
  · intro x st sl hx
    rw [hplace, Function.update_apply] at hx
    split at hx
    · cases hx
      rw [hst]
      rfl
    · exact h.slot hx
  · intro j x
    rw [hplace, hholder, Function.update_apply, h.holder]
    split
    · rename_i hx
      subst hx
      constructor
      · rintro ⟨y, hy⟩
        rw [hc] at hy
        cases hy
        exact ⟨st, rfl⟩
      · rintro ⟨y, hy⟩
        cases hy
        exact ⟨st', hc⟩
    · rfl
  · intro j
    rw [hstage, hholder, Function.update_apply]
    split
    · rename_i hj
      rw [hj, hk]
      simp [hne]
    · exact h.free
  · intro x y j hx
    rw [hplace, Function.update_apply] at hx
    rw [hstage, Function.update_apply]
    split at hx
    · cases hx
      rw [if_pos rfl]
      exact hw
    · rename_i hxc
      rw [if_neg]
      · exact h.work hx
      · rintro rfl
        exact hxc (h.cell_unique hc hx)

/-- A cell in EXPOSING, its context, and a cell of another state at its slot. -/
theorem ctx_ne (h : d.Sound) {st : CellState} (hc : d.place c = some (st, some k)) (hst : st ≠ .exposing)
    {x : CellRef} {j : SlotNo} {b : Bool} (ht : d.ctx = some (x, j, b)) : x ≠ c ∧ j ≠ k := by
  have hx := h.tried ht
  constructor
  · rintro rfl
    rw [hc] at hx
    cases hx
    exact hst rfl
  · rintro rfl
    have hxc := h.cell_unique hc hx
    subst hxc
    rw [hc] at hx
    cases hx
    exact hst rfl

/-- A captured cell is handed over to its pass. -/
theorem handedOver (h : d.Sound) {b : Bool} (g : d.Advanced e c k .finalizing .queued) (ht : d.ctx = some (c, k, b))
    (hctx : e.ctx = none) (hqueue : e.queue = d.queue) (hstream : e.stream = d.stream) : e.Sound := by
  have hc := h.tried ht
  obtain ⟨hslot, hholder, hfree, hwork⟩ := h.advanced_slots g hc rfl (by decide)
  have hplace := g.place
  refine ⟨hslot, hholder, hfree, hwork, ?_, ?_, ?_, hqueue ▸ h.nodup, ?_, ?_, ?_⟩
  · simp [hctx]
  · simp [hctx]
  · intro x sl hx
    rw [hplace, Function.update_apply] at hx
    split at hx
    · cases hx
    · rename_i hxc
      have hexp := h.exposing hx
      rw [ht] at hexp
      exact absurd (Option.some.inj hexp).symm hxc
  · intro x
    rw [hqueue, hplace, Function.update_apply, h.queue]
    split
    · rename_i hx
      simp [hx, hc]
    · rfl
  · intro x sl hx
    rw [hplace, Function.update_apply] at hx
    rw [hstream]
    split at hx
    · cases hx
    · exact h.delivering hx
  · intro x sl hx
    rw [hstream] at hx
    rw [hplace, Function.update_apply, if_neg]
    · exact h.stream hx
    · rintro rfl
      have := h.stream hx
      rw [hc] at this
      cases this

/-- A cell leaves the state it holds its slot in, other than EXPOSING, and the try goes on. -/
theorem advanced_try (h : d.Sound) {st st' : CellState} {w : WorkState} (g : d.Advanced e c k st w)
    (hc : d.place c = some (st', some k)) (hst' : st' ≠ .exposing) (hst : st ≠ .exposing) (hctx : e.ctx = d.ctx) :
    (∀ {c k b}, e.ctx = some (c, k, b) → (b = true ↔ e.stage k = .accumulating))
      ∧ (∀ {c k b}, e.ctx = some (c, k, b) → e.place c = some (.exposing, some k))
      ∧ ∀ {c sl}, e.place c = some (.exposing, sl) → e.ctx.map (·.1) = some c := by
  refine ⟨?_, ?_, ?_⟩
  · intro x j b ht
    rw [hctx] at ht
    rw [g.stage, Function.update_apply, if_neg (h.ctx_ne hc hst' ht).2]
    exact h.clear ht
  · intro x j b ht
    rw [hctx] at ht
    rw [g.place, Function.update_apply, if_neg (h.ctx_ne hc hst' ht).1]
    exact h.tried ht
  · intro x sl hx
    rw [hctx]
    rw [g.place, Function.update_apply] at hx
    split at hx
    · cases hx
      exact absurd rfl hst
    · exact h.exposing hx

/-- A pass ends: its cell is MERGED and last in the delivery queue. -/
theorem merged (h : d.Sound) (g : d.Advanced e c k .merged .coded) (hc : d.place c = some (.finalizing, some k))
    (hctx : e.ctx = d.ctx) (hqueue : e.queue = d.queue ++ [c]) (hstream : e.stream = d.stream) : e.Sound := by
  obtain ⟨hslot, hholder, hfree, hwork⟩ := h.advanced_slots g hc rfl (by decide)
  obtain ⟨hclear, htried, hexp⟩ := h.advanced_try g hc (by decide) (by decide) hctx
  have hplace := g.place
  have hnot : c ∉ d.queue := by
    rw [h.queue, hc]
    simp
  refine ⟨hslot, hholder, hfree, hwork, hclear, htried, hexp, ?_, ?_, ?_, ?_⟩
  · rw [hqueue]
    exact List.nodup_append.mpr ⟨h.nodup, List.nodup_singleton c, by
      rintro a ha b hb rfl
      exact hnot (List.mem_singleton.mp hb ▸ ha)⟩
  · intro x
    rw [hqueue, List.mem_append, List.mem_singleton, hplace, Function.update_apply, h.queue]
    split
    · rename_i hx
      simp [hx]
    · rename_i hx
      simp [hx]
  · intro x sl hx
    rw [hplace, Function.update_apply] at hx
    rw [hstream]
    split at hx
    · cases hx
    · exact h.delivering hx
  · intro x sl hx
    rw [hstream] at hx
    rw [hplace, Function.update_apply, if_neg]
    · exact h.stream hx
    · rintro rfl
      have := h.stream hx
      rw [hc] at this
      cases this

/-- A stream starts for a MERGED cell. -/
theorem streamStarted (h : d.Sound) (g : d.Advanced e c k .delivering .coded) (hc : d.place c = some (.merged, some k))
    (hctx : e.ctx = d.ctx) (hqueue : e.queue = d.queue.filter fun x => x != c) (hnone : d.stream.bind (·.1) = none)
    (hstream : e.stream = some (some c, some k)) : e.Sound := by
  obtain ⟨hslot, hholder, hfree, hwork⟩ := h.advanced_slots g hc rfl (by decide)
  obtain ⟨hclear, htried, hexp⟩ := h.advanced_try g hc (by decide) (by decide) hctx
  have hplace := g.place
  refine ⟨hslot, hholder, hfree, hwork, hclear, htried, hexp, hqueue ▸ h.nodup.filter _, ?_, ?_, ?_⟩
  · intro x
    rw [hqueue, List.mem_filter, hplace, Function.update_apply, h.queue]
    split
    · rename_i hx
      simp [hx]
    · rename_i hx
      simp [hx]
  · intro x sl hx
    rw [hplace, Function.update_apply] at hx
    rw [hstream]
    split at hx
    · rename_i hxc
      rw [hxc]
      rfl
    · have := h.delivering hx
      rw [hnone] at this
      cases this
  · intro x sl hx
    rw [hstream] at hx
    cases hx
    rw [hplace, Function.update_self]

/-- A stream ends: its cell is DELIVERED. -/
theorem streamEnded (h : d.Sound) (g : d.Advanced e c k .delivered .coded)
    (hc : d.place c = some (.delivering, some k)) (hctx : e.ctx = d.ctx) (hqueue : e.queue = d.queue)
    (hstream : e.stream = none) : e.Sound := by
  obtain ⟨hslot, hholder, hfree, hwork⟩ := h.advanced_slots g hc rfl (by decide)
  obtain ⟨hclear, htried, hexp⟩ := h.advanced_try g hc (by decide) (by decide) hctx
  have hplace := g.place
  refine ⟨hslot, hholder, hfree, hwork, hclear, htried, hexp, hqueue ▸ h.nodup, ?_, ?_, ?_⟩
  · intro x
    rw [hqueue, hplace, Function.update_apply, h.queue]
    split
    · rename_i hx
      simp [hx, hc]
    · rfl
  · intro x sl hx
    rw [hplace, Function.update_apply] at hx
    split at hx
    · cases hx
    · rename_i hxc
      have hx' := h.delivering hx
      rw [h.delivering hc] at hx'
      exact absurd (Option.some.inj hx').symm hxc
  · intro x sl hx
    rw [hstream] at hx
    cases hx

/-- A cut stream ends: no cell changes. -/
theorem unstreamed (h : d.Sound) (hnone : d.stream.bind (·.1) = none) :
    Desk.Sound { d with stream := none } := by
  refine ⟨h.slot, h.holder, h.free, h.work, h.clear, h.tried, h.exposing, h.nodup, h.queue, ?_, nofun⟩
  intro x sl hx
  have := h.delivering hx
  rw [hnone] at this
  cases this

/-- A try begins anew in its slot, or its clear is complete: only the record of the try and the context change. -/
theorem restaged (h : d.Sound) {b b' : Bool} {w : WorkState} (ht : d.ctx = some (c, k, b))
    (hw : w = if b' then .accumulating else .clearing) :
    Desk.Sound { d with stage := Function.update d.stage k w, ctx := some (c, k, b') } := by
  have hc := h.tried ht
  have hk := h.holder.mpr ⟨_, hc⟩
  refine ⟨h.slot, h.holder, ?_, ?_, ?_, ?_, ?_, h.nodup, h.queue, h.delivering, h.stream⟩
  · intro j
    dsimp only
    rw [Function.update_apply]
    split
    · rename_i hj
      rw [hj, hk, hw]
      cases b' <;> simp
    · exact h.free
  · intro x st j hx
    dsimp only
    rw [Function.update_apply]
    split
    · rename_i hj
      rw [hj] at hx
      have hxc := h.cell_unique hc hx
      rw [hxc, hc] at hx
      cases hx
      rw [hw]
      cases b' <;> decide
    · exact h.work hx
  · intro x j y hy
    cases hy
    dsimp only
    rw [Function.update_self, hw]
    cases b' <;> decide
  · intro x j y hy
    cases hy
    exact hc
  · intro x sl hx
    have hexp := h.exposing hx
    rw [ht] at hexp
    exact hexp

/-- A restart takes the DELIVERING cell back to the head of the queue. -/
theorem recalled (h : d.Sound) {cs : List CellRef} (hcs : ∀ x, x ∈ cs ↔ ∃ sl, d.place x = some (.delivering, sl))
    (hn : cs.Nodup) :
    Desk.Sound { d with
      place := fun x => (d.place x).map fun p => (if p.1 = .delivering then .merged else p.1, p.2)
      queue := cs ++ d.queue, stream := none } := by
  have hback : ∀ {x st sl}, ((d.place x).map fun p => (if p.1 = CellState.delivering then CellState.merged else p.1, p.2))
      = some (st, sl) → ∃ st', d.place x = some (st', sl)
        ∧ (st' = st ∧ st ≠ .delivering ∨ st' = .delivering ∧ st = .merged) := by
    intro x st sl hx
    obtain ⟨⟨st', sl'⟩, hd, hp⟩ := Option.map_eq_some_iff.mp hx
    cases hp
    refine ⟨st', hd, ?_⟩
    by_cases he : st' = .delivering <;> simp [he]
  refine ⟨?_, ?_, h.free, ?_, h.clear, ?_, ?_, ?_, ?_, ?_, nofun⟩
  · intro x st sl hx
    obtain ⟨st', hd, (⟨rfl, -⟩ | ⟨rfl, rfl⟩)⟩ := hback hx
    · exact h.slot hd
    · have hdelivering := h.slot hd
      exact hdelivering
  · intro j x
    rw [h.holder]
    constructor
    · rintro ⟨st, hx⟩
      exact ⟨if st = .delivering then .merged else st, by simp [hx]⟩
    · rintro ⟨st, hx⟩
      obtain ⟨st', hd, -⟩ := hback hx
      exact ⟨st', hd⟩
  · intro x st j hx
    obtain ⟨st', hd, (⟨rfl, -⟩ | ⟨rfl, rfl⟩)⟩ := hback hx
    · exact h.work hd
    · have hdelivering := h.work hd
      exact hdelivering
  · intro x j b ht
    simp [h.tried ht]
  · intro x sl hx
    obtain ⟨st', hd, (⟨rfl, -⟩ | ⟨rfl, hst⟩)⟩ := hback hx
    · exact h.exposing hd
    · cases hst
  · refine List.nodup_append.mpr ⟨hn, h.nodup, ?_⟩
    rintro a ha b hb rfl
    obtain ⟨sl, hx⟩ := (hcs a).mp ha
    obtain ⟨sl', hx'⟩ := h.queue.mp hb
    rw [hx] at hx'
    cases hx'
  · intro x
    rw [List.mem_append, hcs, h.queue]
    constructor
    · rintro (⟨sl, hx⟩ | ⟨sl, hx⟩)
      · exact ⟨sl, by simp [hx]⟩
      · exact ⟨sl, by simp [hx]⟩
    · rintro ⟨sl, hx⟩
      obtain ⟨st', hd, (⟨rfl, -⟩ | ⟨rfl, -⟩)⟩ := hback hx
      · exact .inr ⟨sl, hd⟩
      · exact .inl ⟨sl, hd⟩
  · intro x sl hx
    obtain ⟨st', -, (⟨-, hst⟩ | ⟨-, hst⟩)⟩ := hback hx
    · exact absurd rfl hst
    · cases hst

end Desk.Sound

end Sys2Proof.Machine
end

section
/-! SUPPORT. The laws on the work of cells taken apart: the desk's, and those on plates, slot tables, passes, the sequencer's
flags, the stream and the access, each with what it depends on. -/

namespace Sys2Proof.Machine

-- One proof at a time: under the memory limit of the check there is no room for the stacks of many threads.
set_option Elab.async false

/-- The desk of a state. -/
def State.desk (s : State) : Desk :=
  { place := fun c => (s.cell? c).map fun x => (x.state, x.slot)
    holder := fun k => s.fsc.holders.get k
    stage := fun k => (s.work k).state.stage
    ctx := s.csq.ctx.map fun c => (c.cell, c.slot, c.clearComplete)
    queue := s.dlt.queue
    stream := s.dlt.stream.map fun t => (t.cell, t.slot) }

/-- The held flags and the records' owners say what the holders say. -/
abbrev State.booksLaw (s : State) : Prop :=
  ∀ k : SlotNo, s.fsc.held.get k = (s.fsc.holders.get k).isSome ∧ (s.work k).owner = s.fsc.holders.get k

/-- The finalization queue holds the QUEUED and RUNNING records once each, the head alone RUNNING (R74). -/
structure Mge.Passes (m : Mge) : Prop where
  nodup : m.queue.Nodup
  mem : ∀ {k : SlotNo}, k ∈ m.queue ↔ (m.work.get k).state = .queued ∨ (m.work.get k).state = .running
  head : ∀ {k : SlotNo}, (m.work.get k).state = .running ↔ m.queue.head? = some k

/-- The sequencer's state, its context, its move and the move timer go together (R38, R43, R45). -/
structure State.Sequenced (s : State) : Prop where
  ctx : s.csq.ctx.isSome = !s.csq.state.admitsStandby
  timer : s.tbu.timers.move.isSome = true → s.csq.state = .moving
  move : s.csq.move.map (·.status) = some .moving ↔ s.csq.state = .moving
  cleared : s.csq.state = .exposing ∨ s.csq.state = .readout ∨ s.csq.state = .review →
    s.csq.ctx.map (·.clearComplete) = some true

/-- The try in flight is of the seated, ACTIVE plate (R17, R59). -/
abbrev State.seatLaw (s : State) : Prop :=
  ∀ c, s.csq.ctx = some c → ∃ r, s.plate? c.cell.key = some r ∧ r.seated = true ∧ r.state = .active

/-- The stream's parts and the unit being sent go with each other. -/
structure Dlt.Streams (d : Dlt) : Prop where
  coherent : ∀ t, d.stream = some t → t.coherent = true
  unit : ∀ u, d.link = some u → d.unitBelongs u = true

/-- The access in progress belongs to work under way. -/
abbrev State.accessLaw (s : State) : Prop := ∀ a, s.fsc.access = some a → s.accessBelongs a = true

/-- The laws on the work of cells, one by one, but for the seat of the try's plate. -/
structure State.Worked (s : State) : Prop where
  plates : s.plateLaw
  desk : s.desk.Sound
  books : s.booksLaw
  passes : s.mge.Passes
  sequenced : s.Sequenced
  streams : s.dlt.Streams
  access : s.accessLaw

/-- The laws on the work of cells, one by one. -/
structure State.Orderly (s : State) : Prop extends s.Worked where
  seated : s.seatLaw

/-! ## The laws are those of the model -/

section

variable {s : State}

theorem mem_cells_iff (hr : s.registerLaw) (hg : s.gridLaw) {p : CellRef × CellRecord} :
    p ∈ s.cells ↔ s.cell? p.1 = some p.2 := by
  rw [State.mem_cells]
  constructor
  · rintro ⟨r, hmem, hx, hp⟩
    rw [hp, State.cell?_of_plate (State.plate?_of_mem hr.2.1 hmem)]
    exact PlateRecord.cell?_of_mem (hg r hmem) hx
  · intro hx
    obtain ⟨r, hplate, hcell⟩ := Option.bind_eq_some_iff.mp hx
    obtain ⟨hcol, hrow⟩ := PlateRecord.place_of_cell? hcell
    refine ⟨r, State.mem_of_plate? hplate, List.mem_of_find?_eq_some hcell, ?_⟩
    rw [State.key_of_plate? hplate, hcol, hrow]

theorem desk_place {c : CellRef} {st : CellState} {sl : Option SlotNo} :
    s.desk.place c = some (st, sl) ↔ ∃ x, s.cell? c = some x ∧ x.state = st ∧ x.slot = sl := by
  simp [State.desk, Option.map_eq_some_iff]

theorem stage_mem (w : WorkState) (st : CellState) : w.stage ∈ st.workStates ↔ w ∈ st.workStates := by
  cases st <;> cases w <;> decide

theorem stage_eq_free {w : WorkState} : w.stage = .free ↔ w = .free := by cases w <;> decide

theorem stage_eq_accumulating {w : WorkState} : w.stage = .accumulating ↔ w = .accumulating := by cases w <;> decide

/-- The seated, ACTIVE plate of a cell of the register. -/
theorem exists_plate_of_cell {c : CellRef} {x : CellRecord} (hx : s.cell? c = some x) :
    ∃ r, s.plate? c.key = some r ∧ r.cell? c.column c.row = some x := Option.bind_eq_some_iff.mp hx

theorem State.Orderly.of_cellLaw (hr : s.registerLaw) (hg : s.gridLaw) (h : s.cellLaw) : s.Orderly := by
  obtain ⟨hplate, ⟨hslot, hheld, hholds, hholder⟩, ⟨hctx, htimer, hmove, hcleared, htry, hexp⟩,
    ⟨howner, hwork, hnodup, hpass, hhead, hclear⟩, ⟨hqn, hqueue, hmerged, hdel, hstream, hunit⟩, haccess⟩ := h
  have hplaces : ∀ c ∈ s.csq.ctx.toList, ∃ r, s.plate? c.cell.key = some r ∧ r.seated = true ∧ r.state = .active
      ∧ s.desk.place c.cell = some (.exposing, some c.slot) := by
    intro c hc
    obtain ⟨r, hmem, hkey, hseat, hact, x, hx, hcol, hrow, hst, hk⟩ := htry c hc
    have hplate := hkey ▸ State.plate?_of_mem hr.2.1 hmem
    refine ⟨r, hplate, hseat, hact, desk_place.mpr ⟨x, ?_, hst, hk⟩⟩
    rw [State.cell?_of_plate hplate, ← hcol, ← hrow]
    exact PlateRecord.cell?_of_mem (hg r hmem) hx
  have hmem : ∀ {c x}, s.cell? c = some x → (c, x) ∈ s.cells := fun hx => (mem_cells_iff hr hg).mpr hx
  have hof : ∀ {p}, p ∈ s.cells → s.cell? p.1 = some p.2 := fun hp => (mem_cells_iff hr hg).mp hp
  refine ⟨⟨hplate, ?_, fun k => ⟨hheld k, (howner k).1⟩, ⟨hnodup, hpass _, hhead _⟩, ⟨hctx, htimer, hmove, hcleared⟩,
    ⟨fun t ht => (hstream t (by simp [ht])).2, fun u hu => hunit u (by simp [hu])⟩,
    fun a ha => haccess a (by simp [ha])⟩, ?_⟩
  · refine ⟨?_, ?_, ?_, ?_, ?_, ?_, ?_, hqn, ?_, ?_, ?_⟩
    · intro c st sl hc
      obtain ⟨x, hx, rfl, rfl⟩ := desk_place.mp hc
      exact hslot _ (hmem hx)
    · intro k c
      constructor
      · intro hk
        obtain ⟨p, hp, rfl, hpk⟩ := hholder k c (by simpa [State.desk] using hk)
        exact ⟨p.2.state, desk_place.mpr ⟨p.2, hof hp, rfl, hpk⟩⟩
      · rintro ⟨st, hc⟩
        obtain ⟨x, hx, -, hk⟩ := desk_place.mp hc
        exact hholds _ (hmem hx) k (by simp [hk])
    · intro k
      exact stage_eq_free.trans (howner k).2
    · intro c st k hc
      obtain ⟨x, hx, rfl, hk⟩ := desk_place.mp hc
      exact (stage_mem _ _).mpr (hwork _ (hmem hx) k (by simp [hk]))
    · intro c k b ht
      obtain ⟨t, hctx', he⟩ := Option.map_eq_some_iff.mp ht
      cases he
      exact (hclear t (by simp [hctx'])).trans stage_eq_accumulating.symm
    · intro c k b ht
      obtain ⟨t, hctx', he⟩ := Option.map_eq_some_iff.mp ht
      cases he
      obtain ⟨r, -, -, -, hp⟩ := hplaces t (by simp [hctx'])
      exact hp
    · intro c sl hc
      obtain ⟨x, hx, hst, -⟩ := desk_place.mp hc
      have := hexp _ (hmem hx) hst
      simpa [State.desk] using this
    · intro c
      constructor
      · intro hc
        obtain ⟨p, hp, rfl, hst⟩ := hqueue c hc
        exact ⟨p.2.slot, desk_place.mpr ⟨p.2, hof hp, hst, rfl⟩⟩
      · rintro ⟨sl, hc⟩
        obtain ⟨x, hx, hst, -⟩ := desk_place.mp hc
        exact hmerged _ (hmem hx) hst
    · intro c sl hc
      obtain ⟨x, hx, hst, -⟩ := desk_place.mp hc
      have := hdel _ (hmem hx) hst
      simpa [State.desk, Option.bind_map] using this
    · intro c sl hc
      obtain ⟨t, ht, he⟩ := Option.map_eq_some_iff.mp hc
      obtain ⟨hcell, rfl⟩ := Prod.mk.inj he
      obtain ⟨p, hp, rfl, hst, hk⟩ := (hstream t (by simp [ht])).1 c (by simp [hcell])
      exact desk_place.mpr ⟨p.2, hof hp, hst, hk⟩
  · intro c hc
    obtain ⟨r, hplate, hseat, hact, -⟩ := hplaces c (by simp [hc])
    exact ⟨r, hplate, hseat, hact⟩

theorem State.Orderly.cellLaw (hr : s.registerLaw) (hg : s.gridLaw) (h : s.Orderly) : s.cellLaw := by
  obtain ⟨⟨hplates, hdesk, hbooks, hpasses, hseq, hstreams, haccess⟩, hseat⟩ := h
  have hof : ∀ {p}, p ∈ s.cells → s.cell? p.1 = some p.2 := fun hp => (mem_cells_iff hr hg).mp hp
  have hplace : ∀ {p}, p ∈ s.cells → s.desk.place p.1 = some (p.2.state, p.2.slot) :=
    fun hp => desk_place.mpr ⟨_, hof hp, rfl, rfl⟩
  have hmem : ∀ {c st sl}, s.desk.place c = some (st, sl) → ∃ p ∈ s.cells, p.1 = c ∧ p.2.state = st ∧ p.2.slot = sl := by
    intro c st sl hc
    obtain ⟨x, hx, hst, hsl⟩ := desk_place.mp hc
    exact ⟨(c, x), (mem_cells_iff hr hg).mpr hx, rfl, hst, hsl⟩
  refine ⟨hplates, ⟨?_, fun k => (hbooks k).1, ?_, ?_⟩, ⟨hseq.ctx, hseq.timer, hseq.move, hseq.cleared, ?_, ?_⟩,
    ⟨fun k => ⟨(hbooks k).2, stage_eq_free.symm.trans hdesk.free⟩, ?_, hpasses.nodup, fun k => hpasses.mem,
      fun k => hpasses.head, ?_⟩, ⟨hdesk.nodup, ?_, ?_, ?_, ?_, ?_⟩, ?_⟩
  · exact fun p hp => hdesk.slot (hplace hp)
  · intro p hp k hk
    have hk : p.2.slot = some k := by simpa using hk
    exact hdesk.holder.mpr ⟨_, by rw [hplace hp, hk]⟩
  · intro k c hc
    obtain ⟨st, hx⟩ := (hdesk.holder (k := k) (c := c)).mp (by simpa [State.desk] using hc)
    obtain ⟨p, hp, hpc, -, hpk⟩ := hmem hx
    exact ⟨p, hp, hpc, hpk⟩
  · intro c hc
    have hc : s.csq.ctx = some c := by simpa using hc
    obtain ⟨r, hplate, hs, hact⟩ := hseat c hc
    obtain ⟨x, hx, hst, hk⟩ := desk_place.mp (hdesk.tried (c := c.cell) (k := c.slot) (b := c.clearComplete)
      (by simp [State.desk, hc]))
    rw [State.cell?_of_plate hplate] at hx
    obtain ⟨hcol, hrow⟩ := PlateRecord.place_of_cell? hx
    exact ⟨r, State.mem_of_plate? hplate, State.key_of_plate? hplate, hs, hact, x, List.mem_of_find?_eq_some hx, hcol,
      hrow, hst, hk⟩
  · intro p hp hst
    have := hdesk.exposing (c := p.1) (sl := p.2.slot) (by rw [hplace hp, hst])
    simpa [State.desk] using this
  · intro p hp k hk
    have hk : p.2.slot = some k := by simpa using hk
    exact (stage_mem _ _).mp (hdesk.work (c := p.1) (by rw [hplace hp, hk]))
  · intro c hc
    have hc : s.csq.ctx = some c := by simpa using hc
    exact (hdesk.clear (c := c.cell) (k := c.slot) (b := c.clearComplete) (by simp [State.desk, hc])).trans
      stage_eq_accumulating
  · intro c hc
    obtain ⟨sl, hx⟩ := hdesk.queue.mp hc
    obtain ⟨p, hp, hpc, hst, -⟩ := hmem hx
    exact ⟨p, hp, hpc, hst⟩
  · intro p hp hst
    exact hdesk.queue.mpr ⟨p.2.slot, by rw [hplace hp, hst]⟩
  · intro p hp hst
    have := hdesk.delivering (c := p.1) (sl := p.2.slot) (by rw [hplace hp, hst])
    simpa [State.desk, Option.bind_map] using this
  · intro t ht
    have ht : s.dlt.stream = some t := by simpa using ht
    refine ⟨fun c hc => ?_, hstreams.coherent t ht⟩
    have hc : t.cell = some c := by simpa using hc
    obtain ⟨p, hp, hpc, hst, hk⟩ := hmem (hdesk.stream (c := c) (sl := t.slot) (by simp [State.desk, ht, hc]))
    exact ⟨p, hp, hpc, hst, hk⟩
  · exact fun u hu => hstreams.unit u (by simpa using hu)
  · exact fun a ha => haccess a (by simpa using ha)

end

end Sys2Proof.Machine
end

section
/-! SUPPORT. What the return of slots and the start of a pass leave of the slot tables, the work records, the finalization
queue and the access in progress (R65, R74, R139, R140). -/

namespace Sys2Proof.Machine

-- One proof at a time: under the memory limit of the check there is no room for the stacks of many threads.
set_option Elab.async false

/-- A work record's stage in a state. -/
abbrev State.stage (s : State) (k : SlotNo) : WorkState := (s.work k).state.stage

/-- Slots have been returned, and nothing else has happened to slots, records, passes and the access. -/
structure State.SlotsReturned (s t : State) (freed : SlotNo → Prop) : Prop where
  rest : ∀ k, freed k → t.fsc.holders.get k = none ∧ (t.work k).state = .free
  kept : ∀ k, ¬ freed k → t.fsc.holders.get k = s.fsc.holders.get k ∧ t.stage k = s.stage k
  books : s.booksLaw → t.booksLaw
  passes : s.mge.Passes → t.mge.Passes
  head : ∀ k, ¬ freed k → s.mge.queue.head? = some k → t.mge.queue.head? = some k
  access : ∀ a, t.fsc.access = some a → a.result = .used →
    s.fsc.access = some a ∧ ∀ k, a.work.slot? = some k → ¬ freed k

section

variable {s t u : State} {k : SlotNo}

theorem stage_eq_clearing {w : WorkState} : w.stage = .clearing ↔ w = .clearing := by cases w <;> decide

/-! ## The start of a pass -/

/-- A pass that starts leaves its record's stage and owner. -/
theorem State.startPass_record (s : State) (j : SlotNo) :
    s.startPass.stage j = s.stage j ∧ (s.startPass.work j).owner = (s.work j).owner := by
  unfold State.startPass State.stage
  split
  · exact ⟨rfl, rfl⟩
  · split
    · rename_i h
      rw [State.onWork_work]
      split
      · rename_i hj
        rw [hj, h]
        exact ⟨rfl, rfl⟩
      · exact ⟨rfl, rfl⟩
    · exact ⟨rfl, rfl⟩

/-- With the passes to come queued once each, the head's pass is started. -/
theorem State.startPass_passes (hn : s.mge.queue.Nodup)
    (hm : ∀ j : SlotNo, j ∈ s.mge.queue ↔ (s.work j).state = .queued ∨ (s.work j).state = .running)
    (hr : ∀ j : SlotNo, (s.work j).state = .running → s.mge.queue.head? = some j) : s.startPass.mge.Passes := by
  unfold State.startPass
  split
  · rename_i hq
    exact ⟨hn, hm _, fun {j} => ⟨hr j, fun h => by rw [hq] at h; cases h⟩⟩
  · rename_i i rest hq
    split
    · rename_i hi
      have hwork (j : SlotNo) : ((s.onWork i fun w =>
            { w with state := .running, rowsFinalized := 0, histogram := List.replicate 64 0, passClipLight := 0,
                     passClipDark := 0, passDead := 0 }).mge.work.get j).state
          = if j = i then .running else (s.work j).state := by
        rw [State.onWork_mge, setAt_get]
        by_cases hj : i = j
        · rw [if_pos hj, if_pos hj.symm]
        · rw [if_neg hj, if_neg (Ne.symm hj)]
          rfl
      refine ⟨hn, fun {j} => ?_, fun {j} => ?_⟩
      · rw [hwork]
        refine (hm j).trans ?_
        split
        · rename_i hj
          simp [hj, hi]
        · rfl
      · rw [hwork]
        have hhead : s.mge.queue.head? = some i := by rw [hq]; rfl
        show _ ↔ s.mge.queue.head? = some j
        rw [hhead, Option.some.injEq]
        split
        · rename_i hj
          simp [hj]
        · rename_i hj
          exact ⟨fun h => by have := hr j h; rw [hhead] at this; exact Option.some.inj this, fun h => absurd h.symm hj⟩
    · rename_i hi
      refine ⟨hn, hm _, fun {j} => ⟨hr j, fun h => ?_⟩⟩
      have hj : i = j := by rw [hq] at h; exact Option.some.inj h
      subst hj
      exact ((hm i).mp (by rw [hq]; exact List.mem_cons_self)).resolve_left hi

/-- The head of a queue from which another was taken. -/
theorem head?_filter_ne {l : List SlotNo} {j : SlotNo} (h : l.head? = some j) (hj : j ≠ k) :
    (l.filter fun i => i != k).head? = some j := by
  cases l with
  | nil => cases h
  | cons i rest =>
    cases h
    rw [List.filter_cons_of_pos (by simpa using hj)]
    rfl

/-- A record that leaves the queue for a stage without a pass, before the next pass starts. -/
theorem Mge.Passes.startPass_without (h : s.mge.Passes) (hq : t.mge.queue = s.mge.queue.filter fun j => j != k)
    (hk : (t.work k).state ≠ .queued ∧ (t.work k).state ≠ .running)
    (ho : ∀ j, j ≠ k → (t.work j).state = (s.work j).state) : t.startPass.mge.Passes := by
  refine State.startPass_passes (hq ▸ h.nodup.filter _) (fun j => ?_) fun j hj => ?_
  · rw [hq, List.mem_filter]
    by_cases hj : j = k
    · subst hj
      simp [hk]
    · rw [ho j hj]
      have hmem : j ∈ s.mge.queue ↔ (s.work j).state = .queued ∨ (s.work j).state = .running := h.mem
      simp [hmem, hj]
  · by_cases hjk : j = k
    · subst hjk
      exact absurd hj hk.2
    · rw [ho j hjk] at hj
      rw [hq]
      exact head?_filter_ne (h.head.mp hj) hjk

/-! ## Slots returned -/

theorem State.SlotsReturned.refl (s : State) : s.SlotsReturned s fun _ => False :=
  ⟨nofun, fun _ _ => ⟨rfl, rfl⟩, id, id, fun _ _ h => h, fun _ h _ => ⟨h, fun _ _ => id⟩⟩

theorem State.SlotsReturned.trans {p q : SlotNo → Prop} (h : s.SlotsReturned t p) (g : t.SlotsReturned u q) :
    s.SlotsReturned u fun k => p k ∨ q k := by
  refine ⟨fun k hk => ?_, fun k hk => ?_, g.books ∘ h.books, g.passes ∘ h.passes, fun k hk hh => ?_, fun a ha hu => ?_⟩
  · by_cases hq : q k
    · exact g.rest k hq
    · obtain ⟨hholder, hstage⟩ := g.kept k hq
      obtain ⟨hnone, hfree⟩ := h.rest k (hk.resolve_right hq)
      exact ⟨hholder.trans hnone, stage_eq_free.mp (hstage.trans (stage_eq_free.mpr hfree))⟩
  · obtain ⟨hp, hq⟩ := not_or.mp hk
    exact ⟨(g.kept k hq).1.trans (h.kept k hp).1, (g.kept k hq).2.trans (h.kept k hp).2⟩
  · obtain ⟨hp, hq⟩ := not_or.mp hk
    exact g.head k hq (h.head k hp hh)
  · obtain ⟨hat, hq⟩ := g.access a ha hu
    obtain ⟨has, hp⟩ := h.access a hat hu
    exact ⟨has, fun k hk => not_or.mpr ⟨hp k hk, hq k hk⟩⟩

theorem State.SlotsReturned.congr {p q : SlotNo → Prop} (h : s.SlotsReturned t p) (hpq : ∀ k, q k ↔ p k) :
    s.SlotsReturned t q := by
  have : q = p := funext fun k => propext (hpq k)
  rw [this]
  exact h

/-- What leaves slots, records, passes and the access as they are. -/
theorem State.SlotsReturned.of_eq (hm : t.mge = s.mge) (hh : t.fsc.holders = s.fsc.holders)
    (hd : t.fsc.held = s.fsc.held) (ha : t.fsc.access = s.fsc.access) : s.SlotsReturned t fun _ => False := by
  refine ⟨nofun, fun k _ => ⟨by rw [hh], by rw [State.stage, State.work, hm]; rfl⟩, fun hb k => ?_, fun h => hm ▸ h,
    fun k _ h => hm ▸ h, fun a h _ => ⟨ha ▸ h, fun _ _ => id⟩⟩
  rw [hd, hh, State.work, hm]
  exact hb k

theorem State.SlotsReturned.andSame {p : SlotNo → Prop} (h : s.SlotsReturned t p) (hm : u.mge = t.mge)
    (hh : u.fsc.holders = t.fsc.holders) (hd : u.fsc.held = t.fsc.held) (ha : u.fsc.access = t.fsc.access) :
    s.SlotsReturned u p :=
  (h.trans (.of_eq hm hh hd ha)).congr fun _ => (or_false _).symm.to_iff

theorem stopAccess_used {p : StoreWork → Bool} {a : Access} (h : (s.stopAccess p).fsc.access = some a)
    (hu : a.result = .used) : s.fsc.access = some a ∧ p a.work = false := by
  obtain ⟨b, hb, he⟩ := Option.map_eq_some_iff.mp h
  split at he
  · unfold Access.stop at he
    split at he
    · rw [← he] at hu
      cases hu
    · rename_i hr
      rw [he, hu] at hr
      cases hr
  · rename_i hp
    subst he
    exact ⟨hb, by simpa using hp⟩

/-- The return of a slot (R65, R139, R140). -/
theorem State.slotsReturned_returnSlot (s : State) (k : SlotNo) : s.SlotsReturned (s.returnSlot k) fun j => j = k := by
  obtain ⟨hfreed, hheld, hholders⟩ := s.returnSlot_freed k
  have hstart : ∃ x : State, s.returnSlot k = x.startPass ∧ x.mge.queue = s.mge.queue.filter (fun j => j != k)
      ∧ x.work k = WorkRecord.freed ∧ ∀ j, j ≠ k → x.work j = s.work j := by
    refine ⟨_, rfl, rfl, setAt_get_self _ _ _, fun j hj => setAt_get_ne _ _ (Ne.symm hj)⟩
  obtain ⟨x, hx, hq, hk, ho⟩ := hstart
  have hrecord (j : SlotNo) (hj : j ≠ k) : (s.returnSlot k).stage j = s.stage j
      ∧ ((s.returnSlot k).work j).owner = (s.work j).owner := by
    obtain ⟨hs, hown⟩ := x.startPass_record j
    rw [hx, hs, hown, State.stage, ho j hj]
    exact ⟨rfl, rfl⟩
  refine ⟨?_, fun j hj => ⟨?_, (hrecord j hj).1⟩, fun hb j => ?_, fun h => ?_, fun j hj hh => ?_, fun a ha hu => ?_⟩
  · rintro j rfl
    rw [hholders, setAt_get_self, hfreed]
    exact ⟨rfl, rfl⟩
  · rw [hholders, setAt_get_ne _ _ (Ne.symm hj)]
  · rw [hheld, hholders]
    by_cases hj : j = k
    · subst hj
      rw [setAt_get_self, setAt_get_self, hfreed]
      exact ⟨rfl, rfl⟩
    · rw [setAt_get_ne _ _ (Ne.symm hj), setAt_get_ne _ _ (Ne.symm hj), (hrecord j hj).2]
      exact hb j
  · rw [hx]
    exact h.startPass_without hq (by rw [hk]; exact ⟨nofun, nofun⟩) fun j hj => by rw [ho j hj]
  · rw [State.returnSlot_queue]
    exact head?_filter_ne hh hj
  · obtain ⟨y, hy, hacc⟩ : ∃ y : State, y.fsc.access = s.fsc.access
        ∧ (s.returnSlot k).fsc.access = (y.stopAccess fun w => w.slot? == some k).fsc.access :=
      ⟨s.onFsc fun f => { f with held := setAt f.held k false, holders := setAt f.holders k none }, rfl, by
        simp [State.returnSlot]⟩
    rw [hacc] at ha
    obtain ⟨has, hp⟩ := stopAccess_used ha hu
    refine ⟨hy ▸ has, ?_⟩
    rintro j hj rfl
    simp [hj] at hp

theorem State.slotsReturned_returnSlots (s : State) (ks : List SlotNo) :
    s.SlotsReturned (s.returnSlots ks) fun j => j ∈ ks := by
  induction ks generalizing s with
  | nil => exact (State.SlotsReturned.refl s).congr fun k => by simp
  | cons k ks ih =>
    exact ((s.slotsReturned_returnSlot k).trans (ih (s.returnSlot k))).congr fun j => by simp

/-- An access whose result is used goes on with its work where the slots it works on have been kept. -/
theorem State.accessLaw_of_kept {kept : SlotNo → Prop} (h : s.accessLaw)
    (ha : ∀ a, t.fsc.access = some a → a.result = .used → s.fsc.access = some a ∧ ∀ k, a.work.slot? = some k → kept k)
    (hstage : ∀ k, kept k → t.stage k = s.stage k)
    (hhead : ∀ k, kept k → s.mge.queue.head? = some k → t.mge.queue.head? = some k)
    (hd : ∀ k y, t.fsc.access = some { work := .deliver k y, result := .used } →
      (s.dlt.stream.any fun x => x.slot == some k && x.buffer == .reading && y == x.nextRow) = true →
      (t.dlt.stream.any fun x => x.slot == some k && x.buffer == .reading && y == x.nextRow) = true) : t.accessLaw := by
  intro a hat
  obtain ⟨w, r⟩ := a
  cases r with
  | unused row => cases w <;> rfl
  | used =>
    obtain ⟨has, hkept⟩ := ha _ hat rfl
    have hb := h _ has
    cases w with
    | clear k y =>
      have hstate : (s.work k).state = .clearing := by simpa [State.accessBelongs] using hb
      simpa [State.accessBelongs] using
        stage_eq_clearing.mp ((hstage k (hkept k rfl)).trans (stage_eq_clearing.mpr hstate))
    | merge k o y codes =>
      have hstate : (s.work k).state = .accumulating := by simpa [State.accessBelongs] using hb
      simpa [State.accessBelongs] using
        stage_eq_accumulating.mp ((hstage k (hkept k rfl)).trans (stage_eq_accumulating.mpr hstate))
    | finalize k y =>
      have hfirst : s.mge.queue.head? = some k := by simpa [State.accessBelongs] using hb
      simpa [State.accessBelongs] using hhead k (hkept k rfl) hfirst
    | deliver k y => exact hd k y hat hb
    | _ => rfl

theorem State.SlotsReturned.accessLaw {p : SlotNo → Prop} (h : s.SlotsReturned t p) (hs : s.accessLaw)
    (hd : ∀ k y, t.fsc.access = some { work := .deliver k y, result := .used } →
      (s.dlt.stream.any fun x => x.slot == some k && x.buffer == .reading && y == x.nextRow) = true →
      (t.dlt.stream.any fun x => x.slot == some k && x.buffer == .reading && y == x.nextRow) = true) : t.accessLaw :=
  State.accessLaw_of_kept hs h.access (fun k hk => (h.kept k hk).2) h.head hd

end

end Sys2Proof.Machine
end

section
/-! SUPPORT. What a change of one cell leaves of the desk, of the plates' law and of the seat of the try's plate (R7, R9,
R10, R12). -/

namespace Sys2Proof.Machine

-- One proof at a time: under the memory limit of the check there is no room for the stacks of many threads.
set_option Elab.async false

/-- A record whose cells may still change: neither WITHDRAWN nor complete. -/
def PlateRecord.Open (r : PlateRecord) : Prop := r.state ≠ .withdrawn ∧ r.state ≠ .done ∧ r.state ≠ .faulted

/-- The cells of a WITHDRAWN record are PENDING, KEPT or FAILED, and those of a complete one KEPT or FAILED (R10, R12). -/
abbrev PlateRecord.Lawful (r : PlateRecord) : Prop :=
  (r.state = .withdrawn → ∀ c ∈ r.cells, c.state = .pending ∨ c.state = .kept ∨ c.state = .failed)
    ∧ ((r.state = .done ∨ r.state = .faulted) → ∀ c ∈ r.cells, c.state = .kept ∨ c.state = .failed)

section

variable {r : PlateRecord}

theorem PlateRecord.Open.lawful (h : r.Open) : r.Lawful :=
  ⟨fun hw => absurd hw h.1, fun hd => hd.elim (fun h' => absurd h' h.2.1) fun h' => absurd h' h.2.2⟩

theorem PlateRecord.Open.recaptured (h : r.Open) : r.recaptured.Open := by
  unfold PlateRecord.recaptured
  split
  · split
    · exact ⟨nofun, nofun, nofun⟩
    · exact h
  · split
    · exact ⟨nofun, nofun, nofun⟩
    · split
      · exact ⟨nofun, nofun, nofun⟩
      · exact h
  · split
    · refine ⟨?_, ?_, ?_⟩ <;> (dsimp only; split <;> nofun)
    · exact h
  · exact h

theorem PlateRecord.Open.completed (h : r.Open) (now : Seconds) : (r.completed now).Lawful := by
  unfold PlateRecord.completed
  split
  · rename_i hc
    obtain ⟨-, hcomplete⟩ := hc
    refine ⟨fun hw => ?_, fun _ c hcell => ?_⟩
    · dsimp only at hw
      split at hw <;> cases hw
    · simpa [PlateRecord.complete] using List.all_eq_true.mp hcomplete c hcell
  · exact h.lawful

theorem PlateRecord.Open.settled (h : r.Open) (now : Seconds) : (r.settled now).Lawful := h.recaptured.completed now

/-- A record that is not open is settled already. -/
theorem PlateRecord.recaptured_of_not_open (h : ¬ r.Open) : r.recaptured = r := by
  unfold PlateRecord.recaptured
  split
  · rename_i hs
    exact absurd ⟨by simp [hs], by simp [hs], by simp [hs]⟩ h
  · rename_i hs
    exact absurd ⟨by simp [hs], by simp [hs], by simp [hs]⟩ h
  · rename_i hs
    exact absurd ⟨by simp [hs], by simp [hs], by simp [hs]⟩ h
  · rfl

/-- An ACTIVE plate with a cell to capture stays as it is (R9). -/
theorem PlateRecord.settled_of_capturing (hs : r.state = .active) (hc : r.captureOver = false) (now : Seconds) :
    r.settled now = r := by
  have hrecaptured : r.recaptured = r := by
    unfold PlateRecord.recaptured
    simp [hs, hc]
  unfold PlateRecord.settled PlateRecord.completed
  rw [hrecaptured, if_neg]
  rw [hs]
  simp

theorem PlateRecord.captureOver_of_exposing {x : CellRecord} (hx : x ∈ r.cells) (hst : x.state = .exposing) :
    r.captureOver = false := by
  by_contra h
  have hall := List.all_eq_true.mp (Bool.not_eq_false _ |>.mp h) x hx
  simp [hst] at hall

end

section

variable {s : State} {c : CellRef} {f : CellRecord → CellRecord} {g : PlateRecord → PlateRecord}

/-- A change of a cell of an open record keeps the plates' law. -/
theorem plateLaw_changeCellQuiet (hr : s.registerLaw) (h : s.plateLaw) (hgs : ∀ x : PlateRecord, (g x).state = x.state)
    (ho : ∀ r, s.plate? c.key = some r → r.Open) : (s.changeCellQuiet c f g).plateLaw := by
  refine List.forall_mem_map.mpr fun r hmem => ?_
  split
  · rename_i hk
    have hopen := ho r (hk ▸ State.plate?_of_mem hr.2.1 hmem)
    have hopen' : (g (r.onCell c.column c.row f)).Open := by
      unfold PlateRecord.Open
      rw [hgs]
      exact hopen
    exact hopen'.settled _
  · exact h r hmem

theorem plateLaw_changeCell (hr : s.registerLaw) (h : s.plateLaw) (hgs : ∀ x : PlateRecord, (g x).state = x.state)
    (ho : ∀ r, s.plate? c.key = some r → r.Open) : (s.changeCell c f g).plateLaw := by
  intro r hmem
  rw [changeCell_plates] at hmem
  exact plateLaw_changeCellQuiet hr h hgs ho r hmem

/-- The record of a cell that is in work is open. -/
theorem State.open_of_cell (h : s.plateLaw) {x : CellRecord} (hx : s.cell? c = some x) (hst : x.state.holdsSlot = true) :
    ∀ r, s.plate? c.key = some r → r.Open := by
  intro r hplate
  rw [State.cell?_of_plate hplate] at hx
  have hlaw := h r (State.mem_of_plate? hplate)
  have hcell := List.mem_of_find?_eq_some hx
  refine ⟨fun hw => ?_, fun hd => ?_, fun hd => ?_⟩
  · obtain h' | h' | h' := hlaw.1 hw x hcell <;> simp [h', CellState.holdsSlot] at hst
  · obtain h' | h' := hlaw.2 (.inl hd) x hcell <;> simp [h', CellState.holdsSlot] at hst
  · obtain h' | h' := hlaw.2 (.inr hd) x hcell <;> simp [h', CellState.holdsSlot] at hst

/-- The desk after a change of a cell. -/
theorem desk_changeCell (hf : InPlace f) (hg : ∀ x : PlateRecord, x.SameCells (g x)) {x : CellRecord}
    (hx : s.cell? c = some x) :
    (s.changeCell c f g).desk
      = { s.desk with place := Function.update s.desk.place c (some ((f x).state, (f x).slot)) } := by
  obtain ⟨-, -, -, -, -, hcsq, hmge, -, -, hfsc, hdlt, -⟩ := s.changeCell_frame c f g
  unfold State.desk State.work
  rw [hcsq, hmge, hfsc, hdlt]
  congr 1
  funext d
  rw [State.cell?_changeCell hf hg, Function.update_apply]
  by_cases hd : d = c
  · rw [if_pos hd, hd, hx]
    simp
  · simp [hd]

/-- The try's plate keeps its seat and its state when another cell changes. -/
theorem seatLaw_changeCell (hg : ∀ x : PlateRecord, x.SameCells (g x))
    (hgs : ∀ x : PlateRecord, (g x).state = x.state) (h : s.seatLaw) (hd : s.desk.Sound)
    (hne : ∀ t, s.csq.ctx = some t → c ≠ t.cell) : (s.changeCell c f g).seatLaw := by
  obtain ⟨-, -, -, -, -, hcsq, -⟩ := s.changeCell_frame c f g
  intro t ht
  rw [hcsq] at ht
  obtain ⟨r, hplate, hseat, hact⟩ := h t ht
  rw [State.plate?_changeCell hg, hplate, Option.map_some]
  split
  · refine ⟨_, rfl, ?_⟩
    obtain ⟨x, hx, hst, -⟩ := desk_place.mp (hd.tried (c := t.cell) (k := t.slot) (b := t.clearComplete)
      (by simp [State.desk, ht]))
    rw [State.cell?_of_plate hplate] at hx
    have hstate : (g (r.onCell c.column c.row f)).state = .active := by rw [hgs]; exact hact
    have hmem : x ∈ (g (r.onCell c.column c.row f)).cells := by
      rw [(hg _).cells]
      refine PlateRecord.mem_onCell_of_ne (List.mem_of_find?_eq_some hx) ?_
      obtain ⟨hcol, hrow⟩ := PlateRecord.place_of_cell? hx
      rw [hcol, hrow]
      rename_i hk
      intro he
      refine hne t ht ?_
      cases hc : c
      cases htc : t.cell
      simp_all
    rw [PlateRecord.settled_of_capturing hstate (PlateRecord.captureOver_of_exposing hmem hst)]
    exact ⟨(hg _).seated.trans hseat, hstate⟩
  · exact ⟨r, rfl, hseat, hact⟩

end

/-! ## Cells that lose their slots -/

section

variable {s t : State} {lose : CellRef → Prop} {freed : SlotNo → Prop}

/-- Slots returned, with the places, the context, the queue and the stream that go with it. -/
theorem Desk.Released.of_slots (h : s.SlotsReturned t freed)
    (hfreed : ∀ k, freed k ↔ ∃ c, lose c ∧ s.fsc.holders.get k = some c)
    (hkept : ∀ c, ¬ lose c → t.desk.place c = s.desk.place c)
    (hlost : ∀ c x, lose c → t.cell? c = some x → x.slot = none ∧ x.state.holdsSlot = false)
    (huntried : ∀ c, s.csq.ctx = some c → lose c.cell → t.csq.ctx = none)
    (htried : (∀ c, s.csq.ctx = some c → ¬ lose c.cell) → t.csq.ctx = s.csq.ctx)
    (hnodup : t.dlt.queue.Sublist s.dlt.queue) (hqueue : ∀ c, c ∈ t.dlt.queue ↔ c ∈ s.dlt.queue ∧ ¬ lose c)
    (hunstreamed : ∀ x c, s.dlt.stream = some x → x.cell = some c → lose c → t.dlt.stream.bind (·.cell) = none)
    (hstreamed : (∀ x c, s.dlt.stream = some x → x.cell = some c → ¬ lose c) → t.dlt.stream = s.dlt.stream) :
    s.desk.Released t.desk lose := by
  refine ⟨hkept, ?_, ?_, ?_, ?_, ?_, hnodup, hqueue, ?_, ?_⟩
  · intro c st sl hl hc
    obtain ⟨x, hx, rfl, rfl⟩ := desk_place.mp hc
    exact hlost c x hl hx
  · intro k c hk hl
    obtain ⟨hnone, hfree⟩ := h.rest k ((hfreed k).mpr ⟨c, hl, hk⟩)
    exact ⟨hnone, stage_eq_free.mpr hfree⟩
  · intro k hk
    exact h.kept k fun hf => by
      obtain ⟨c, hl, hc⟩ := (hfreed k).mp hf
      exact hk c hc hl
  · intro c k b ht hl
    obtain ⟨x, hx, he⟩ := Option.map_eq_some_iff.mp ht
    cases he
    simp [State.desk, huntried x hx hl]
  · intro hk
    have := htried fun c hc => hk c.cell c.slot c.clearComplete (by simp [State.desk, hc])
    simp [State.desk, this]
  · intro c sl ht hl
    obtain ⟨x, hx, he⟩ := Option.map_eq_some_iff.mp ht
    obtain ⟨hc, rfl⟩ := Prod.mk.inj he
    simpa [State.desk, Option.bind_map] using hunstreamed x c hx hc hl
  · intro hk
    have := hstreamed fun x c hx hc => hk c x.slot (by simp [State.desk, hx, hc])
    simp [State.desk, this]

/-- One cell that holds a slot loses it. -/
theorem Desk.Released.of_slot (hd : s.desk.Sound) {c : CellRef} {x : CellRecord} {k : SlotNo} (hx : s.cell? c = some x)
    (hk : x.slot = some k) (h : s.SlotsReturned t fun j => j = k) {y : CellState × Option SlotNo}
    (hplace : t.desk.place = Function.update s.desk.place c (some y)) (hy : y.2 = none ∧ y.1.holdsSlot = false)
    (huntried : ∀ d, s.csq.ctx = some d → d.cell = c → t.csq.ctx = none)
    (htried : (∀ d, s.csq.ctx = some d → d.cell ≠ c) → t.csq.ctx = s.csq.ctx)
    (hqueue : t.dlt.queue = s.dlt.queue.filter fun d => d != c) (hst : x.state ≠ .delivering)
    (hstream : t.dlt.stream = s.dlt.stream) : s.desk.Released t.desk fun d => d = c := by
  have hholder : s.fsc.holders.get k = some c := hd.holder.mpr ⟨x.state, desk_place.mpr ⟨x, hx, rfl, hk⟩⟩
  refine Desk.Released.of_slots h (fun j => ⟨?_, ?_⟩) (fun d hne => ?_) ?_ huntried htried (hqueue ▸ List.filter_sublist)
    (fun d => by rw [hqueue, List.mem_filter]; simp) ?_ fun _ => hstream
  · rintro rfl
    exact ⟨c, rfl, hholder⟩
  · rintro ⟨d, rfl, hj⟩
    obtain ⟨st, hp⟩ := hd.holder.mp hj
    rw [desk_place.mpr ⟨x, hx, rfl, hk⟩] at hp
    cases hp
    rfl
  · rw [hplace, Function.update_of_ne hne]
  · rintro d z rfl hz
    have := congrFun hplace d
    rw [Function.update_self] at this
    obtain ⟨z', hz', h1, h2⟩ := desk_place.mp this
    rw [hz] at hz'
    cases hz'
    rw [h1, h2]
    exact hy
  · rintro z d hz hzd rfl
    have := hd.stream (c := d) (sl := z.slot) (by simp [State.desk, hz, hzd])
    obtain ⟨x', hx', hst', -⟩ := desk_place.mp this
    rw [hx] at hx'
    cases hx'
    exact absurd hst' hst

/-- After a release the laws stand where plates, sequencer and stream are in order. -/
theorem State.Worked.released (h : s.Worked) (hslots : s.SlotsReturned t freed) (g : s.desk.Released t.desk lose)
    (hplates : t.plateLaw) (hseq : t.Sequenced) (hstreams : t.dlt.Streams)
    (hd : ∀ k y, t.fsc.access = some { work := .deliver k y, result := .used } →
      (s.dlt.stream.any fun x => x.slot == some k && x.buffer == .reading && y == x.nextRow) = true →
      (t.dlt.stream.any fun x => x.slot == some k && x.buffer == .reading && y == x.nextRow) = true) : t.Worked :=
  ⟨hplates, h.desk.released g, hslots.books h.books, hslots.passes h.passes, hseq, hstreams,
    hslots.accessLaw h.access hd⟩

end

end Sys2Proof.Machine
end

section
/-! PROOFS. The moves by which one cell loses its slot: a try abandoned, or ended at the cell's limit, and a verdict (R20,
R21, R55, R59). They keep the laws on the work of cells. -/

namespace Sys2Proof.Machine

-- One proof at a time: under the memory limit of the check there is no room for the stacks of many threads.
set_option Elab.async false

section

variable {s t : State} {c : CellRef} {x : CellRecord} {k : SlotNo} {f : CellRecord → CellRecord}
  {g : PlateRecord → PlateRecord}

/-- The desk's places are those of the plates. -/
theorem place_congr (h : t.plates = s.plates) : t.desk.place = s.desk.place := by
  simp only [State.desk, State.cell?, State.plate?, h]

theorem plate?_congr (h : t.plates = s.plates) (key : PlateKey) : t.plate? key = s.plate? key := by
  simp only [State.plate?, h]

/-- A cell that is not MERGED is not in the delivery queue. -/
theorem Desk.Sound.queue_without {d : Desk} (h : d.Sound) {st : CellState} {sl : Option SlotNo}
    (hc : d.place c = some (st, sl)) (hst : st ≠ .merged) : d.queue.filter (fun x => x != c) = d.queue := by
  refine List.filter_eq_self.mpr fun y hy => ?_
  simp only [bne_iff_ne, ne_eq]
  rintro rfl
  obtain ⟨sl', hy'⟩ := h.queue.mp hy
  rw [hc] at hy'
  cases hy'
  exact hst rfl

/-- Without a try no sequencer's state contradicts IDLE. -/
theorem State.Sequenced.of_idle (hs : t.csq.state = .idle) (hc : t.csq.ctx = none) (ht : t.tbu.timers.move = none)
    (hm : t.csq.move.map (·.status) ≠ some .moving) : t.Sequenced :=
  ⟨by rw [hs, hc]; rfl, by rw [ht]; nofun, by rw [hs]; exact ⟨fun h => absurd h hm, nofun⟩, by
    rw [hs]
    rintro (h | h | h) <;> cases h⟩

/-- Out of MOVING no move is under way. -/
theorem State.Sequenced.still (h : s.Sequenced) (hs : s.csq.state ≠ .moving) :
    s.tbu.timers.move = none ∧ s.csq.move.map (·.status) ≠ some .moving := by
  refine ⟨?_, fun hm => hs (h.move.mp hm)⟩
  cases ht : s.tbu.timers.move with
  | none => rfl
  | some n => exact absurd (h.timer (by rw [ht]; rfl)) hs

/-- The sequencer is in order whose parts stand. -/
theorem State.Sequenced.congr (h : s.Sequenced) (hc : t.csq = s.csq) (ht : t.tbu.timers.move = s.tbu.timers.move) :
    t.Sequenced := ⟨hc ▸ h.ctx, by rw [hc, ht]; exact h.timer, hc ▸ h.move, hc ▸ h.cleared⟩

theorem Dlt.Streams.congr {d e : Dlt} (h : d.Streams) (hs : e.stream = d.stream) (hl : e.link = d.link) : e.Streams := by
  refine ⟨hs ▸ h.coherent, fun u hu => ?_⟩
  have hu' := h.unit u (hl ▸ hu)
  rw [Dlt.unitBelongs, hs]
  exact hu'

/-- One cell loses its slot, which is returned. -/
theorem State.Worked.releaseCell (hr : s.registerLaw) (h : s.Worked) (hx : s.cell? c = some x) (hk : x.slot = some k)
    (hst : x.state ≠ .delivering) (hf : InPlace f) (hg : ∀ x : PlateRecord, x.SameCells (g x))
    (hgs : ∀ x : PlateRecord, (g x).state = x.state) (hy : (f x).slot = none ∧ (f x).state.holdsSlot = false)
    (hplates : t.plates = (s.changeCell c f g).plates) (hslots : s.SlotsReturned t fun j => j = k)
    (hqueue : t.dlt.queue = s.dlt.queue.filter fun d => d != c) (hstream : t.dlt.stream = s.dlt.stream)
    (hlink : t.dlt.link = s.dlt.link) (huntried : ∀ d, s.csq.ctx = some d → d.cell = c → t.csq.ctx = none)
    (htried : (∀ d, s.csq.ctx = some d → d.cell ≠ c) → t.csq.ctx = s.csq.ctx) (hseq : t.Sequenced) : t.Worked := by
  have hplace : t.desk.place = Function.update s.desk.place c (some ((f x).state, (f x).slot)) := by
    rw [place_congr hplates, desk_changeCell hf hg hx]
  have hhold : x.state.holdsSlot = true := by
    rw [← h.desk.slot (desk_place.mpr ⟨x, hx, rfl, rfl⟩), hk]
    rfl
  refine h.released hslots (Desk.Released.of_slot h.desk hx hk hslots hplace ⟨hy.1, hy.2⟩ huntried htried hqueue hst hstream)
    ?_ hseq (h.streams.congr hstream hlink) fun j y _ hd => by rw [hstream]; exact hd
  have hlaw := plateLaw_changeCell (f := f) (g := g) hr h.plates hgs (State.open_of_cell h.plates hx hhold)
  rw [State.plateLaw, hplates]
  exact hlaw

/-! ## The try -/

/-- What a change of a cell and the return of its slot leave of slots and records. -/
theorem State.slotsReturned_changeCell_returnSlot (u : State) (c : CellRef) (f : CellRecord → CellRecord)
    (g : PlateRecord → PlateRecord) (k : SlotNo) :
    u.SlotsReturned ((u.changeCell c f g).returnSlot k) fun j => j = k := by
  obtain ⟨-, -, -, -, -, -, hmge, -, -, hfsc, -⟩ := u.changeCell_frame c f g
  exact ((State.SlotsReturned.of_eq hmge (by rw [hfsc]) (by rw [hfsc]) (by rw [hfsc])).trans
    (State.slotsReturned_returnSlot _ k)).congr fun j => by simp

/-- The cell of a context, EXPOSING in its slot. -/
theorem State.Worked.cell_of_ctx (h : s.Worked) {d : TryContext} (hd : s.csq.ctx = some d) :
    ∃ x, s.cell? d.cell = some x ∧ x.state = .exposing ∧ x.slot = some d.slot :=
  desk_place.mp (h.desk.tried (c := d.cell) (k := d.slot) (b := d.clearComplete) (by simp [State.desk, hd]))

/-- A try abandoned (R59). -/
theorem State.Worked.abandonTry (hr : s.registerLaw) (h : s.Worked) : s.abandonTry.Worked := by
  cases hd : s.csq.ctx with
  | none =>
    unfold State.abandonTry
    rw [hd]
    exact h
  | some d =>
    obtain ⟨x, hx, hst, hk⟩ := h.cell_of_ctx hd
    have hplace := desk_place.mpr ⟨x, hx, hst, hk⟩
    obtain ⟨hcsq, hplates, -⟩ := State.abandonTry_state hd
    obtain ⟨htimer, -⟩ := State.abandonTry_stopped hd
    have heq := State.abandonTry_eq hd
    have hdlt : s.abandonTry.dlt = s.dlt := by
      rw [heq]
      simp only [State.clearCsq_frame, State.returnSlot_frame, State.changeCell_frame]
      rw [State.tryStopped_eq]
    have hslots : s.SlotsReturned s.abandonTry fun j => j = d.slot := by
      rw [heq]
      refine State.SlotsReturned.andSame (t := (s.tryStopped.changeCell d.cell CellRecord.abandon id).returnSlot d.slot) ?_
        rfl rfl rfl rfl
      refine ((State.SlotsReturned.of_eq (s := s) (t := s.tryStopped) ?_ ?_ ?_ ?_).trans
        (State.slotsReturned_changeCell_returnSlot _ d.cell _ _ d.slot)).congr fun j => by simp
      all_goals rw [State.tryStopped_eq]
    refine h.releaseCell hr hx hk (by rw [hst]; nofun) InPlace.abandon PlateRecord.sameCells_id (fun _ => rfl) ⟨rfl, rfl⟩
      hplates hslots ?_ (by rw [hdlt]) (by rw [hdlt]) (fun _ _ _ => by rw [hcsq]) (fun hne => absurd rfl (hne d hd)) ?_
    · rw [hdlt]
      exact (h.desk.queue_without hplace (by decide)).symm
    · by_cases hm : s.csq.state = .moving
      · obtain ⟨hstop, hmove⟩ := s.tryStopped_of_state.1 hm
        refine .of_idle (by rw [hcsq]) (by rw [hcsq]) (htimer.trans hstop) ?_
        rw [hcsq]
        dsimp only
        rw [hmove]
        cases s.csq.move <;> simp
      · obtain ⟨hstop, hmove⟩ := h.sequenced.still hm
        have hstand : s.tryStopped.tbu.timers.move = s.tbu.timers.move ∧ s.tryStopped.csq = s.csq := by
          unfold State.tryStopped
          split
          · exact absurd ‹_› hm
          all_goals exact ⟨rfl, rfl⟩
        refine .of_idle (by rw [hcsq]) (by rw [hcsq]) (htimer.trans (hstand.1.trans hstop)) ?_
        rw [hcsq]
        dsimp only
        rw [hstand.2]
        exact hmove

theorem State.abandonTry_ctx (s : State) : s.abandonTry.csq.ctx = none := by
  cases hd : s.csq.ctx with
  | none =>
    unfold State.abandonTry
    rw [hd]
    exact hd
  | some d => rw [(State.abandonTry_state hd).1]

/-- Without a try no plate need be seated. -/
theorem State.Worked.orderly (h : s.Worked) (hc : s.csq.ctx = none) : s.Orderly :=
  ⟨h, fun c hd => by rw [hc] at hd; cases hd⟩

/-- The sequencer turns to another state that begins and ends no try, no move and no exposure. -/
theorem State.Worked.turned (h : s.Worked) {a b : CsqState} (hs : s.csq.state = a) (hp : a.Passes b) :
    (s.setCsq b).Worked := by
  obtain ⟨hadmits, ha, hb, hexp⟩ := hp
  refine ⟨h.plates, h.desk, h.books, h.passes, ⟨?_, ?_, ?_, ?_⟩, h.streams, h.access⟩
  · exact h.sequenced.ctx.trans (by rw [hs, ← hadmits]; rfl)
  · exact fun ht => absurd (hs ▸ h.sequenced.timer ht) ha
  · exact ⟨fun hm => absurd (hs ▸ h.sequenced.move.mp hm) ha, fun hm => absurd hm hb⟩
  · exact fun hx => h.sequenced.cleared (by rw [hs]; exact hexp hx)

theorem State.Worked.leaveCapture (hr : s.registerLaw) (h : s.Worked) :
    s.leaveCapture.Worked ∧ s.leaveCapture.csq.ctx = none := by
  unfold State.leaveCapture
  split
  · exact ⟨h.abandonTry hr, s.abandonTry_ctx⟩
  · rename_i hc
    split
    · rename_i hs
      exact ⟨h.turned hs (by decide), hc⟩
    · rename_i hs
      exact ⟨h.turned hs (by decide), hc⟩
    · exact ⟨h, hc⟩

/-- The try of a plate is left; the plate's cells hold no try. -/
theorem State.Worked.leaveCaptureOf (hr : s.registerLaw) (h : s.Worked) (key : PlateKey) :
    (s.leaveCaptureOf key).Worked ∧ ((s.leaveCaptureOf key) = s ∧ (∀ c, s.csq.ctx = some c → c.cell.key ≠ key)
      ∨ (s.leaveCaptureOf key).csq.ctx = none) := by
  unfold State.leaveCaptureOf
  split
  · rename_i c hc
    split
    · exact ⟨(h.leaveCapture hr).1, .inr (h.leaveCapture hr).2⟩
    · rename_i hk
      exact ⟨h, .inl ⟨rfl, fun d hd => by rw [hc] at hd; cases hd; exact hk⟩⟩
  · exact ⟨(h.leaveCapture hr).1, .inr (h.leaveCapture hr).2⟩

end

end Sys2Proof.Machine
end

section
/-! PROOFS. The verdicts, and the moves by which a try begins, begins anew, ends or is handed over (R17, R19, R21, R51 to
R56, R59). They keep the laws on the work of cells. -/

namespace Sys2Proof.Machine

-- One proof at a time: under the memory limit of the check there is no room for the stacks of many threads.
set_option Elab.async false

section

variable {s t : State} {c : CellRef} {x : CellRecord} {k : SlotNo} {f : CellRecord → CellRecord}
  {g : PlateRecord → PlateRecord} {r : PlateRecord}

theorem State.seatLaw_congr (h : s.seatLaw) (hp : t.plates = s.plates) (hc : t.csq.ctx = s.csq.ctx) : t.seatLaw := by
  intro d hd
  rw [plate?_congr hp]
  exact h d (hc ▸ hd)

/-! ## The verdicts -/

/-- A cell out of the try loses its slot, which is returned; the try goes on. -/
theorem State.Orderly.releaseCell (hr : s.registerLaw) (h : s.Orderly) (hx : s.cell? c = some x) (hk : x.slot = some k)
    (hst : x.state = .merged ∨ x.state = .delivered) (hf : InPlace f) (hg : ∀ x : PlateRecord, x.SameCells (g x))
    (hgs : ∀ x : PlateRecord, (g x).state = x.state) (hy : (f x).slot = none ∧ (f x).state.holdsSlot = false)
    (hplates : t.plates = (s.changeCell c f g).plates) (hslots : s.SlotsReturned t fun j => j = k)
    (hqueue : t.dlt.queue = s.dlt.queue.filter fun d => d != c) (hstream : t.dlt.stream = s.dlt.stream)
    (hlink : t.dlt.link = s.dlt.link) (hcsq : t.csq = s.csq) (htimer : t.tbu.timers.move = s.tbu.timers.move) :
    t.Orderly := by
  have hne : ∀ d, s.csq.ctx = some d → c ≠ d.cell := by
    rintro d hd rfl
    obtain ⟨y, hy, hexp, -⟩ := h.cell_of_ctx hd
    rw [hx] at hy
    cases hy
    rw [hexp] at hst
    obtain hst | hst := hst <;> cases hst
  refine ⟨h.toWorked.releaseCell hr hx hk ?_ hf hg hgs hy hplates hslots hqueue hstream hlink
    (fun d hd he => absurd he.symm (hne d hd)) (fun _ => by rw [hcsq]) (h.sequenced.congr hcsq htimer), ?_⟩
  · obtain hst | hst := hst <;> rw [hst] <;> nofun
  · refine State.seatLaw_congr (s := s.changeCell c f g) (seatLaw_changeCell hg hgs h.seated h.desk hne) hplates ?_
    obtain ⟨-, -, -, -, -, hkeep, -⟩ := s.changeCell_frame c f g
    rw [hcsq, hkeep]

theorem State.cell?_of_record (hr : s.plate? r.key = some r) (hx : r.cell? x.column x.row = some x) :
    s.cell? ⟨r.key, x.column, x.row⟩ = some x := by
  rw [State.cell?_of_plate (c := ⟨r.key, x.column, x.row⟩) hr]
  exact hx

/-- A cell in work has a slot. -/
theorem State.Worked.slot_of_cell (h : s.Worked) (hx : s.cell? c = some x) (hst : x.state.holdsSlot = true) :
    ∃ k, x.slot = some k := by
  have := h.desk.slot (desk_place.mpr ⟨x, hx, rfl, rfl⟩)
  rw [hst] at this
  exact Option.isSome_iff_exists.mp this

/-- KEEP of a DELIVERED cell. -/
theorem State.Orderly.keep (hreg : s.registerLaw) (h : s.Orderly) (hr : s.plate? r.key = some r)
    (hx : r.cell? x.column x.row = some x) (hd : x.state = .delivered) :
    ((s.changeCell ⟨r.key, x.column, x.row⟩ (fun c => { c with state := .kept, slot := none })
      fun p => { p with kept := p.kept + 1 }).returnCellSlot x).Orderly := by
  have hcell := State.cell?_of_record hr hx
  obtain ⟨k, hk⟩ := h.slot_of_cell hcell (by rw [hd]; rfl)
  rw [State.returnCellSlot_some _ hk]
  have htimer := (s.changeCell_timers ⟨r.key, x.column, x.row⟩ (fun c => { c with state := .kept, slot := none })
    fun p => { p with kept := p.kept + 1 }).1
  refine h.releaseCell hreg hcell hk (.inr hd) (f := fun c => { c with state := .kept, slot := none })
    (g := fun p => { p with kept := p.kept + 1 }) (fun _ => ⟨rfl, rfl⟩) PlateRecord.sameCells_kept (fun _ => rfl)
    ⟨rfl, rfl⟩ (by simp) (State.slotsReturned_changeCell_returnSlot _ _ _ _ k) ?_ (by simp) (by simp) (by simp)
    (by simpa using htimer)
  simp only [State.returnSlot_frame, State.changeCell_frame]
  exact (h.desk.queue_without (desk_place.mpr ⟨x, hcell, hd, hk⟩) (by decide)).symm

/-- RECAPTURE of a MERGED or DELIVERED cell, to PENDING or FAILED. -/
theorem State.Orderly.recapture (hreg : s.registerLaw) (h : s.Orderly) (hr : s.plate? r.key = some r)
    (hx : r.cell? x.column x.row = some x) (hd : x.state = .merged ∨ x.state = .delivered)
    (hf : InPlace f) (hg : ∀ x : PlateRecord, x.SameCells (g x)) (hgs : ∀ x : PlateRecord, (g x).state = x.state)
    (hy : (f x).slot = none ∧ (f x).state.holdsSlot = false) :
    (((s.changeCell ⟨r.key, x.column, x.row⟩ f g).dequeue ⟨r.key, x.column, x.row⟩).returnCellSlot x).Orderly := by
  have hcell := State.cell?_of_record hr hx
  obtain ⟨k, hk⟩ := h.slot_of_cell hcell (by obtain hd | hd := hd <;> rw [hd] <;> rfl)
  rw [State.returnCellSlot_some _ hk]
  have htimer := (s.changeCell_timers ⟨r.key, x.column, x.row⟩ f g).1
  have hslots : s.SlotsReturned (((s.changeCell ⟨r.key, x.column, x.row⟩ f g).dequeue ⟨r.key, x.column, x.row⟩).returnSlot
      k) fun j => j = k := by
    obtain ⟨-, -, -, -, -, -, hmge, -, -, hfsc, -⟩ := s.changeCell_frame ⟨r.key, x.column, x.row⟩ f g
    refine ((State.SlotsReturned.of_eq ?_ ?_ ?_ ?_).trans (State.slotsReturned_returnSlot _ k)).congr fun j => by simp
    all_goals simp [State.dequeue]
  exact h.releaseCell hreg hcell hk hd (f := f) (g := g) hf hg hgs hy (by simp [State.dequeue]) hslots
    (by simp [State.dequeue]) (by simp [State.dequeue]) (by simp [State.dequeue]) (by simp [State.dequeue])
    (by simpa [State.dequeue] using htimer)

/-! ## A try's end -/

/-- The cell under review, EXPOSING in the context's slot; its record accumulates, and no row of it is being merged. -/
theorem State.Worked.reviewed (h : s.Worked) {d : TryContext} (hd : s.Reviews d) :
    ∃ y x, s.csq.ctx = some y ∧ y.cell = d.cell ∧ y.slot = d.slot ∧ y.clearComplete = true ∧ s.cell? d.cell = some x
      ∧ x.state = .exposing ∧ x.slot = some d.slot ∧ (s.work d.slot).state = .accumulating := by
  obtain ⟨hstate, ⟨y, hy, hcell, hslot⟩, -⟩ := hd
  obtain ⟨x, hx, hst, hk⟩ := h.cell_of_ctx hy
  have hclear := h.sequenced.cleared (.inr (.inr hstate))
  rw [hy] at hclear
  have hclear : y.clearComplete = true := Option.some.inj hclear
  have hstage := (h.desk.clear (c := y.cell) (k := y.slot) (b := y.clearComplete) (by simp [State.desk, hy])).mp hclear
  exact ⟨y, x, hy, hcell, hslot, hclear, hcell ▸ hx, hst, hslot ▸ hk, hslot ▸ stage_eq_accumulating.mp hstage⟩

/-- The record of a slot that an access works on. -/
theorem State.Worked.accessed (h : s.Worked) {a : Access} (ha : s.fsc.access = some a) (hu : a.result = .used)
    (hk : a.work.slot? = some k) : (a.work.isMerge = true ∧ (s.work k).state = .accumulating)
      ∨ (s.work k).state = .clearing ∨ (s.work k).state = .running ∨ (s.work k).state = .coded := by
  have hb := h.access a ha
  obtain ⟨w, res⟩ := a
  dsimp only at hu
  subst hu
  cases w with
  | clear j y =>
    cases hk
    exact .inr (.inl (by simpa [State.accessBelongs] using hb))
  | merge j o y codes =>
    cases hk
    exact .inl ⟨rfl, by simpa [State.accessBelongs] using hb⟩
  | finalize j y =>
    cases hk
    have hrun := h.passes.head.mpr (by simpa [State.accessBelongs] using hb)
    exact .inr (.inr (.inl hrun))
  | deliver j y =>
    cases hk
    obtain ⟨z, hz, hany⟩ := (Option.any_eq_true _ _).mp (by simpa [State.accessBelongs] using hb)
    simp only [Bool.and_eq_true, beq_iff_eq] at hany
    obtain ⟨⟨hzk, -⟩, -⟩ := hany
    cases hzc : z.cell with
    | none =>
      have hco := h.streams.coherent z hz
      rw [Stream.coherent, hzc, hzk] at hco
      cases hcut : z.cut <;> simp [hcut] at hco
    | some e =>
      have hplace := h.desk.stream (c := e) (sl := z.slot) (by simp [State.desk, hz, hzc])
      rw [hzk] at hplace
      have hstage := h.desk.work hplace
      have hcoded := (stage_mem _ _).mp hstage
      exact .inr (.inr (.inr (by simpa [CellState.workStates] using hcoded)))
  | _ => cases hk

/-- In a review no access works on the slot of the try. -/
theorem State.Worked.unaccessed (h : s.Worked) {d : TryContext} (hd : s.Reviews d) {a : Access}
    (ha : s.fsc.access = some a) (hu : a.result = .used) : a.work.slot? ≠ some d.slot := by
  obtain ⟨-, -, -, -, -, -, -, -, -, hacc⟩ := h.reviewed hd
  intro hslot
  obtain ⟨hm, -⟩ | h' | h' | h' := h.accessed ha hu hslot
  · have hbusy := hd.merged
    rw [State.busyWith, ha] at hbusy
    simp [hu, hm] at hbusy
  all_goals rw [hacc] at h'; cases h'

/-- A try's work is left alone by what changes its slot's record and the queue's end alone. -/
theorem State.Worked.accessLaw_beside (h : s.Worked) (ha : t.fsc.access = s.fsc.access)
    (hk : ∀ a, s.fsc.access = some a → a.result = .used → a.work.slot? ≠ some k)
    (hstage : ∀ j, j ≠ k → t.stage j = s.stage j)
    (hhead : ∀ j, s.mge.queue.head? = some j → t.mge.queue.head? = some j) (hs : t.dlt.stream = s.dlt.stream) :
    t.accessLaw :=
  State.accessLaw_of_kept (kept := fun j => j ≠ k) h.access
    (fun a hat hu => ⟨ha ▸ hat, fun j hj he => hk a (ha ▸ hat) hu (he ▸ hj)⟩) hstage (fun j _ => hhead j)
    fun _ _ _ hd => by rw [hs]; exact hd

/-- The desk of a state whose cell keeps its state and slot. -/
theorem desk_changeCell_same (hf : InPlace f) (hg : ∀ x : PlateRecord, x.SameCells (g x)) (hx : s.cell? c = some x)
    (hs : (f x).state = x.state) (hk : (f x).slot = x.slot) : (s.changeCell c f g).desk = s.desk := by
  rw [desk_changeCell hf hg hx, hs, hk, Function.update_eq_self_iff.mpr]
  exact (desk_place.mpr ⟨x, hx, rfl, rfl⟩).symm

/-- A record that is neither QUEUED nor RUNNING, before and after. -/
theorem Mge.Passes.beside (h : s.mge.Passes) (hq : t.mge.queue = s.mge.queue)
    (ho : ∀ j, j ≠ k → (t.work j).state = (s.work j).state)
    (hk : (s.work k).state ≠ .queued ∧ (s.work k).state ≠ .running)
    (hk' : (t.work k).state ≠ .queued ∧ (t.work k).state ≠ .running) : t.mge.Passes := by
  have hmem (j : SlotNo) : j ∈ s.mge.queue ↔ (s.work j).state = .queued ∨ (s.work j).state = .running := h.mem
  have hhead (j : SlotNo) : (s.work j).state = .running ↔ s.mge.queue.head? = some j := h.head
  refine ⟨hq ▸ h.nodup, fun {j} => ?_, fun {j} => ?_⟩
  · change j ∈ t.mge.queue ↔ (t.work j).state = .queued ∨ (t.work j).state = .running
    rw [hq, hmem]
    by_cases hj : j = k
    · subst hj
      simp [hk, hk']
    · rw [ho j hj]
  · change (t.work j).state = .running ↔ t.mge.queue.head? = some j
    rw [hq, ← hhead]
    by_cases hj : j = k
    · subst hj
      simp [hk, hk']
    · rw [ho j hj]

/-- A try that ends at its cell's limit. -/
theorem State.Worked.tryOver (hr : s.registerLaw) (h : s.Worked) {d : TryContext} (hd : s.Reviews d)
    (hf : InPlace f) (hg : ∀ x : PlateRecord, x.SameCells (g x)) (hgs : ∀ x : PlateRecord, (g x).state = x.state)
    (hy : ∀ x, (f x).slot = none ∧ (f x).state.holdsSlot = false) :
    (((s.changeCell d.cell f g).returnSlot d.slot).clearCsq).Orderly := by
  obtain ⟨y, x, hctx, hcell, -, -, hx, hst, hk, -⟩ := h.reviewed hd
  obtain ⟨htimer, hmove⟩ := h.sequenced.still (by rw [hd.state]; nofun)
  have hkeep := (s.changeCell_timers d.cell f g).1
  refine State.Worked.orderly ?_ rfl
  refine h.releaseCell hr hx hk (by rw [hst]; nofun) hf hg hgs (hy x) (by simp)
    (State.SlotsReturned.andSame (State.slotsReturned_changeCell_returnSlot s d.cell f g d.slot) rfl rfl rfl rfl)
    ?_ (by simp) (by simp) (fun _ _ _ => rfl) (fun hne => absurd hcell (hne y hctx)) ?_
  · simp only [State.clearCsq_frame, State.returnSlot_frame, State.changeCell_frame]
    exact (h.desk.queue_without (desk_place.mpr ⟨x, hx, hst, hk⟩) (by decide)).symm
  · refine .of_idle rfl rfl ?_ ?_
    · simp only [State.clearCsq_frame, State.returnSlot_frame]
      exact hkeep.trans htimer
    · simpa [State.clearCsq] using hmove

/-- A try that begins anew in its slot. -/
theorem State.Orderly.tryAnew (hr : s.registerLaw) (h : s.Orderly) {d : TryContext} (hd : s.Reviews d)
    (hf : InPlace f) (hfs : ∀ x, (f x).state = x.state) (hfk : ∀ x, (f x).slot = x.slot) (r : PlateRecord) :
    (((s.changeCell d.cell f id).beginTry r d.cell d.slot).setCsq .awaitLamp).Orderly := by
  obtain ⟨y, x, hctx, hcell, hslot, -, hx, hst, hk, hacc⟩ := h.reviewed hd
  obtain ⟨htimer, hmove⟩ := h.sequenced.still (by rw [hd.state]; nofun)
  have hkeep := (s.changeCell_timers d.cell f id).1
  obtain ⟨-, -, -, -, -, hcsq, hmge, -, -, hfsc, hdlt, -⟩ := s.changeCell_frame d.cell f id
  obtain ⟨u, hu⟩ : ∃ u, u = s.changeCell d.cell f id := ⟨_, rfl⟩
  obtain ⟨t, ht⟩ : ∃ t, t = (u.beginTry r d.cell d.slot).setCsq .awaitLamp := ⟨_, rfl⟩
  have hdesk : u.desk = s.desk := hu ▸ desk_changeCell_same hf PlateRecord.sameCells_id hx (hfs x) (hfk x)
  rw [← hu] at hkeep hcsq hmge hfsc hdlt ⊢
  rw [← ht]
  have hown : t.work d.slot = { WorkRecord.freed with
      state := .clearing, owner := some d.cell, satThreshold := (u.freshContext r d.cell d.slot).satThreshold
      noiseFloor := (u.freshContext r d.cell d.slot).noiseFloor } := by
    rw [ht]
    exact State.beginTry_work u r d.cell d.slot
  have hothers (j : SlotNo) (hj : j ≠ d.slot) : t.work j = s.work j := by
    rw [ht, State.work, State.work, ← hmge]
    exact setAt_get_ne _ _ (Ne.symm hj)
  have hplates : t.plates = u.plates := by rw [ht]; rfl
  have htfsc : t.fsc = s.fsc := by rw [ht, ← hfsc]; rfl
  have htdlt : t.dlt = s.dlt := by rw [ht, ← hdlt]; rfl
  have htqueue : t.mge.queue = s.mge.queue := by rw [ht, ← hmge]; rfl
  have htctx : t.csq.ctx = some (u.freshContext r d.cell d.slot) := by rw [ht]; rfl
  have htdesk : t.desk = { s.desk with
      stage := Function.update s.desk.stage d.slot .clearing, ctx := some (d.cell, d.slot, false) } := by
    have hplace : t.desk.place = s.desk.place := (place_congr hplates).trans (congrArg Desk.place hdesk)
    have hstage : t.desk.stage = Function.update s.desk.stage d.slot .clearing := by
      funext j
      rw [Function.update_apply]
      split
      · rename_i hj
        rw [hj]
        change (t.work d.slot).state.stage = _
        rw [hown]
        rfl
      · rename_i hj
        change (t.work j).state.stage = _
        rw [hothers j hj]
        rfl
    have hctx : t.desk.ctx = some (d.cell, d.slot, false) := by
      change t.csq.ctx.map _ = _
      rw [htctx]
      rfl
    calc t.desk = ⟨t.desk.place, t.desk.holder, t.desk.stage, t.desk.ctx, t.desk.queue, t.desk.stream⟩ := rfl
      _ = _ := by
        rw [hplace, hstage, hctx]
        simp only [State.desk, htfsc, htdlt]
  refine ⟨⟨?_, ?_, fun j => ?_, ?_, ⟨?_, ?_, ?_, ?_⟩, htdlt ▸ h.streams, ?_⟩, ?_⟩
  · rw [State.plateLaw, hplates, hu]
    exact plateLaw_changeCell hr h.plates (fun _ => rfl) (State.open_of_cell h.plates hx (by rw [hst]; rfl))
  · rw [htdesk]
    exact h.desk.restaged (b := y.clearComplete) (b' := false) (by simp [State.desk, hctx, hcell, hslot]) rfl
  · rw [htfsc]
    by_cases hj : j = d.slot
    · subst hj
      rw [hown]
      exact ⟨(h.books _).1, (h.desk.holder.mpr ⟨_, desk_place.mpr ⟨x, hx, hst, hk⟩⟩).symm⟩
    · rw [hothers j hj]
      exact h.books j
  · exact h.passes.beside (k := d.slot) htqueue (fun j hj => by rw [hothers j hj]) (by rw [hacc]; exact ⟨nofun, nofun⟩)
      (by rw [hown]; exact ⟨nofun, nofun⟩)
  · rw [htctx, ht]
    rfl
  · have : t.tbu.timers.move = none := by rw [ht]; exact hkeep.trans htimer
    rw [this]
    nofun
  · have : t.csq.move = s.csq.move := by rw [ht, ← hcsq]; rfl
    rw [this, ht]
    exact ⟨fun hm => absurd hm hmove, nofun⟩
  · rw [ht]
    rintro (h' | h' | h') <;> cases h'
  · exact h.accessLaw_beside (k := d.slot) (by rw [htfsc]) (fun a ha hu' => h.unaccessed hd ha hu')
      (fun j hj => by rw [State.stage, hothers j hj]) (fun j hj => htqueue ▸ hj) (by rw [htdlt])
  · intro e he
    rw [htctx] at he
    cases he
    obtain ⟨q, hq, hseat, hact⟩ := h.seated y hctx
    change ∃ q, t.plate? d.cell.key = some q ∧ q.seated = true ∧ q.state = .active
    rw [plate?_congr hplates, hu, State.plate?_changeCell PlateRecord.sameCells_id, ← hcell, hq, Option.map_some,
      if_pos rfl]
    refine ⟨_, rfl, ?_⟩
    have hover : (id (q.onCell y.cell.column y.cell.row f)).captureOver = false := by
      rw [State.cell?_of_plate (hcell ▸ hq)] at hx
      obtain ⟨hcol, hrow⟩ := PlateRecord.place_of_cell? hx
      refine PlateRecord.captureOver_of_exposing (x := f x)
        (PlateRecord.mem_onCell.mpr ⟨x, List.mem_of_find?_eq_some hx, ?_⟩) ((hfs x).trans hst)
      rw [hcell, if_pos ⟨hcol, hrow⟩]
    rw [PlateRecord.settled_of_capturing (r := id (q.onCell y.cell.column y.cell.row f)) hact hover]
    exact ⟨hseat, hact⟩

end

end Sys2Proof.Machine
end

section
/-! PROOFS. The moves by which a cell takes a slot or goes on in it: the claim, the hand-over to the pass, and the try that
ends in a review (R17, R42, R43, R53, R55). They keep the laws on the work of cells. -/

namespace Sys2Proof.Machine

-- One proof at a time: under the memory limit of the check there is no room for the stacks of many threads.
set_option Elab.async false

section

variable {s t : State} {c : CellRef} {x : CellRecord} {k : SlotNo} {r : PlateRecord}

/-- A review that ends a try. -/
theorem State.Orderly.endTry (hr : s.registerLaw) (h : s.Orderly) {d : TryContext} (hd : s.Reviews d) (o : LastOutcome) :
    (s.endTry d o).Orderly := by
  obtain ⟨-, x, -, -, -, -, hx, -⟩ := h.reviewed hd
  obtain ⟨r, hplate, -⟩ := exists_plate_of_cell hx
  by_cases hl : x.triesUsed + 1 < s.tryLimit r
  · rw [State.endTry_below hplate hx hl]
    exact h.tryAnew hr hd (f := CellRecord.tried o) (fun _ => ⟨rfl, rfl⟩) (fun _ => rfl) (fun _ => rfl) r
  · rw [State.endTry_atLimit hplate hx (Nat.not_lt.mp hl)]
    exact h.toWorked.tryOver hr hd (f := CellRecord.failedAt o) (fun _ => ⟨rfl, rfl⟩) PlateRecord.sameCells_failed (fun _ => rfl) fun _ => ⟨rfl, rfl⟩

/-- A record made QUEUED, with its density ceiling. -/
def WorkRecord.queuedWith (n : Nat) (w : WorkRecord) : WorkRecord := { w with state := .queued, qceil := some n }

/-- A pass at the end of the finalization queue, before the head's pass starts. -/
def State.passQueued (s : State) (k : SlotNo) (n : Nat) : State :=
  (s.onWork k (WorkRecord.queuedWith n)).onMge fun m => { m with queue := m.queue ++ [k] }

theorem State.queuePass_eq (s : State) (k : SlotNo) (n : Nat) : s.queuePass k n = (s.passQueued k n).startPass := rfl

theorem State.passQueued_work (s : State) (k : SlotNo) (n : Nat) (j : SlotNo) :
    (s.passQueued k n).work j = if j = k then (s.work k).queuedWith n else s.work j := by
  change (s.onWork k (WorkRecord.queuedWith n)).work j = _
  exact State.onWork_work _ j

/-- A pass that joins the finalization queue, and starts where it is alone. -/
theorem State.queuePass_records (s : State) (k : SlotNo) (n : Nat) :
    (s.queuePass k n).mge.queue = s.mge.queue ++ [k]
      ∧ (∀ j, j ≠ k → (s.queuePass k n).stage j = s.stage j ∧ ((s.queuePass k n).work j).owner = (s.work j).owner)
      ∧ (s.queuePass k n).stage k = .queued ∧ ((s.queuePass k n).work k).owner = (s.work k).owner := by
  have hq : (s.passQueued k n).mge.queue = s.mge.queue ++ [k] := rfl
  have hwork := s.passQueued_work k n
  rw [State.queuePass_eq]
  refine ⟨by simpa using hq, fun j hj => ?_, ?_, ?_⟩
  · obtain ⟨hs, ho⟩ := (s.passQueued k n).startPass_record j
    rw [hs, ho, State.stage, hwork, if_neg hj]
    exact ⟨rfl, rfl⟩
  · rw [((s.passQueued k n).startPass_record k).1, State.stage, hwork, if_pos rfl]
    rfl
  · rw [((s.passQueued k n).startPass_record k).2, hwork, if_pos rfl]
    rfl

theorem State.queuePass_passes (h : s.mge.Passes) (hk : (s.work k).state ≠ .queued ∧ (s.work k).state ≠ .running)
    (n : Nat) : (s.queuePass k n).mge.Passes := by
  have hmem (j : SlotNo) : j ∈ s.mge.queue ↔ (s.work j).state = .queued ∨ (s.work j).state = .running := h.mem
  have hnot : k ∉ s.mge.queue := by simp [hmem, hk]
  have hq : (s.passQueued k n).mge.queue = s.mge.queue ++ [k] := rfl
  have hwork := s.passQueued_work k n
  rw [State.queuePass_eq]
  refine State.startPass_passes ?_ (fun j => ?_) fun j hj => ?_
  · rw [hq]
    exact List.nodup_append.mpr ⟨h.nodup, List.nodup_singleton k, by
      rintro a ha b hb rfl
      exact hnot (List.mem_singleton.mp hb ▸ ha)⟩
  · rw [hq, List.mem_append, List.mem_singleton, hwork]
    split
    · rename_i hj
      simp [hj, WorkRecord.queuedWith]
    · rename_i hj
      rw [hmem]
      simp [hj]
  · rw [hwork] at hj
    split at hj
    · cases hj
    · have hhead : s.mge.queue.head? = some j := h.head.mp hj
      rw [hq, List.head?_append, hhead]
      rfl

/-- The hand-over of a captured cell. -/
theorem State.Orderly.handOver (hr : s.registerLaw) (h : s.Orderly) {d : TryContext} (hd : s.Reviews d) :
    (s.handOver d).Orderly := by
  obtain ⟨y, x, hctx, hcell, hslot, -, hx, hst, hk, hacc⟩ := h.reviewed hd
  obtain ⟨htimer, hmove⟩ := h.sequenced.still (by rw [hd.state]; nofun)
  have hkeep := (s.changeCell_timers d.cell (fun x => { x with state := .finalizing }) id).1
  obtain ⟨-, -, -, -, -, hcsq, hmge, -, -, hfsc, hdlt, -⟩ :=
    s.changeCell_frame d.cell (fun x => { x with state := .finalizing }) id
  obtain ⟨u, hu⟩ : ∃ u, u = s.changeCell d.cell (fun x => { x with state := .finalizing }) id := ⟨_, rfl⟩
  have hplace : u.desk.place = Function.update s.desk.place d.cell (some (.finalizing, some d.slot)) := by
    rw [hu, desk_changeCell (f := fun x => { x with state := .finalizing }) (fun _ => ⟨rfl, rfl⟩)
      PlateRecord.sameCells_id hx, ← hk]
  have hulaw : u.plateLaw := hu ▸ plateLaw_changeCell hr h.plates (fun _ => rfl)
    (State.open_of_cell h.plates hx (by rw [hst]; rfl))
  have huwork (j : SlotNo) : u.work j = s.work j := by rw [hu, State.work, State.work, hmge]
  obtain ⟨n, hn⟩ : ∃ n, s.handOver d = (u.queuePass d.slot n).clearCsq := ⟨_, by rw [hu]; rfl⟩
  rw [← hu] at hkeep hcsq hmge hfsc hdlt
  rw [hn]
  obtain ⟨hqueue, hothers, hown, howner⟩ := u.queuePass_records d.slot n
  have hpasses : (u.queuePass d.slot n).mge.Passes :=
    State.queuePass_passes (hmge ▸ h.passes) (by rw [huwork, hacc]; exact ⟨nofun, nofun⟩) n
  obtain ⟨t, ht⟩ : ∃ t, t = (u.queuePass d.slot n).clearCsq := ⟨_, rfl⟩
  rw [← ht]
  have htmge : t.mge = (u.queuePass d.slot n).mge := by rw [ht]; rfl
  have htfsc : t.fsc = s.fsc := by rw [ht, ← hfsc]; simp
  have htdlt : t.dlt = s.dlt := by rw [ht, ← hdlt]; simp
  have htplates : t.plates = u.plates := by rw [ht]; simp
  have htcsq : t.csq = { s.csq with state := .idle, ctx := none, frameReported := false } := by
    rw [ht, ← hcsq]
    simp [State.clearCsq]
  have httimer : t.tbu.timers.move = none := by
    rw [ht]
    simpa using hkeep.trans htimer
  have htwork (j : SlotNo) : t.work j = (u.queuePass d.slot n).work j := by rw [State.work, State.work, htmge]
  refine State.Worked.orderly ⟨?_, ?_, fun j => ?_, htmge ▸ hpasses, ?_, htdlt ▸ h.streams, ?_⟩ (by rw [htcsq])
  · rw [State.plateLaw, htplates]
    exact hulaw
  · refine h.desk.handedOver (c := d.cell) (k := d.slot) (b := y.clearComplete) ⟨?_, ?_, ?_⟩
      (by simp [State.desk, hctx, hcell, hslot]) ?_ ?_ ?_
    · rw [place_congr htplates, hplace]
    · simp only [State.desk, htfsc]
    · funext j
      rw [Function.update_apply]
      change (t.work j).state.stage = _
      rw [htwork]
      split
      · rename_i hj
        rw [hj]
        exact hown
      · rename_i hj
        refine (hothers j hj).1.trans ?_
        rw [State.stage, huwork]
        rfl
    · simp only [State.desk, htcsq]
      rfl
    · simp only [State.desk, htdlt]
    · simp only [State.desk, htdlt]
  · rw [htfsc, htwork]
    refine ⟨(h.books j).1, Eq.trans ?_ (h.books j).2⟩
    rw [← huwork]
    by_cases hj : j = d.slot
    · rw [hj]
      exact howner
    · exact (hothers j hj).2
  · exact .of_idle (by rw [htcsq]) (by rw [htcsq]) httimer (by rw [htcsq]; exact hmove)
  · refine h.accessLaw_beside (k := d.slot) (by rw [htfsc]) (fun a ha hu' => h.unaccessed hd ha hu') (fun j hj => ?_)
      (fun j hj => ?_) (by rw [htdlt])
    · rw [State.stage, htwork]
      refine (hothers j hj).1.trans ?_
      rw [State.stage, huwork]
    · rw [htmge, hqueue, hmge, List.head?_append, hj]
      rfl

/-- The cell that a claim takes. -/
theorem State.cell_of_claim (hreg : s.registerLaw) (h : s.Worked) {p : Nat × Nat} (hr : s.capturable? = some r)
    (hp : r.nextCell? = some p) : s.plate? r.key = some r ∧ r.seated = true ∧ r.state = .active
      ∧ ∃ x, s.cell? ⟨r.key, p.1, p.2⟩ = some x ∧ x.state = .pending ∧ x.slot = none := by
  have hmem := List.mem_of_find?_eq_some hr
  have hcap := List.find?_some hr
  simp only [Bool.and_eq_true, beq_iff_eq] at hcap
  obtain ⟨⟨hseat, hact⟩, -⟩ := hcap
  have hplate := State.plate?_of_mem hreg.2.1 hmem
  refine ⟨hplate, hseat, hact, ?_⟩
  have hfound := List.find?_some hp
  cases hc : r.cell? p.1 p.2 with
  | none => simp [hc] at hfound
  | some x =>
    have hst : x.state = .pending := by simpa [hc] using hfound
    have hx : s.cell? ⟨r.key, p.1, p.2⟩ = some x := by
      rw [State.cell?_of_plate (c := ⟨r.key, p.1, p.2⟩) hplate]
      exact hc
    refine ⟨x, hx, hst, ?_⟩
    have := h.desk.slot (desk_place.mpr ⟨x, hx, rfl, rfl⟩)
    rw [hst] at this
    exact Option.not_isSome_iff_eq_none.mp (by rw [this]; nofun)

/-- The claim (R17, R42, R43). -/
theorem State.Orderly.claim (hreg : s.registerLaw) (h : s.Orderly) {p : Nat × Nat} (hs : s.csq.state = .awaitSlot)
    (hr : s.capturable? = some r) (hp : r.nextCell? = some p) (hk : s.freeSlot? = some k) :
    (s.claim r ⟨r.key, p.1, p.2⟩ k).Orderly := by
  obtain ⟨hplate, hseat, hact, x, hx, hst, hslot⟩ := State.cell_of_claim hreg h.toWorked hr hp
  generalize hc : (⟨r.key, p.1, p.2⟩ : CellRef) = c at hx ⊢
  have hckey : c.key = r.key := by rw [← hc]
  have hheld : s.fsc.held.get k = false := by simpa using List.find?_some hk
  have hholder : s.fsc.holders.get k = none := by
    rw [(h.books k).1] at hheld
    simpa using hheld
  have hfree : (s.work k).state = .free := stage_eq_free.mp (h.desk.free.mpr hholder)
  have hctx : s.csq.ctx = none := by
    have := h.sequenced.ctx
    rw [hs] at this
    simpa [CsqState.admitsStandby] using this
  obtain ⟨u, hu⟩ : ∃ u, u = (s.claimSlot k c).changeCellQuiet c (fun x => { x with state := .exposing, slot := some k })
    id := ⟨_, rfl⟩
  have huplates : u.plates = (s.changeCell c (fun x => { x with state := .exposing, slot := some k }) id).plates := by
    rw [hu, changeCell_plates]
    rfl
  obtain ⟨t, ht⟩ : ∃ t, t = s.claim r c k := ⟨_, rfl⟩
  rw [← ht]
  have ht' : t = (u.beginTry r c k).sendMove c r.handling := by rw [ht, hu]; rfl
  have htplates : t.plates = (s.changeCell c (fun x => { x with state := .exposing, slot := some k }) id).plates := by
    rw [ht', ← huplates]
    rfl
  have htctx : t.csq.ctx = some (u.freshContext r c k) := by rw [ht']; rfl
  have hown : t.work k = { WorkRecord.freed with
      state := .clearing, owner := some c, satThreshold := (u.freshContext r c k).satThreshold
      noiseFloor := (u.freshContext r c k).noiseFloor } := by
    rw [ht']
    exact State.beginTry_work u r c k
  have hothers (j : SlotNo) (hj : j ≠ k) : t.work j = s.work j := by
    rw [ht', hu]
    exact setAt_get_ne _ _ (Ne.symm hj)
  have htqueue : t.mge.queue = s.mge.queue := by rw [ht', hu]; rfl
  have hholders (j : SlotNo) : t.fsc.holders.get j = if k = j then some c else s.fsc.holders.get j := by
    rw [ht', hu]
    exact setAt_get _ _ _ _
  have htheld (j : SlotNo) : t.fsc.held.get j = if k = j then true else s.fsc.held.get j := by
    rw [ht', hu]
    exact setAt_get _ _ _ _
  have htdlt : t.dlt = s.dlt := by rw [ht', hu]; rfl
  have haccess : t.fsc.access = s.fsc.access := by rw [ht', hu]; rfl
  have hopen : ∀ q, s.plate? c.key = some q → q.Open := by
    intro q hq
    rw [hckey, hplate] at hq
    cases hq
    exact ⟨by simp [hact], by simp [hact], by simp [hact]⟩
  refine ⟨⟨?_, ?_, fun j => ?_, ?_, ⟨?_, ?_, ?_, ?_⟩, htdlt ▸ h.streams, ?_⟩, ?_⟩
  · rw [State.plateLaw, htplates]
    exact plateLaw_changeCell hreg h.plates (fun _ => rfl) hopen
  · refine h.desk.claimed (c := c) (k := k) ⟨?_, ?_, ?_, ?_, ?_, ?_⟩ (desk_place.mpr ⟨x, hx, hst, hslot⟩) hholder
      (by simp [State.desk, hctx])
    · rw [place_congr htplates, desk_changeCell (f := fun x => { x with state := .exposing, slot := some k })
        (fun _ => ⟨rfl, rfl⟩) PlateRecord.sameCells_id hx]
    · funext j
      rw [Function.update_apply]
      change t.fsc.holders.get j = _
      rw [hholders]
      by_cases hj : k = j
      · rw [if_pos hj, if_pos hj.symm]
      · rw [if_neg hj, if_neg (Ne.symm hj)]
        rfl
    · funext j
      rw [Function.update_apply]
      change (t.work j).state.stage = _
      split
      · rename_i hj
        rw [hj, hown]
        rfl
      · rename_i hj
        rw [hothers j hj]
        rfl
    · change t.csq.ctx.map _ = _
      rw [htctx]
      rfl
    · simp only [State.desk, htdlt]
    · simp only [State.desk, htdlt]
  · rw [htheld, hholders]
    by_cases hj : k = j
    · subst hj
      rw [hown]
      simp
    · rw [if_neg hj, if_neg hj, hothers j (Ne.symm hj)]
      exact h.books j
  · exact h.passes.beside (k := k) htqueue (fun j hj => by rw [hothers j hj]) (by rw [hfree]; exact ⟨nofun, nofun⟩)
      (by rw [hown]; exact ⟨nofun, nofun⟩)
  · rw [htctx, ht']
    rfl
  · intro _
    rw [ht']
    rfl
  · rw [ht']
    exact ⟨fun _ => rfl, fun _ => rfl⟩
  · rw [ht']
    rintro (h' | h' | h') <;> cases h'
  · refine h.accessLaw_beside (k := k) haccess (fun a ha hu' hak => ?_) (fun j hj => by rw [State.stage, hothers j hj])
      (fun j hj => htqueue ▸ hj) (by rw [htdlt])
    obtain ⟨-, h'⟩ | h' | h' | h' := h.accessed ha hu' hak
    all_goals rw [hfree] at h'; cases h'
  · intro e he
    rw [htctx] at he
    cases he
    change ∃ q, t.plate? c.key = some q ∧ q.seated = true ∧ q.state = .active
    rw [plate?_congr htplates, State.plate?_changeCell PlateRecord.sameCells_id, hckey, hplate, Option.map_some,
      if_pos rfl]
    refine ⟨_, rfl, ?_⟩
    have hover : (id (r.onCell c.column c.row fun x => { x with state := .exposing, slot := some k })).captureOver
        = false := by
      rw [State.cell?_of_plate (hckey ▸ hplate)] at hx
      obtain ⟨hcol, hrow⟩ := PlateRecord.place_of_cell? hx
      refine PlateRecord.captureOver_of_exposing (x := { x with state := .exposing, slot := some k })
        (PlateRecord.mem_onCell.mpr ⟨x, List.mem_of_find?_eq_some hx, ?_⟩) rfl
      rw [if_pos ⟨hcol, hrow⟩]
    rw [PlateRecord.settled_of_capturing
      (r := id (r.onCell c.column c.row fun x => { x with state := .exposing, slot := some k })) hact hover]
    exact ⟨hseat, hact⟩

end

end Sys2Proof.Machine
end

section
/-! PROOFS. The moves on the records of plates that leave their cells alone, and those by which a plate is enrolled, unseated
or removed (R6 to R8, R13 to R16). They keep the laws on the work of cells. -/

namespace Sys2Proof.Machine

-- One proof at a time: under the memory limit of the check there is no room for the stacks of many threads.
set_option Elab.async false

section

variable {s t : State} {c : CellRef} {x : CellRecord} {k : SlotNo} {r : PlateRecord} {key : PlateKey}
  {f : PlateRecord → PlateRecord}

/-! ## Records changed where they stand -/

theorem place_map (hf : ∀ r : PlateRecord, (f r).key = r.key) (hc : ∀ r : PlateRecord, (f r).cells = r.cells)
    (s : State) : (s.onPlates fun ps => ps.map f).desk.place = s.desk.place := by
  have hcell : ∀ c, (s.onPlates fun ps => ps.map f).cell? c = s.cell? c := by
    intro c
    unfold State.cell?
    rw [State.plate?_map hf]
    cases s.plate? c.key with
    | none => rfl
    | some r =>
      rw [Option.map_some, Option.bind_some, Option.bind_some]
      unfold PlateRecord.cell?
      rw [hc]
  simp only [State.desk, hcell]

/-- Records that keep their keys and cells keep the laws on the work of cells. -/
theorem State.Worked.mapPlates (h : s.Worked) (hf : ∀ r : PlateRecord, (f r).key = r.key)
    (hc : ∀ r : PlateRecord, (f r).cells = r.cells) (hl : ∀ r : PlateRecord, r.Lawful → (f r).Lawful) :
    (s.onPlates fun ps => ps.map f).Worked := by
  have hdesk : (s.onPlates fun ps => ps.map f).desk = s.desk :=
    congrArg (fun p => { s.desk with place := p }) (place_map hf hc s)
  exact ⟨List.forall_mem_map.mpr fun r hr => hl r (h.plates r hr), hdesk ▸ h.desk, h.books, h.passes,
    ⟨h.sequenced.ctx, h.sequenced.timer, h.sequenced.move, h.sequenced.cleared⟩, h.streams, h.access⟩

theorem State.Orderly.mapPlates (h : s.Orderly) (hf : ∀ r : PlateRecord, (f r).key = r.key)
    (hc : ∀ r : PlateRecord, (f r).cells = r.cells) (hl : ∀ r : PlateRecord, r.Lawful → (f r).Lawful)
    (hs : ∀ r : PlateRecord, r.seated = true → r.state = .active → (f r).seated = true ∧ (f r).state = .active) :
    (s.onPlates fun ps => ps.map f).Orderly := by
  refine ⟨h.toWorked.mapPlates hf hc hl, fun c hctx => ?_⟩
  obtain ⟨r, hplate, hseat, hact⟩ := h.seated c hctx
  rw [State.plate?_map hf, hplate]
  exact ⟨f r, rfl, hs r hseat hact⟩

/-- A change of one record is a change of all by cases. -/
theorem State.onPlate_eq_map (s : State) (key : PlateKey) (f : PlateRecord → PlateRecord) :
    s.onPlate key f = s.onPlates fun ps => ps.map fun r => if r.key = key then f r else r := rfl

theorem State.Orderly.onPlate (h : s.Orderly) (key : PlateKey) (hf : ∀ r : PlateRecord, (f r).key = r.key)
    (hc : ∀ r : PlateRecord, (f r).cells = r.cells) (hl : ∀ r : PlateRecord, r.Lawful → (f r).Lawful)
    (hs : ∀ r : PlateRecord, r.seated = true → r.state = .active → (f r).seated = true ∧ (f r).state = .active) :
    (s.onPlate key f).Orderly := by
  rw [State.onPlate_eq_map]
  refine h.mapPlates (fun r => ?_) (fun r => ?_) (fun r hr => ?_) fun r hseat hact => ?_
  · split
    · exact hf r
    · rfl
  · split
    · exact hc r
    · rfl
  · split
    · exact hl r hr
    · exact hr
  · split
    · exact hs r hseat hact
    · exact ⟨hseat, hact⟩

/-- Holds, handling and emulsion are not of the laws on the work of cells. -/
theorem State.Orderly.rehold (h : s.Orderly) (f : PlateRecord → Holds) :
    (s.onPlates fun ps => ps.map fun r => { r with holds := f r }).Orderly :=
  h.mapPlates (fun _ => rfl) (fun _ => rfl) (fun _ hr => hr) fun _ hseat hact => ⟨hseat, hact⟩

theorem State.Orderly.mark (h : s.Orderly) (key : PlateKey) (a : Arg Handling) (e : Arg Emulsion) :
    (s.onPlate key fun r => r.marked a e).Orderly :=
  h.onPlate key (fun _ => rfl) (fun _ => rfl) (fun _ hr => hr) fun _ hseat hact => ⟨hseat, hact⟩

theorem PlateRecord.Lawful.seat (h : r.Lawful) (now : Seconds) (failed : Bool) : (r.seat now failed).Lawful := by
  by_cases ha : (r.state = .enrolled ∨ r.state = .captured) ∧ r.hasPending
  · have hst : (r.seat now failed).state = .active := if_pos ha
    exact PlateRecord.Open.lawful ⟨by rw [hst]; nofun, by rw [hst]; nofun, by rw [hst]; nofun⟩
  · have hst : (r.seat now failed).state = r.state := if_neg ha
    unfold PlateRecord.Lawful
    rw [hst]
    exact h

theorem State.Orderly.seat (h : s.Orderly) (key : PlateKey) (now : Seconds) (failed : Bool) :
    (s.onPlate key fun y => y.seat now failed).Orderly := by
  refine h.onPlate key (fun _ => rfl) (fun _ => rfl) (fun _ hr => hr.seat now failed) fun r _ hact => ⟨rfl, ?_⟩
  refine (if_neg ?_).trans hact
  simp [hact]

theorem PlateRecord.Lawful.unseat (h : r.Lawful) : r.unseat.Lawful := by
  by_cases ha : r.state = .active
  · have hst : r.unseat.state = .enrolled := if_pos ha
    exact PlateRecord.Open.lawful ⟨by rw [hst]; nofun, by rw [hst]; nofun, by rw [hst]; nofun⟩
  · have hst : r.unseat.state = r.state := if_neg ha
    unfold PlateRecord.Lawful
    rw [hst]
    exact h

theorem State.Orderly.worked_unseat (h : s.Orderly) (key : PlateKey) : (s.onPlate key PlateRecord.unseat).Worked := by
  rw [State.onPlate_eq_map]
  refine h.toWorked.mapPlates (fun r => ?_) (fun r => ?_) fun r hr => ?_
  · split <;> rfl
  · split <;> rfl
  · split
    · exact hr.unseat
    · exact hr

/-- A plate unseated, with its try left (R8, R59). -/
theorem State.Orderly.unseat (hreg : s.registerLaw) (h : s.Orderly) (key : PlateKey) :
    ((s.onPlate key PlateRecord.unseat).leaveCaptureOf key).Orderly := by
  have hreg' : (s.onPlate key PlateRecord.unseat).registerLaw :=
    (withins_onPlate s key PlateRecord.within_unseat).reworks.registerLaw hreg
  obtain ⟨hleft, ⟨heq, hne⟩ | hnone⟩ := (h.worked_unseat key).leaveCaptureOf hreg' key
  · refine ⟨hleft, ?_⟩
    rw [heq]
    intro d hd
    obtain ⟨r, hplate, hseat, hact⟩ := h.seated d hd
    refine ⟨r, ?_, hseat, hact⟩
    rw [State.plate?_onPlate s key (f := PlateRecord.unseat) (fun _ => rfl), hplate, Option.map_some, if_neg (hne d hd)]
  · exact hleft.orderly hnone

/-! ## Records added and removed -/

/-- Cells without a slot come and go: nothing is released. -/
theorem State.Orderly.slotless (h : s.Orderly) {lose : CellRef → Prop} (hplates : t.plateLaw)
    (hnone : ∀ c st k, lose c → s.desk.place c ≠ some (st, some k))
    (hkept : ∀ c, ¬ lose c → t.desk.place c = s.desk.place c)
    (hlost : ∀ c x, lose c → t.cell? c = some x → x.slot = none ∧ x.state.holdsSlot = false)
    (hcsq : t.csq = s.csq) (htbu : t.tbu = s.tbu) (hmge : t.mge = s.mge) (hfsc : t.fsc = s.fsc) (hdlt : t.dlt = s.dlt)
    (hplate? : ∀ c, s.csq.ctx = some c → t.plate? c.cell.key = s.plate? c.cell.key) : t.Orderly := by
  have hslots := State.SlotsReturned.of_eq (s := s) (t := t) hmge (by rw [hfsc]) (by rw [hfsc]) (by rw [hfsc])
  have htry : ∀ c, s.csq.ctx = some c → ¬ lose c.cell := by
    intro c hc hl
    obtain ⟨x, hx, hst, hk⟩ := h.cell_of_ctx hc
    exact hnone c.cell _ _ hl (desk_place.mpr ⟨x, hx, hst, hk⟩)
  have hstream : ∀ x c, s.dlt.stream = some x → x.cell = some c → ¬ lose c := by
    intro x c hx hc hl
    have hplace := h.desk.stream (c := c) (sl := x.slot) (by simp [State.desk, hx, hc])
    obtain ⟨k, hk⟩ := Option.isSome_iff_exists.mp (h.desk.slot hplace)
    rw [hk] at hplace
    exact hnone c _ k hl hplace
  have hqueue : ∀ c, c ∈ s.dlt.queue → ¬ lose c := by
    intro c hc hl
    obtain ⟨sl, hplace⟩ := h.desk.queue.mp hc
    obtain ⟨k, hk⟩ := Option.isSome_iff_exists.mp (h.desk.slot hplace)
    rw [hk] at hplace
    exact hnone c _ k hl hplace
  refine ⟨h.toWorked.released (lose := lose) hslots (Desk.Released.of_slots hslots (fun k => ⟨nofun, ?_⟩) hkept hlost
    (fun c hc hl => absurd hl (htry c hc)) (fun _ => by rw [hcsq]) (by rw [hdlt])
    (fun c => ⟨fun hc => ⟨hdlt ▸ hc, hqueue c (hdlt ▸ hc)⟩, fun hc => hdlt ▸ hc.1⟩)
    (fun x c hx hc hl => absurd hl (hstream x c hx hc)) fun _ => by rw [hdlt]) hplates
    (h.sequenced.congr hcsq (by rw [htbu])) (hdlt ▸ h.streams) (fun _ _ _ hd => by rw [hdlt]; exact hd), fun c hc => ?_⟩
  · rintro ⟨c, hl, hk⟩
    obtain ⟨st, hplace⟩ := (h.desk.holder (k := k) (c := c)).mp hk
    exact hnone c st k hl hplace
  · rw [hcsq] at hc
    rw [hplate? c hc]
    exact h.seated c hc

theorem PlateRecord.cell_of_enrolled {k : PlateKey} {p : ProfileNo} {a : Handling} {e : Emulsion} {m n i j : Nat}
    {now : Seconds} (hx : (PlateRecord.enrolled k p a e m n now).cell? i j = some x) :
    x.state = .pending ∧ x.slot = none := by
  obtain ⟨q, -, rfl⟩ := List.mem_map.mp (List.mem_of_find?_eq_some hx)
  exact ⟨rfl, rfl⟩

/-- A plate enrolled (R6). -/
theorem State.Orderly.enrol (h : s.Orderly) (k : PlateKey) (p : ProfileNo) (a : Handling) (e : Emulsion) (m n : Nat)
    (now : Seconds) (hk : s.plate? k = none) :
    (s.onPlates fun ps => ps ++ [PlateRecord.enrolled k p a e m n now]).Orderly := by
  have hplate (key : PlateKey) : (s.onPlates fun ps => ps ++ [PlateRecord.enrolled k p a e m n now]).plate? key
      = (s.plate? key).or (if k = key then some (PlateRecord.enrolled k p a e m n now) else none) := by
    change (s.plates ++ [PlateRecord.enrolled k p a e m n now]).find? (fun r => r.key == key) = _
    rw [List.find?_append, List.find?_singleton]
    simp [PlateRecord.enrolled, State.plate?]
  have hkept (key : PlateKey) (hne : key ≠ k) : (s.onPlates fun ps => ps ++ [PlateRecord.enrolled k p a e m n now]).plate?
      key = s.plate? key := by
    rw [hplate, if_neg (Ne.symm hne), Option.or_none]
  refine h.slotless (lose := fun c => c.key = k) ?_ ?_ (fun c hne => ?_) ?_ rfl rfl rfl rfl rfl fun c hc => ?_
  · refine List.forall_mem_append.mpr ⟨h.plates, fun r hr => ?_⟩
    obtain rfl := List.mem_singleton.mp hr
    exact ⟨nofun, fun hd => by obtain hd | hd := hd <;> cases hd⟩
  · rintro c st j rfl hplace
    obtain ⟨x, hx, -⟩ := desk_place.mp hplace
    obtain ⟨r, hr, -⟩ := exists_plate_of_cell hx
    rw [hk] at hr
    cases hr
  · simp only [State.desk, State.cell?, hkept c.key hne]
  · rintro c x rfl hx
    rw [State.cell?, hplate, hk, if_pos rfl] at hx
    obtain ⟨hst, hsl⟩ := PlateRecord.cell_of_enrolled (x := x) hx
    exact ⟨hsl, by rw [hst]; rfl⟩
  · refine hkept c.cell.key fun he => ?_
    obtain ⟨r, hr, -⟩ := h.seated c hc
    rw [he, hk] at hr
    cases hr

theorem State.removePlate_plate? (s : State) (key other : PlateKey) :
    (s.removePlate key).plate? other = if other = key then none else s.plate? other := by
  change (s.plates.filter fun r => r.key != key).find? (fun r => r.key == other) = _
  split
  · rename_i he
    rw [List.find?_eq_none]
    intro r hr
    have := (List.mem_filter.mp hr).2
    simpa [he] using this
  · rename_i hne
    rw [List.find?_filter, State.plate?]
    congr 1
    funext r
    by_cases hr : r.key = other
    · simp [hr, hne]
    · simp [hr]

/-- A record removed whose cells hold no slot (R8, R13). -/
theorem State.Orderly.removePlate (h : s.Orderly) (hr : s.plate? r.key = some r)
    (hw : r.state = .withdrawn ∨ r.state = .done ∨ r.state = .faulted) : (s.removePlate r.key).Orderly := by
  have hplate := s.removePlate_plate? r.key
  have hrest : ∀ x ∈ r.cells, x.state.holdsSlot = false := by
    intro x hx
    obtain ⟨hwithdrawn, hdone⟩ := h.plates r (State.mem_of_plate? hr)
    obtain hw | hw := hw
    · obtain h' | h' | h' := hwithdrawn hw x hx <;> rw [h'] <;> rfl
    · obtain h' | h' := hdone hw x hx <;> rw [h'] <;> rfl
  refine h.slotless (lose := fun c => c.key = r.key) (fun q hq => h.plates q (List.mem_of_mem_filter hq)) ?_
    (fun c hne => ?_) ?_ rfl rfl rfl rfl rfl fun c hc => ?_
  · intro c st j hc hplace
    have hslot := h.desk.slot hplace
    obtain ⟨x, hx, rfl, -⟩ := desk_place.mp hplace
    rw [State.cell?_of_plate (hc ▸ hr)] at hx
    rw [hrest x (List.mem_of_find?_eq_some hx)] at hslot
    cases hslot
  · simp only [State.desk, State.cell?, hplate, if_neg hne]
  · intro c x hc hx
    rw [State.cell?, hplate, if_pos hc] at hx
    cases hx
  · rw [hplate, if_neg]
    intro he
    obtain ⟨q, hq, -, hact⟩ := h.seated c hc
    rw [he, hr] at hq
    cases hq
    rw [hact] at hw
    obtain hw | hw | hw := hw <;> cases hw

end

end Sys2Proof.Machine
end

section
/-! PROOFS. The stream and the unit being sent: the moves of the delivery link, and a stream cut (R157 to R160). They keep the
stream's parts and the unit together. -/

namespace Sys2Proof.Machine

-- One proof at a time: under the memory limit of the check there is no room for the stacks of many threads.
set_option Elab.async false

/-- A unit that a stream may be sending (R157 to R160). -/
def Stream.Takes (t : Stream) : DeliveryUnit → Prop
  | .start => t.cut = true ∨ t.phase = .start
  | .header _ => t.cut = true ∨ t.phase = .header
  | .row y _ => (∃ codes, t.buffer = .full codes) ∧ (t.cut = true ∨ t.phase = .rows) ∧ y = t.nextRow
  | .finish .. => t.phase = .finish

section

variable {d : Dlt} {t : Stream} {u : LinkUnit}

theorem Dlt.unitBelongs_iff :
    d.unitBelongs u = true ↔ (u.live = true → ∃ t, d.stream = some t ∧ t.Takes u.content) := by
  unfold Dlt.unitBelongs
  cases hl : u.live with
  | false => simp
  | true =>
    cases hs : d.stream with
    | none => simp
    | some t =>
      cases hc : u.content with
      | row y codes => cases hb : t.buffer <;> simp [Stream.Takes, hb]
      | _ => cases hb : t.buffer <;> simp [Stream.Takes]

theorem Stream.coherent_iff : t.coherent = true ↔ (t.cell = none ↔ t.cut = true) ∧ (t.slot = none ↔ t.cut = true)
    ∧ (t.cut = true → t.phase = .finish) ∧ (t.buffer = .reading → t.phase = .header ∨ t.phase = .rows) := by
  unfold Stream.coherent
  cases t.cell <;> cases t.slot <;> cases t.cut <;> cases t.phase <;> cases t.buffer <;> simp

/-- The stream whose unit is being sent. -/
theorem Dlt.Streams.takes (h : d.Streams) (hu : d.link = some u) (hl : u.live = true) :
    ∃ t, d.stream = some t ∧ t.Takes u.content := Dlt.unitBelongs_iff.mp (h.unit u hu) hl

/-- A link that is free, or whose unit is of no stream any more. -/
theorem Dlt.Streams.of_dead (hs : ∀ t, d.stream = some t → t.coherent = true)
    (hl : ∀ u, d.link = some u → u.live = false) : d.Streams :=
  ⟨hs, fun u hu => Dlt.unitBelongs_iff.mpr fun h => by rw [hl u hu] at h; cases h⟩

/-- The stream changes, and goes on to take the unit being sent. -/
theorem Dlt.Streams.restream {e : Dlt} (h : d.Streams) (hl : e.link = d.link) (hco : ∀ t, e.stream = some t → t.coherent = true)
    (ht : ∀ u t, d.link = some u → u.live = true → d.stream = some t → t.Takes u.content →
      ∃ x, e.stream = some x ∧ x.Takes u.content) : e.Streams := by
  refine ⟨hco, fun u hu => Dlt.unitBelongs_iff.mpr fun hlive => ?_⟩
  obtain ⟨t, hs, htake⟩ := h.takes (hl ▸ hu) hlive
  exact ht u t (hl ▸ hu) hlive hs htake

/-! ## A stream cut -/

/-- A stream that is cut, before its END is sent. -/
def Stream.cutOff (t : Stream) (rowSent : Bool) : Stream :=
  { t with cell := none, slot := none, cut := true, phase := .finish, buffer := if rowSent then t.buffer else .empty }

/-- What a cut leaves of a stream. -/
def Dlt.leftOf (d : Dlt) (t : Stream) : Option Stream :=
  if d.startBegun t then some (t.cutOff (d.sending DeliveryUnit.isRow)) else none

theorem Dlt.cutStream_eq (d : Dlt) : d.cutStream = { d with stream := d.stream.bind d.leftOf } := by
  unfold Dlt.cutStream
  split
  · rename_i hs
    rw [hs]
    cases d
    simp_all
  · rename_i t hs
    rw [hs, Option.bind_some, Dlt.leftOf]
    split
    · rfl
    · rfl

theorem Dlt.sending_of_live {p : DeliveryUnit → Bool} (hu : d.link = some u) (hl : u.live = true) :
    d.sending p = p u.content := by
  simp [Dlt.sending, hu, hl]

theorem Dlt.cutStream_cell (d : Dlt) : d.cutStream.stream.bind (·.cell) = none := by
  rw [Dlt.cutStream_eq]
  cases d.stream with
  | none => rfl
  | some t =>
    rw [Option.bind_some, Dlt.leftOf]
    split <;> rfl

/-- A cut stream's END is to come, and a ROW being sent keeps its buffer; one whose START has not begun is gone (R160). -/
theorem Dlt.Streams.cutStream (h : d.Streams) : d.cutStream.Streams := by
  have hrow : ∀ t, d.stream = some t → d.sending DeliveryUnit.isRow = true → t.buffer ≠ .reading := by
    intro t ht hsend hb
    unfold Dlt.sending at hsend
    split at hsend
    · rename_i u hu
      obtain ⟨hlive, hcontent⟩ := (Bool.and_eq_true _ _).mp hsend
      obtain ⟨t', ht', htake⟩ := h.takes hu hlive
      rw [ht] at ht'
      cases ht'
      cases hc : u.content with
      | row y codes =>
        rw [hc] at htake
        obtain ⟨⟨full, hfull⟩, -⟩ := htake
        rw [hb] at hfull
        cases hfull
      | _ => simp [hc, DeliveryUnit.isRow] at hcontent
    · cases hsend
  rw [Dlt.cutStream_eq]
  refine h.restream rfl (fun t ht => ?_) fun u t hu hl ht htake => ?_
  · obtain ⟨x, hx, hcut⟩ := Option.bind_eq_some_iff.mp ht
    unfold Dlt.leftOf at hcut
    split at hcut
    · cases hcut
      refine Stream.coherent_iff.mpr ⟨⟨fun _ => rfl, fun _ => rfl⟩, ⟨fun _ => rfl, fun _ => rfl⟩, fun _ => rfl, fun hb => ?_⟩
      simp only [Stream.cutOff] at hb
      split at hb
      · exact absurd hb (hrow x hx ‹_›)
      · cases hb
    · cases hcut
  · dsimp only
    rw [ht, Option.bind_some, Dlt.leftOf]
    by_cases hbegun : d.startBegun t = true
    · rw [if_pos hbegun]
      refine ⟨_, rfl, ?_⟩
      cases hc : u.content with
      | start => exact .inl rfl
      | header x => exact .inl rfl
      | finish a b c => exact rfl
      | row y codes =>
        rw [hc] at htake
        obtain ⟨⟨full, hfull⟩, -, hy⟩ := htake
        have hsend : d.sending DeliveryUnit.isRow = true := by rw [Dlt.sending_of_live hu hl, hc]; rfl
        exact ⟨⟨full, by simp [Stream.cutOff, hsend, hfull]⟩, .inl rfl, hy⟩
    · exfalso
      obtain ⟨hphase, hsend⟩ : t.phase = .start ∧ d.sending DeliveryUnit.isStart = false := by
        simpa [Dlt.startBegun] using hbegun
      obtain ⟨-, -, hcut, -⟩ := Stream.coherent_iff.mp (h.coherent t ht)
      have huncut : ¬ t.cut = true := fun hc => by rw [hcut hc] at hphase; cases hphase
      rw [Dlt.sending_of_live hu hl] at hsend
      cases hc : u.content with
      | start => simp [hc, DeliveryUnit.isStart] at hsend
      | header x =>
        rw [hc] at htake
        obtain htake | htake := htake
        · exact huncut htake
        · rw [hphase] at htake
          cases htake
      | row y codes =>
        rw [hc] at htake
        obtain ⟨-, htake | htake, -⟩ := htake
        · exact huncut htake
        · rw [hphase] at htake
          cases htake
      | finish a b c =>
        rw [hc] at htake
        have htake : t.phase = .finish := htake
        rw [hphase] at htake
        cases htake

/-! ## The units of a stream -/

/-- The next unit is one that the stream takes. -/
theorem Stream.takes_nextUnit {v : DeliveryUnit} (h : t.nextUnit? = some v) : t.Takes v := by
  unfold Stream.nextUnit? at h
  split at h
  · rename_i hp
    cases h
    exact .inr hp
  · rename_i hp
    cases h
    exact .inr hp
  · rename_i hp
    split at h
    · rename_i codes hb
      cases h
      exact ⟨⟨codes, hb⟩, .inr hp, rfl⟩
    · cases h
  · rename_i hp
    cases h
    exact hp

theorem Dlt.Streams.sendNext (h : d.Streams) : d.sendNext.Streams := by
  unfold Dlt.sendNext
  split
  · rename_i t hl hs
    split
    · split
      · rename_i v hv
        refine ⟨h.coherent, fun u hu => Dlt.unitBelongs_iff.mpr fun _ => ?_⟩
        cases hu
        exact ⟨t, hs, Stream.takes_nextUnit hv⟩
      · exact h
    · exact h
  · exact h

theorem Stream.takes_askRow {v : DeliveryUnit} (h : t.Takes v) (n : Nat) : (t.askRow n).Takes v := by
  unfold Stream.askRow
  split
  · rename_i ha
    obtain ⟨-, hb, -⟩ := ha
    cases v with
    | row y codes =>
      obtain ⟨⟨full, hfull⟩, -⟩ := h
      rw [hb] at hfull
      cases hfull
    | start => exact h
    | header x => exact h
    | finish a b c => exact h
  · exact h

theorem Stream.coherent_askRow (h : t.coherent = true) (n : Nat) : (t.askRow n).coherent = true := by
  unfold Stream.askRow
  split
  · rename_i ha
    obtain ⟨hp, -, -⟩ := ha
    obtain ⟨hcell, hslot, hcut, -⟩ := Stream.coherent_iff.mp h
    exact Stream.coherent_iff.mpr ⟨hcell, hslot, hcut, fun _ => hp⟩
  · exact h

/-- The stream asks for its next row. -/
theorem Dlt.Streams.askRow (h : d.Streams) (n : Nat) :
    Dlt.Streams { d with stream := d.stream.map fun t => t.askRow n } := by
  refine h.restream rfl (fun t ht => ?_) fun u t hu hl ht htake => ?_
  · obtain ⟨x, hx, rfl⟩ := Option.map_eq_some_iff.mp ht
    exact Stream.coherent_askRow (h.coherent x hx) n
  · exact ⟨t.askRow n, by simp [ht], Stream.takes_askRow htake n⟩

/-- A unit sent leaves the link free, and a stream that goes on in order. -/
theorem Dlt.Streams.unitSent (h : d.Streams) {f : Stream → DeliveryUnit → Stream}
    (hf : ∀ u t, d.link = some u → u.live = true → d.stream = some t → (f t u.content).coherent = true) :
    (d.unitSent f).Streams := by
  unfold Dlt.unitSent
  split
  · exact h
  · rename_i u hu
    refine .of_dead (fun t ht => ?_) nofun
    split at ht
    · rename_i hl
      obtain ⟨x, hx, rfl⟩ := Option.map_eq_some_iff.mp ht
      exact hf u x hu hl hx
    · exact h.coherent t ht

theorem Stream.coherent_advance (h : t.coherent = true) {p : StreamPhase} (hp : p = .header ∨ p = .rows) :
    (t.advance p).coherent = true := by
  obtain ⟨hcell, hslot, hcut, -⟩ := Stream.coherent_iff.mp h
  unfold Stream.advance
  split
  · exact h
  · rename_i hc
    exact Stream.coherent_iff.mpr ⟨hcell, hslot, fun hcut' => absurd hcut' hc, fun _ => hp⟩

theorem Stream.coherent_rowSent (h : t.coherent = true) (n : Nat) (v : DeliveryUnit) :
    (t.rowSent n v).coherent = true := by
  obtain ⟨hcell, hslot, hcut, -⟩ := Stream.coherent_iff.mp h
  unfold Stream.rowSent
  split
  · refine Stream.coherent_iff.mpr ⟨hcell, hslot, fun hc => ?_, nofun⟩
    dsimp only
    split
    · rfl
    · exact hcut hc
  · exact h

/-- The read row fills a buffer that was READING, so no ROW is being sent. -/
theorem Dlt.Streams.fillBuffer (h : d.Streams) {k : SlotNo} {y : Nat}
    (hread : (d.stream.any fun x => x.slot == some k && x.buffer == .reading && y == x.nextRow) = true)
    (codes : List DensityCode) :
    Dlt.Streams { d with stream := d.stream.map fun t => { t with buffer := .full codes } } := by
  obtain ⟨z, hz, hb⟩ := (Option.any_eq_true _ _).mp hread
  simp only [Bool.and_eq_true, beq_iff_eq] at hb
  obtain ⟨⟨-, hreading⟩, -⟩ := hb
  refine h.restream rfl (fun t ht => ?_) fun u t hu hl ht htake => ?_
  · obtain ⟨x, hx, rfl⟩ := Option.map_eq_some_iff.mp ht
    obtain ⟨hcell, hslot, hcut, -⟩ := Stream.coherent_iff.mp (h.coherent x hx)
    exact Stream.coherent_iff.mpr ⟨hcell, hslot, hcut, nofun⟩
  · refine ⟨{ t with buffer := .full codes }, by simp [ht], ?_⟩
    rw [hz] at ht
    cases ht
    cases hc : u.content with
    | row i cs =>
      rw [hc] at htake
      obtain ⟨⟨full, hfull⟩, -⟩ := htake
      rw [hreading] at hfull
      cases hfull
    | start => rw [hc] at htake; exact htake
    | header x => rw [hc] at htake; exact htake
    | finish a b c => rw [hc] at htake; exact htake

end

end Sys2Proof.Machine
end

section
/-! PROOFS. WITHDRAW: every cell of the plate loses its slot, and its stream is cut (R12, R140, R160). It keeps the laws on
the work of cells. -/

namespace Sys2Proof.Machine

-- One proof at a time: under the memory limit of the check there is no room for the stacks of many threads.
set_option Elab.async false

section

variable {s t : State} {c : CellRef} {x : CellRecord} {k : SlotNo} {r : PlateRecord} {key : PlateKey}

/-- What the cut of a plate's stream leaves (R160). -/
structure State.StreamCut (s t : State) (key : PlateKey) : Prop where
  slots : s.SlotsReturned t fun _ => False
  streams : s.dlt.Streams → t.dlt.Streams
  queue : t.dlt.queue = s.dlt.queue
  cut : ∀ x c, s.dlt.stream = some x → x.cell = some c → c.key = key →
    t.dlt.stream.bind (·.cell) = none ∧ ∀ k y, t.fsc.access ≠ some { work := .deliver k y, result := .used }
  kept : (∀ x c, s.dlt.stream = some x → x.cell = some c → c.key ≠ key) → t.dlt.stream = s.dlt.stream

theorem State.StreamCut.refl_of (h : ∀ x c, s.dlt.stream = some x → x.cell = some c → c.key ≠ key) : s.StreamCut s key :=
  ⟨.refl s, id, rfl, fun x c hx hc hk => absurd hk (h x c hx hc), fun _ => rfl⟩

theorem State.streamCut_cutPlateStream (s : State) (key : PlateKey) : s.StreamCut (s.cutPlateStream key) key := by
  have hqueue := s.cutPlateStream_queue key
  unfold State.cutPlateStream at hqueue ⊢
  split
  · rename_i d hd
    obtain ⟨z, hz, hzc⟩ := Option.bind_eq_some_iff.mp hd
    split
    · rename_i hkey
      refine ⟨⟨nofun, fun _ _ => ⟨rfl, rfl⟩, id, id, fun _ _ h => h, fun a ha hu => ?_⟩, fun h => h.cutStream, ?_,
        fun x c hx hc hk => ⟨s.dlt.cutStream_cell, fun k y ha => ?_⟩, fun hne => absurd hkey (hne z d hz hzc)⟩
      · exact ⟨(stopAccess_used ha hu).1, fun _ _ => id⟩
      · rw [hd] at hqueue
        simpa only [hkey, if_true] using hqueue
      · exact absurd (stopAccess_used ha rfl).2 (by simp)
    · rename_i hkey
      refine .refl_of fun x c hx hc => ?_
      rw [hz] at hx
      cases hx
      rw [hzc] at hc
      cases hc
      exact hkey
  · rename_i hd
    refine .refl_of fun x c hx hc => ?_
    rw [hx, Option.bind_some, hc] at hd
    cases hd

/-- The slots of a record's cells. -/
theorem State.mem_slots_iff (hgrid : s.gridLaw) (h : s.Worked) (hr : s.plate? key = some r) :
    k ∈ r.slots ↔ ∃ c, c.key = key ∧ s.fsc.holders.get k = some c := by
  have hkey := State.key_of_plate? hr
  constructor
  · intro hk
    obtain ⟨x, hx, hslot⟩ := List.mem_filterMap.mp hk
    have hmem := State.mem_of_plate? hr
    have hcell := State.cell?_of_record (x := x) (hkey ▸ hr) (PlateRecord.cell?_of_mem (hgrid r hmem) hx)
    exact ⟨_, hkey, (h.desk.holder (k := k)).mpr ⟨x.state, desk_place.mpr ⟨x, hcell, rfl, hslot⟩⟩⟩
  · rintro ⟨c, hc, hk⟩
    obtain ⟨st, hplace⟩ := (h.desk.holder (k := k) (c := c)).mp hk
    obtain ⟨x, hx, -, hslot⟩ := desk_place.mp hplace
    rw [State.cell?_of_plate (hc ▸ hr)] at hx
    exact PlateRecord.mem_slots hx hslot

/-- What WITHDRAW undoes of a plate, before its record is put in WITHDRAWN or removed. -/
theorem State.undoPlate_parts (hr : s.plate? key = some r) : (s.undoPlate key).csq = s.csq
    ∧ (s.undoPlate key).tbu = s.tbu ∧ (s.undoPlate key).plates = s.plates
    ∧ (s.undoPlate key).dlt = { (s.cutPlateStream key).dlt with
        queue := (s.cutPlateStream key).dlt.queue.filter fun c => c.key != key }
    ∧ s.SlotsReturned (s.undoPlate key) (fun k => k ∈ r.slots)
    ∧ ∀ a, (s.undoPlate key).fsc.access = some a → a.result = .used → (s.cutPlateStream key).fsc.access = some a := by
  obtain ⟨u, hu⟩ : ∃ u, u = (s.cutPlateStream key).onDlt fun d =>
      { d with queue := d.queue.filter fun c => c.key != key } := ⟨_, rfl⟩
  have heq : s.undoPlate key = u.returnSlots r.slots := by
    unfold State.undoPlate
    dsimp only
    rw [hr, hu]
  have hfrom := State.slotsReturned_returnSlots u r.slots
  have hcut : (s.cutPlateStream key).SlotsReturned u fun _ => False := by
    rw [hu]
    exact .of_eq rfl rfl rfl rfl
  rw [heq]
  refine ⟨?_, ?_, ?_, ?_, ?_, fun a ha hused => ?_⟩
  · rw [hu]
    simp
  · rw [hu]
    simp
  · rw [hu]
    simp
  · rw [State.returnSlots_dlt, hu]
    rfl
  · exact (((State.streamCut_cutPlateStream s key).slots.trans hcut).trans hfrom).congr fun k => by simp
  · have := (hfrom.access a ha hused).1
    rw [hu] at this
    exact this

/-- The plate's cells lose their slots; its record is changed or removed with them. -/
theorem State.Worked.undone (hgrid : s.gridLaw) (h : s.Worked) (hr : s.plate? key = some r)
    (hne : ∀ c, s.csq.ctx = some c → c.cell.key ≠ key) (f : List PlateRecord → List PlateRecord)
    (hplates : ((s.undoPlate key).onPlates f).plateLaw)
    (hkept : ∀ c : CellRef, c.key ≠ key → ((s.undoPlate key).onPlates f).desk.place c = s.desk.place c)
    (hlost : ∀ c x, c.key = key → ((s.undoPlate key).onPlates f).cell? c = some x →
      x.slot = none ∧ x.state.holdsSlot = false) : ((s.undoPlate key).onPlates f).Worked := by
  obtain ⟨hcsq, htbu, -, hdlt, hslots, haccess⟩ := State.undoPlate_parts hr
  have hcut := State.streamCut_cutPlateStream s key
  have hslots' : s.SlotsReturned ((s.undoPlate key).onPlates f) fun k => k ∈ r.slots := hslots.andSame rfl rfl rfl rfl
  have hqueue : ((s.undoPlate key).onPlates f).dlt.queue = s.dlt.queue.filter fun c => c.key != key := by
    rw [State.onPlates_dlt, hdlt]
    dsimp only
    rw [hcut.queue]
  have hstream : ((s.undoPlate key).onPlates f).dlt.stream = (s.cutPlateStream key).dlt.stream := by
    rw [State.onPlates_dlt, hdlt]
  refine h.released (lose := fun c => c.key = key) hslots' (Desk.Released.of_slots hslots'
    (fun k => State.mem_slots_iff hgrid h hr) hkept hlost (fun c hc hl => absurd hl (hne c hc)) (fun _ => by rw [State.onPlates_csq, hcsq])
    (hqueue ▸ List.filter_sublist) (fun c => by rw [hqueue, List.mem_filter]; simp)
    (fun x c hx hc hl => hstream ▸ (hcut.cut x c hx hc hl).1) fun hk => hstream ▸ hcut.kept hk) hplates
    (h.sequenced.congr hcsq (by rw [State.onPlates_tbu, htbu])) ((hcut.streams h.streams).congr hstream ?_)
    fun k y ha hd => ?_
  · rw [State.onPlates_dlt, hdlt]
  · rw [hstream]
    by_cases hk : ∀ x c, s.dlt.stream = some x → x.cell = some c → c.key ≠ key
    · rw [hcut.kept hk]
      exact hd
    · push Not at hk
      obtain ⟨x, c, hx, hc, hk⟩ := hk
      exact absurd (haccess _ ha rfl) ((hcut.cut x c hx hc hk).2 k y)

/-- WITHDRAW of an unseated record (R11). -/
theorem State.Orderly.withdrawUnseated (hgrid : s.gridLaw) (h : s.Orderly)
    (hr : s.plate? r.key = some r) (hs : r.seated = false) : ((s.undoPlate r.key).removePlate r.key).Orderly := by
  obtain ⟨hcsq, -, hplates, -⟩ := State.undoPlate_parts hr
  have hne : ∀ c, s.csq.ctx = some c → c.cell.key ≠ r.key := by
    intro c hc hk
    obtain ⟨q, hq, hseat, -⟩ := h.seated c hc
    rw [hk, hr] at hq
    cases hq
    rw [hs] at hseat
    cases hseat
  have hplate (other : PlateKey) : ((s.undoPlate r.key).removePlate r.key).plate? other
      = if other = r.key then none else s.plate? other := by
    rw [State.removePlate_plate?, plate?_congr hplates]
  refine ⟨h.toWorked.undone hgrid hr hne _ (fun q hq => h.plates q (hplates ▸ List.mem_of_mem_filter hq))
    (fun c hc => ?_) (fun c x hc hx => ?_), fun c hc => ?_⟩
  · change ((((s.undoPlate r.key).removePlate r.key).plate? c.key).bind _).map _ = _
    rw [hplate, if_neg hc]
    rfl
  · change (((s.undoPlate r.key).removePlate r.key).plate? c.key).bind _ = _ at hx
    rw [hplate, if_pos hc] at hx
    cases hx
  · have hc : s.csq.ctx = some c := by rw [← hcsq]; exact hc
    rw [hplate, if_neg (hne c hc)]
    exact h.seated c hc

/-- The cells of a record put in WITHDRAWN hold no slot. -/
theorem PlateRecord.rest_of_withdrawn {a b : Nat} {q : PlateRecord}
    (hslot : ∀ i j y, q.cell? i j = some y → y.slot.isSome = y.state.holdsSlot) (hx : q.withdrawn.cell? a b = some x) :
    x.slot = none ∧ x.state.holdsSlot = false := by
  rw [PlateRecord.cell?_withdrawn] at hx
  obtain ⟨y, hy, rfl⟩ := Option.map_eq_some_iff.mp hx
  have hh := hslot a b y hy
  cases hst : y.state <;> simp_all [CellState.withdrawLoses, CellState.holdsSlot, CellRecord.abandon]

theorem PlateRecord.lawful_withdrawn (q : PlateRecord) : q.withdrawn.Lawful := by
  refine ⟨fun _ x hx => ?_, fun hd => by obtain hd | hd := hd <;> cases hd⟩
  obtain ⟨y, -, rfl⟩ := List.mem_map.mp hx
  cases hst : y.state <;> simp [CellState.withdrawLoses, CellRecord.abandon, hst]

/-- WITHDRAW of a seated record (R12). -/
theorem State.Orderly.withdraw (hreg : s.registerLaw) (hgrid : s.gridLaw) (h : s.Orderly) (hr : s.plate? r.key = some r) :
    (((s.leaveCaptureOf r.key).undoPlate r.key).onPlate r.key PlateRecord.withdrawn).Orderly := by
  have hwithin := withins_leaveCaptureOf s r.key
  obtain ⟨hleft, hctx⟩ := h.toWorked.leaveCaptureOf hreg r.key
  have hseat : (s.leaveCaptureOf r.key).seatLaw := by
    obtain ⟨heq, -⟩ | hnone := hctx
    · rw [heq]
      exact h.seated
    · intro c hc
      rw [hnone] at hc
      cases hc
  have hne : ∀ c, (s.leaveCaptureOf r.key).csq.ctx = some c → c.cell.key ≠ r.key := by
    obtain ⟨heq, hne⟩ | hnone := hctx
    · rw [heq]
      exact hne
    · intro c hc
      rw [hnone] at hc
      cases hc
  have hreg' := hwithin.reworks.registerLaw hreg
  have hgrid' := hwithin.reworks.gridLaw hgrid
  obtain ⟨q, hq⟩ : ∃ q, (s.leaveCaptureOf r.key).plate? r.key = some q := by
    have hkeys := hwithin.reworks.keys
    have hmem : r.key ∈ (s.leaveCaptureOf r.key).plates.map (·.key) := by
      rw [hkeys]
      exact List.mem_map_of_mem (State.mem_of_plate? hr)
    obtain ⟨q, hq, hk⟩ := List.mem_map.mp hmem
    have hfound := State.plate?_of_mem hreg'.2.1 hq
    rw [hk] at hfound
    exact ⟨q, hfound⟩
  generalize s.leaveCaptureOf r.key = u at *
  obtain ⟨hcsq, -, hplates, -⟩ := State.undoPlate_parts hq
  have hplate (other : PlateKey) : ((u.undoPlate r.key).onPlate r.key PlateRecord.withdrawn).plate? other
      = (u.plate? other).map fun x => if other = r.key then x.withdrawn else x := by
    rw [State.plate?_onPlate _ r.key (f := PlateRecord.withdrawn) (fun _ => rfl), plate?_congr hplates]
  refine ⟨hleft.undone hgrid' hq hne _ ?_ (fun c hc => ?_) (fun c x hc hx => ?_), fun c hc => ?_⟩
  · refine List.forall_mem_map.mpr fun p hp => ?_
    split
    · exact p.lawful_withdrawn
    · exact hleft.plates p (hplates ▸ hp)
  · change ((((u.undoPlate r.key).onPlate r.key PlateRecord.withdrawn).plate? c.key).bind _).map _ = _
    rw [hplate]
    simp only [if_neg hc, Option.map_id']
    rfl
  · change (((u.undoPlate r.key).onPlate r.key PlateRecord.withdrawn).plate? c.key).bind _ = _ at hx
    rw [hplate, hc, hq, Option.map_some, if_pos rfl, Option.bind_some] at hx
    refine PlateRecord.rest_of_withdrawn (fun i j y hy => ?_) hx
    refine hleft.desk.slot (c := ⟨r.key, i, j⟩) (desk_place.mpr ⟨y, ?_, rfl, rfl⟩)
    rw [State.cell?_of_plate (c := ⟨r.key, i, j⟩) hq]
    exact hy
  · have hc : u.csq.ctx = some c := by rw [← hcsq]; exact hc
    obtain ⟨p, hp, hseated⟩ := hseat c hc
    refine ⟨p, ?_, hseated⟩
    rw [hplate, hp, Option.map_some, if_neg (hne c hc)]

end

end Sys2Proof.Machine
end

section
/-! PROOFS. STANDBY and RESET_WARM: many cells lose their slots at once (R22, R23, R101, R145, R161). They keep the laws on the
work of cells. -/

namespace Sys2Proof.Machine

-- One proof at a time: under the memory limit of the check there is no room for the stacks of many threads.
set_option Elab.async false

section

variable {s t : State} {c : CellRef} {x : CellRecord} {k : SlotNo} {r : PlateRecord} {l : List (CellRef × SlotNo)}

/-! ## STANDBY -/

theorem State.slotsReturned_loseCell (s : State) (p : CellRef × SlotNo) :
    s.SlotsReturned (s.loseCell p) fun j => j = p.2 :=
  ((State.SlotsReturned.of_eq (s := s) (t := (s.changeCellQuiet p.1 CellRecord.abandon id).dequeue p.1) rfl rfl rfl rfl).trans
    (State.slotsReturned_returnSlot _ p.2)).congr fun j => by simp

theorem State.slotsReturned_loseCells (s : State) (l : List (CellRef × SlotNo)) :
    s.SlotsReturned (l.foldl State.loseCell s) fun j => j ∈ l.map (·.2) := by
  induction l generalizing s with
  | nil => exact (State.SlotsReturned.refl s).congr fun k => by simp
  | cons p l ih => exact ((s.slotsReturned_loseCell p).trans (ih (s.loseCell p))).congr fun j => by simp

theorem State.loseCells_dlt (s : State) (l : List (CellRef × SlotNo)) :
    (l.foldl State.loseCell s).dlt.stream = s.dlt.stream ∧ (l.foldl State.loseCell s).dlt.link = s.dlt.link := by
  induction l generalizing s with
  | nil => exact ⟨rfl, rfl⟩
  | cons p l ih =>
    rw [List.foldl_cons, (ih _).1, (ih _).2]
    simp

/-- A record that a lost cell leaves stays open. -/
theorem PlateRecord.Open.lostState (h : r.Open) (x : PlateRecord) (hx : x.state = r.lostState) : x.Open := by
  obtain ⟨hw, hd, hf⟩ := h
  unfold PlateRecord.Open
  rw [hx]
  unfold PlateRecord.lostState
  split
  · split <;> exact ⟨nofun, nofun, nofun⟩
  · exact ⟨hw, hd, hf⟩

theorem plateLaw_loseCells (hreg : s.registerLaw) (h : s.plateLaw)
    (hl : ∀ p ∈ l, s.cell? p.1 ≠ none ∧ ∀ r, s.plate? p.1.key = some r → r.Open) :
    (l.foldl State.loseCell s).plateLaw := by
  induction l generalizing s with
  | nil => exact h
  | cons p l ih =>
    obtain ⟨hcell, hopen⟩ := hl p List.mem_cons_self
    refine ih ((withins_loseCell s p).reworks.registerLaw hreg) ?_ fun q hq => ⟨?_, fun r hr => ?_⟩
    · intro r hr
      rw [State.loseCell_plates] at hr
      exact plateLaw_changeCellQuiet hreg h (fun _ => rfl) hopen r hr
    · rw [State.loseCell_cell?]
      obtain ⟨y, hy⟩ := Option.ne_none_iff_exists'.mp (hl q (List.mem_cons_of_mem _ hq)).1
      simp [hy]
    · by_cases hk : q.1.key = p.1.key
      · obtain ⟨r0, hr0⟩ : ∃ r0, s.plate? p.1.key = some r0 := by
          obtain ⟨y, hy⟩ := Option.ne_none_iff_exists'.mp hcell
          obtain ⟨r0, hr0, -⟩ := exists_plate_of_cell hy
          exact ⟨r0, hr0⟩
        obtain ⟨y, hy, -, hst⟩ := State.loseCell_own hr0 hcell
        rw [hk, hy] at hr
        cases hr
        exact (hopen r0 hr0).lostState _ hst
      · rw [State.loseCell_plate?] at hr
        obtain ⟨y, hy, he⟩ := Option.map_eq_some_iff.mp hr
        rw [if_neg hk] at he
        subst he
        exact (hl q (List.mem_cons_of_mem _ hq)).2 _ hy

/-- What a STANDBY that is not refused finds. -/
theorem State.standby_quiet (h : s.standbyRefusal? = none) : s.csq.state.admitsStandby = true
    ∧ ∀ r ∈ s.plates, ∀ c ∈ r.cells, c.state ≠ .exposing ∧ c.state ≠ .finalizing ∧ c.state ≠ .delivering := by
  unfold State.standbyRefusal? at h
  split at h
  · cases h
  · split at h
    · cases h
    · rename_i hq
      split at h
      · cases h
      · rename_i hany
        exact ⟨by simpa using hq, State.anyWorked_eq_false.mp (by simpa using hany)⟩

/-- STANDBY: the cells outside the mask lose their slots (R23, R145). -/
theorem State.Orderly.standby (hreg : s.registerLaw) (hgrid : s.gridLaw) (h : s.Orderly)
    (hr : s.standbyRefusal? = none) (mask : List RegionNo) : ((s.cellsOutside mask).foldl State.loseCell s).Orderly := by
  obtain ⟨hadmits, hquiet⟩ := State.standby_quiet hr
  have hctx : s.csq.ctx = none := by
    have := h.sequenced.ctx
    rw [hadmits] at this
    simpa using this
  have hcell : ∀ p ∈ s.cellsOutside mask, ∃ x, s.cell? p.1 = some x ∧ x.slot = some p.2 := by
    intro p hp
    obtain ⟨x, hx, hk, -⟩ := State.cell_of_mem_cellsOutside hreg hgrid hp
    exact ⟨x, hx, hk⟩
  have hslot : ∀ p ∈ s.cellsOutside mask, s.fsc.holders.get p.2 = some p.1 := by
    intro p hp
    obtain ⟨x, hx, hk⟩ := hcell p hp
    exact (h.desk.holder (k := p.2)).mpr ⟨x.state, desk_place.mpr ⟨x, hx, rfl, hk⟩⟩
  have hdelivering : s.dlt.stream.bind (·.cell) = none := by
    cases hs : s.dlt.stream with
    | none => rfl
    | some z =>
      cases hz : z.cell with
      | none => simp [hz]
      | some d =>
        have hplace := h.desk.stream (c := d) (sl := z.slot) (by simp [State.desk, hs, hz])
        obtain ⟨y, hy, hst, -⟩ := desk_place.mp hplace
        obtain ⟨q, hq, hqc⟩ := exists_plate_of_cell hy
        exact absurd hst (hquiet q (State.mem_of_plate? hq) y (List.mem_of_find?_eq_some hqc)).2.2
  generalize s.cellsOutside mask = l at hcell hslot
  obtain ⟨hstream, hlink⟩ := s.loseCells_dlt l
  have hcsq : (l.foldl State.loseCell s).csq = s.csq := by simp
  have htbu : (l.foldl State.loseCell s).tbu = s.tbu := by simp
  refine State.Worked.orderly (h.toWorked.released (lose := fun c => c ∈ l.map (·.1)) (s.slotsReturned_loseCells l)
    (Desk.Released.of_slots (s.slotsReturned_loseCells l) (fun k => ⟨?_, ?_⟩) (fun c hc => ?_) (fun c x hc hx => ?_)
      (fun c hc => by rw [hctx] at hc; cases hc) (fun _ => by rw [hcsq]) (by rw [State.loseCells_queue]; exact List.filter_sublist)
      (fun c => by rw [State.loseCells_queue, List.mem_filter]; simp) (fun x c hx hc => ?_) fun _ => hstream)
    (plateLaw_loseCells hreg h.plates fun p hp => ?_) (h.sequenced.congr hcsq (by rw [htbu])) (h.streams.congr hstream hlink)
    fun _ _ _ hd => by rw [hstream]; exact hd) (by rw [hcsq, hctx])
  · intro hk
    obtain ⟨p, hp, rfl⟩ := List.mem_map.mp hk
    exact ⟨p.1, List.mem_map_of_mem hp, hslot p hp⟩
  · rintro ⟨c, hc, hk⟩
    obtain ⟨p, hp, rfl⟩ := List.mem_map.mp hc
    obtain ⟨x, hx, hxk⟩ := hcell p hp
    obtain ⟨st, hplace⟩ := (h.desk.holder (k := k) (c := p.1)).mp hk
    rw [desk_place.mpr ⟨x, hx, rfl, hxk⟩] at hplace
    cases hplace
    exact List.mem_map_of_mem hp
  · simp only [State.desk, State.loseCells_cell?, if_neg hc, Option.map_id']
  · rw [State.loseCells_cell?] at hx
    obtain ⟨y, -, he⟩ := Option.map_eq_some_iff.mp hx
    rw [if_pos hc] at he
    subst he
    exact ⟨rfl, rfl⟩
  · rw [hx, Option.bind_some, hc] at hdelivering
    cases hdelivering
  · obtain ⟨x, hx, hk⟩ := hcell p hp
    refine ⟨by rw [hx]; nofun, State.open_of_cell h.plates hx ?_⟩
    rw [← h.desk.slot (desk_place.mpr ⟨x, hx, rfl, rfl⟩), hk]
    rfl

/-! ## RESET_WARM -/

theorem setAt_foldl_get_of_not_mem {α : Type} {n : Nat} (l : List (Fin n)) (v : Vector α n) (x : α) {k : Fin n}
    (h : k ∉ l) : (l.foldl (fun v j => setAt v j x) v).get k = v.get k := by
  induction l generalizing v with
  | nil => rfl
  | cons j l ih =>
    obtain ⟨hj, hl⟩ : k ≠ j ∧ k ∉ l := by simpa using h
    rw [List.foldl_cons, ih _ hl, setAt_get_ne _ _ (Ne.symm hj)]

/-- A restart loses the cells of a try and of a pass. -/
abbrev State.restartLoses (s : State) (c : CellRef) : Prop :=
  ∃ st sl, s.desk.place c = some (st, sl) ∧ st.restartLoses = true

theorem State.mem_restartSlots_iff (hreg : s.registerLaw) (hgrid : s.gridLaw) (h : s.Worked) :
    k ∈ s.restartSlots ↔ ∃ c, s.restartLoses c ∧ s.fsc.holders.get k = some c := by
  constructor
  · intro hk
    obtain ⟨r, hr, hmem⟩ := List.mem_flatMap.mp hk
    obtain ⟨x, hx, he⟩ := List.mem_filterMap.mp hmem
    split at he
    · rename_i hlose
      have hcell := State.cell?_of_record (x := x) (State.plate?_of_mem hreg.2.1 hr) (PlateRecord.cell?_of_mem (hgrid r hr) hx)
      exact ⟨_, ⟨x.state, x.slot, desk_place.mpr ⟨x, hcell, rfl, rfl⟩, hlose⟩,
        (h.desk.holder (k := k)).mpr ⟨x.state, desk_place.mpr ⟨x, hcell, rfl, he⟩⟩⟩
    · cases he
  · rintro ⟨c, ⟨st, sl, hplace, hlose⟩, hk⟩
    obtain ⟨st', hplace'⟩ := (h.desk.holder (k := k) (c := c)).mp hk
    rw [hplace] at hplace'
    cases hplace'
    obtain ⟨x, hx, rfl, hxk⟩ := desk_place.mp hplace
    refine State.mem_restartSlots (p := (c, x)) ((mem_cells_iff hreg hgrid).mpr hx) ?_ hxk
    cases hst : x.state <;> simp_all [CellState.restartLoses]

/-- A slot whose record a restart frees, though its cell keeps it: there is none. -/
theorem State.Worked.restarted_stage (h : s.Worked) (hk : ∀ c, s.fsc.holders.get k = some c → ¬ s.restartLoses c) :
    (s.work k).restarted.state.stage = s.stage k
      ∧ (s.work k).restarted.owner = (s.work k).owner := by
  unfold WorkRecord.restarted State.stage
  split
  · exact ⟨rfl, rfl⟩
  · rename_i hcoded
    cases hholder : s.fsc.holders.get k with
    | none =>
      have hfree : (s.work k).state = .free := stage_eq_free.mp (h.desk.free.mpr hholder)
      rw [hfree, (h.books k).2, hholder]
      exact ⟨rfl, rfl⟩
    | some c =>
      exfalso
      obtain ⟨st, hplace⟩ := (h.desk.holder (k := k) (c := c)).mp hholder
      have hwork := (stage_mem _ _).mp (h.desk.work hplace)
      have hholds := h.desk.slot hplace
      have hlose : ¬ st.restartLoses = true := fun hl => hk c hholder ⟨st, _, hplace, hl⟩
      cases st <;> simp_all [CellState.workStates, CellState.restartLoses]

/-- No cell of the register twice. -/
theorem State.refs_nodup (hreg : s.registerLaw) (hgrid : s.gridLaw) : (s.cells.map (·.1)).Nodup := by
  have hrefs : s.cells.map (·.1) = s.plates.flatMap fun r =>
      (r.cells.map fun c => (c.column, c.row)).map fun p => (⟨r.key, p.1, p.2⟩ : CellRef) := by
    simp [State.cells, List.map_flatMap, Function.comp_def]
  rw [hrefs]
  refine List.nodup_flatMap.mpr ⟨fun r hr => ?_, ?_⟩
  · refine List.Nodup.map ?_ (hgrid r hr ▸ gridCells_nodup _ _)
    rintro ⟨a, b⟩ ⟨a', b'⟩ he
    cases he
    rfl
  · refine (List.pairwise_map.mp hreg.2.1).imp fun {a b} hne => ?_
    simp only [Function.onFun, List.disjoint_left, List.mem_map]
    rintro _ ⟨p, -, rfl⟩ ⟨q, -, he⟩
    exact hne (congrArg CellRef.key he).symm

theorem State.restartStreams_eq (s : State) :
    s.restartStreams = (s.cells.filter fun p => p.2.state == .delivering).map (·.1) := by
  unfold State.restartStreams State.cells
  rw [List.filter_flatMap, List.map_flatMap]
  congr 1
  funext r
  induction r.cells with
  | nil => rfl
  | cons x xs ih =>
    rw [List.filterMap_cons, ih]
    by_cases hx : x.state = .delivering <;> simp [hx]

theorem State.restartStreams_nodup (hreg : s.registerLaw) (hgrid : s.gridLaw) : s.restartStreams.Nodup := by
  rw [State.restartStreams_eq]
  exact (State.refs_nodup hreg hgrid).sublist (List.filter_sublist.map _)

theorem PlateRecord.Lawful.restarted (h : r.Lawful) : r.restarted.Lawful := by
  by_cases ho : r.Open
  · have ho' : PlateRecord.Open { r with cells := r.cells.map CellRecord.restarted } := ho
    unfold PlateRecord.restarted
    dsimp only
    split
    · exact ho'.recaptured.lawful
    · exact ho'.lawful
  · have hst : r.restarted.state = r.state := by
      unfold PlateRecord.restarted
      dsimp only
      split
      · rw [PlateRecord.recaptured_of_not_open (r := { r with cells := r.cells.map CellRecord.restarted }) ho]
      · rfl
    have hcells : ∀ y ∈ r.restarted.cells, ∃ x ∈ r.cells, y = x.restarted := by
      intro y hy
      rw [PlateRecord.restarted_cells] at hy
      obtain ⟨x, hx, rfl⟩ := List.mem_map.mp hy
      exact ⟨x, hx, rfl⟩
    have hkeep : ∀ x : CellRecord, x.state = .pending ∨ x.state = .kept ∨ x.state = .failed → x.restarted = x := by
      intro x hx
      rw [CellRecord.restarted_eq]
      obtain hx | hx | hx := hx <;> simp [hx]
    unfold PlateRecord.Lawful
    rw [hst]
    refine ⟨fun hw y hy => ?_, fun hd y hy => ?_⟩
    · obtain ⟨x, hx, rfl⟩ := hcells y hy
      have hx' := h.1 hw x hx
      rw [hkeep x hx']
      exact hx'
    · obtain ⟨x, hx, rfl⟩ := hcells y hy
      have hx' := h.2 hd x hx
      rw [hkeep x (.inr hx')]
      exact hx'

theorem State.warmRestart_work (s : State) (k : SlotNo) : s.warmRestart.work k = (s.work k).restarted := by
  simp only [State.work, State.warmRestart, Vector.get]
  exact Vector.getElem_map _ _

/-- The desk after a restart: the DELIVERING cell is taken back, then the cells of a try and of a pass lose their slots. -/
theorem State.Worked.released_warm (hreg : s.registerLaw) (hgrid : s.gridLaw) (h : s.Worked) :
    Desk.Released { s.desk with
      place := fun x => (s.desk.place x).map fun p => (if p.1 = .delivering then .merged else p.1, p.2)
      queue := s.restartStreams ++ s.desk.queue, stream := none } s.warmRestart.desk s.restartLoses := by
  have hplace (c : CellRef) : s.warmRestart.desk.place c
      = (s.cell? c).map fun x => (x.restarted.state, x.restarted.slot) := by
    simp only [State.desk, State.warmRestart_cell?, Option.map_map, Function.comp_def]
  have hholders (k : SlotNo) : s.warmRestart.fsc.holders.get k
      = if k ∈ s.restartSlots then none else s.fsc.holders.get k := by
    change ((s.restartSlots.foldl (fun v k => setAt v k none) s.fsc.holders).get k) = _
    split
    · exact setAt_foldl_get _ _ _ (.inl ‹_›)
    · exact setAt_foldl_get_of_not_mem _ _ _ ‹_›
  have hstage (k : SlotNo) : s.warmRestart.desk.stage k = (s.work k).restarted.state.stage :=
    congrArg (fun w => w.state.stage) (s.warmRestart_work k)
  refine ⟨fun c hc => ?_, fun c st sl hc hx => ?_, fun k c hk hc => ⟨?_, ?_⟩, fun k hk => ⟨?_, ?_⟩, fun _ _ _ _ _ => rfl,
    fun hne => ?_, ?_, fun c => ⟨fun hc => ⟨hc, ?_⟩, fun hc => hc.1⟩, nofun, fun _ => rfl⟩
  · rw [hplace]
    dsimp only
    cases hx : s.cell? c with
    | none => simp [State.desk, hx]
    | some x =>
      have hnot : ¬ x.state.restartLoses = true := fun hl => hc ⟨x.state, x.slot, desk_place.mpr ⟨x, hx, rfl, rfl⟩, hl⟩
      rw [desk_place.mpr ⟨x, hx, rfl, rfl⟩, Option.map_some, Option.map_some, CellRecord.restarted_eq]
      cases hst : x.state <;> simp_all [CellState.restartLoses]
  · rw [hplace] at hx
    obtain ⟨x, hcell, he⟩ := Option.map_eq_some_iff.mp hx
    obtain ⟨st', sl', hp, hlose⟩ := hc
    rw [desk_place.mpr ⟨x, hcell, rfl, rfl⟩] at hp
    cases hp
    rw [CellRecord.restarted, if_pos hlose] at he
    cases he
    exact ⟨rfl, rfl⟩
  · exact (hholders k).trans (if_pos ((State.mem_restartSlots_iff hreg hgrid h).mpr ⟨c, hc, hk⟩))
  · rw [hstage]
    obtain ⟨st, sl, hp, hlose⟩ := hc
    obtain ⟨st', hp'⟩ := (h.desk.holder (k := k) (c := c)).mp hk
    rw [hp] at hp'
    cases hp'
    have hwork := (stage_mem _ _).mp (h.desk.work hp)
    have hcoded : (s.work k).state ≠ .coded := by
      intro hcoded
      rw [hcoded] at hwork
      cases st <;> simp [CellState.workStates, CellState.restartLoses] at hwork hlose
    rw [WorkRecord.restarted, if_neg hcoded]
    rfl
  · refine (hholders k).trans (if_neg fun hm => ?_)
    obtain ⟨c, hl, hc⟩ := (State.mem_restartSlots_iff hreg hgrid h).mp hm
    exact hk c hc hl
  · rw [hstage]
    exact (h.restarted_stage hk).1
  · cases hd : s.csq.ctx with
    | none => simp [State.desk, hd, State.warmRestart]
    | some d =>
      obtain ⟨x, hx, hst, hk⟩ := h.cell_of_ctx hd
      refine absurd ⟨x.state, x.slot, desk_place.mpr ⟨x, hx, rfl, rfl⟩, by rw [hst]; rfl⟩
        (hne d.cell d.slot d.clearComplete (by simp [State.desk, hd]))
  · exact List.Sublist.refl _
  · rintro ⟨st, sl, hp, hlose⟩
    have hc : c ∈ s.restartStreams ++ s.dlt.queue := hc
    rw [List.mem_append, State.mem_restartStreams] at hc
    obtain ⟨p, hp', rfl, hst⟩ | hc := hc
    · rw [desk_place.mpr ⟨p.2, (mem_cells_iff hreg hgrid).mp hp', rfl, rfl⟩] at hp
      cases hp
      rw [hst] at hlose
      cases hlose
    · obtain ⟨sl', hp'⟩ := h.desk.queue.mp hc
      rw [hp] at hp'
      cases hp'
      cases hlose

/-- RESET_WARM (R22, R101, R161). -/
theorem State.Orderly.warm (hreg : s.registerLaw) (hgrid : s.gridLaw) (h : s.Orderly) : s.warmRestart.Orderly := by
  have hwork := s.warmRestart_work
  have hstate (k : SlotNo) : (s.warmRestart.work k).state = .coded ∨ (s.warmRestart.work k).state = .free := by
    rw [hwork, WorkRecord.restarted]
    split
    · exact .inl ‹_›
    · exact .inr rfl
  refine State.Worked.orderly ⟨?_, ?_, fun k => ?_, ⟨List.nodup_nil, fun {k} => ?_, fun {k} => ?_⟩,
    .of_idle rfl rfl rfl nofun, .of_dead nofun fun u hu => ?_, fun a ha => ?_⟩ rfl
  · exact List.forall_mem_map.mpr fun r hr => PlateRecord.Lawful.restarted (h.plates r hr)
  · refine (h.desk.recalled (fun c => ?_) (State.restartStreams_nodup hreg hgrid)).released
      (h.toWorked.released_warm hreg hgrid)
    rw [State.mem_restartStreams]
    constructor
    · rintro ⟨p, hp, rfl, hst⟩
      exact ⟨p.2.slot, desk_place.mpr ⟨p.2, (mem_cells_iff hreg hgrid).mp hp, hst, rfl⟩⟩
    · rintro ⟨sl, hp⟩
      obtain ⟨x, hx, hst, -⟩ := desk_place.mp hp
      exact ⟨(c, x), (mem_cells_iff hreg hgrid).mpr hx, rfl, hst⟩
  · change (s.restartSlots.foldl (fun v k => setAt v k false) s.fsc.held).get k
        = ((s.restartSlots.foldl (fun v k => setAt v k none) s.fsc.holders).get k).isSome
      ∧ _ = (s.restartSlots.foldl (fun v k => setAt v k none) s.fsc.holders).get k
    by_cases hk : k ∈ s.restartSlots
    · rw [setAt_foldl_get _ _ _ (.inl hk), setAt_foldl_get _ _ _ (.inl hk), hwork]
      obtain ⟨c, hl, hc⟩ := (State.mem_restartSlots_iff hreg hgrid h.toWorked).mp hk
      have hfree := ((h.toWorked.released_warm hreg hgrid).freed k c hc hl).2
      refine ⟨rfl, ?_⟩
      rw [WorkRecord.restarted, if_neg]
      · rfl
      · intro hcoded
        have hst : s.warmRestart.desk.stage k = .coded := by
          change (s.warmRestart.work k).state.stage = _
          rw [hwork, WorkRecord.restarted, if_pos hcoded, hcoded]
          rfl
        rw [hst] at hfree
        cases hfree
    · rw [setAt_foldl_get_of_not_mem _ _ _ hk, setAt_foldl_get_of_not_mem _ _ _ hk, hwork]
      refine ⟨(h.books k).1, (h.toWorked.restarted_stage fun c hc hl => hk ?_).2.trans (h.books k).2⟩
      exact (State.mem_restartSlots_iff hreg hgrid h.toWorked).mpr ⟨c, hl, hc⟩
  · change k ∈ [] ↔ (s.warmRestart.work k).state = .queued ∨ (s.warmRestart.work k).state = .running
    obtain hst | hst := hstate k <;> simp [hst]
  · change (s.warmRestart.work k).state = .running ↔ none = some k
    obtain hst | hst := hstate k <;> simp [hst]
  · obtain ⟨v, -, rfl⟩ := Option.map_eq_some_iff.mp hu
    rfl
  · obtain ⟨b, -, he⟩ := Option.map_eq_some_iff.mp ha
    split at he
    · rename_i hcls
      subst he
      obtain ⟨w, res⟩ := b
      cases w with
      | refresh => cases res <;> rfl
      | _ => cases hcls
    · have hused : a.result ≠ .used := by
        rw [← he]
        unfold Access.stop
        split
        · nofun
        · rename_i hres
          rw [hres]
          nofun
      obtain ⟨w, res⟩ := a
      cases res with
      | used => exact absurd rfl hused
      | unused row => cases w <;> rfl

end

end Sys2Proof.Machine
end

section
/-! PROOFS. The moves that leave the cells in their places: those beside the work of cells, and those of the sequencer and
the delivery link. They keep the laws on the work of cells. -/

namespace Sys2Proof.Machine

-- One proof at a time: under the memory limit of the check there is no room for the stacks of many threads.
set_option Elab.async false

section

variable {s t : State} {k : SlotNo}

/-- The laws speak of plates, try, move, records, slots, access and delivery alone. -/
theorem State.Orderly.congr (h : s.Orderly) (hp : t.plates = s.plates) (hst : t.csq.state = s.csq.state)
    (hctx : t.csq.ctx = s.csq.ctx) (hmove : t.csq.move = s.csq.move) (htimer : t.tbu.timers.move = s.tbu.timers.move)
    (hmge : t.mge = s.mge) (hheld : t.fsc.held = s.fsc.held) (hholders : t.fsc.holders = s.fsc.holders)
    (hacc : t.fsc.access = s.fsc.access) (hqueue : t.dlt.queue = s.dlt.queue) (hstream : t.dlt.stream = s.dlt.stream)
    (hlink : t.dlt.link = s.dlt.link) : t.Orderly := by
  have hdesk : t.desk = s.desk := by
    simp only [State.desk, State.cell?, State.plate?, State.work, hp, hctx, hmge, hholders, hqueue, hstream]
  have hwork (j : SlotNo) : t.work j = s.work j := by rw [State.work, State.work, hmge]
  refine ⟨⟨fun r hr => h.plates r (hp ▸ hr), hdesk ▸ h.desk, fun j => ?_, hmge ▸ h.passes, ⟨?_, ?_, ?_, ?_⟩,
    h.streams.congr hstream hlink, ?_⟩, State.seatLaw_congr h.seated hp hctx⟩
  · rw [hheld, hholders, hwork]
    exact h.books j
  · rw [hctx, hst]
    exact h.sequenced.ctx
  · rw [htimer, hst]
    exact h.sequenced.timer
  · rw [hmove, hst]
    exact h.sequenced.move
  · rw [hst, hctx]
    exact h.sequenced.cleared
  · exact State.accessLaw_of_kept (kept := fun _ => True) h.access (fun a ha _ => ⟨hacc ▸ ha, fun _ _ => trivial⟩)
      (fun j _ => by rw [State.stage, hwork]) (fun j _ hj => hmge ▸ hj) fun _ _ _ hd => by rw [hstream]; exact hd

theorem State.Orderly.of_core (h : s.Orderly) (hc : t.core = s.core) : t.Orderly :=
  h.congr (congrArg Core.plates hc) (congrArg Core.csqState hc) (congrArg Core.ctx hc) (congrArg Core.move hc)
    (congrArg Core.moveTimer hc) (congrArg Core.mge hc) (congrArg Core.held hc) (congrArg Core.holders hc)
    (congrArg Core.access hc) (congrArg Core.dltQueue hc) (congrArg Core.stream hc) (congrArg Core.link hc)

theorem State.Orderly.aside (h : s.Orderly) (ha : Aside s t) : t.Orderly := h.of_core ha.core

theorem orderly_reset : State.reset.Orderly :=
  State.Orderly.of_cellLaw safe_reset.1 safe_reset.2.1 cellLaw_reset

/-- A record whose state and owner stand. -/
theorem State.Orderly.onWork (h : s.Orderly) {f : WorkRecord → WorkRecord} (hf : ∀ w, (f w).state = w.state)
    (ho : ∀ w, (f w).owner = w.owner) : (s.onWork k f).Orderly := by
  have hstate (j : SlotNo) : ((s.onWork k f).work j).state = (s.work j).state := by
    rw [State.onWork_work]
    split
    · rename_i hj
      rw [hf, hj]
    · rfl
  have howner (j : SlotNo) : ((s.onWork k f).work j).owner = (s.work j).owner := by
    rw [State.onWork_work]
    split
    · rename_i hj
      rw [ho, hj]
    · rfl
  have hdesk : (s.onWork k f).desk = s.desk := by
    simp only [State.desk, hstate]
    rfl
  refine ⟨⟨h.plates, hdesk ▸ h.desk, fun j => ?_, ⟨h.passes.nodup, fun {j} => ?_, fun {j} => ?_⟩,
    ⟨h.sequenced.ctx, h.sequenced.timer, h.sequenced.move, h.sequenced.cleared⟩, h.streams, ?_⟩, h.seated⟩
  · rw [howner]
    exact h.books j
  · refine h.passes.mem.trans ?_
    change (s.work j).state = _ ∨ (s.work j).state = _ ↔ ((s.onWork k f).work j).state = _
      ∨ ((s.onWork k f).work j).state = _
    rw [hstate]
  · change ((s.onWork k f).work j).state = _ ↔ _
    rw [hstate]
    exact h.passes.head
  · exact State.accessLaw_of_kept (kept := fun _ => True) h.access (fun a ha _ => ⟨ha, fun _ _ => trivial⟩)
      (fun j _ => by rw [State.stage, hstate]) (fun j _ hj => hj) fun _ _ _ hd => hd

/-! ## The sequencer -/

theorem State.Orderly.turned (h : s.Orderly) {a : CsqState} (hp : s.csq.state.Passes a) : (s.setCsq a).Orderly :=
  ⟨h.toWorked.turned rfl hp, h.seated⟩

theorem State.Orderly.recontext (h : s.Orderly) {f : TryContext → TryContext} (hc : ∀ c, (f c).cell = c.cell)
    (hs : ∀ c, (f c).slot = c.slot) (hd : ∀ c, (f c).clearComplete = c.clearComplete) : (s.onCtx f).Orderly := by
  have hctx : (s.onCtx f).csq.ctx = s.csq.ctx.map f := rfl
  have hdesk : (s.onCtx f).desk = s.desk := by
    simp only [State.desk, hctx, Option.map_map, Function.comp_def, hc, hs, hd]
    rfl
  refine ⟨⟨h.plates, hdesk ▸ h.desk, h.books, h.passes, ⟨?_, h.sequenced.timer, h.sequenced.move, fun hst => ?_⟩,
    h.streams, h.access⟩, fun c hcx => ?_⟩
  · rw [hctx, Option.isSome_map]
    exact h.sequenced.ctx
  · rw [hctx, Option.map_map, ← h.sequenced.cleared hst]
    congr 1
    funext c
    exact hd c
  · obtain ⟨d, hd', rfl⟩ := Option.map_eq_some_iff.mp (hctx ▸ hcx)
    rw [hc]
    exact h.seated d hd'

/-- The move's end, as its arrival or its failure (R44, R45). -/
theorem State.Orderly.moveEnds (h : s.Orderly) {status : MoveStatus} {x : CsqState}
    (hm : s.tbu.timers.move.isSome = true ∨ s.csq.move.map (·.status) = some .moving) (hst : status ≠ .moving)
    (hx : x = .settling ∨ x = .awaitLamp ∨ x = .paused .move) :
    ((s.onTimers fun t => { t with move := none }).onCsq fun q =>
      { q with state := x, move := q.move.map fun m => m.ended status }).Orderly := by
  have hmoving : s.csq.state = .moving := hm.elim h.sequenced.timer h.sequenced.move.mp
  have hctx := h.sequenced.ctx
  rw [hmoving] at hctx
  refine ⟨⟨h.plates, h.desk, h.books, h.passes, ⟨?_, nofun, ⟨fun hmv => ?_, fun hmv => ?_⟩, fun hmv => ?_⟩, h.streams,
    h.access⟩, h.seated⟩
  · refine hctx.trans ?_
    obtain rfl | rfl | rfl := hx <;> rfl
  · have hended : (s.csq.move.map fun m => m.ended status).map (·.status) = some .moving := hmv
    rw [Option.map_map] at hended
    obtain ⟨m, -, hm'⟩ := Option.map_eq_some_iff.mp hended
    exact absurd hm' hst
  · obtain rfl | rfl | rfl := hx <;> cases hmv
  · obtain rfl | rfl | rfl := hx <;> obtain hmv | hmv | hmv := hmv <;> cases hmv

theorem State.Orderly.sendMove (h : s.Orderly) (c : CellRef) (a : Handling) (hp : s.csq.state = .paused .move) :
    (s.sendMove c a).Orderly := by
  have hctx := h.sequenced.ctx
  rw [hp] at hctx
  exact ⟨⟨h.plates, h.desk, h.books, h.passes, ⟨hctx, fun _ => rfl, ⟨fun _ => rfl, fun _ => rfl⟩, fun hst => by
    obtain hst | hst | hst := hst <;> cases hst⟩, h.streams, h.access⟩, h.seated⟩

theorem State.Orderly.triggerTry (h : s.Orderly) {c : TryContext} (hl : s.csq.state = .awaitLamp)
    (hc : s.csq.ctx = some c) (hd : c.clearComplete = true) : (s.triggerTry c).Orderly := by
  have hadded := h.onWork (k := c.slot) (f := fun w =>
    { w with
      list := w.list ++ [{ ordinal := (s.work c.slot).list.length, rung := c.rung, time := c.nominal, monitor := 0,
                           outcome := .pending, torn := none }]
      firstTrigger := if (s.work c.slot).list.length = 0 then some s.tbu.clock else w.firstTrigger })
    (fun _ => rfl) fun _ => rfl
  obtain ⟨htimer, hmove⟩ := h.sequenced.still (by rw [hl]; nofun)
  have hctx := h.sequenced.ctx
  rw [hl] at hctx
  refine ⟨⟨hadded.plates, hadded.desk, hadded.books, hadded.passes, ⟨hctx, fun hm => ?_,
    ⟨fun hm => absurd hm hmove, nofun⟩, fun _ => ?_⟩, hadded.streams, hadded.access⟩, hadded.seated⟩
  · have hm : s.tbu.timers.move.isSome = true := hm
    rw [htimer] at hm
    cases hm
  · change s.csq.ctx.map _ = _
    rw [hc]
    exact congrArg some hd

/-! ## The delivery link -/

/-- A change of the stream that leaves its cell and slot, and what it reads. -/
theorem State.Orderly.onDlt (h : s.Orderly) {f : Dlt → Dlt} (hq : (f s.dlt).queue = s.dlt.queue)
    (hs : (f s.dlt).stream.map (fun t => (t.cell, t.slot)) = s.dlt.stream.map fun t => (t.cell, t.slot))
    (hstreams : (f s.dlt).Streams)
    (hread : ∀ k y, s.fsc.access = some { work := .deliver k y, result := .used } →
      (s.dlt.stream.any fun x => x.slot == some k && x.buffer == .reading && y == x.nextRow) = true →
      ((f s.dlt).stream.any fun x => x.slot == some k && x.buffer == .reading && y == x.nextRow) = true) :
    (s.onDlt f).Orderly := by
  have hdesk : (s.onDlt f).desk = s.desk := by
    simp only [State.desk, State.onDlt_dlt, hq, hs]
    rfl
  exact ⟨⟨h.plates, hdesk ▸ h.desk, h.books, h.passes,
    ⟨h.sequenced.ctx, h.sequenced.timer, h.sequenced.move, h.sequenced.cleared⟩, hstreams,
    State.accessLaw_of_kept (kept := fun _ => True) h.access (fun a ha _ => ⟨ha, fun _ _ => trivial⟩) (fun _ _ => rfl)
      (fun _ _ hj => hj) hread⟩, h.seated⟩

theorem Dlt.sendNext_stream (d : Dlt) : d.sendNext.stream = d.stream ∧ d.sendNext.queue = d.queue := by
  unfold Dlt.sendNext
  repeat' split
  all_goals exact ⟨rfl, rfl⟩

theorem Stream.askRow_same (t : Stream) (n : Nat) : (t.askRow n).cell = t.cell ∧ (t.askRow n).slot = t.slot
    ∧ (t.askRow n).nextRow = t.nextRow ∧ (t.buffer = .reading → (t.askRow n).buffer = .reading) := by
  unfold Stream.askRow
  split
  · exact ⟨rfl, rfl, rfl, fun _ => rfl⟩
  · exact ⟨rfl, rfl, rfl, id⟩

theorem State.Orderly.serveLink (h : s.Orderly) : s.serveLink.Orderly := by
  obtain ⟨hstream, hqueue⟩ := s.dlt.sendNext_stream
  refine h.onDlt hqueue ?_ (h.streams.sendNext.askRow _) fun k y _ hread => ?_
  · dsimp only
    rw [hstream, Option.map_map]
    congr 1
    funext t
    obtain ⟨hc, hs, -⟩ := t.askRow_same s.geometry.height
    rw [Function.comp_apply, hc, hs]
  · obtain ⟨z, hz, hb⟩ := (Option.any_eq_true _ _).mp hread
    simp only [Bool.and_eq_true, beq_iff_eq] at hb
    obtain ⟨⟨hk, hreading⟩, hy⟩ := hb
    obtain ⟨-, hs, hn, hr⟩ := z.askRow_same s.geometry.height
    dsimp only
    rw [hstream, hz, Option.map_some, Option.any_some, hs, hn, hr hreading, hk, hy]
    simp

theorem State.Orderly.linkFreed (h : s.Orderly) : (s.onDlt fun d => { d with link := none }).Orderly :=
  h.onDlt rfl rfl (.of_dead h.streams.coherent nofun) fun _ _ _ hd => hd

/-- The end of a unit, by a change of the stream that leaves its cell, its slot and what it reads. -/
theorem State.Orderly.unitSent (h : s.Orderly) {f : Stream → DeliveryUnit → Stream}
    (hco : ∀ u t, s.dlt.link = some u → u.live = true → s.dlt.stream = some t → (f t u.content).coherent = true)
    (hsame : ∀ t v, (f t v).cell = t.cell ∧ (f t v).slot = t.slot)
    (hread : ∀ u t, s.dlt.link = some u → u.live = true → s.dlt.stream = some t → t.buffer = .reading →
      (f t u.content).buffer = .reading ∧ (f t u.content).nextRow = t.nextRow) :
    (s.onDlt fun d => d.unitSent f).Orderly := by
  have hparts : (s.dlt.unitSent f).queue = s.dlt.queue ∧ ((s.dlt.unitSent f).stream = s.dlt.stream
      ∨ ∃ u, s.dlt.link = some u ∧ u.live = true ∧ (s.dlt.unitSent f).stream = s.dlt.stream.map fun t => f t u.content) := by
    unfold Dlt.unitSent
    split
    · exact ⟨rfl, .inl rfl⟩
    · rename_i u hu
      refine ⟨rfl, ?_⟩
      by_cases hl : u.live = true
      · exact .inr ⟨u, hu, hl, by simp [hl]⟩
      · exact .inl (by simp [hl])
  obtain ⟨hqueue, hstream | ⟨u, hu, hl, hstream⟩⟩ := hparts
  · exact h.onDlt hqueue (by rw [hstream]) (h.streams.unitSent hco) fun k y _ hd => by rw [hstream]; exact hd
  · refine h.onDlt hqueue ?_ (h.streams.unitSent hco) fun k y _ hd => ?_
    · rw [hstream, Option.map_map]
      congr 1
      funext t
      rw [Function.comp_apply, (hsame t _).1, (hsame t _).2]
    · obtain ⟨z, hz, hb⟩ := (Option.any_eq_true _ _).mp hd
      simp only [Bool.and_eq_true, beq_iff_eq] at hb
      obtain ⟨⟨hk, hreading⟩, hy⟩ := hb
      obtain ⟨hb', hn⟩ := hread u z hu hl hz hreading
      rw [hstream, hz, Option.map_some, Option.any_some, (hsame z _).2, hb', hn, hk, hy]
      simp

theorem Stream.advance_same (t : Stream) (p : StreamPhase) : (t.advance p).cell = t.cell ∧ (t.advance p).slot = t.slot
    ∧ (t.advance p).buffer = t.buffer ∧ (t.advance p).nextRow = t.nextRow := by
  unfold Stream.advance
  split <;> exact ⟨rfl, rfl, rfl, rfl⟩

theorem State.Orderly.advance (h : s.Orderly) {p : StreamPhase} (hp : p = .header ∨ p = .rows) :
    (s.onDlt fun d => d.unitSent fun t _ => t.advance p).Orderly := by
  refine h.unitSent (fun u t _ _ ht => Stream.coherent_advance (h.streams.coherent t ht) hp) (fun t _ => ?_)
    fun u t _ _ _ hb => ?_
  · obtain ⟨hc, hs, -⟩ := t.advance_same p
    exact ⟨hc, hs⟩
  · obtain ⟨-, -, hb', hn⟩ := t.advance_same p
    exact ⟨hb'.trans hb, hn⟩

theorem State.Orderly.rowSent (h : s.Orderly) :
    (s.onDlt fun d => d.unitSent fun t u => t.rowSent s.geometry.height u).Orderly := by
  refine h.unitSent (fun u t _ _ ht => Stream.coherent_rowSent (h.streams.coherent t ht) _ _) (fun t v => ?_)
    fun u t hu hl ht hb => ?_
  · unfold Stream.rowSent
    split <;> exact ⟨rfl, rfl⟩
  · obtain ⟨t', ht', htake⟩ := h.streams.takes hu hl
    rw [ht] at ht'
    cases ht'
    cases hc : u.content with
    | row y codes =>
      rw [hc] at htake
      obtain ⟨⟨full, hfull⟩, -⟩ := htake
      rw [hb] at hfull
      cases hfull
    | _ => exact ⟨hb, rfl⟩

end

end Sys2Proof.Machine
end

section
/-! PROOFS. The moves of the store's accesses and of the streams: an access granted and completed, the clear and the pass that
end with it, and a stream that starts and ends (R67, R74, R77, R141, R153, R159). They keep the laws on the work of cells. -/

namespace Sys2Proof.Machine

-- One proof at a time: under the memory limit of the check there is no room for the stacks of many threads.
set_option Elab.async false

section

variable {s t : State} {c : CellRef} {k : SlotNo}

/-! ## Accesses granted, stopped and completed -/

/-- The access and the bytes change, in a way the laws allow. -/
theorem State.Orderly.onFsc (h : s.Orderly) {f : Fsc → Fsc} (hh : (f s.fsc).held = s.fsc.held)
    (ho : (f s.fsc).holders = s.fsc.holders) (ha : (s.onFsc f).accessLaw) : (s.onFsc f).Orderly := by
  have hdesk : (s.onFsc f).desk = s.desk := by
    simp only [State.desk, State.onFsc_fsc, ho]
    rfl
  refine ⟨⟨h.plates, hdesk ▸ h.desk, fun j => ?_, h.passes,
    ⟨h.sequenced.ctx, h.sequenced.timer, h.sequenced.move, h.sequenced.cleared⟩, h.streams, ha⟩, h.seated⟩
  change (f s.fsc).held.get j = ((f s.fsc).holders.get j).isSome ∧ (s.work j).owner = (f s.fsc).holders.get j
  rw [hh, ho]
  exact h.books j

theorem State.Orderly.accessDone (h : s.Orderly) : s.accessDone.Orderly := h.onFsc rfl rfl nofun

theorem State.Orderly.writeRow (h : s.Orderly) (row : Option StoreRow) : (s.writeRow row).Orderly := by
  cases row with
  | none => exact h
  | some r => exact h.congr rfl rfl rfl rfl rfl rfl rfl rfl rfl rfl rfl rfl

theorem State.Orderly.stopAccess (h : s.Orderly) (p : StoreWork → Bool) : (s.stopAccess p).Orderly :=
  h.onFsc rfl rfl (State.accessLaw_of_kept (s := s) (t := s.stopAccess p) (kept := fun _ => True) h.access
    (fun _ ha hu => ⟨(stopAccess_used ha hu).1, fun _ _ => trivial⟩) (fun _ _ => rfl) (fun _ _ hj => hj) fun _ _ _ hd => hd)

/-- Work that waits at the arbiter is work under way. -/
theorem State.belongs_of_waiting {w : StoreWork} (hw : w ∈ s.works) :
    s.accessBelongs { work := w, result := .used } = true := by
  unfold State.works at hw
  obtain hw | hw := List.mem_append.mp hw
  · obtain ⟨-, hw⟩ := List.mem_ite_nil_right.mp hw
    obtain rfl := List.mem_singleton.mp hw
    rfl
  · obtain ⟨hw, -⟩ := List.mem_filter.mp hw
    simp only [List.mem_append, Option.mem_toList] at hw
    obtain (((hw | hw) | hw) | hw) | hw := hw
    · obtain ⟨j, hj, rfl⟩ := Option.map_eq_some_iff.mp hw
      exact List.find?_some (p := fun i => (s.work i).state == .clearing) hj
    · unfold State.headWork? at hw
      split at hw
      · split at hw
        · rename_i r _ _ hr
          split at hw
          · rename_i j o hdest
            cases hw
            simp only [State.rowDiscarded, hdest, State.rowWanted, Bool.and_eq_true, Bool.not_eq_true',
              Bool.and_eq_false_iff, Bool.not_eq_false'] at hr
            obtain ⟨hrel, hr⟩ := hr
            obtain hr | hr := hr
            · rw [hrel] at hr
              cases hr
            · exact hr.1.1.1
          · cases hw
            rfl
        · cases hw
      · cases hw
    · unfold State.passWork? at hw
      split at hw
      · split at hw
        · cases hw
          rfl
        · cases hw
          rfl
        · cases hw
      · cases hw
    · unfold State.finalWork? at hw
      split at hw
      · rename_i j rest hq
        split at hw
        · cases hw
          simp [State.accessBelongs, hq]
        · cases hw
      · cases hw
    · unfold State.deliveryWork? at hw
      split at hw
      · rename_i z hz
        split at hw
        · rename_i j hb hk
          cases hw
          simp [State.accessBelongs, hz, hb, hk]
        · cases hw
      · cases hw

theorem State.Orderly.arbitrate (h : s.Orderly) : s.arbitrate.Orderly := by
  have hgrant : s.grant.Orderly := by
    unfold State.grant
    split
    · rename_i w rest hacc hw
      split
      · refine (h.onFsc rfl rfl (f := fun f => { f with access := some { work := w, result := .used } })
          fun a ha => ?_).congr rfl rfl rfl rfl rfl rfl rfl rfl rfl rfl rfl rfl
        cases ha
        exact State.belongs_of_waiting (s := s) (by rw [hw]; exact List.mem_cons_self)
      · exact h
    · exact h
  exact hgrant.congr rfl rfl rfl rfl rfl rfl rfl rfl rfl rfl rfl rfl

theorem State.Orderly.mergeDone (h : s.Orderly) (k : SlotNo) (o y : Nat) (codes : List CameraCode) :
    (s.accessDone.mergeDone k o y codes).Orderly :=
  (h.accessDone.writeRow (some (s.accessDone.mergedStoreRow k o y codes))).onWork (fun _ => rfl) fun _ => rfl

theorem State.Orderly.readDone (h : s.Orderly) {y : Nat}
    (ha : s.fsc.access = some { work := .deliver k y, result := .used }) : (s.accessDone.fillBuffer k y).Orderly := by
  have hread := h.access _ ha
  refine h.accessDone.onDlt rfl ?_ (h.streams.fillBuffer (k := k) (y := y) hread _) nofun
  rw [Option.map_map]
  rfl

/-! ## The clear -/

/-- The try of a slot whose record is CLEARING. -/
theorem State.Worked.ctx_of_clearing (h : s.Worked) (hk : (s.work k).state = .clearing) :
    ∃ d, s.csq.ctx = some d ∧ d.slot = k := by
  have hstage : s.desk.stage k = .clearing := stage_eq_clearing.mpr hk
  have hsome : s.desk.holder k ≠ none := fun hn => by
    rw [h.desk.free.mpr hn] at hstage
    cases hstage
  obtain ⟨c, hc⟩ := Option.ne_none_iff_exists'.mp hsome
  obtain ⟨st, hplace⟩ := h.desk.holder.mp hc
  have hwork := h.desk.work hplace
  rw [hstage] at hwork
  have hst : st = .exposing := by cases st <;> simp [CellState.workStates] at hwork ⊢
  subst hst
  have hexp := h.desk.exposing hplace
  obtain ⟨d, hd, hdc⟩ : ∃ d, s.csq.ctx = some d ∧ d.cell = c := by simpa [State.desk] using hexp
  have htried := h.desk.tried (c := d.cell) (k := d.slot) (b := d.clearComplete) (by simp [State.desk, hd])
  rw [hdc, hplace] at htried
  cases htried
  exact ⟨d, hd, rfl⟩

theorem State.Orderly.clearDone (h : s.Orderly) {y : Nat}
    (ha : s.fsc.access = some { work := .clear k y, result := .used }) : (s.accessDone.clearRowDone k y).Orderly := by
  have hclearing : (s.work k).state = .clearing := by simpa [State.accessBelongs] using h.access _ ha
  obtain ⟨d, hd, hdk⟩ := h.ctx_of_clearing hclearing
  have hrow : ((s.accessDone.writeRow (some (s.accessDone.clearedStoreRow k y))).onWork k fun w =>
      { w with rowsCleared := y + 1 }).Orderly := (h.accessDone.writeRow _).onWork (fun _ => rfl) fun _ => rfl
  unfold State.clearRowDone
  dsimp only
  split
  · obtain ⟨u, hu⟩ : ∃ u, u = (s.accessDone.writeRow (some (s.accessDone.clearedStoreRow k y))).onWork k fun w =>
        { w with rowsCleared := y + 1 } := ⟨_, rfl⟩
    rw [← hu] at hrow ⊢
    have huctx : u.csq.ctx = some d := by rw [hu]; exact hd
    have huacc : u.fsc.access = none := by rw [hu]; rfl
    have hustate : (u.work k).state = .clearing := by
      rw [hu, State.onWork_work, if_pos rfl]
      exact hclearing
    rw [show s.accessDone.csq.ctx = some d from hd]
    dsimp only
    rw [if_pos hdk]
    obtain ⟨t, ht⟩ : ∃ t, t = (u.onWork k fun w => { w with state := .accumulating }).onCtx fun x =>
        { x with clearComplete := true } := ⟨_, rfl⟩
    rw [← ht]
    have htctx : t.csq.ctx = some { d with clearComplete := true } := by
      rw [ht]
      change u.csq.ctx.map _ = _
      rw [huctx]
      rfl
    have htwork (j : SlotNo) : t.work j = if j = k then { u.work k with state := .accumulating } else u.work j := by
      rw [ht]
      change (u.onWork k fun w => { w with state := .accumulating }).work j = _
      exact State.onWork_work (fun w => { w with state := .accumulating }) j
    have htdesk : t.desk = { u.desk with
        stage := Function.update u.desk.stage k .accumulating, ctx := some (d.cell, k, true) } := by
      have hstage : t.desk.stage = Function.update u.desk.stage k .accumulating := by
        funext j
        rw [Function.update_apply]
        change (t.work j).state.stage = _
        rw [htwork]
        split
        · rfl
        · rfl
      have hctx : t.desk.ctx = some (d.cell, k, true) := by
        change t.csq.ctx.map _ = _
        rw [htctx, ← hdk]
        rfl
      calc t.desk = ⟨t.desk.place, t.desk.holder, t.desk.stage, t.desk.ctx, t.desk.queue, t.desk.stream⟩ := rfl
        _ = _ := by
          rw [hstage, hctx, ht]
          rfl
    have hcsq : t.csq = { u.csq with ctx := t.csq.ctx } := by rw [ht]; rfl
    have hctxs : t.csq.ctx.isSome = u.csq.ctx.isSome := by rw [htctx, huctx]; rfl
    refine ⟨⟨by rw [ht]; exact hrow.plates, ?_, fun j => ?_, ?_, ⟨?_, ?_, ?_, fun _ => ?_⟩,
      by rw [ht]; exact hrow.streams, fun a ha' => ?_⟩, fun e he => ?_⟩
    · rw [htdesk]
      exact hrow.desk.restaged (b := d.clearComplete) (b' := true) (by simp [State.desk, huctx, hdk]) rfl
    · have howner : (t.work j).owner = (u.work j).owner := by
        rw [htwork]
        split
        · rename_i hj
          rw [hj]
        · rfl
      rw [howner, ht]
      exact hrow.books j
    · refine hrow.passes.beside (s := u) (t := t) (k := k) (by rw [ht]; rfl) (fun j hj => by rw [htwork, if_neg hj])
        (by rw [hustate]; exact ⟨nofun, nofun⟩) ?_
      rw [htwork, if_pos rfl]
      exact ⟨nofun, nofun⟩
    · rw [hctxs, hcsq]
      exact hrow.sequenced.ctx
    · rw [hcsq, ht]
      exact hrow.sequenced.timer
    · rw [hcsq]
      exact hrow.sequenced.move
    · rw [htctx]
      rfl
    · have hnone : t.fsc.access = none := by rw [ht]; exact huacc
      rw [hnone] at ha'
      cases ha'
    · rw [htctx] at he
      cases he
      rw [ht]
      exact hrow.seated d huctx
  · exact hrow

/-! ## The pass -/

/-- The records after a pass, before the next starts. -/
def State.passEnded (s : State) (k : SlotNo) : State :=
  (s.onWork k fun w => w.coded s.tbu.clock).onMge fun x => { x with queue := x.queue.filter fun j => j != k }

theorem State.passComplete_of_owner (s : State) (hc : (s.work k).owner = some c) : s.passComplete k =
    ((s.passEnded k).startPass.changeCell c (CellRecord.finalized (s.work k).passSummary) id).onDlt fun d =>
      { d with queue := d.queue ++ [c] } :=
  State.passComplete_eq hc

theorem State.passEnded_work (s : State) (k j : SlotNo) :
    (s.passEnded k).work j = if j = k then (s.work k).coded s.tbu.clock else s.work j := by
  change (s.onWork k fun w => w.coded s.tbu.clock).work j = _
  exact State.onWork_work _ j

theorem State.Orderly.passComplete (hreg : s.registerLaw) (h : s.Orderly) (hk : (s.work k).state = .running)
    (hacc : s.fsc.access = none) : (s.passComplete k).Orderly := by
  have hstage : s.desk.stage k = .queued := by
    change (s.work k).state.stage = _
    rw [hk]
    rfl
  obtain ⟨c, hc⟩ := Option.ne_none_iff_exists'.mp fun hn : s.desk.holder k = none => by
    rw [h.desk.free.mpr hn] at hstage
    cases hstage
  obtain ⟨st, hplace⟩ := h.desk.holder.mp hc
  have hwork := h.desk.work hplace
  rw [hstage] at hwork
  have hst : st = .finalizing := by cases st <;> simp [CellState.workStates] at hwork ⊢
  subst hst
  obtain ⟨x, hx, hxst, hxk⟩ := desk_place.mp hplace
  have howner : (s.work k).owner = some c := ((h.books k).2).trans hc
  rw [State.passComplete_of_owner s howner]
  generalize (s.work k).passSummary = m
  have hrecord := (s.passEnded k).startPass_record
  have hpasses : (s.passEnded k).startPass.mge.Passes := by
    refine h.passes.startPass_without (s := s) (t := s.passEnded k) (k := k) rfl ?_ fun j hj => ?_
    · rw [State.passEnded_work, if_pos rfl]
      exact ⟨nofun, nofun⟩
    · rw [State.passEnded_work, if_neg hj]
  obtain ⟨u, hu⟩ : ∃ u, u = (s.passEnded k).startPass := ⟨_, rfl⟩
  have huplates : u.plates = s.plates := by rw [hu]; simp [State.passEnded]
  have hucsq : u.csq = s.csq := by rw [hu]; simp [State.passEnded]
  have hutbu : u.tbu = s.tbu := by rw [hu]; simp [State.passEnded]
  have hufsc : u.fsc = s.fsc := by rw [hu]; simp [State.passEnded]
  have hudlt : u.dlt = s.dlt := by rw [hu]; simp [State.passEnded]
  rw [← hu] at hrecord hpasses ⊢
  have hustage : u.desk.stage = Function.update s.desk.stage k .coded := by
    funext j
    rw [Function.update_apply]
    refine (hrecord j).1.trans ?_
    rw [State.stage, State.passEnded_work]
    split
    · rfl
    · rfl
  have hucell : u.cell? c = some x := by rw [State.cell?, plate?_congr huplates]; exact hx
  obtain ⟨-, -, -, -, -, hcsq, hmge, -, -, hfsc, hdlt, -⟩ := u.changeCell_frame c (CellRecord.finalized m) id
  have htimers := (u.changeCell_timers c (CellRecord.finalized m) id).1
  obtain ⟨v, hv⟩ : ∃ v, v = u.changeCell c (CellRecord.finalized m) id := ⟨_, rfl⟩
  have hvplace : v.desk.place = Function.update s.desk.place c (some (.merged, some k)) := by
    rw [hv, desk_changeCell (f := CellRecord.finalized m) (fun _ => ⟨rfl, rfl⟩) PlateRecord.sameCells_id hucell]
    change Function.update u.desk.place c (some (.merged, x.slot)) = _
    rw [place_congr huplates, hxk]
  have hctx : ∀ d, s.csq.ctx = some d → c ≠ d.cell := fun d hd =>
    (h.desk.ctx_ne hplace (by decide) (x := d.cell) (j := d.slot) (b := d.clearComplete) (by simp [State.desk, hd])).1.symm
  have hvplates : v.plates = (s.changeCell c (CellRecord.finalized m) id).plates := by
    rw [hv, changeCell_plates, changeCell_plates]
    simp only [State.changeCellQuiet, State.onPlate, State.onPlates_plates, huplates, hutbu]
  rw [← hv] at hcsq hmge hfsc hdlt htimers ⊢
  have hsound : (v.onDlt fun d => { d with queue := d.queue ++ [c] }).desk.Sound := by
    refine h.desk.merged (c := c) (k := k) ⟨hvplace, ?_, ?_⟩ hplace ?_ ?_ ?_
    · simp only [State.desk, State.onDlt_fsc, hfsc, hufsc]
    · refine Eq.trans ?_ hustage
      simp only [State.desk, State.work, State.onDlt_mge, hmge]
    · simp only [State.desk, State.onDlt_csq, hcsq, hucsq]
    · simp only [State.desk, State.onDlt_dlt, hdlt, hudlt]
    · simp only [State.desk, State.onDlt_dlt, hdlt, hudlt]
  refine ⟨⟨?_, hsound, fun j => ?_, hmge ▸ hpasses, h.sequenced.congr (hcsq.trans hucsq) (htimers.trans (by rw [hutbu])),
    h.streams.congr ?_ ?_, fun a ha => ?_⟩, ?_⟩
  · rw [State.plateLaw, State.onDlt_plates, hvplates]
    exact plateLaw_changeCell hreg h.plates (fun _ => rfl) (State.open_of_cell h.plates hx (by rw [hxst]; rfl))
  · change v.fsc.held.get j = (v.fsc.holders.get j).isSome ∧ (v.work j).owner = v.fsc.holders.get j
    rw [hfsc, hufsc]
    refine ⟨(h.books j).1, Eq.trans ?_ (h.books j).2⟩
    rw [State.work, hmge]
    refine (hrecord j).2.trans ?_
    rw [State.passEnded_work]
    split
    · rename_i hj
      rw [hj]
      rfl
    · rfl
  · rw [State.onDlt_dlt, hdlt, hudlt]
  · rw [State.onDlt_dlt, hdlt, hudlt]
  · have hnone : v.fsc.access = none := by rw [hfsc, hufsc]; exact hacc
    have ha : v.fsc.access = some a := ha
    rw [hnone] at ha
    cases ha
  · refine State.seatLaw_congr (s := s.changeCell c (CellRecord.finalized m) id)
      (seatLaw_changeCell PlateRecord.sameCells_id (fun _ => rfl) h.seated h.desk hctx) hvplates ?_
    obtain ⟨-, -, -, -, -, hkeep, -⟩ := s.changeCell_frame c (CellRecord.finalized m) id
    rw [State.onDlt_csq, hcsq, hucsq, hkeep]

/-- A row of a pass written, with the totals it brings. -/
def State.finalStored (s : State) (k : SlotNo) (y : Nat) : State :=
  (s.writeRow (some (s.densityStoreRow k y))).onWork k fun w =>
    { w with
      rowsFinalized := y + 1
      histogram := (s.passTotals k y).histogram
      passClipLight := (s.passTotals k y).clipLight
      passClipDark := (s.passTotals k y).clipDark
      passDead := (s.passTotals k y).dead }

theorem State.finalRowDone_eq (s : State) (k : SlotNo) (y : Nat) : s.finalRowDone k y =
    if s.geometry.height ≤ y + 1 then (s.finalStored k y).passComplete k else s.finalStored k y := rfl

theorem State.Orderly.finalStored (h : s.Orderly) (k : SlotNo) (y : Nat) : (s.finalStored k y).Orderly :=
  (h.writeRow _).onWork (fun _ => rfl) fun _ => rfl

theorem State.finalStored_state (s : State) (k : SlotNo) (y : Nat) : ((s.finalStored k y).work k).state = (s.work k).state := by
  unfold State.finalStored
  rw [State.onWork_work, if_pos rfl]
  cases s.densityStoreRow k y
  rfl

theorem State.Orderly.running_of_access (h : s.Orderly) {y : Nat}
    (ha : s.fsc.access = some { work := .finalize k y, result := .used }) : (s.work k).state = .running := by
  have hhead : s.mge.queue.head? = some k := by simpa [State.accessBelongs] using h.access _ ha
  exact h.passes.head.mpr hhead

theorem State.Orderly.finalDone (hreg : s.registerLaw) (h : s.Orderly) {y : Nat}
    (ha : s.fsc.access = some { work := .finalize k y, result := .used }) : (s.accessDone.finalRowDone k y).Orderly := by
  have hrow := h.accessDone.finalStored k y
  rw [State.finalRowDone_eq]
  split
  · exact hrow.passComplete (k := k) hreg ((State.finalStored_state _ k y).trans (h.running_of_access ha)) rfl
  · exact hrow

/-! ## The streams -/

/-- A stream at its START. -/
def Stream.fresh (c : CellRef) (k : SlotNo) (mirrored : Bool) (header : HeaderRecord) : Stream :=
  { cell := some c, slot := some k, mirrored := mirrored, phase := .start, nextRow := 0, buffer := .empty, cut := false,
    crc := crc32Start, header := header }

/-- A MERGED cell's stream starts (R153). -/
theorem State.Orderly.startStream (hreg : s.registerLaw) (h : s.Orderly) (hs : s.dlt.stream = none)
    (hc : ∃ sl, s.desk.place c = some (.merged, sl)) : (s.startStream c).Orderly := by
  obtain ⟨sl, hplace⟩ := hc
  obtain ⟨k, rfl⟩ := Option.isSome_iff_exists.mp (h.desk.slot hplace)
  obtain ⟨x, hx, hxst, hxk⟩ := desk_place.mp hplace
  obtain ⟨r, hr, -⟩ := exists_plate_of_cell hx
  obtain ⟨z, hz, heq⟩ : ∃ z, z = Stream.fresh c k (r.emulsion == .down) (s.buildHeader r x (s.work k)) ∧ s.startStream c
      = ((s.dequeue c).changeCell c (fun y => { y with state := .delivering }) id).onDlt fun d =>
        { d with stream := some z } := by
    refine ⟨_, rfl, ?_⟩
    unfold State.startStream
    rw [hr, hx]
    dsimp only
    rw [hxk]
    rfl
  rw [heq]
  obtain ⟨-, -, -, -, -, hcsq, hmge, -, -, hfsc, hdlt, -⟩ :=
    (s.dequeue c).changeCell_frame c (fun y => { y with state := .delivering }) id
  have htimers := ((s.dequeue c).changeCell_timers c (fun y => { y with state := .delivering }) id).1
  obtain ⟨v, hv⟩ : ∃ v, v = (s.dequeue c).changeCell c (fun y => { y with state := .delivering }) id := ⟨_, rfl⟩
  have hvplates : v.plates = (s.changeCell c (fun y => { y with state := .delivering }) id).plates := by
    rw [hv, changeCell_plates, changeCell_plates]
    rfl
  have hvplace : v.desk.place = Function.update s.desk.place c (some (.delivering, some k)) := by
    rw [place_congr hvplates, desk_changeCell (f := fun y => { y with state := .delivering }) (fun _ => ⟨rfl, rfl⟩)
      PlateRecord.sameCells_id hx, ← hxk]
  have hctx : ∀ d, s.csq.ctx = some d → c ≠ d.cell := fun d hd =>
    (h.desk.ctx_ne hplace (by decide) (x := d.cell) (j := d.slot) (b := d.clearComplete) (by simp [State.desk, hd])).1.symm
  have hcoded : s.desk.stage k = .coded := by simpa [CellState.workStates] using h.desk.work hplace
  rw [← hv] at hcsq hmge hfsc hdlt htimers ⊢
  have hsound : (v.onDlt fun d => { d with stream := some z }).desk.Sound := by
    refine h.desk.streamStarted (c := c) (k := k) ⟨hvplace, ?_, ?_⟩ hplace ?_ ?_ (by simp [State.desk, hs]) ?_
    · simp only [State.desk, State.onDlt_fsc, hfsc]
      rfl
    · rw [← hcoded, Function.update_eq_self]
      simp only [State.desk, State.work, State.onDlt_mge, hmge]
      rfl
    · simp only [State.desk, State.onDlt_csq, hcsq]
      rfl
    · simp only [State.desk, State.onDlt_dlt, hdlt]
      rfl
    · simp only [State.desk, State.onDlt_dlt, hz, Option.map_some, Stream.fresh]
  refine ⟨⟨?_, hsound, fun j => ?_, ?_, h.sequenced.congr hcsq htimers, ?_, fun a ha => ?_⟩, ?_⟩
  · rw [State.plateLaw, State.onDlt_plates, hvplates]
    exact plateLaw_changeCell hreg h.plates (fun _ => rfl) (State.open_of_cell h.plates hx (by rw [hxst]; rfl))
  · change v.fsc.held.get j = (v.fsc.holders.get j).isSome ∧ (v.work j).owner = v.fsc.holders.get j
    rw [hfsc, State.work, hmge]
    exact h.books j
  · exact hmge ▸ h.passes
  · refine .of_dead (fun t ht => ?_) fun u hu => ?_
    · cases ht
      rw [hz]
      rfl
    · have hlink : s.dlt.link = some u := by
        have hu : v.dlt.link = some u := hu
        rw [hdlt] at hu
        exact hu
      by_contra hl
      obtain ⟨t, ht, -⟩ := h.streams.takes hlink (Bool.not_eq_false _ |>.mp hl)
      rw [hs] at ht
      cases ht
  · refine State.accessLaw_of_kept (s := s) (kept := fun _ => True) h.access (fun b hb _ => ⟨?_, fun _ _ => trivial⟩)
      (fun j _ => ?_) (fun j _ hj => ?_) (fun j y _ hd => ?_) a ha
    · have hb : v.fsc.access = some b := hb
      rw [hfsc] at hb
      exact hb
    · change ((v.work j).state).stage = _
      rw [State.work, hmge]
      rfl
    · change v.mge.queue.head? = _
      rw [hmge]
      exact hj
    · rw [hs] at hd
      cases hd
  · refine State.seatLaw_congr (s := s.changeCell c (fun y => { y with state := .delivering }) id)
      (seatLaw_changeCell PlateRecord.sameCells_id (fun _ => rfl) h.seated h.desk hctx) hvplates ?_
    obtain ⟨-, -, -, -, -, hkeep, -⟩ := s.changeCell_frame c (fun y => { y with state := .delivering }) id
    rw [State.onDlt_csq, hcsq, hkeep]
    rfl

/-- Without a stream no read is under way whose result is used. -/
theorem State.Worked.accessLaw_streamless (h : s.Worked) (hstage : ∀ j, t.stage j = s.stage j)
    (hhead : t.mge.queue = s.mge.queue) (ha : t.fsc.access = s.fsc.access)
    (hread : ∀ x, s.dlt.stream = some x → x.buffer ≠ .reading) : t.accessLaw :=
  State.accessLaw_of_kept (kept := fun _ => True) h.access (fun b hb _ => ⟨ha ▸ hb, fun _ _ => trivial⟩)
    (fun j _ => hstage j) (fun j _ hj => hhead ▸ hj) fun j y _ hd => by
      obtain ⟨z, hz, hb⟩ := (Option.any_eq_true _ _).mp hd
      simp only [Bool.and_eq_true, beq_iff_eq] at hb
      exact absurd hb.1.2 (hread z hz)

/-- While an END of the stream is sent no row is read. -/
theorem State.Worked.unread_of_finish (h : s.Worked) (hf : s.dlt.sending DeliveryUnit.isFinish = true) :
    ∀ x, s.dlt.stream = some x → x.buffer ≠ .reading := by
  intro x hx hb
  unfold Dlt.sending at hf
  split at hf
  · rename_i u hu
    obtain ⟨hl, hc⟩ := (Bool.and_eq_true _ _).mp hf
    obtain ⟨t, ht, htake⟩ := h.streams.takes hu hl
    rw [hx] at ht
    cases ht
    obtain ⟨-, -, -, hreading⟩ := Stream.coherent_iff.mp (h.streams.coherent x hx)
    cases hcontent : u.content with
    | finish a b c =>
      rw [hcontent] at htake
      have htake : x.phase = .finish := htake
      obtain hp | hp := hreading hb <;> rw [htake] at hp <;> cases hp
    | _ => simp [hcontent, DeliveryUnit.isFinish] at hc
  · cases hf

/-- The link freed of the stream and its END. -/
def State.unstreamed (s : State) : State := s.onDlt fun d => { d with link := none, stream := none }

theorem State.streamEnded_of_cell (hc : s.dlt.stream.bind (·.cell) = some c) :
    s.streamEnded = s.unstreamed.changeCell c (fun x => { x with state := .delivered }) id := by
  unfold State.streamEnded
  simp only [hc]
  rfl

theorem State.streamEnded_of_cut (hc : s.dlt.stream.bind (·.cell) = none) : s.streamEnded = s.unstreamed := by
  unfold State.streamEnded
  simp only [hc]
  rfl

theorem State.Orderly.cutStreamEnded (h : s.Orderly) (hread : ∀ x, s.dlt.stream = some x → x.buffer ≠ .reading)
    (hcell : s.dlt.stream.bind (·.cell) = none) : s.unstreamed.Orderly :=
  ⟨⟨h.plates, h.desk.unstreamed (by rw [← hcell]; simp [State.desk, Option.bind_map]), h.books, h.passes,
    ⟨h.sequenced.ctx, h.sequenced.timer, h.sequenced.move, h.sequenced.cleared⟩, .of_dead nofun nofun,
    h.accessLaw_streamless (fun _ => rfl) rfl rfl hread⟩, h.seated⟩

/-- The desk after the END of a cell's stream. -/
theorem State.Orderly.delivered_desk (h : s.Orderly) (hplace : s.desk.place c = some (.delivering, some k)) :
    (s.unstreamed.changeCell c (fun x => { x with state := .delivered }) id).desk.Sound := by
  obtain ⟨x, hx, -, hxk⟩ := desk_place.mp hplace
  obtain ⟨-, -, -, -, -, hcsq, hmge, -, -, hfsc, hdlt, -⟩ :=
    s.unstreamed.changeCell_frame c (fun x => { x with state := .delivered }) id
  have hvplace : (s.unstreamed.changeCell c (fun x => { x with state := .delivered }) id).desk.place
      = Function.update s.desk.place c (some (.delivered, some k)) := by
    rw [desk_changeCell (s := s.unstreamed) (f := fun x => { x with state := .delivered }) (fun _ => ⟨rfl, rfl⟩)
      PlateRecord.sameCells_id hx, ← hxk]
    rfl
  have hcoded : s.desk.stage k = .coded := by simpa [CellState.workStates] using h.desk.work hplace
  refine h.desk.streamEnded (c := c) (k := k) ⟨hvplace, ?_, ?_⟩ hplace ?_ ?_ ?_
  · simp only [State.desk, hfsc]
    rfl
  · rw [← hcoded, Function.update_eq_self]
    simp only [State.desk, State.work, hmge]
    rfl
  · simp only [State.desk, hcsq]
    rfl
  · simp only [State.desk, hdlt]
    rfl
  · simp only [State.desk, hdlt]
    rfl

theorem State.Orderly.delivered (hreg : s.registerLaw) (h : s.Orderly)
    (hread : ∀ x, s.dlt.stream = some x → x.buffer ≠ .reading)
    (hplace : s.desk.place c = some (.delivering, some k)) :
    (s.unstreamed.changeCell c (fun x => { x with state := .delivered }) id).Orderly := by
  have hsound := h.delivered_desk hplace
  obtain ⟨x, hx, hxst, -⟩ := desk_place.mp hplace
  have hctx : ∀ d, s.csq.ctx = some d → c ≠ d.cell := fun d hd =>
    (h.desk.ctx_ne hplace (by decide) (x := d.cell) (j := d.slot) (b := d.clearComplete) (by simp [State.desk, hd])).1.symm
  have hplates : (s.unstreamed.changeCell c (fun x => { x with state := .delivered }) id).plateLaw :=
    plateLaw_changeCell (s := s.unstreamed) hreg h.plates (fun _ => rfl)
      (State.open_of_cell (s := s.unstreamed) h.plates hx (by rw [hxst]; rfl))
  have hseat : (s.unstreamed.changeCell c (fun x => { x with state := .delivered }) id).seatLaw := by
    have hseat := seatLaw_changeCell (s := s) (c := c) (f := fun x => { x with state := .delivered }) (g := id)
      PlateRecord.sameCells_id (fun _ => rfl) h.seated h.desk hctx
    obtain ⟨-, -, -, -, -, hcsq, -⟩ := s.unstreamed.changeCell_frame c (fun x => { x with state := .delivered }) id
    obtain ⟨-, -, -, -, -, hcsq', -⟩ := s.changeCell_frame c (fun x => { x with state := .delivered }) id
    refine State.seatLaw_congr hseat ?_ ?_
    · rw [changeCell_plates, changeCell_plates]
      rfl
    · rw [hcsq, hcsq']
      rfl
  obtain ⟨-, -, -, -, -, hcsq, hmge, -, -, hfsc, hdlt, -⟩ :=
    s.unstreamed.changeCell_frame c (fun x => { x with state := .delivered }) id
  have htimers := (s.unstreamed.changeCell_timers c (fun x => { x with state := .delivered }) id).1
  generalize s.unstreamed.changeCell c (fun x => { x with state := .delivered }) id = v at *
  refine ⟨⟨hplates, hsound, fun j => ?_, hmge ▸ h.passes, h.sequenced.congr hcsq htimers, ?_, ?_⟩, hseat⟩
  · rw [hfsc, State.work, hmge]
    exact h.books j
  · rw [hdlt]
    exact .of_dead nofun nofun
  · refine h.accessLaw_streamless (fun j => ?_) (by rw [hmge]; rfl) (by rw [hfsc]; rfl) hread
    rw [State.stage, State.work, hmge]
    rfl

/-- A stream's END is sent (R159, R160). -/
theorem State.Orderly.streamEnded (hreg : s.registerLaw) (h : s.Orderly)
    (hf : s.dlt.sending DeliveryUnit.isFinish = true) : s.streamEnded.Orderly := by
  have hread := h.unread_of_finish hf
  cases hcell : s.dlt.stream.bind (·.cell) with
  | none =>
    rw [State.streamEnded_of_cut hcell]
    exact h.cutStreamEnded hread hcell
  | some c =>
    rw [State.streamEnded_of_cell hcell]
    obtain ⟨z, hz, hzc⟩ := Option.bind_eq_some_iff.mp hcell
    have hplace := h.desk.stream (c := c) (sl := z.slot) (by simp [State.desk, hz, hzc])
    obtain ⟨k, hk⟩ := Option.isSome_iff_exists.mp (h.desk.slot hplace)
    rw [hk] at hplace
    exact h.delivered hreg hread hplace

end

end Sys2Proof.Machine
end

section
/-! PROOFS. O51: every move keeps the laws on the work of cells, and so does every step. -/

namespace Sys2Proof.Machine

-- One proof at a time: under the memory limit of the check there is no room for the stacks of many threads.
set_option Elab.async false

section

variable {s t : State} {b : Bool}

theorem Move.orderly (hreg : s.registerLaw) (hgrid : s.gridLaw) (h : s.Orderly) (hm : Move b s t) : t.Orderly := by
  cases hm with
  | aside ha => exact h.aside ha
  | enqueue hc _ => exact h.of_core hc
  | cold ha => exact orderly_reset.aside ha
  | warm => exact h.warm hreg hgrid
  | passes x hp => exact h.turned hp
  | recontext f hc hs hd => exact h.recontext hc hs hd
  | moveEnds status x hm hst hx ha => exact (h.moveEnds hm hst hx).aside ha
  | sendMove c a hp _ => exact h.sendMove c a hp
  | triggerTry c hl hc hd _ => exact h.triggerTry hl hc hd
  | onLatest k f => exact h.onWork (fun _ => rfl) fun _ => rfl
  | abandonTry => exact (h.toWorked.abandonTry hreg).orderly s.abandonTry_ctx
  | endTry c o hd => exact h.endTry hreg hd o
  | handOver c hd => exact h.handOver hreg hd
  | claim r p k hs hr hp hk _ => exact h.claim hreg hs hr hp hk
  | rehold f => exact h.rehold f
  | enrol k p a e m n now hk _ => exact h.enrol k p a e m n now hk
  | seat r now failed _ _ _ => exact h.seat r.key now failed
  | unseat r _ _ _ => exact h.unseat hreg r.key
  | removePlate r hr hw => exact h.removePlate hr hw
  | withdraw r hr _ _ => exact h.withdraw hreg hgrid hr
  | withdrawUnseated r hr _ hs => exact h.withdrawUnseated hgrid hr hs
  | mark key a e => exact h.mark key a e
  | keep r x hr hx hd => exact h.keep hreg hr hx hd
  | recapture r x hr hx hm _ =>
    exact h.recapture hreg hr hx hm (fun _ => ⟨rfl, rfl⟩) PlateRecord.sameCells_id (fun _ => rfl) ⟨rfl, rfl⟩
  | fail r x hr hx hm _ =>
    exact h.recapture hreg hr hx hm (fun _ => ⟨rfl, rfl⟩) PlateRecord.sameCells_failed (fun _ => rfl) ⟨rfl, rfl⟩
  | setProfile i p _ _ => exact h.congr rfl rfl rfl rfl rfl rfl rfl rfl rfl rfl rfl rfl
  | setGeometry g _ _ => exact h.congr rfl rfl rfl rfl rfl rfl rfl rfl rfl rfl rfl rfl
  | startStream c hs hc =>
    refine h.startStream hreg hs ?_
    obtain hc | ⟨r, x, hr, hx, hst⟩ := hc
    · exact h.desk.queue.mp (List.mem_of_mem_head? hc)
    · exact ⟨x.slot, desk_place.mpr ⟨x, by rw [State.cell?_of_plate hr]; exact hx, hst, rfl⟩⟩
  | serveLink => exact h.serveLink
  | startSent _ => exact h.advance (.inl rfl)
  | headerSent _ => exact h.advance (.inr rfl)
  | rowSent _ => exact h.rowSent
  | streamEnded hf => exact h.streamEnded hreg hf
  | linkFreed => exact h.linkFreed
  | accessDone => exact h.accessDone
  | stoppedDone w row _ => exact h.accessDone.writeRow row
  | mergeDone k o y codes _ => exact h.mergeDone k o y codes
  | clearDone k y ha => exact h.clearDone ha
  | finalDone k y ha => exact h.finalDone hreg ha
  | calibDone w _ _ ha => exact (h.accessDone.writeRow _).aside ha
  | readDone k y ha => exact h.readDone ha
  | stopCalib => exact h.stopAccess _
  | arbitrate => exact h.arbitrate
  | standby mask _ hr ha =>
    refine State.Orderly.aside ?_ ha
    exact (h.standby hreg hgrid hr mask).congr rfl rfl rfl rfl rfl rfl rfl rfl rfl rfl rfl rfl

/-- Settles O51, move by move. -/
theorem stepKeepsCellWork : Obligations.StepKeepsCellWork := by
  intro s t hr hg hc ht
  obtain ⟨hr', hg', h⟩ := step_keeps (P := fun x => x.registerLaw ∧ x.gridLaw ∧ x.Orderly)
    (fun _ _ _ ⟨hr, hg, h⟩ hm => ⟨hm.register.registerLaw hr, hm.register.gridLaw hg, hm.orderly hr hg h⟩)
    (fun _ _ ⟨hr, hg, h⟩ => ⟨hr, hg, h.congr rfl rfl rfl rfl rfl rfl rfl rfl rfl rfl rfl rfl⟩)
    ⟨hr, hg, State.Orderly.of_cellLaw hr hg hc⟩ ht
  exact h.cellLaw hr' hg'

end

end Sys2Proof.Machine
end

section
/-! PROOFS. O52: tries used stay within the try limit (R19), but for a STANDBY (log 47). -/

namespace Sys2Proof.Machine

-- One proof at a time: under the memory limit of the check there is no room for the stacks of many threads.
set_option Elab.async false

/-- A cell still to be captured or in capture. -/
abbrev CellState.toCapture (st : CellState) : Prop := st = .pending ∨ st = .exposing ∨ st = .finalizing

/-- A cell's tries within a limit, and below it for a cell still to be captured of a plate not WITHDRAWN (R19). -/
def CellRecord.Tries (x : CellRecord) (n : Nat) (st : PlateState) : Prop :=
  x.triesUsed ≤ n ∧ (st ≠ .withdrawn → x.state.toCapture → x.triesUsed < n)

/-- The try limit of a profile. -/
def State.limitOf (s : State) (p : ProfileNo) : Nat := if (s.profiles.get p).singleTry then 1 else 3

/-- A record whose cells keep within the limit of its profile. -/
def PlateRecord.Tries (r : PlateRecord) (limit : ProfileNo → Nat) : Prop :=
  ∀ x ∈ r.cells, x.Tries (limit r.profile) r.state

section

variable {s t : State} {c : CellRef} {x : CellRecord} {r q : PlateRecord} {n : Nat} {limit : ProfileNo → Nat}
  {f : CellRecord → CellRecord} {g : PlateRecord → PlateRecord}

theorem triesLaw_iff : s.triesLaw ↔ ∀ r ∈ s.plates, r.Tries s.limitOf := Iff.rfl

theorem CellRecord.Tries.of_lt {st : PlateState} (h : x.triesUsed < n) : x.Tries n st := ⟨h.le, fun _ _ => h⟩

theorem CellRecord.Tries.of_settled {st : PlateState} (h : x.triesUsed ≤ n) (hs : ¬ x.state.toCapture) : x.Tries n st :=
  ⟨h, fun _ hc => absurd hc hs⟩

/-- A record of the same cells, of the same profile, and WITHDRAWN only if the first is. -/
theorem PlateRecord.Tries.congr (h : r.Tries limit) (hc : q.cells = r.cells) (hp : q.profile = r.profile)
    (hw : r.state = .withdrawn → q.state = .withdrawn) : q.Tries limit := by
  intro x hx
  obtain ⟨hle, hlt⟩ := h x (hc ▸ hx)
  rw [hp]
  exact ⟨hle, fun hne => hlt fun he => hne (hw he)⟩

theorem PlateRecord.recaptured_withdrawn (h : r.state = .withdrawn) : r.recaptured.state = .withdrawn := by
  unfold PlateRecord.recaptured
  simp [h]

theorem PlateRecord.settled_withdrawn (h : r.state = .withdrawn) (now : Seconds) : (r.settled now).state = .withdrawn := by
  have hr := PlateRecord.recaptured_withdrawn h
  unfold PlateRecord.settled PlateRecord.completed
  rw [if_neg (by rw [hr]; simp)]
  exact hr

theorem PlateRecord.Tries.settled (h : r.Tries limit) (now : Seconds) : (r.settled now).Tries limit :=
  h.congr (r.sameCells_settled now).cells (r.sameCells_settled now).profile fun hw => PlateRecord.settled_withdrawn hw now

/-- The law is one on the plates and their profiles. -/
theorem triesLaw_congr (h : s.triesLaw) (hp : t.plates = s.plates) (hf : t.profiles = s.profiles) : t.triesLaw := by
  have hlimit : t.limitOf = s.limitOf := by
    funext p
    rw [State.limitOf, State.limitOf, hf]
  refine triesLaw_iff.mpr fun r hr => ?_
  rw [hlimit]
  exact triesLaw_iff.mp h r (hp ▸ hr)

/-- A change of one cell that keeps it within its limit. -/
theorem triesLaw_changeCellQuiet (hreg : s.registerLaw) (hgrid : s.gridLaw) (h : s.triesLaw)
    (hg : ∀ r : PlateRecord, r.SameCells (g r)) (hgs : ∀ r : PlateRecord, (g r).state = r.state)
    (hf : ∀ r x, s.plate? c.key = some r → r.cell? c.column c.row = some x → (f x).Tries (s.tryLimit r) r.state) :
    (s.changeCellQuiet c f g).triesLaw := by
  refine triesLaw_iff.mpr (List.forall_mem_map.mpr fun r hr => ?_)
  have hlaw := triesLaw_iff.mp h r hr
  split
  · rename_i hk
    refine PlateRecord.Tries.settled ?_ _
    refine PlateRecord.Tries.congr (r := r.onCell c.column c.row f) ?_ (hg _).cells (hg _).profile
      fun hw => (hgs _).trans hw
    intro y hy
    obtain ⟨x, hx, rfl⟩ := PlateRecord.mem_onCell.mp hy
    split
    · rename_i hxc
      refine hf r x (hk ▸ State.plate?_of_mem hreg.2.1 hr) ?_
      have hfound := PlateRecord.cell?_of_mem (hgrid r hr) hx
      rw [hxc.1, hxc.2] at hfound
      exact hfound
    · exact hlaw x hx
  · exact hlaw

theorem triesLaw_changeCell (hreg : s.registerLaw) (hgrid : s.gridLaw) (h : s.triesLaw)
    (hg : ∀ r : PlateRecord, r.SameCells (g r)) (hgs : ∀ r : PlateRecord, (g r).state = r.state)
    (hf : ∀ r x, s.plate? c.key = some r → r.cell? c.column c.row = some x → (f x).Tries (s.tryLimit r) r.state) :
    (s.changeCell c f g).triesLaw :=
  triesLaw_congr (triesLaw_changeCellQuiet (s := s) hreg hgrid h hg hgs hf) (changeCell_plates s c f g) (by simp)

/-- What the law says of a cell. -/
theorem State.tries_of_cell (h : s.triesLaw) (hr : s.plate? c.key = some r) (hx : r.cell? c.column c.row = some x) :
    x.Tries (s.tryLimit r) r.state :=
  h r (State.mem_of_plate? hr) x (List.mem_of_find?_eq_some hx)

/-- A cell in capture is below its limit. -/
theorem State.Worked.tries_lt (h : s.Worked) (ht : s.triesLaw) (hr : s.plate? c.key = some r)
    (hx : r.cell? c.column c.row = some x) (hst : x.state = .exposing ∨ x.state = .finalizing) :
    x.triesUsed < s.tryLimit r := by
  have hopen := State.open_of_cell (s := s) (c := c) h.plates (by rw [State.cell?_of_plate hr]; exact hx)
    (by obtain hst | hst := hst <;> rw [hst] <;> rfl) r hr
  exact (State.tries_of_cell ht hr hx).2 hopen.1 (.inr hst)

/-- The record of a cell of which its state is known. -/
theorem State.cell_eq (hr : s.plate? c.key = some r) (hx : r.cell? c.column c.row = some x) {y : CellRecord}
    (hy : s.cell? c = some y) : x = y := by
  rw [State.cell?_of_plate hr, hx] at hy
  exact Option.some.inj hy

/-! ## The moves -/

theorem State.Worked.triesLaw_abandonTry (hreg : s.registerLaw) (hgrid : s.gridLaw) (h : s.Worked) (ht : s.triesLaw) :
    s.abandonTry.triesLaw := by
  cases hd : s.csq.ctx with
  | none =>
    unfold State.abandonTry
    rw [hd]
    exact ht
  | some d =>
    obtain ⟨y, hy, hst, -⟩ := h.cell_of_ctx hd
    refine triesLaw_congr (triesLaw_changeCell (c := d.cell) (f := CellRecord.abandon) (g := id) hreg hgrid ht
      PlateRecord.sameCells_id (fun _ => rfl) fun r x hr hx => ?_) (State.abandonTry_state hd).2.1 (by simp)
    obtain rfl := State.cell_eq hr hx hy
    have hlt := h.tries_lt ht hr hx (.inl hst)
    exact .of_lt (x := x.abandon) hlt

theorem State.Worked.triesLaw_leaveCaptureOf (hreg : s.registerLaw) (hgrid : s.gridLaw) (h : s.Worked) (ht : s.triesLaw)
    (key : PlateKey) : (s.leaveCaptureOf key).triesLaw := by
  have hleave : s.leaveCapture.triesLaw := by
    unfold State.leaveCapture
    split
    · exact h.triesLaw_abandonTry hreg hgrid ht
    · split <;> exact ht
  unfold State.leaveCaptureOf
  split
  · split
    · exact hleave
    · exact ht
  · exact hleave

theorem State.Orderly.triesLaw_endTry (hreg : s.registerLaw) (hgrid : s.gridLaw) (h : s.Orderly) (ht : s.triesLaw)
    {d : TryContext} (hd : s.Reviews d) (o : LastOutcome) : (s.endTry d o).triesLaw := by
  obtain ⟨-, x, -, -, -, -, hx, hst, -⟩ := h.reviewed hd
  obtain ⟨r, hplate, hcell⟩ := exists_plate_of_cell hx
  have hlt := h.tries_lt ht hplate hcell (.inl hst)
  by_cases hl : x.triesUsed + 1 < s.tryLimit r
  · rw [State.endTry_below hplate hx hl]
    refine triesLaw_congr (triesLaw_changeCell (c := d.cell) (f := CellRecord.tried o) (g := id) hreg hgrid ht
      PlateRecord.sameCells_id (fun _ => rfl) fun q y hq hy => ?_) rfl rfl
    obtain rfl := State.cell_eq hq hy hx
    rw [hplate] at hq
    cases hq
    exact .of_lt (x := CellRecord.tried o y) hl
  · rw [State.endTry_atLimit hplate hx (Nat.not_lt.mp hl)]
    refine triesLaw_congr (triesLaw_changeCell (c := d.cell) (f := CellRecord.failedAt o)
      (g := fun p => { p with failed := p.failed + 1 }) hreg hgrid ht PlateRecord.sameCells_failed (fun _ => rfl)
      fun q y hq hy => ?_) (by simp) (by simp)
    obtain rfl := State.cell_eq hq hy hx
    rw [hplate] at hq
    cases hq
    exact .of_settled (x := CellRecord.failedAt o y) hlt (by rintro (h' | h' | h') <;> cases h')

theorem State.Orderly.triesLaw_handOver (hreg : s.registerLaw) (hgrid : s.gridLaw) (h : s.Orderly) (ht : s.triesLaw)
    {d : TryContext} (hd : s.Reviews d) : (s.handOver d).triesLaw := by
  obtain ⟨-, x, -, -, -, -, hx, hst, -⟩ := h.reviewed hd
  refine triesLaw_congr (triesLaw_changeCell (c := d.cell) (f := fun x => { x with state := .finalizing }) (g := id) hreg
    hgrid ht PlateRecord.sameCells_id (fun _ => rfl) fun q y hq hy => ?_) (by simp [State.handOver])
    (by simp [State.handOver])
  obtain rfl := State.cell_eq hq hy hx
  have hlt := h.tries_lt ht hq hy (.inl hst)
  exact .of_lt (x := { y with state := .finalizing }) hlt

theorem State.Orderly.triesLaw_claim (hreg : s.registerLaw) (hgrid : s.gridLaw) (h : s.Orderly) (ht : s.triesLaw)
    {p : Nat × Nat} (hr : s.capturable? = some r) (hp : r.nextCell? = some p) (k : SlotNo) :
    (s.claim r ⟨r.key, p.1, p.2⟩ k).triesLaw := by
  obtain ⟨hplate, -, hact, x, hx, hst, -⟩ := State.cell_of_claim hreg h.toWorked hr hp
  refine triesLaw_congr (triesLaw_changeCell (c := ⟨r.key, p.1, p.2⟩)
    (f := fun x => { x with state := .exposing, slot := some k }) (g := id) hreg hgrid ht PlateRecord.sameCells_id
    (fun _ => rfl) fun q y hq hy => ?_) ?_ (by simp)
  · obtain rfl := State.cell_eq hq hy hx
    have hq' : s.plate? r.key = some q := hq
    rw [hplate] at hq'
    cases hq'
    have hlt := (State.tries_of_cell ht hq hy).2 (by rw [hact]; nofun) (.inl hst)
    exact .of_lt (x := { y with state := .exposing, slot := some k }) hlt
  · rw [changeCell_plates]
    rfl

/-- Records that keep cells, profile and withdrawal keep the law. -/
theorem triesLaw_map {F : PlateRecord → PlateRecord} (h : s.triesLaw) (hc : ∀ r : PlateRecord, (F r).cells = r.cells)
    (hp : ∀ r : PlateRecord, (F r).profile = r.profile)
    (hw : ∀ r : PlateRecord, r.state = .withdrawn → (F r).state = .withdrawn) :
    (s.onPlates fun ps => ps.map F).triesLaw :=
  triesLaw_iff.mpr (List.forall_mem_map.mpr fun r hr => (triesLaw_iff.mp h r hr).congr (hc r) (hp r) (hw r))

theorem triesLaw_onPlate {F : PlateRecord → PlateRecord} (key : PlateKey) (h : s.triesLaw)
    (hc : ∀ r : PlateRecord, (F r).cells = r.cells) (hp : ∀ r : PlateRecord, (F r).profile = r.profile)
    (hw : ∀ r : PlateRecord, r.state = .withdrawn → (F r).state = .withdrawn) : (s.onPlate key F).triesLaw := by
  rw [State.onPlate_eq_map]
  refine triesLaw_map h (fun r => ?_) (fun r => ?_) fun r hr => ?_
  · split
    · exact hc r
    · rfl
  · split
    · exact hp r
    · rfl
  · split
    · exact hw r hr
    · exact hr

theorem triesLaw_filter (h : s.triesLaw) (hp : t.plates.Sublist s.plates) (hf : t.profiles = s.profiles) : t.triesLaw := by
  have hlimit : t.limitOf = s.limitOf := by
    funext p
    rw [State.limitOf, State.limitOf, hf]
  refine triesLaw_iff.mpr fun r hr => ?_
  rw [hlimit]
  exact triesLaw_iff.mp h r (hp.subset hr)

theorem triesLaw_enrol (h : s.triesLaw) (k : PlateKey) (p : ProfileNo) (a : Handling) (e : Emulsion) (m w : Nat)
    (now : Seconds) : (s.onPlates fun ps => ps ++ [PlateRecord.enrolled k p a e m w now]).triesLaw := by
  refine triesLaw_iff.mpr (List.forall_mem_append.mpr ⟨h, fun r hr => ?_⟩)
  obtain rfl := List.mem_singleton.mp hr
  intro x hx
  obtain ⟨i, -, rfl⟩ := List.mem_map.mp hx
  refine .of_lt ?_
  change 0 < State.limitOf _ _
  unfold State.limitOf
  split <;> decide

theorem triesLaw_withdrawn (key : PlateKey) (h : s.triesLaw) : (s.onPlate key PlateRecord.withdrawn).triesLaw := by
  refine triesLaw_iff.mpr (List.forall_mem_map.mpr fun r hr => ?_)
  have hlaw := triesLaw_iff.mp h r hr
  split
  · intro y hy
    obtain ⟨x, hx, rfl⟩ := List.mem_map.mp hy
    refine ⟨?_, fun hw => absurd rfl hw⟩
    have hle := (hlaw x hx).1
    split
    · exact hle
    · exact hle
  · exact hlaw

theorem State.Orderly.triesLaw_warm (hreg : s.registerLaw) (hgrid : s.gridLaw) (h : s.Orderly) (ht : s.triesLaw) :
    s.warmRestart.triesLaw := by
  refine triesLaw_iff.mpr (List.forall_mem_map.mpr fun r hr => ?_)
  have hlaw := triesLaw_iff.mp ht r hr
  have hstate : r.state = .withdrawn → r.restarted.state = .withdrawn := by
    intro hw
    unfold PlateRecord.restarted
    dsimp only
    split
    · exact PlateRecord.recaptured_withdrawn (r := { r with cells := r.cells.map CellRecord.restarted }) hw
    · exact hw
  have hprofile : r.restarted.profile = r.profile := by
    unfold PlateRecord.restarted
    dsimp only
    split
    · exact (PlateRecord.sameCells_recaptured _).profile
    · rfl
  intro y hy
  rw [PlateRecord.restarted_cells] at hy
  obtain ⟨x, hx, rfl⟩ := List.mem_map.mp hy
  obtain ⟨hle, hlt⟩ := hlaw x hx
  rw [hprofile]
  have hcapture := h.tries_lt ht (c := ⟨r.key, x.column, x.row⟩) (State.plate?_of_mem hreg.2.1 hr)
    (PlateRecord.cell?_of_mem (hgrid r hr) hx)
  rw [CellRecord.restarted_eq]
  cases hst : x.state with
  | exposing =>
    have hlt := hcapture (.inl hst)
    exact .of_lt hlt
  | finalizing =>
    have hlt := hcapture (.inr hst)
    exact .of_lt hlt
  | delivering => exact .of_settled hle (by rintro (h' | h' | h') <;> cases h')
  | _ => exact ⟨hle, fun hne => hlt fun hw => hne (hstate hw)⟩

/-- A profile replaced: a new limit of 1 finds no cell tried. -/
theorem triesLaw_setProfile (h : s.triesLaw) {i : ProfileNo} {p : Profile}
    (hp : p.singleTry = true → s.profileTried i = false) :
    State.triesLaw { s with profiles := setAt s.profiles i p } := by
  refine triesLaw_iff.mpr fun r hr => ?_
  have hlaw := triesLaw_iff.mp h r hr
  intro x hx
  have hcell := hlaw x hx
  change x.Tries (if ((setAt s.profiles i p).get r.profile).singleTry then 1 else 3) r.state
  change x.Tries (if (s.profiles.get r.profile).singleTry then 1 else 3) r.state at hcell
  rw [setAt_get]
  split
  · rename_i hi
    by_cases hone : p.singleTry = true
    · have hnone := hp hone
      have hzero : x.triesUsed = 0 := by
        by_contra hne
        have hany : s.profileTried i = true :=
          List.any_eq_true.mpr ⟨r, hr, by
            rw [Bool.and_eq_true]
            exact ⟨by simp [hi], List.any_eq_true.mpr ⟨x, hx, by simpa using hne⟩⟩⟩
        rw [hnone] at hany
        cases hany
      rw [if_pos hone]
      exact .of_lt (by rw [hzero]; decide)
    · rw [if_neg hone]
      obtain ⟨hle, hlt⟩ := hcell
      have hbound : (if (s.profiles.get r.profile).singleTry = true then 1 else 3) ≤ 3 := by split <;> decide
      exact ⟨hle.trans hbound, fun hw hst => (hlt hw hst).trans_le hbound⟩
  · exact hcell

/-- A cell that is not captured any more. -/
theorem triesLaw_rest (hreg : s.registerLaw) (hgrid : s.gridLaw) (h : s.triesLaw)
    (hg : ∀ r : PlateRecord, r.SameCells (g r)) (hgs : ∀ r : PlateRecord, (g r).state = r.state)
    (hn : ∀ x, (f x).triesUsed = x.triesUsed) (hf : ∀ x, ¬ (f x).state.toCapture) : (s.changeCell c f g).triesLaw :=
  triesLaw_changeCell hreg hgrid h hg hgs fun _ x hr hx =>
    .of_settled ((hn x).trans_le (State.tries_of_cell h hr hx).1) (hf x)

theorem State.Orderly.triesLaw_passComplete (hreg : s.registerLaw) (hgrid : s.gridLaw) (h : s.Orderly) (ht : s.triesLaw)
    {k : SlotNo} (hk : (s.work k).state = .running) : (s.passComplete k).triesLaw := by
  have hstage : s.desk.stage k = .queued := by
    change (s.work k).state.stage = _
    rw [hk]
    rfl
  obtain ⟨c, hc⟩ := Option.ne_none_iff_exists'.mp fun hn : s.desk.holder k = none => by
    rw [h.desk.free.mpr hn] at hstage
    cases hstage
  obtain ⟨st, hplace⟩ := h.desk.holder.mp hc
  have hwork := h.desk.work hplace
  rw [hstage] at hwork
  have hst : st = .finalizing := by cases st <;> simp [CellState.workStates] at hwork ⊢
  subst hst
  obtain ⟨x, hx, hxst, -⟩ := desk_place.mp hplace
  rw [State.passComplete_of_owner s (((h.books k).2).trans hc)]
  refine triesLaw_congr (triesLaw_changeCell (s := (s.passEnded k).startPass) (c := c)
    (f := CellRecord.finalized (s.work k).passSummary) (g := id) ?_ ?_ ?_ PlateRecord.sameCells_id (fun _ => rfl)
    fun q y hq hy => ?_) rfl rfl
  · simpa [State.registerLaw, State.passEnded] using hreg
  · simpa [State.gridLaw, State.passEnded] using hgrid
  · exact triesLaw_congr ht (by simp [State.passEnded]) (by simp [State.passEnded])
  · have hplates : (s.passEnded k).startPass.plates = s.plates := by simp [State.passEnded]
    rw [plate?_congr hplates] at hq
    obtain rfl := State.cell_eq hq hy hx
    have hlimit : (s.passEnded k).startPass.tryLimit q = s.tryLimit q := by
      have hprofiles : (s.passEnded k).startPass.profiles = s.profiles := by simp [State.passEnded]
      rw [State.tryLimit, State.tryLimit, hprofiles]
    rw [hlimit]
    exact .of_settled (x := CellRecord.finalized _ y) (h.tries_lt ht hq hy (.inr hxst))
      (by rintro (h' | h' | h') <;> cases h')

theorem State.Orderly.triesLaw_finalDone (hreg : s.registerLaw) (hgrid : s.gridLaw) (h : s.Orderly) (ht : s.triesLaw)
    {k : SlotNo} {y : Nat} (ha : s.fsc.access = some { work := .finalize k y, result := .used }) :
    (s.accessDone.finalRowDone k y).triesLaw := by
  rw [State.finalRowDone_eq]
  split
  · exact State.Orderly.triesLaw_passComplete (s := s.accessDone.finalStored k y) hreg hgrid (h.accessDone.finalStored k y) ht
      ((State.finalStored_state _ k y).trans (h.running_of_access ha))
  · exact ht

theorem Move.tries (hreg : s.registerLaw) (hgrid : s.gridLaw) (h : s.Orderly) (ht : s.triesLaw) (hm : Move false s t) :
    t.triesLaw := by
  have hrest : ∀ {st : CellState}, st = .kept ∨ st = .failed ∨ st = .delivering ∨ st = .delivered → ¬ st.toCapture := by
    rintro st (rfl | rfl | rfl | rfl) (h' | h' | h') <;> cases h'
  cases hm with
  | aside ha => exact triesLaw_congr ht (congrArg Core.plates ha.core) (congrArg Core.profiles ha.core)
  | enqueue hc _ => exact triesLaw_congr ht (congrArg Core.plates hc) (congrArg Core.profiles hc)
  | cold ha =>
    have hplates : t.plates = [] := congrArg Core.plates ha.core
    intro r hr
    rw [hplates] at hr
    cases hr
  | warm => exact h.triesLaw_warm hreg hgrid ht
  | moveEnds status x _ _ _ ha => exact triesLaw_congr ht (congrArg Core.plates ha.core) (congrArg Core.profiles ha.core)
  | abandonTry => exact h.triesLaw_abandonTry hreg hgrid ht
  | endTry c o hd => exact h.triesLaw_endTry hreg hgrid ht hd o
  | handOver c hd => exact h.triesLaw_handOver hreg hgrid ht hd
  | claim r p k hs hr hp hk _ => exact h.triesLaw_claim hreg hgrid ht hr hp k
  | rehold f => exact triesLaw_map ht (fun _ => rfl) (fun _ => rfl) fun _ hw => hw
  | enrol k p a e m n now _ _ => exact triesLaw_enrol ht k p a e m n now
  | seat r now failed _ _ _ =>
    exact triesLaw_onPlate r.key ht (fun _ => rfl) (fun _ => rfl) fun _ hw => (if_neg (by simp [hw])).trans hw
  | unseat r _ _ _ =>
    have hwithin := (withins_onPlate s r.key PlateRecord.within_unseat).reworks
    refine State.Worked.triesLaw_leaveCaptureOf (hwithin.registerLaw hreg) (hwithin.gridLaw hgrid)
      (h.worked_unseat r.key) ?_ r.key
    exact triesLaw_onPlate r.key ht (fun _ => rfl) (fun _ => rfl) fun _ hw => (if_neg (by simp [hw])).trans hw
  | removePlate r _ _ => exact triesLaw_filter ht List.filter_sublist rfl
  | withdraw r _ _ _ =>
    exact triesLaw_withdrawn r.key
      (triesLaw_congr (h.triesLaw_leaveCaptureOf hreg hgrid ht r.key) (by simp) (by simp))
  | withdrawUnseated r _ _ _ =>
    exact triesLaw_filter (triesLaw_congr (t := s.undoPlate r.key) ht (by simp) (by simp)) List.filter_sublist rfl
  | mark key a e => exact triesLaw_onPlate key ht (fun _ => rfl) (fun _ => rfl) fun _ hw => hw
  | keep r x hr hx hd =>
    exact triesLaw_congr (triesLaw_rest (c := ⟨r.key, x.column, x.row⟩)
      (f := fun c => { c with state := .kept, slot := none }) hreg hgrid ht
      PlateRecord.sameCells_kept (fun _ => rfl) (fun _ => rfl) fun _ => hrest (.inl rfl)) (by simp) (by simp)
  | recapture r x hr hx hm hl =>
    refine triesLaw_congr (triesLaw_changeCell (c := ⟨r.key, x.column, x.row⟩)
      (f := fun c => { c with state := .pending, slot := none }) (g := id) hreg hgrid ht PlateRecord.sameCells_id
      (fun _ => rfl) fun q y hq hy => ?_) (by simp [State.dequeue]) (by simp [State.dequeue])
    have hq' : s.plate? r.key = some q := hq
    rw [hr] at hq'
    cases hq'
    have hy' : r.cell? x.column x.row = some y := hy
    rw [hx] at hy'
    cases hy'
    exact .of_lt hl
  | fail r x hr hx hm hl =>
    exact triesLaw_congr (triesLaw_rest (c := ⟨r.key, x.column, x.row⟩)
      (f := fun c => { c with state := .failed, slot := none }) hreg hgrid ht
      PlateRecord.sameCells_failed (fun _ => rfl) (fun _ => rfl) fun _ => hrest (.inr (.inl rfl)))
      (by simp [State.dequeue]) (by simp [State.dequeue])
  | setProfile i p _ hp => exact triesLaw_setProfile ht hp
  | startStream c hs hc =>
    unfold State.startStream
    split
    · split
      · exact ht
      · exact triesLaw_congr (triesLaw_rest (s := s.dequeue c) (f := fun y => { y with state := .delivering }) hreg hgrid ht
          PlateRecord.sameCells_id (fun _ => rfl) (fun _ => rfl) fun _ => hrest (.inr (.inr (.inl rfl)))) rfl rfl
    · exact ht
  | streamEnded hf =>
    unfold State.streamEnded
    dsimp only
    split
    · exact triesLaw_rest (s := s.onDlt fun d => { d with link := none, stream := none })
        (f := fun x => { x with state := .delivered }) hreg hgrid ht PlateRecord.sameCells_id (fun _ => rfl)
        (fun _ => rfl) fun _ => hrest (.inr (.inr (.inr rfl)))
    · exact ht
  | finalDone k y ha =>
    exact h.triesLaw_finalDone hreg hgrid ht ha
  | calibDone w _ _ ha =>
    have hrow : (s.accessDone.writeRow (s.accessDone.storedRow? w)).triesLaw := triesLaw_congr ht (by simp) (by simp)
    exact triesLaw_congr hrow (congrArg Core.plates ha.core) (congrArg Core.profiles ha.core)
  | standby mask hs _ _ => cases hs
  | _ => exact triesLaw_congr ht (by simp) (by simp)

/-- Settles O52: every move but a STANDBY's keeps each cell within its limit. -/
theorem stepKeepsTries : Obligations.StepKeepsTries := by
  intro s t hr hg hc htries hstandby ht
  obtain rfl | ⟨i, rest, hpending, ht⟩ := step_next ht
  · exact htries
  · have hno : isStandby i = false := by
      cases i with
      | standby q mask => exact absurd (by rw [hpending]; rfl) (hstandby q mask)
      | _ => rfl
    have hstart : State.Orderly { s with pending := rest } :=
      (State.Orderly.of_cellLaw hr hg hc).congr rfl rfl rfl rfl rfl rfl rfl rfl rfl rfl rfl rfl
    have hmoves := exec_moves ht
    rw [hno] at hmoves
    obtain ⟨-, -, -, htt⟩ := hmoves.keeps (P := fun x => x.registerLaw ∧ x.gridLaw ∧ x.Orderly ∧ x.triesLaw)
      (fun _ _ ⟨hr, hg, h, ht⟩ hm =>
        ⟨hm.register.registerLaw hr, hm.register.gridLaw hg, hm.orderly hr hg h, hm.tries hr hg h ht⟩)
      ⟨hr, hg, hstart, htries⟩
    exact htt

end

end Sys2Proof.Machine
end

section
/-! PROOFS. The law on the awaited frame does not carry itself over a step. A clean exposure lowers the fault count at the
frame's end (R114). Where that count stands at 384 or above under a link that is not DROPPED, against R115, the decrement
drops the link and ends the requester's work (R116), and the frame's end then still waits for that requester's decision
(R111). The law that excludes such a count, the one on the link, is not among the premises of StepKeepsClassCounts. -/

namespace Sys2Proof.Machine

-- One proof at a time: under the memory limit of the check there is no room for the stacks of many threads.
set_option Elab.async false

/-- A flat whose first attempt is in flight. -/
def flatInFlight : CalOp :=
  { kind := .flat, phase := .frames, frame := 0, repeats := 0, inFlight := true, reported := false, failedTest := false,
    levelHeld := none, means := [], mFirst := none, mRef := none, netSum := 0, netCount := 0, satCount := 0,
    openLevel := none, deadCount := 0, passRow := 0 }

/-- The attempt's open frame, all of its rows come and none left in the queue, its window undecided, under a CLEAN link
with a fault count of 400; a FRAME_START waits, which ends it. -/
def State.overcounted : State :=
  { State.reset with
    pending := [.frameStart 0 0]
    cal := { State.reset.cal with op := some flatInFlight }
    plr := { State.reset.plr with
      awaitedTag := some 0, reception := .receiving, nextRow := State.reset.geometry.height, faultCount := 400,
      requester := some (.calib 0) } }

/-! ## What holds before -/

theorem work_overcounted (k : SlotNo) : State.overcounted.work k = WorkRecord.freed := work_reset k

theorem counterLaw_overcounted : State.overcounted.counterLaw := by
  intro k
  rw [work_overcounted]
  exact ⟨nofun, nofun, nofun⟩

theorem bestLaw_overcounted : State.overcounted.bestLaw := by
  intro k
  rw [work_overcounted]
  nofun

theorem queueLaw_overcounted : State.overcounted.queueLaw := by
  refine ⟨by decide, fun k => ?_⟩
  rw [work_overcounted]
  decide

theorem frameLaw_overcounted : State.overcounted.frameLaw := by
  refine ⟨fun k => ?_, (by rintro (h | h) <;> cases h), nofun, fun _ => nofun, ?_, fun _ _ => ⟨rfl, rfl⟩, nofun, nofun, nofun,
    fun _ => ⟨nofun, by decide, by decide⟩, fun _ h => absurd rfl h, nofun⟩
  · rw [work_overcounted]
    rfl
  · rintro - ⟨k, o, h⟩
    cases h

/-! ## What the FRAME_START leaves -/

/-- The frame's end drops the link at 396, which ends the calibration, and then waits for the decision of the attempt
that is no more. -/
theorem step_overcounted : ∃ t, step State.overcounted = .next t
    ∧ t.plr.endPending = true ∧ t.plr.requester = some (.calib 0) ∧ t.cal.op = none :=
  ⟨_, rfl, rfl, rfl, rfl⟩

/-- Refutes O53: its premises allow a fault count of 400 under a CLEAN link. The step from such a state leaves the end
of a frame pending for an attempt that no operation has in flight, against the law on the awaited frame. -/
theorem not_stepKeepsClassCounts : ¬ Obligations.StepKeepsClassCounts := by
  intro h
  obtain ⟨-, -, -, hframe⟩ := h
  obtain ⟨t, ht, hpending, hwho, hop⟩ := step_overcounted
  obtain ⟨hlaw, -⟩ := hframe State.overcounted t ⟨by decide, List.nodup_nil, by decide⟩ (List.forall_mem_nil _)
    cellLaw_reset ⟨by decide, by decide⟩ counterLaw_overcounted ⟨nofun, nofun, nofun, nofun⟩ queueLaw_overcounted
    (fun _ => List.forall_mem_nil _) frameLaw_overcounted bestLaw_overcounted ht
  obtain ⟨-, -, -, -, -, hattempt, -⟩ := hlaw
  obtain ⟨htaking, -⟩ := hattempt (.inr (.inr (.inl hpending))) ⟨0, hwho⟩
  rw [hop] at htaking
  cases htaking

end Sys2Proof.Machine
end
